-- ==== Sys2Proof/Word.lean ====
section
/-!
DEFINITION. The words of the NG4: bytes, 32-bit register words (R56), 64-bit instruction and operand words
(R76), and the 512-bit vector registers of a core (R105).
-/

namespace Sys2Proof

/-- A byte of a memory (R13). -/
abbrev Byte := BitVec 8

/-- A 32-bit register word (R56). -/
abbrev Word := BitVec 32

/-- A 64-bit word: an instruction (R76), a general register X0 to X31, a tally (R5). -/
abbrev DWord := BitVec 64

/-- A 512-bit vector register V0 to V31 (R105). -/
abbrev VReg := BitVec 512

end Sys2Proof
end

