-- ==== Sys2Proof/Machine/Bits.lean ====
section
/-!
DEFINITION. Bit fields of natural numbers and words, sign readings, and little-endian bytes (R12, R13).
-/

namespace Sys2Proof.Machine

/-- Bits `[lo + w - 1 : lo]` of `n` (R12). -/
def bitsOf (n lo w : Nat) : Nat := n / 2 ^ lo % 2 ^ w

/-- Bit `b` of `n`. -/
def bitOf (n b : Nat) : Nat := n / 2 ^ b % 2

/-- Whether bit `b` of `n` is 1. -/
def bitSet (n b : Nat) : Bool := bitOf n b == 1

/-- `n` with bits `[lo + w - 1 : lo]` replaced by the low `w` bits of `v`. -/
def putBits (n lo w v : Nat) : Nat :=
  n % 2 ^ lo + (v % 2 ^ w) * 2 ^ lo + n / 2 ^ (lo + w) * 2 ^ (lo + w)

/-- The two's complement reading of the low `w` bits of `n` (`w` at least 1). -/
def signedOf (w n : Nat) : Int :=
  let m := n % 2 ^ w
  if 2 ^ (w - 1) ≤ m then (m : Int) - 2 ^ w else m

/-- The low `w` bits of an integer in two's complement. -/
def wrapInt (w : Nat) (z : Int) : Nat := (z % 2 ^ w).toNat

/-- The `n` low bytes of `v`, the least significant first (R13). -/
def bytesOf : Nat → Nat → List Nat
  | 0, _ => []
  | n + 1, v => v % 256 :: bytesOf n (v / 256)

/-- The number that bytes spell, the least significant first (R13). -/
def ofBytes : List Nat → Nat
  | [] => 0
  | b :: bs => b + 256 * ofBytes bs

/-- 1 for true, 0 for false. -/
def b2n (b : Bool) : Nat := if b then 1 else 0

/-- `n` brought to the nearer limit of `lo` to `hi`. -/
def clampNat (lo hi n : Nat) : Nat := max lo (min hi n)

/-- `n + d` saturating at `2^w − 1`. -/
def satAdd (w n d : Nat) : Nat := min (n + d) (2 ^ w - 1)

/-- Apply `f` to the numbers `0` to `n − 1` in turn. -/
def foldUpTo {σ : Type} (n : Nat) (f : Nat → σ → σ) (s : σ) : σ := (List.range n).foldl (fun t i => f i t) s

/-- The number of ones among the low `w` bits of `n`. -/
def popCount : Nat → Nat → Nat
  | 0, _ => 0
  | w + 1, n => n % 2 + popCount w (n / 2)

end Sys2Proof.Machine
end

