-- ==== Sys2Proof/Machine/RegField.lean ====
section
/-!
DEFINITION. What a row of a register table is (R14 to R17), the page classes and their codes (R73), and where the
pages sit in the register aperture (R48, R57 to R59).
-/

namespace Sys2Proof.Machine

/-- The base access kinds of R15. -/
inductive AccessKind where
  | ro | rw | rc | w1c | wo
deriving DecidableEq, Repr

/-- Where a field's after-reset value comes from (R16): fixed by the table, sensed from fuses, sampled from the straps,
loaded from the factory region, or given per class or page by the chapter. -/
inductive ResetSource where
  | fixed | fuse | strap | calib | derived
deriving DecidableEq, Repr

/-- The narrowest reset reach that clears a field (R16, R446); `never` for a dash in the table. -/
inductive Reach where
  | block | compute | module | supply | full | never
deriving DecidableEq, Repr

/-- The order of the reaches, the widest highest (R16). -/
def reachRank : Reach → Nat
  | .block => 0
  | .compute => 1
  | .module => 2
  | .supply => 3
  | .full => 4
  | .never => 5

/-- The page classes of R73; `header` stands for the common header of every class (R60). -/
inductive Cls where
  | moddir | core | array | canal | die | sluice | barge | memc | upd | quay | link | hlink | emb | sched | ctx | wlock
  | audit | rng | perf | sample | pwr | therm | rst | strap | fuse | sec | mgmt | aon | header
deriving DecidableEq, Repr

/-- The class codes of R73. -/
def clsCode : Cls → Nat
  | .moddir => 0x00 | .core => 0x01 | .array => 0x02 | .canal => 0x03 | .die => 0x04 | .sluice => 0x05
  | .barge => 0x06 | .memc => 0x07 | .upd => 0x08 | .quay => 0x09 | .link => 0x0A | .hlink => 0x0B
  | .emb => 0x0C | .sched => 0x0D | .ctx => 0x0E | .wlock => 0x0F | .audit => 0x10 | .rng => 0x11
  | .perf => 0x12 | .sample => 0x13 | .pwr => 0x14 | .therm => 0x15 | .rst => 0x16 | .strap => 0x17
  | .fuse => 0x18 | .sec => 0x19 | .mgmt => 0x1A | .aon => 0x1B | .header => 0x1C

/-- One row of a register table: registers `n0` to `n0 + cnt − 1` at `off + n × stride`, the field's bits
`[lo + width − 1 : lo]` of the register. `tab` lists the after-reset value per register where they differ. -/
structure RegField where
  cls    : Cls
  name   : String
  off    : Nat
  stride : Nat
  n0     : Nat
  cnt    : Nat
  lo     : Nat
  width  : Nat
  kind   : AccessKind
  wb     : Bool
  wl     : Bool
  reset  : Nat
  tab    : List Nat
  src    : ResetSource
  reach  : Reach
deriving DecidableEq, Repr

/-- A register page: its class and its PAGE_ID.INSTANCE (R57). -/
structure Page where
  cls  : Cls
  inst : Nat
deriving DecidableEq, Repr

/-- The after-reset value of register `n` of a row. -/
def resetOf (f : RegField) (n : Nat) : Nat := f.tab.getD n f.reset

/-- The number under which the model files a page. -/
def pageKey (p : Page) : Nat := clsCode p.cls * 8192 + p.inst

/-- The number under which the model files a word offset of a page. -/
def wordKey (p : Page) (off : Nat) : Nat := pageKey p * 16384 + off

/-- The number under which the model files field `f` of register `n` of a page. -/
def fieldKey (p : Page) (f : RegField) (n : Nat) : Nat := wordKey p (f.off + n * f.stride) * 64 + f.lo

/-- The page of a die slot (R57): `n` the die, `p` the slot. -/
def dieSlotPage (n p : Nat) : Option Page :=
  if p = 0 then some ⟨.die, n⟩ else if p = 1 then some ⟨.canal, n⟩ else if p = 2 then some ⟨.therm, n⟩
  else if p = 3 then some ⟨.perf, n⟩ else if p = 4 then some ⟨.sample, n⟩
  else if p = 6 ∨ p = 7 then some ⟨.memc, 2 * n + (p - 6)⟩
  else if p = 8 ∨ p = 9 then some ⟨.upd, 2 * n + (p - 8)⟩
  else if 16 ≤ p ∧ p ≤ 31 then some ⟨.sluice, n * 16 + (p - 16)⟩
  else if 32 ≤ p ∧ p ≤ 47 then some ⟨.barge, n * 16 + (p - 32)⟩
  else if 48 ≤ p ∧ p ≤ 55 then some ⟨.link, 8 * n + (p - 48)⟩
  else none

/-- The page of a module slot (R57). -/
def moduleSlotPage (q : Nat) : Option Page :=
  match [Cls.moddir, .mgmt, .aon, .rst, .strap, .fuse, .sec, .pwr, .sched, .emb, .hlink, .quay, .audit, .rng][q]? with
  | some c => some ⟨c, 0⟩
  | none =>
    if q = 14 then some ⟨.perf, 4⟩ else if q = 15 then some ⟨.wlock, 0⟩
    else if 64 ≤ q ∧ q ≤ 127 then some ⟨.ctx, q - 64⟩ else none

/-- The page and the offset within its layout of aperture offset `a` (R48, R57 to R59); none for a reserved slot.
An offset of 0x1000 to 0x1FFF in a core's slot belongs to the embedded ARRAY page. -/
def pageAt (a : Nat) : Option (Page × Nat) :=
  let o := a % 0x4000
  if a < 0x0800_0000 then
    if 0x1000 ≤ o ∧ o < 0x2000 then some (⟨.array, a / 0x4000⟩, o) else some (⟨.core, a / 0x4000⟩, o)
  else if a < 0x0C00_0000 then
    let n := (a - 0x0800_0000) / 0x10_0000
    if n < 4 then (dieSlotPage n ((a - 0x0800_0000) % 0x10_0000 / 0x4000)).map (fun p => (p, o)) else none
  else if a < 0x1000_0000 then (moduleSlotPage ((a - 0x0C00_0000) / 0x4000)).map (fun p => (p, o))
  else none

/-- PAGE_CAPS.LOCK_CAP, WB_CAP, SRST_CAP and EMBED of each class, as bits 0 to 3 (R61; the owning chapters). -/
def capsOf : Cls → Nat
  | .core => 0b1110 | .array => 0b1110 | .barge => 0b0110 | .link => 0b0111
  | .quay | .rst | .aon => 0b0001
  | .canal | .sluice | .memc | .upd | .hlink | .emb | .sched | .ctx | .wlock | .audit | .rng | .pwr | .therm => 0b0011
  | .die | .perf | .sample | .strap | .fuse | .sec | .mgmt | .moddir | .header => 0b0000

/-- The reach that clears a header field whose table entry reads BLOCK (R61). -/
def headerReach : Cls → Reach
  | .core | .array | .barge => .block
  | .upd => .compute
  | .aon => .full
  | _ => .module

end Sys2Proof.Machine
end

