-- ==== Sys2Proof/Syntax.lean ====
section
/-!
DEFINITION. The commands of the NG4: one constructor for each row of the table of operations and events, with the
operands that the rules give it. Values that reach the part from outside (a sensor reading, a frame, the symbols in
error in a block, what an oscillator did) are operands. A core instruction's row carries the core and the whole 64-bit
instruction word (R76 to R78), which must spell that row.
-/

namespace Sys2Proof

open Machine (Page)

/-- A core index y × 128 + x (R7). -/
abbrev CoreIx := Fin 8192
/-- A chip-to-chip link L0 to L31 (R6). -/
abbrev LinkIx := Fin 32
/-- A stack S0 to S7 (R6). -/
abbrev StackIx := Fin 8
/-- A die D0 to D3 (R6). -/
abbrev DieIx := Fin 4
/-- A transfer engine, die × 16 + engine (R57). -/
abbrev EngIx := Fin 64
/-- A known-context number (R344). -/
abbrev CtxIx := Fin 64
/-- A polder id (R340). -/
abbrev PolderIx := Fin 128
/-- A sluice region, die × 16 + region (R57). -/
abbrev RegionIx := Fin 64
/-- A binding of an update engine. -/
abbrev BindIx := Fin 4
/-- A weight lock (R326). -/
abbrev LockIx := Fin 8
/-- A stream: 0 FWD, 1 BWD, 2 AUX, 3 UPD (R347). -/
abbrev StreamIx := Fin 4

/-- The requester paths of register accesses that commands take (R70); a core's own accesses are its LD and ST. -/
inductive Path where
  | host | mgmt
deriving DecidableEq, Repr

/-- The work an access or error belongs to: its known context and step tag, where it carries them (R400, R417). -/
structure WorkTag where
  ctx  : Option CtxIx
  step : Option Nat
deriving DecidableEq, Repr

/-- A wait unit: a core's tally slot on its die (R95) or the fetcher's, for the head entry of a stream (R354). -/
inductive WaitUnit where
  | core (c : CoreIx) (slot : Fin 4)
  | fetcher (n : CtxIx) (st : StreamIx)
deriving DecidableEq, Repr

/-- The body of one frame: its bytes and its POISON mark (R283, R284). `len` is its BODY_LEN field. -/
structure FrameBody where
  len    : Nat
  bytes  : List Byte
  poison : Bool
deriving DecidableEq, Repr

/-- A train: the full header of R283 and the bodies of its frames in order, the first frame's first (R284). `gaps` says
how many frames of other trains were numbered between each frame and the one before it (none where the list ends), since
trains of different VCs interleave; `closed` that its last frame carried LAST = 1. A train of TYPE 7 is a run of
CONT frames on a VC with no open train. -/
structure Train where
  type      : Nat
  op        : Nat
  vc        : Nat
  stepValid : Bool
  alt       : Bool
  seq       : Nat
  dst       : Nat
  src       : Nat
  polder    : Nat
  gen       : Nat
  step      : Nat
  addr      : Nat
  job       : Nat
  arg       : Nat
  bodies    : List FrameBody
  gaps      : List Nat
  closed    : Bool
deriving DecidableEq, Repr

/-- An EMB frame (R415): the header fields it uses and its body words. `train` holds the body of a REPLAY (R424). -/
structure EmbMsg where
  op      : Nat
  src     : Nat
  dst     : Nat
  job     : Nat
  step    : Nat
  epoch   : Nat
  subject : Nat
  aux     : Nat
  arg     : Nat
  extra   : List Nat
deriving DecidableEq, Repr

/-- The body of a CREDIT frame (R288): cumulative credits, acknowledgement, replay request, cumulative stale counts. -/
structure CreditBody where
  cum    : List Nat
  ackSeq : Nat
  nak    : Option Nat
  stale  : List Nat
deriving DecidableEq, Repr

/-- Who adds to a tally (R354): the host, or a TALLY_ADD train that arrived on a link. -/
inductive TallyOrigin where
  | host (a : Nat) (v : DWord)
  | frame (k : LinkIx) (t : Train)
deriving DecidableEq, Repr

/-- How a work request ended (R307, R432): acknowledged, a transport error, or a remote-access error. -/
inductive RdmaResult where
  | done | transport | access
deriving DecidableEq, Repr

/-- What the LDPC decoder found in a page (R208). -/
inductive PageResult where
  | clean | corrected | bad
deriving DecidableEq, Repr

/-- A request to install an image (R209, R474), as the mailbox hands it to the management complex: the free pages it
takes, the signed object (R469), and the spare blocks in % that are left once it is written (R208). -/
structure InstallReq where
  base  : Nat
  obj   : List Byte
  spare : Nat
deriving DecidableEq, Repr

/-- A request to enrol an owner (R474): the two key hashes, of 48 bytes each, as the mailbox holds them. -/
structure EnrolReq where
  ecdsa : List Byte
  hss   : List Byte
deriving DecidableEq, Repr

/-- What the auditors of a sampled MMA found (R436): whether SAT differs from the audited core's, and each entry that
differs with the auditor's value; for the first auditor, and for the second where there is a mismatch. -/
structure AuditResult where
  sat1  : Bool
  diff1 : List (Nat × Nat)
  sat2  : Bool
  diff2 : List (Nat × Nat)
deriving DecidableEq, Repr

/-- What a come-out step found (R453, R454): the rounds of CFG_R counts and the strap pins (R458, R460); whether the D0
path and the D2 path pass (R455); fuse rows corrected, and whether fuse integrity failed (R465); whether the committed
quay directory copy, and which of the two slots of its commit word, fail their CRC (R209); the module channels that fail
retraining (R180); cores that fail self-test;
whether the evaluator's and the security engine's known-answer tests pass (R178); the dies whose horizontal and whose
vertical bridge fails training (R53); the version and rate at which the host link trains, or none (R506); the host-window
pages (4 KiB) that the adapter does not translate from then on (R205). -/
structure ComeoutInput where
  counts   : List (List Nat)
  boot0    : Bool
  boot1    : Bool
  oscsel   : Bool
  d0       : Bool
  d2       : Bool
  fuseRows : Nat
  fuseBad  : Bool
  dirBad   : Bool
  badSlot0 : Bool
  badSlot1 : Bool
  badChans : List Nat
  badCores : List CoreIx
  rngOk    : Bool
  secOk    : Bool
  badH     : List DieIx
  badV     : List DieIx
  hlink    : Option (Nat × Bool)
  holes    : List Nat
deriving DecidableEq, Repr

/-- What the sampler saw of the retirement that brought its countdown to 0 (R491, R492). -/
structure SampleInput where
  core    : CoreIx
  pc      : Nat
  word    : DWord
  mb      : Nat
  latency : Nat
  cause   : Nat
  addr    : Nat
  held    : Nat
deriving DecidableEq, Repr

/-- What a link's decoder reports with an uncorrectable codeword (R275, R276): how many frames it loses, and how many symbols
the decoder has corrected since the last report. -/
structure FecLoss where
  frames : Nat
  sym    : Nat
deriving DecidableEq, Repr

/-- One regulator's report (R370): voltage in mV, current in 0.1 A, power in 0.1 W. -/
structure RailSample where
  v : Nat
  i : Nat
  p : Nat
deriving DecidableEq, Repr

/-- What the meters of a control window read: each region's rail-plane current in mA (R384) and lowest canary slack in %
(R391), each die's canal, bridge and link bytes (R372), and the amounts by which the energy of each rail divides: rail,
context (none: what no context's key covers), amount (R393). -/
structure Meter where
  amps    : List Nat
  slack   : List Nat
  traffic : List Nat
  shares  : List (Nat × Option CtxIx × Nat)
deriving DecidableEq, Repr

/-- The commands: one constructor per row of the table of operations and events. -/
inductive Instr where
  /-- NOP (R82): Core CTL instruction that does nothing for one handshake of issue. -/
  | nop (c : CoreIx) (w : DWord)
  /-- SEGEND (R83): Ends the segment once its instructions, stores and neighbour moves are done, releases the booking to class 0, cancels tally slots and reports the end to the fetcher. -/
  | segend (c : CoreIx) (w : DWord)
  /-- SWP (R84): Declares a switch point with a live scratch set and live accumulators; with YIELD = 1 it passes control to the highest-priority ready resident segment. -/
  | swp (c : CoreIx) (w : DWord)
  /-- BR (R82): Unconditional branch to an instruction index; loop levels whose body lacks the target are discarded. -/
  | br (c : CoreIx) (w : DWord)
  /-- BRZ (R82): Branches when X[XA] is zero. -/
  | brz (c : CoreIx) (w : DWord)
  /-- BRNZ (R82): Branches when X[XA] is nonzero. -/
  | brnz (c : CoreIx) (w : DWord)
  /-- BRLT (R82): Branches when X[XA] is less than X[XB], compared as signed. -/
  | brlt (c : CoreIx) (w : DWord)
  /-- LOOP (R86): Hardware loop with an immediate COUNT over the body that ends at END. -/
  | loop (c : CoreIx) (w : DWord)
  /-- LOOPR (R86): Hardware loop whose COUNT is taken from X[XA]. -/
  | loopr (c : CoreIx) (w : DWord)
  /-- BASE (R89): Sets an address generator's BASE and zeroes its indices. -/
  | base (c : CoreIx) (w : DWord)
  /-- DIM0 (R89): Sets STRIDE0 and COUNT0 of an address generator and zeroes its indices. -/
  | dim0 (c : CoreIx) (w : DWord)
  /-- DIM1 (R89): Sets STRIDE1 and COUNT1 of an address generator and zeroes its indices. -/
  | dim1 (c : CoreIx) (w : DWord)
  /-- WRAP (R89): Sets a generator's wrap window WBASE and WSIZE and zeroes its indices. -/
  | wrap (c : CoreIx) (w : DWord)
  /-- RESET (R89): Sets i0 and i1 of an address generator to 0. -/
  | reset (c : CoreIx) (w : DWord)
  /-- BASER (R89): Sets a generator's BASE from bits [17:0] of X[XA] and zeroes its indices. -/
  | baser (c : CoreIx) (w : DWord)
  /-- ADD (R80): Scalar 64-bit addition. -/
  | add (c : CoreIx) (w : DWord)
  /-- SUB (R80): Scalar 64-bit subtraction. -/
  | sub (c : CoreIx) (w : DWord)
  /-- AND (R80): Scalar bitwise AND. -/
  | andX (c : CoreIx) (w : DWord)
  /-- OR (R80): Scalar bitwise OR. -/
  | orX (c : CoreIx) (w : DWord)
  /-- XOR (R80): Scalar bitwise XOR. -/
  | xorX (c : CoreIx) (w : DWord)
  /-- SHL (R80): Scalar shift left by bits [5:0] of the second operand. -/
  | shl (c : CoreIx) (w : DWord)
  /-- SHR (R80): Scalar logical shift right. -/
  | shr (c : CoreIx) (w : DWord)
  /-- SAR (R80): Scalar arithmetic shift right. -/
  | sar (c : CoreIx) (w : DWord)
  /-- MUL (R80): Scalar multiply that writes the low 64 bits of the product. -/
  | mul (c : CoreIx) (w : DWord)
  /-- SLT (R80): Writes 1 when the first operand is less than the second, compared as signed. -/
  | slt (c : CoreIx) (w : DWord)
  /-- SLTU (R80): Writes 1 when the first operand is less than the second, compared as unsigned. -/
  | sltu (c : CoreIx) (w : DWord)
  /-- LIH (R80): Replaces bits [63:32] of X[XD] with IMM32. -/
  | lih (c : CoreIx) (w : DWord)
  /-- LD (R81): Loads from scratch (SPACE 0) or from the core's own page (SPACE 1) at a generator or register address plus OFFS. -/
  | ld (c : CoreIx) (w : DWord)
  /-- ST (R81): Stores to scratch or to the core's own page. -/
  | st (c : CoreIx) (w : DWord)
  /-- BOOK (R90): Lowers the booking after covering heavy work retires, or requests a raise from the sluice, optionally waiting for the grant. -/
  | book (c : CoreIx) (w : DWord)
  /-- HEAVY (R92): Sends a current hint with class, duration and lead to the core's sluice without waiting. -/
  | heavy (c : CoreIx) (w : DWord)
  /-- TADD (R94): Issues an add to a local tally, or a remote one as a TALLY_ADD frame; retires at issue. -/
  | tadd (c : CoreIx) (w : DWord)
  /-- TARM (R95): Binds a tally slot to a die wait unit watching for a threshold, waiting for a free unit. -/
  | tarm (c : CoreIx) (w : DWord)
  /-- TWAIT (R96): Waits until any or all slots in MASK are satisfied, writes the satisfied subset and disarms those slots. -/
  | twait (c : CoreIx) (w : DWord)
  /-- TPOLL (R96): Writes the satisfied subset of MASK without waiting. -/
  | tpoll (c : CoreIx) (w : DWord)
  /-- TCANCEL (R96): Disarms the slots in MASK. -/
  | tcancel (c : CoreIx) (w : DWord)
  /-- TALLY_SATISFIED (R95): A wait unit sees a tally value at or above its threshold, and its slot or fetcher wait becomes satisfied. -/
  | tallySatisfied (u : WaitUnit)
  /-- BARGE (R98): Copies a 64-byte descriptor from scratch and submits it to a die transfer engine, waiting while the engine is full. -/
  | barge (c : CoreIx) (w : DWord)
  /-- NMOVE (R99): Starts a copy of up to 4 KiB to or from an adjacent core's scratch. -/
  | nmove (c : CoreIx) (w : DWord)
  /-- NMOVE_COMPLETE (R513): A neighbour move writes its last byte and adds 1 to its local tally when XT is not 0. -/
  | nmoveComplete (c : CoreIx) (first : Bool)
  /-- ARITH_ADD (R106): Vector lane addition. -/
  | arithAdd (c : CoreIx) (w : DWord)
  /-- ARITH_SUB (R106): Vector lane subtraction. -/
  | arithSub (c : CoreIx) (w : DWord)
  /-- ARITH_MUL (R106): Vector lane multiplication. -/
  | arithMul (c : CoreIx) (w : DWord)
  /-- FMA (R106): Vector fused multiply-add VA x VB + VC with one rounding. -/
  | fma (c : CoreIx) (w : DWord)
  /-- ARITH_MIN (R106): Vector lane minimum. -/
  | arithMin (c : CoreIx) (w : DWord)
  /-- ARITH_MAX (R106): Vector lane maximum. -/
  | arithMax (c : CoreIx) (w : DWord)
  /-- ABS (R106): Vector lane absolute value. -/
  | abs (c : CoreIx) (w : DWord)
  /-- NEG (R106): Vector lane negation. -/
  | neg (c : CoreIx) (w : DWord)
  /-- CMPEQ (R106): Vector compare-equal that writes all-ones or zero per lane. -/
  | cmpeq (c : CoreIx) (w : DWord)
  /-- CMPLT (R106): Vector compare less-than. -/
  | cmplt (c : CoreIx) (w : DWord)
  /-- CMPLE (R106): Vector compare less-or-equal. -/
  | cmple (c : CoreIx) (w : DWord)
  /-- SEL (R106): Vector select of VA's lane where VC's lane is nonzero, else VB's. -/
  | sel (c : CoreIx) (w : DWord)
  /-- DIV (R107): Correctly rounded vector division. -/
  | div (c : CoreIx) (w : DWord)
  /-- SQRT (R107): Correctly rounded vector square root. -/
  | sqrt (c : CoreIx) (w : DWord)
  /-- RCP (R107): Correctly rounded vector reciprocal. -/
  | rcp (c : CoreIx) (w : DWord)
  /-- RSQRT (R107): Vector reciprocal square root within 1 ulp. -/
  | rsqrt (c : CoreIx) (w : DWord)
  /-- EXP2 (R107): Vector base-2 exponential. -/
  | exp2 (c : CoreIx) (w : DWord)
  /-- LOG2 (R107): Vector base-2 logarithm. -/
  | log2 (c : CoreIx) (w : DWord)
  /-- EXP (R107): Vector natural exponential. -/
  | exp (c : CoreIx) (w : DWord)
  /-- LOG (R107): Vector natural logarithm. -/
  | log (c : CoreIx) (w : DWord)
  /-- TANH (R107): Vector hyperbolic tangent, FP32 only. -/
  | tanh (c : CoreIx) (w : DWord)
  /-- SIGMOID (R107): Vector logistic sigmoid, FP32 only. -/
  | sigmoid (c : CoreIx) (w : DWord)
  /-- ERF (R107): Vector error function, FP32 only. -/
  | erf (c : CoreIx) (w : DWord)
  /-- SIN (R107): Vector sine, FP32 only. -/
  | sin (c : CoreIx) (w : DWord)
  /-- COS (R107): Vector cosine, FP32 only. -/
  | cos (c : CoreIx) (w : DWord)
  /-- REDUCE_SUM (R108): Pairwise-tree sum of the lanes into lane 0. -/
  | reduceSum (c : CoreIx) (w : DWord)
  /-- REDUCE_MAX (R160): Pairwise-tree maximum of the lanes into lane 0. -/
  | reduceMax (c : CoreIx) (w : DWord)
  /-- REDUCE_MIN (R160): Pairwise-tree minimum of the lanes into lane 0. -/
  | reduceMin (c : CoreIx) (w : DWord)
  /-- REDUCE_SUMSQ (R160): Pairwise-tree sum of squares of the lanes into lane 0. -/
  | reduceSumsq (c : CoreIx) (w : DWord)
  /-- CVT (R110): Converts lane formats, with Philox words for stochastic rounding. -/
  | cvt (c : CoreIx) (w : DWord)
  /-- VLD (R105): Loads 64 bytes of scratch into a vector register. -/
  | vld (c : CoreIx) (w : DWord)
  /-- VST (R105): Stores a vector register to scratch. -/
  | vst (c : CoreIx) (w : DWord)
  /-- VRNG (R110): Writes 16 Philox words from the core's lane. -/
  | vrng (c : CoreIx) (w : DWord)
  /-- VACC (R111): Reads 16 accumulator entries into a vector register, subject to the accumulator interlock. -/
  | vacc (c : CoreIx) (w : DWord)
  /-- VPERM (R109): Shifted lane permutation across VA and VB. -/
  | vperm (c : CoreIx) (w : DWord)
  /-- VMOVX (R105): Moves one lane between a vector register and a scalar register. -/
  | vmovx (c : CoreIx) (w : DWord)
  /-- MMA (R128): Issues a matrix multiply-accumulate into an accumulator, opening or continuing a tile under the hazard rules. -/
  | mma (c : CoreIx) (w : DWord)
  /-- MMA_COMPLETE (R134): The last fold of an MMA drains and the MMA retires. -/
  | mmaComplete (c : CoreIx) (slots : Nat)
  /-- ADRAIN (R142): Drains an accumulator tile to scratch with optional conversion, after the MMAs in flight and the shared drain path are free. -/
  | adrain (c : CoreIx) (w : DWord)
  /-- ADRAIN_COMPLETE (R136): The drain finishes writing, the accumulator returns to IDLE and the ADRAIN retires. -/
  | adrainComplete (c : CoreIx)
  /-- MCFG (R127): Sets the array's operand types, accumulation mode and random-word registers. -/
  | mcfg (c : CoreIx) (w : DWord)
  /-- AREL (R139): Releases an open accumulator to IDLE once no MMA is in flight. -/
  | arel (c : CoreIx) (w : DWord)
  /-- DBG_STOP (R115): Debug write of STOP that halts issue at the next instruction boundary. -/
  | dbgStop (p : Path) (c : CoreIx)
  /-- DBG_STEP (R115): Issues one instruction while the core is stopped. -/
  | dbgStep (p : Path) (c : CoreIx)
  /-- DBG_RESUME (R115): Clears STOP and resumes issue. -/
  | dbgResume (p : Path) (c : CoreIx)
  /-- REG_WRITE (R56): Write to a register that has no row of its own, applied or buffered according to its kind. -/
  | regWrite (p : Path) (a width v : Nat)
  /-- RC_READ (R15): A read of an RC field returns the value and clears the field. -/
  | rcRead (p : Path) (a width : Nat)
  /-- MULTIWORD_READ (R70): A low-word read latches the upper words into the path's read shadow, which a later high-word read consumes. -/
  | multiwordRead (p : Path) (a width : Nat)
  /-- MULTIWORD_WRITE (R71): A low-word write is held in the write shadow, and a high-word write applies the whole value at once. -/
  | multiwordWrite (p : Path) (a width v : Nat)
  /-- ALIAS_ACCESS (R69): A bit-alias read or write acts on a single header bit according to its kind. -/
  | aliasAccess (p : Path) (a : Nat) (wr bit : Bool)
  /-- PAGE_LOCK (R61): Writing 1 sets the page lock, after which WL fields ignore writes. -/
  | pageLock (p : Path) (g : Page)
  /-- ERR_STAT_CLEAR (R62): A W1C write clears ERR_STAT bits, and clears ERR_FIRST.VALID when no bit remains. -/
  | errStatClear (p : Path) (g : Page) (m : Word)
  /-- ERR_INJ (R63): Arms or disarms error injection when the debug level permits. -/
  | errInj (p : Path) (g : Page) (v : Word)
  /-- SRST_REQ (R64): Requests a block reset; the block enters reset if idle, otherwise SRST_REFUSED is set. -/
  | srstReq (p : Path) (g : Page)
  /-- BLOCK_RESET_DONE (R64): A block reset completes within 200 ticks and the block accepts work again. -/
  | blockResetDone (g : Page)
  /-- WB_APPLY (R65): At a block's natural boundary, or within 2 ticks when idle, all pending WB values are applied together and BOUNDARY_CNT increments. -/
  | wbApply (g : Page) (sub : Nat)
  /-- SEGMENT_START (R352): The fetcher starts a ring entry on its rectangle once the start conditions hold, loading the image and the initial registers. -/
  | segmentStart (n : CtxIx) (st : StreamIx)
  /-- SEGMENT_END (R352): Every core has passed SEGEND; the fetcher adds to DONE_TALLY, advances the head and updates accumulation-slot states. -/
  | segmentEnd (n : CtxIx) (st : StreamIx)
  /-- TAIL_READ (R350): The fetcher reads a stream's tail word at a slot start and every POLL_US during the slot. -/
  | tailRead (n : CtxIx) (st : StreamIx)
  /-- STEP_PLAN (R248): The fetcher plans a step: it takes B, forms the module's range, writes the plan half of the report and adds to PLAN_TALLY. -/
  | stepPlan (n : CtxIx)
  /-- ADMISSION (R250): The fetcher binds the next planned (step, micro-batch) pair to the lowest free accumulation slot. -/
  | admission (n : CtxIx)
  /-- STEP_BOUNDARY (R263): A context's step boundary: report t written and every binding past step t; WB values apply and holds and snapshots take effect. -/
  | stepBoundary (n : CtxIx)
  /-- STEP_HOLD (R263): The CTX HOLD request holds or releases a context at a step boundary. -/
  | stepHold (p : Path) (n : CtxIx) (hold : Bool)
  /-- BIND (R222): A binding's VALID applies; the engine checks the descriptor and image, scans generation words and holds interrupted parts for restore. -/
  | bind (k : StackIx) (b : BindIx)
  /-- NODE (R228): A REDUCE NODE train reaches the owning engine, which checks, reduce-adds or holds or discards it by step tag. -/
  | node (k : LinkIx) (t : Train)
  /-- UPDATE_PASS (R231): After a finite verdict and the prior mirror acknowledgement, the engine sets IN_UPD and runs the bodies and compute-copy writes of a shard part. -/
  | updatePass (k : StackIx) (b : BindIx) (v u : Nat)
  /-- SHARD_COMMIT (R231): A shard part's update completes: the generation word commits, the mirror streams and any checkpoint writes post. -/
  | shardCommit (k : StackIx) (b : BindIx) (v u : Nat)
  /-- GATHER_REQ (R233): An owner serves, holds, forwards or refuses a gather of one block by its generation. -/
  | gatherReq (k : LinkIx) (t : Train)
  /-- GATHER_DATA (R301): Gather data lands at the walk destination, is forwarded on the tree if multicast, and its tally add follows. -/
  | gatherData (k : LinkIx) (t : Train)
  /-- GATHER_FWD (R315): A forwarded gather is served by the former owner during migration. -/
  | gatherFwd (k : LinkIx) (t : Train)
  /-- SCATTER (R234): A SCATTER writes a record part or generation word of a loading or restore-held shard part; the generation word commits a migration or restore. -/
  | scatter (k : LinkIx) (t : Train)
  /-- RESTORE_REQ (R235): The mirror partner streams its current mirror slot of a shard part as SCATTERs and a generation word, or denies. -/
  | restoreReq (k : LinkIx) (t : Train)
  /-- MIRROR (R236): The partner writes mirrored state into slot t mod 2. -/
  | mirror (k : LinkIx) (t : Train)
  /-- MIRROR_END (R236): The partner marks the slot current and returns MIRROR_ACK. -/
  | mirrorEnd (k : LinkIx) (t : Train)
  /-- MIRROR_SKIP (R236): The partner records the skipped generation and acknowledges. -/
  | mirrorSkip (k : LinkIx) (t : Train)
  /-- MIRROR_ACK (R236): The owner receives the acknowledgement that releases the next update, or a migration acknowledgement. -/
  | mirrorAck (k : LinkIx) (t : Train)
  /-- MIGRATION_START (R313): O begins streaming an outgoing shard part to N after committing T - 1 and loading V'. -/
  | migrationStart (k : StackIx) (b : BindIx) (v u : Nat)
  /-- VERDICT_UP (R305): A member combines a child's verdict and sums and, when complete, sends upward or, at the root, sends VERDICT_DOWN. -/
  | verdictUp (k : LinkIx) (t : Train)
  /-- VERDICT_DOWN (R164): The job verdict arrives; it is forwarded to the children and acted on by the sequencer and the engines. -/
  | verdictDown (k : LinkIx) (t : Train)
  /-- WRITE (R204): A peer's link engine serves a remote write into its polder's sections. -/
  | write (k : LinkIx) (t : Train)
  /-- READ_REQ (R204): A peer serves a remote read and returns READ_RESP. -/
  | readReq (k : LinkIx) (t : Train)
  /-- READ_RESP (R286): Read data lands at the requester's destination. -/
  | readResp (k : LinkIx) (t : Train)
  /-- WRITE_ACK (R303): An acknowledgement completes a write leg or a NODE series of a collective entry. -/
  | writeAck (k : LinkIx) (t : Train)
  /-- DENY (R286): A refusal ends the transfer or entry with its error code. -/
  | deny (k : LinkIx) (t : Train)
  /-- TALLY_ADD (R354): The stack controller performs an atomic add to a tally and sends the new value to armed wait units. -/
  | tallyAdd (o : TallyOrigin)
  /-- ENCAP (R282): A version-1 encapsulated frame is relayed, or a REDUCE train is reassembled and delivered whole. -/
  | encap (k : LinkIx) (t : Train)
  /-- FRAME_FORWARD (R293): An intermediate module routes a through-frame between link engines, diverting around fenced modules. -/
  | frameForward (k : LinkIx) (t : Train)
  /-- CREDIT (R288): A CREDIT frame returns cumulative credits and acknowledgements, and may request replay from a SEQ. -/
  | credit (k : LinkIx) (b : CreditBody)
  /-- CREDIT_SEND (R288): A receiver sends CREDIT after 32 freed frames or every 20 ticks while anything is unreturned. -/
  | creditSend (k : LinkIx)
  /-- FEC_UE (R276): An uncorrectable codeword loses its frames; the receiver discards from the first lost SEQ and requests
  replay. `seq` names the first frame lost. -/
  | fecUe (k : LinkIx) (seq : Nat) (n : FecLoss)
  /-- LINK_TRAIN_START (R278): A link starts training once enabled and the come-out has reached the link PHYs. -/
  | linkTrainStart (k : LinkIx)
  /-- SIGNAL_DETECT (R278): Signal is detected on all four lanes. -/
  | signalDetect (k : LinkIx)
  /-- EQUALISATION_COMPLETE (R278): Equalisation of the lanes completes. -/
  | equalisationComplete (k : LinkIx)
  /-- FEC_LOCK (R278): The decoder achieves FEC lock and negotiation begins. -/
  | fecLock (k : LinkIx)
  /-- CAPS (R281): A partner's CAPS frame arrives and the version, rate, code and features resolve; credits initialise and the link becomes FENCED. -/
  | caps (k : LinkIx) (c0 c1 : DWord)
  /-- CAPS_SEND (R280): A link sends CAPS every 1 us while negotiating. -/
  | capsSend (k : LinkIx)
  /-- TRAINING_TIMEOUT (R278): A training attempt misses a latest bound; the link retries, falls back to 112 Gbit/s, or goes DOWN. -/
  | trainingTimeout (k : LinkIx)
  /-- LIVENESS (R411): A LIVENESS frame is received and counts as liveness. -/
  | liveness (k : LinkIx) (src : Nat)
  /-- LIVENESS_SEND (R411): A native link idle for 10 us sends LIVENESS. -/
  | livenessSend (k : LinkIx)
  /-- LIVE_TIMEOUT (R411): 200 us without a frame takes the link DOWN and sends LOSS to the suspect's warden. -/
  | liveTimeout (k : LinkIx)
  /-- CREDIT_STARVE (R405): A VC starved of credits for STARVE_US takes the link DOWN and retrains it. -/
  | creditStarve (k : LinkIx) (vc : Fin 8)
  /-- COLL_ENTRY_TAKE (R514): A collective engine takes a ring entry made visible by the tail tally and checks it. -/
  | collEntryTake (n : CtxIx)
  /-- REDUCE_SEND (R303): Collective KIND 0 sends a node's values as NODE train series to the owners and adds to TALLY when all are acknowledged. -/
  | reduceSend (n : CtxIx)
  /-- GATHER (R301): Collective KIND 1 sends one GATHER_REQ per block to its owner. -/
  | gather (n : CtxIx)
  /-- QP_POLL (R307): The Ethernet link engine reads a ready QP's tail word every 2 us and executes new work requests in order. -/
  | qpPoll (k : LinkIx) (q : Nat)
  /-- RDMA_WRITE (R306): A work request sends device DRAM out to storage. -/
  | rdmaWrite (k : LinkIx) (q : Nat)
  /-- RDMA_READ (R306): A work request reads storage into device DRAM. -/
  | rdmaRead (k : LinkIx) (q : Nat) (d : List Byte)
  /-- RDMA_COMPLETE (R307): A work request is acknowledged or fully written, and its tally is added to. -/
  | rdmaComplete (k : LinkIx) (q : Nat) (r : RdmaResult)
  /-- ETH_REQUEST_IN (R306): An incoming RoCE request is answered with a remote-access NAK and counted. -/
  | ethRequestIn (k : LinkIx)
  /-- BARGE_ACCEPT (R194): A transfer engine accepts and checks a descriptor, refusing a bad one. -/
  | bargeAccept (e : EngIx)
  /-- BARGE_START (R202): A barge starts once its FENCE wait and booking grant are satisfied. -/
  | bargeStart (e : EngIx) (i : Nat)
  /-- BARGE_COMPLETE (R199): All destination bytes are readable; the engine writes the CRC, adds to the tally and lowers its booking. -/
  | bargeComplete (e : EngIx) (i : Nat)
  /-- DRAM_READ (R186): A stack controller reads a 64-byte block and corrects, poisons or detects according to the section class. -/
  | dramRead (a symbols : Nat) (o : WorkTag)
  /-- DRAM_WRITE (R187): A stack controller writes a block, carrying the poison mark. -/
  | dramWrite (a : Nat) (d : List Byte) (poison : Bool) (o : WorkTag)
  /-- SCRUB_READ (R188): The patrol scrubber reads a block, rewriting it if correctable or counting SCRUB_UE. -/
  | scrubRead (a symbols : Nat)
  /-- REFRESH_INTERVAL (R211): A stack controller begins a refresh interval every 390 ticks, the MEMC WB boundary. -/
  | refreshInterval (k : StackIx)
  /-- MAPOUT_REQ (R189): The host names a channel to mark DEGRADED. -/
  | mapoutReq (p : Path) (k : StackIx) (ch : Fin 32)
  /-- MAPOUT_GO (R191): Starts or queues the map-out of the stack's DEGRADED channels. -/
  | mapoutGo (p : Path) (k : StackIx)
  /-- QUAY_READ (R207): The quay controller serves a streamed or bulk window read, or returns poison on QUAY_UE. -/
  | quayRead (a len : Nat) (streamed : Bool) (r : PageResult) (o : WorkTag)
  /-- QUAY_INSTALL (R209): The management complex writes, verifies and commits an image under the installation policy. -/
  | quayInstall (q : InstallReq)
  /-- ROLLBACK (R433): The coordinator broadcasts a LIMIT; every member holds at a step boundary and raises CKPT_ROLLBACK. -/
  | rollback (k : LinkIx) (e : EmbMsg)
  /-- WLOCK_BIND (R328): A weight lock's VALID applies; the configuration is checked and the chambers, gate and counts reset. -/
  | wlockBind (l : LockIx)
  /-- FILL (R330): Moves a FREE chamber to LOADING. -/
  | fill (p : Path) (l : LockIx) (ch : Fin 2)
  /-- READY (R330): Moves a LOADING chamber to READY. -/
  | ready (p : Path) (l : LockIx) (ch : Fin 2)
  /-- ABANDON (R330): Returns a LOADING or READY chamber to FREE. -/
  | abandon (p : Path) (l : LockIx) (ch : Fin 2)
  /-- IP_START (R337): Starts a replacement in place, setting BARRIER and IP_NEXT = 0. -/
  | ipStart (p : Path) (l : LockIx)
  /-- GATE_APPLY (R331): ACTIVE_REQ applies at batch admission: the gate opens on a READY chamber or closes, and GEN increments on a switch. -/
  | gateApply (l : LockIx)
  /-- TAIL_TALLY_READ (R333): Each POLL the lock reads its tallies, admits ring entries, frees drained chambers and grants layers in place. -/
  | tailTallyRead (l : LockIx)
  /-- CREATE_GO (R345): Creates a context at the lowest EMPTY number after checking the descriptor, or refuses it with TABLE_FULL or CTX_DESC. -/
  | createGo (p : Path)
  /-- SLOT_START (R357): A polder's slot starts: it switches to, skips or waits in the slot's context, and with SWAP_POLICY 2 may swap. -/
  | slotStart (pd : PolderIx)
  /-- SWITCH_POINT_REACHED (R358): The last core of the polder reaches a switch point; lag is counted, overruns are reported, and save and restore begin. -/
  | switchPointReached (pd : PolderIx)
  /-- SWITCH_COMPLETE (R359): Save and restore finish and the incoming context's segments resume. -/
  | switchComplete (pd : PolderIx)
  /-- SWAP_OUT (R361): The host requests a swap-out of an unpinned context at the next cycle boundary. -/
  | swapOut (p : Path) (n : CtxIx)
  /-- TEARDOWN (R363): The context enters TEARING, a dike is raised, work is cancelled and the polder generation increments. -/
  | teardown (p : Path) (n : CtxIx)
  /-- TEARDOWN_DONE (R363): Local drain completes and the context enters SCRUBBING. -/
  | teardownDone (n : CtxIx)
  /-- SCRUB_DONE (R363): The sections and image are zeroed and the number becomes EMPTY. -/
  | scrubDone (n : CtxIx)
  /-- SLUICE_GRANT (R373): The sluice grants the oldest waiting booking request whose budget and ramp tests pass, adding its amps to B. -/
  | sluiceGrant (r : RegionIx)
  /-- BOOK_RELEASE (R374): A booking release reaches the sluice and lowers B. -/
  | bookRelease (r : RegionIx)
  /-- PRE_POSITION (R378): At a hint's pre-position point the controller lowers the die set-point to keep predicted power below the cap. -/
  | prePosition (r : RegionIx)
  /-- HINT_ARMING (R377): A hint arms and the region holds a pre-grant reserve for the core. -/
  | hintArming (c : CoreIx)
  /-- HINT_EXPIRY (R377): A hint's duration ends and its reserve is released. -/
  | hintExpiry (c : CoreIx)
  /-- TELEMETRY_SAMPLE (R370): The regulators report V, I and P every 10 us. -/
  | telemetrySample (rs : List RailSample)
  /-- CONTROL_WINDOW (R379): Every 50 us the cap loop adjusts set-points and ADMIT, checks the estimate, marks throttle reasons, divides energy and runs the margin governor. -/
  | controlWindow (m : Meter)
  /-- MARGIN_REQ (R392): Raises a region's TRIM by one step. -/
  | marginReq (p : Path) (r : RegionIx)
  /-- SLOWDOWN_N (R382): Assertion holds the dies at vmin and ADMIT at SLOW_ADMIT; release lets the loop restore them. -/
  | slowdownN (asserted : Bool)
  /-- THERMAL_SAMPLE (R388): The junction sensors report every 10 us; faulty sensors are excluded and the limits act. -/
  | thermalSample (d : DieIx) (ts : List Int)
  /-- INLET_SAMPLE (R389): The inlet coolant temperature is sampled and the inlet cap derived. -/
  | inletSample (t : Int)
  /-- BOARD_OVERTEMP (R55): The board temperature reaches BOARD_T_LIMIT and ALERT_N is asserted. -/
  | boardOvertemp (t : Int)
  /-- STATE_REQ_ACTIVE (R395): A request to return to ACTIVE. -/
  | stateReqActive (p : Path)
  /-- STATE_REQ_IDLE (R395): A request to enter IDLE, admitted only with the schedule stopped and every core idle. -/
  | stateReqIdle (p : Path)
  /-- STATE_REQ_STANDBY (R395): A request to enter STANDBY with no known context. -/
  | stateReqStandby (p : Path)
  /-- STATE_REQ_SLEEP (R395): A request to enter SLEEP with no known context. -/
  | stateReqSleep (p : Path)
  /-- WAKE (R395): The WAKE pin wakes the module from SLEEP or STANDBY when enabled. -/
  | wake (level : Bool)
  /-- PROGRESS_STALL (R404): A context's progress watch expires, a step-fatal error. -/
  | progressStall (n : CtxIx)
  /-- HELLO (R410): An EMB HELLO is received; an ACK completes the link's join. -/
  | hello (k : LinkIx) (e : EmbMsg)
  /-- HELLO_SEND (R410): A FENCED link sends HELLO every 10 us. -/
  | helloSend (k : LinkIx)
  /-- ELECT (R412): A module hears ELECT and withdraws if the sender's id is lower. -/
  | elect (k : LinkIx) (e : EmbMsg)
  /-- WARDEN (R412): A WARDEN with a higher epoch or lower id is accepted and WARDEN_CHANGE is raised. -/
  | warden (k : LinkIx) (e : EmbMsg)
  /-- LOSS (R414): The warden receives a loss report and probes the suspect over two paths. -/
  | loss (k : LinkIx) (e : EmbMsg)
  /-- PROBE (R415): The suspect answers a probe with PROBE_ACK. -/
  | probe (k : LinkIx) (e : EmbMsg)
  /-- PROBE_ACK (R414): An answer makes the loss a link loss only. -/
  | probeAck (k : LinkIx) (e : EmbMsg)
  /-- MODULE_LOST (R414): No probe answer within 500 us; the warden decides the loss and sends LOST. -/
  | moduleLost (suspect : Nat)
  /-- LOST (R414): Modules fence their links to the lost module and the coordinators start recovery. -/
  | lost (k : LinkIx) (e : EmbMsg)
  /-- REGISTER (R413): The warden records a job's coordinator and alternate for a module. -/
  | register (k : LinkIx) (e : EmbMsg)
  /-- RECOVER (R421): The coordinator selects a spare and sends REPLAY_PREP. -/
  | recover (k : LinkIx) (e : EmbMsg)
  /-- REPLAY_PREP (R423): A member stops starting segments and answers with its highest verdict and GEN. -/
  | replayPrep (k : LinkIx) (e : EmbMsg)
  /-- PREP_ANSWER (R423): Answers combine by maximum; at the coordinator t* and r are computed and REPLAY or SHARD_LOST follows. -/
  | prepAnswer (k : LinkIx) (e : EmbMsg)
  /-- DURABLE (R423): The mirror partner reports the least durable generation of the lost member's parts. -/
  | durable (k : LinkIx) (e : EmbMsg)
  /-- REPLAY (R424): Members apply the substitution, rewind their streams and rerun from step r with the carried catch-up data. -/
  | replay (k : LinkIx) (e : EmbMsg)
  /-- REPLAY_REQ (R417): The coordinator coalesces requests and broadcasts REPLAY for the step. -/
  | replayReq (k : LinkIx) (e : EmbMsg)
  /-- HALT (R426): A context-fatal error halts every member's context of the job. -/
  | halt (k : LinkIx) (e : EmbMsg)
  /-- ROLLBACK_REQ (R433): The coordinator receives a proposed LIMIT and broadcasts ROLLBACK. -/
  | rollbackReq (k : LinkIx) (e : EmbMsg)
  /-- AUDIT_COMPARE (R436): An auditor's recompute of a sampled MMA completes and is compared, with a second auditor on a mismatch. -/
  | auditCompare (i : Nat) (r : AuditResult)
  /-- POWER_LOSS (R440): 48 V below 40 V for 1 us stops compute, turns the rails off and starts the power-fail record. -/
  | powerLoss (lost : Bool)
  /-- AON_BROWNOUT (R446): The auxiliary rail falls below 2.9 V, a FULL-reach source. -/
  | aonBrownout (low : Bool)
  /-- MAIN_BROWNOUT (R446): A main rail falls below its limit, a SUPPLY-reach source. -/
  | mainBrownout (low : Bool)
  /-- RESET_N (R446): The reset pin is asserted or released, a MODULE-reach source. -/
  | resetN (low : Bool)
  /-- CLOCK_FAIL (R446): An oscillator more than 5 % off for 2 us triggers a capture then a MODULE reset. -/
  | clockFail (mgmt : Bool)
  /-- SW_RESET_COMPUTE (R446): A keyed software write requests a COMPUTE reset with capture. -/
  | swResetCompute (p : Path) (key : Nat)
  /-- SW_RESET_MODULE (R446): A keyed software write requests a MODULE reset with capture. -/
  | swResetModule (p : Path) (key : Nat)
  /-- COMEOUT (R453): The come-out steps run for the reach: always-on domain, rails and straps, fuses, firmware, stacks, PHYs, self-test, host link and link training. -/
  | comeout (i : ComeoutInput)
  /-- HOST_BOOT_IMAGE (R472): The host writes the image length in the boot mailbox and the boot ROM verifies the image. -/
  | hostBootImage (len : Nat) (img : List Byte)
  /-- RET_DATA (R480): An access to retained SRAM advances RET_ADDR and clears SEALED on a write. -/
  | retData (p : Path) (wr : Bool) (v : Word)
  /-- SEAL (R463): Computes the CRC of the retained SRAM and sets SEALED. -/
  | seal (p : Path)
  /-- PROG (R468): The management complex blows a field fuse bit under an admitted operation, or the write is refused. -/
  | prog (p : Path) (bit : Nat) (obj : List Byte)
  /-- SVN_ADVANCE (R473): Blows the SVN thermometers up to the permitted targets. -/
  | svnAdvance (p : Path) (v : Word)
  /-- OWNER_ENROL (R474): The firmware blows an owner key slot and QP_OWNER on a mailbox request. -/
  | ownerEnrol (q : EnrolReq)
  /-- ATT_REPORT (R478): Attestation request KIND 0 writes a signed report at ATT_ADDR. -/
  | attReport (p : Path)
  /-- ATT_CERTIFICATES (R478): KIND 1 copies the identity certificates to the address. -/
  | attCertificates (p : Path)
  /-- DBG_UNLOCK (R470): Verifies a debug token and unlocks invasive debug, then draws a fresh nonce. -/
  | dbgUnlock (p : Path)
  /-- EV_GO (R178): Starts a Philox evaluation of EV_KEY and EV_CTR. -/
  | evGo (p : Path)
  /-- EVT_SEL (R485): An event selection applies and its counter is zeroed. -/
  | evtSel (p : Path) (g : Page) (i : Nat) (v : Word)
  /-- FREEZE (R489): Stops or restarts every counter of a PERF page. -/
  | freeze (p : Path) (g : Page) (on : Bool)
  /-- SAMPLE_ENABLE (R493): Setting SAMPLE EN checks the ring and starts sampling, or raises SAMPLE_BUF. -/
  | sampleEnable (p : Path) (d : DieIx) (v : Word)
  /-- SAMPLE_TAKE (R491): The sampler countdown reaches 0 and a 64-byte sample record is written. -/
  | sampleTake (d : DieIx) (smp : SampleInput)
  /-- READ_REG (R503): I3C private transfer that reads one module-page register. -/
  | readReg (a : Nat)
  /-- WRITE_REG (R503): I3C private transfer that writes a PWR or AON register. -/
  | writeReg (a v : Nat)
  /-- SETDASA (R502): I3C dynamic address assignment from the static address. -/
  | setdasa (sa da : Nat)
  /-- ENTDAA (R502): I3C dynamic address assignment procedure. -/
  | entdaa (da : Nat)
  /-- LANE_LOSS (R275): A native link loses a lane and goes DOWN to retrain instead of running degraded. -/
  | laneLoss (k : LinkIx)
  /-- BRIDGE_LOCK_LOST (R53): A die-to-die bridge loses lock in operation, raising the device-fatal BRIDGE_FAIL. -/
  | bridgeLockLost (d : DieIx) (vert : Bool)
  /-- MGMT_MEMORY_ERROR (R54): A management-memory word is found with a corrected or uncorrectable error, counted or raising device-fatal MGMT_UE. -/
  | mgmtMemoryError (bad : Bool)
  /-- SWAP_COMPLETE (R359): A swap-in or swap-out finishes writing or reading the save-image header, leaving SWAPPING for RESIDENT or SWAPPED. -/
  | swapComplete (n : CtxIx)
  /-- FUSE_PROG_COMPLETE (R482): Fuse programming started by PROG, SVN_ADVANCE or enrolment ends within 5 ms, clearing PROG_STATUS.BUSY or raising FUSE_PROG_FAIL. -/
  | fuseProgComplete (blown : Bool)
  /-- MAPOUT_RELOCATE (R191): With the affected contexts held at step boundaries, the controller sets RELOCATING and copies the moved granules. -/
  | mapoutRelocate
  /-- MAPOUT_COMPLETE (R191): The copy ends; the map-out is recorded, the remap applied, the contexts released and the next held GO started. -/
  | mapoutComplete
  /-- POLDER_TABLE_LOAD (R342): At the cycle boundary the NG4 reads and checks the polder table, refusing it with POLDER_BAD. -/
  | polderTableLoad
  /-- SCHEDULE_CYCLE (R355): Cycle boundary: new tables and WB values apply, blocked counts update, and swaps under R346 and R361 take place. -/
  | scheduleCycle
  /-- COOLANT_TEMP (R389): An inlet above 55 C for 1 ms is device-fatal and runs the stop sequence. -/
  | coolantTemp
  /-- COOLANT_LOSS (R390): COOLANT_OK falls and the module stops compute, captures, self-refreshes, turns its rails off and enters safe mode. -/
  | coolantLoss
  /-- POWER_TRANSITION_DONE (R395): A power-state transition completes. -/
  | powerTransitionDone
  /-- FABRIC_LOCKUP (R406): A stage-stall watch expires; a capture then a COMPUTE reset follow. -/
  | fabricLockup
  /-- CAPTURE_COMPLETE (R408): The capture sets COMPLETE and the pending reset proceeds. -/
  | captureComplete
  /-- CAPTURE_INCOMPLETE (R408): A capture reaches its 50 us bound, or a wide source stops it, and the reset proceeds. -/
  | captureIncomplete
  /-- ELECTION_TIMEOUT (R412): 100 us with no lower contender; the module sends WARDEN and takes the role. -/
  | electionTimeout
  /-- POWER_FAIL_RECORD (R441): The power-fail record is committed to the quay factory region. -/
  | powerFailRecord
  /-- POWER_ON (R446): The auxiliary rail rises through 3.0 V, a FULL-reach source. -/
  | powerOn
  /-- WATCHDOG (R446): The management watchdog expires; capture then MODULE reset. -/
  | watchdog
  /-- MGMT_LOCKUP (R446): The management core retires nothing for 1 ms; capture then MODULE reset. -/
  | mgmtLockup
  /-- RESET_REQ (R446): The TAP instruction requests a COMPUTE reset when the debug level permits it. -/
  | resetReq
  /-- IDCODE (R467): TAP instruction that reads the device identification code. -/
  | idcode
  /-- BYPASS (R467): TAP bypass instruction. -/
  | bypass
  /-- EXTEST (R467): TAP boundary-scan test, permitted after an unlock. -/
  | extest
  /-- RESET_RELEASE (R448): The last asserted source releases and the come-out of the widest pending reach begins. -/
  | resetRelease
  /-- BOOT_MAILBOX_TIMEOUT (R472): No length arrives within 10 s and the attempt fails. -/
  | bootMailboxTimeout
  /-- FW_OK (R456): The firmware sets FW_OK, which clears FAILS. -/
  | fwOk
  /-- FAILS_CLR (R456): Clears the boot failure count. -/
  | failsClr
  /-- KICK (R480): Restarts the watchdog period. -/
  | kick
  /-- ATT_COMPLETE (R478): The report is written and ATT_RESULT is set. -/
  | attComplete
  /-- EV_COMPLETE (R178): The evaluator loads EV_OUT and clears EV_BUSY. -/
  | evComplete
  /-- I3C_WAKE (R503): I3C WAKE transfer that wakes the module when enabled. -/
  | i3cWake
  /-- I3C_STATE (R503): I3C transfer that returns the power state and status byte. -/
  | i3cState
  /-- MAILBOX_POLL (R508): The firmware reads the mailbox request sequence every 10 us and increments HEARTBEAT. -/
  | mailboxPoll
  /-- HLINK_DOWN (R509): The host link drops and retrains. -/
  | hlinkDown
  /-- COOLANT_OK_ASSERTED (R454): The COOLANT_OK input rises, releasing come-out steps 5 onward, a safe-mode reset held for coolant, and wakes waiting on coolant. -/
  | coolantOkAsserted
  /-- SEAL_COMPLETE (R463): The CRC of the retained SRAM is computed into RET_CRC within 2 ms of SEAL, and SEALED is set. -/
  | sealComplete
  /-- MSI_X_MESSAGE (R507): At the end of a 2 us hold-off the NG4 sends one MSI-X message for the event records written during it. -/
  | msiXMessage
deriving DecidableEq, Repr

end Sys2Proof
end

