-- ==== Sys2Proof/Decode.lean ====
section
/-!
DEFINITION. The commands that words spell. The table of operations and events gives no row any bits: its rows are
commands, not encodings, so no word spells one. (The 64-bit words of core instructions are operands of their rows and
are read by Machine/Operands.lean.)
-/

namespace Sys2Proof

/-- The command that the low `nbits` bits of `w` spell by the table's bits: none, as no row of the table has bits. -/
def decodeTableWord (_nbits _w : Nat) : Option Instr := none

end Sys2Proof
end

