-- ==== Sys2Proof/Machine/Numerics.lean ====
section
/-!
DEFINITION. Formats, rounding, special values and the Philox generator, bit for bit (R146 to R156, R169, R170),
over exact dyadic numbers. Every other unit (vector unit, array, update engines, barges, links) computes through these.
-/

namespace Sys2Proof.Machine

/-- The format codes of R146. -/
inductive Fmt where
  | fp32 | fp64 | fp16 | bf16 | e4m3 | e5m2 | e3m2 | e2m3 | e2m1 | int8 | uint8 | int4 | uint4 | int32 | e8m0 | mxint8
deriving DecidableEq, Repr

/-- The format of a code; none for the reserved codes 0x10 to 0x3F (R146). -/
def fmtOfCode (n : Nat) : Option Fmt :=
  [Fmt.fp32, .fp64, .fp16, .bf16, .e4m3, .e5m2, .e3m2, .e2m3, .e2m1, .int8, .uint8, .int4, .uint4, .int32, .e8m0, .mxint8][n]?

/-- Element bits of a format (R146). -/
def fmtBits : Fmt → Nat
  | .fp64 => 64
  | .fp32 | .int32 => 32
  | .fp16 | .bf16 => 16
  | .e4m3 | .e5m2 | .int8 | .uint8 | .e8m0 | .mxint8 => 8
  | .e3m2 | .e2m3 => 6
  | .e2m1 | .int4 | .uint4 => 4

/-- Mantissa bits of a floating format (R146). -/
def fmtMant : Fmt → Nat
  | .fp64 => 52 | .fp32 => 23 | .fp16 => 10 | .bf16 => 7 | .e4m3 => 3 | .e5m2 => 2 | .e3m2 => 2 | .e2m3 => 3 | .e2m1 => 1
  | _ => 0

/-- Exponent bias of a floating format (R146). -/
def fmtBias : Fmt → Nat
  | .fp64 => 1023 | .fp32 => 127 | .fp16 => 15 | .bf16 => 127 | .e4m3 => 7 | .e5m2 => 15 | .e3m2 => 3 | .e2m3 => 1
  | .e2m1 => 1 | _ => 127

/-- Whether a format is one of the signed floating formats (R146, codes 0x00 to 0x08). -/
def fmtFloat : Fmt → Bool
  | .fp32 | .fp64 | .fp16 | .bf16 | .e4m3 | .e5m2 | .e3m2 | .e2m3 | .e2m1 => true
  | _ => false

/-- Whether a floating format has infinities (R146). -/
def fmtHasInf : Fmt → Bool
  | .fp32 | .fp64 | .fp16 | .bf16 | .e5m2 => true
  | _ => false

/-- Whether a format is an integer format (R153). -/
def fmtInt : Fmt → Bool
  | .int8 | .uint8 | .int4 | .uint4 | .int32 => true
  | _ => false

/-- The least value of an integer format (R146). -/
def fmtIntMin : Fmt → Int
  | .int8 | .mxint8 => -128 | .int4 => -8 | .int32 => -2147483648 | _ => 0

/-- The greatest value of an integer format (R146). -/
def fmtIntMax : Fmt → Int
  | .int8 | .mxint8 => 127 | .uint8 => 255 | .int4 => 7 | .uint4 => 15 | .int32 => 2147483647 | _ => 0

/-- The code (without the sign) of the largest finite magnitude of a floating format (R146). -/
def fmtMaxCode : Fmt → Nat
  | .e4m3 => 0x7E
  | .e3m2 | .e2m3 => 31
  | .e2m1 => 7
  | f => 2 ^ (fmtBits f - 1) - 2 ^ fmtMant f - 1

/-- The canonical NaN of a format; 0 for a format without NaN (R154). -/
def canonNaN : Fmt → Nat
  | .fp64 => 0x7FF8_0000_0000_0000 | .fp32 => 0x7FC0_0000 | .fp16 => 0x7E00 | .bf16 => 0x7FC0
  | .e4m3 => 0x7F | .e5m2 => 0x7E | .e8m0 => 0xFF | _ => 0

/-- A value of R147: a NaN, a signed infinity, or exactly `(−1)^neg × m × 2^e`, a zero keeping its sign. -/
inductive Num where
  | nan
  | inf (neg : Bool)
  | fin (neg : Bool) (m : Nat) (e : Int)
deriving DecidableEq, Repr

/-- The value of an integer times a power of two. -/
def numOfInt (z e : Int) : Num := .fin (decide (z < 0)) z.natAbs e

/-- The value that the low bits of `n` have in a format (R146, R147, R153). -/
def decodeNum (f : Fmt) (n : Nat) : Num :=
  if fmtFloat f then
    let mb := fmtMant f
    let eb := fmtBits f - 1 - mb
    let neg := bitSet n (fmtBits f - 1)
    let ef := bitsOf n mb eb
    let fr := bitsOf n 0 mb
    if ef = 2 ^ eb - 1 ∧ fmtHasInf f then (if fr = 0 then .inf neg else .nan)
    else if f = .e4m3 ∧ ef = 15 ∧ fr = 7 then .nan
    else if ef = 0 then .fin neg fr (1 - (fmtBias f : Int) - mb)
    else .fin neg (2 ^ mb + fr) ((ef : Int) - fmtBias f - mb)
  else if f = .e8m0 then (if n % 256 = 255 then .nan else .fin false 1 ((n % 256 : Nat) - 127 : Int))
  else if f = .mxint8 then numOfInt (signedOf 8 n) (-6)
  else if f = .uint8 ∨ f = .uint4 then .fin false (n % 2 ^ fmtBits f) 0
  else numOfInt (signedOf (fmtBits f) n) 0

/-- `m × 2^k` for a signed exponent, rounded towards zero, with the remainder and the shift it was cut by. -/
def scaleNat (m : Nat) (k : Int) : Nat × Nat × Nat :=
  if 0 ≤ k then (m * 2 ^ k.toNat, 0, 0) else (m / 2 ^ (-k).toNat, m % 2 ^ (-k).toNat, (-k).toNat)

/-- The random input of a rounding: the word `w` and, for a conversion, the exponent of the source spacing `s`
(R150); no spacing for an addition, whose exact value has unbounded precision. -/
structure Draw where
  w       : Nat
  spacing : Option Int
deriving DecidableEq, Repr

/-- No word drawn. -/
def noDraw : Draw := ⟨0, none⟩

/-- Whether the magnitude `t + rem / 2^k` (in units of spacing `2^u`) goes to `t + 1` (R149, R150). -/
def roundUp (rm : Nat) (dr : Draw) (neg : Bool) (t rem k : Nat) (u : Int) : Bool :=
  if rem = 0 then false
  else match rm with
    | 0 => decide (2 ^ k < 2 * rem ∨ (2 * rem = 2 ^ k ∧ t % 2 = 1))
    | 1 => false
    | 2 => !neg
    | 3 => neg
    | _ =>
      match dr.spacing with
      | some s =>
        let d := (u - s).toNat
        if d ≤ 32 then decide (2 ^ d ≤ rem * 2 ^ d / 2 ^ k + dr.w % 2 ^ d)
        else decide (2 ^ 32 ≤ rem * 2 ^ 32 / 2 ^ k + dr.w)
      | none => decide (2 ^ 32 ≤ rem * 2 ^ 32 / 2 ^ k + dr.w)

/-- What an overflow writes (R152); the sign bit is added by the caller for the formats that keep it. -/
def overflowCode (f : Fmt) (rm : Nat) (ovf neg : Bool) : Nat :=
  let sign := b2n neg * 2 ^ (fmtBits f - 1)
  if fmtHasInf f then
    let infCode := fmtMaxCode f + 1
    match rm with
    | 1 => fmtMaxCode f + sign
    | 2 => (if neg then fmtMaxCode f else infCode) + sign
    | 3 => (if neg then infCode else fmtMaxCode f) + sign
    | _ => infCode + sign
  else if f = .e4m3 ∧ ovf then canonNaN f
  else fmtMaxCode f + sign

/-- A finite magnitude `m × 2^e` rounded into a floating format (R149, R150, R152). -/
def roundFloat (f : Fmt) (rm : Nat) (ovf : Bool) (dr : Draw) (neg : Bool) (m : Nat) (e : Int) : Nat :=
  let sign := b2n neg * 2 ^ (fmtBits f - 1)
  if m = 0 then sign
  else
    let mb := fmtMant f
    let emin : Int := 1 - (fmtBias f : Int)
    let ex : Int := max (e + m.log2) emin
    let u : Int := ex - mb
    let (t, rem, k) := scaleNat m (e - u)
    let q := t + b2n (roundUp rm dr neg t rem k u)
    let code := (ex - emin).toNat * 2 ^ mb + q
    if fmtMaxCode f < code then overflowCode f rm ovf neg else code + sign

/-- A finite value rounded to an integer in a mode (R153, with `u = 1`). -/
def roundInt (rm : Nat) (dr : Draw) (neg : Bool) (m : Nat) (e : Int) : Int :=
  let (t, rem, k) := scaleNat m e
  let q : Int := t + b2n (roundUp rm dr neg t rem k 0)
  if neg then -q else q

/-- An integer saturated to an integer format, as its bits (R153). -/
def satInt (f : Fmt) (z : Int) : Nat := wrapInt (fmtBits f) (max (fmtIntMin f) (min (fmtIntMax f) z))

/-- A value written in a format (R149 to R154): the result bits. -/
def encodeNum (f : Fmt) (rm : Nat) (ovf : Bool) (dr : Draw) (x : Num) : Nat :=
  if fmtFloat f then
    match x with
    | .nan => canonNaN f
    | .inf neg =>
      if fmtHasInf f then fmtMaxCode f + 1 + b2n neg * 2 ^ (fmtBits f - 1) else overflowCode f rm ovf neg
    | .fin neg m e => roundFloat f rm ovf dr neg m e
  else if f = .e8m0 then
    match x with
    | .nan => 0xFF
    | .inf _ => 0xFF
    | .fin _ m e => if m = 0 then 0 else (max 0 (min 254 (e + m.log2 + 127))).toNat
  else
    let s : Int := if f = .mxint8 then 6 else 0
    match x with
    | .nan => 0
    | .inf neg => satInt f (if neg then fmtIntMin f else fmtIntMax f)
    | .fin neg m e => satInt f (roundInt rm ⟨dr.w, dr.spacing.map (· + s)⟩ neg m (e + s))

/-- The exponent of an operand's own spacing in its format, subnormal spacing counted (R150). -/
def spacingOf (f : Fmt) (n : Nat) : Int :=
  if fmtFloat f then (match decodeNum f n with | .fin _ _ e => e | _ => 0)
  else if f = .e8m0 then (n % 256 : Nat) - 127
  else if f = .mxint8 then -6 else 0

/-- One element converted from a format to another (R153, R154): `w` the random word of RM 4. -/
def convertNum (src dst : Fmt) (rm : Nat) (ovf : Bool) (w n : Nat) : Nat :=
  let x := decodeNum src n
  if src = dst then (if x = .nan then canonNaN dst else n % 2 ^ fmtBits dst)
  else if fmtInt src ∧ fmtInt dst then
    (match x with | .fin neg m _ => satInt dst (if neg then -(m : Int) else m) | _ => 0)
  else encodeNum dst rm ovf ⟨w, some (spacingOf src n)⟩ x

/-! ### Exact arithmetic on values (R154, R158) -/

/-- The signed mantissa of a finite value. -/
def signedMant (neg : Bool) (m : Nat) : Int := if neg then -(m : Int) else m

/-- The exact sum of two finite values as a mantissa at the lesser exponent. -/
def addMant (n1 : Bool) (m1 : Nat) (e1 : Int) (n2 : Bool) (m2 : Nat) (e2 : Int) : Int × Int :=
  let e := min e1 e2
  (signedMant n1 m1 * 2 ^ (e1 - e).toNat + signedMant n2 m2 * 2 ^ (e2 - e).toNat, e)

/-- The exact sum; a zero sum of unlike signs is +0, and −0 in mode 3 (R154). -/
def addNum (rm : Nat) : Num → Num → Num
  | .nan, _ => .nan
  | _, .nan => .nan
  | .inf a, .inf b => if a = b then .inf a else .nan
  | .inf a, .fin _ _ _ => .inf a
  | .fin _ _ _, .inf b => .inf b
  | .fin n1 m1 e1, .fin n2 m2 e2 =>
    let (z, e) := addMant n1 m1 e1 n2 m2 e2
    if z = 0 then .fin (if n1 = n2 ∧ m1 = 0 ∧ m2 = 0 then n1 else decide (rm = 3)) 0 e
    else .fin (decide (z < 0)) z.natAbs e

/-- The value with its sign turned. -/
def negNum : Num → Num
  | .nan => .nan
  | .inf a => .inf (!a)
  | .fin n m e => .fin (!n) m e

/-- The magnitude. -/
def absNum : Num → Num
  | .nan => .nan
  | .inf _ => .inf false
  | .fin _ m e => .fin false m e

/-- The exact product; infinity times zero is NaN (R154). -/
def mulNum : Num → Num → Num
  | .nan, _ => .nan
  | _, .nan => .nan
  | .inf a, .inf b => .inf (a != b)
  | .inf a, .fin n m _ => if m = 0 then .nan else .inf (a != n)
  | .fin n m _, .inf b => if m = 0 then .nan else .inf (n != b)
  | .fin n1 m1 e1, .fin n2 m2 e2 => .fin (n1 != n2) (m1 * m2) (e1 + e2)

/-- A value times a power of two. -/
def scaleNum (k : Int) : Num → Num
  | .nan => .nan
  | .inf a => .inf a
  | .fin n m e => .fin n m (e + k)

/-- The quotient to 128 significant bits or more with a sticky bit below, enough for every rounding of R149. DESIGN
CHOICE (log 73): x / 0 is an infinity and 0 / 0 and infinity / infinity a NaN, which R154 does not list. -/
def divNum : Num → Num → Num
  | .nan, _ => .nan
  | _, .nan => .nan
  | .inf _, .inf _ => .nan
  | .inf a, .fin n _ _ => .inf (a != n)
  | .fin n _ _, .inf b => .fin (n != b) 0 0
  | .fin n1 m1 e1, .fin n2 m2 e2 =>
    if m2 = 0 then (if m1 = 0 then .nan else .inf (n1 != n2))
    else if m1 = 0 then .fin (n1 != n2) 0 0
    else
      let k := 128 + m2.log2
      let q := m1 * 2 ^ k / m2
      let r := m1 * 2 ^ k % m2
      .fin (n1 != n2) (2 * q + b2n (r != 0)) (e1 - e2 - k - 1)

/-- The integer square root, one bit at a time from bit `fuel − 1` down. -/
def isqrtFrom (n : Nat) : Nat → Nat → Nat
  | 0, r => r
  | b + 1, r => isqrtFrom n b (if (r + 2 ^ b) * (r + 2 ^ b) ≤ n then r + 2 ^ b else r)

/-- The integer square root of `n`. -/
def isqrt (n : Nat) : Nat := isqrtFrom n (n.log2 / 2 + 1) 0

/-- The square root with a sticky bit below; of −0 it is −0, of a negative number NaN. -/
def sqrtNum : Num → Num
  | .nan => .nan
  | .inf false => .inf false
  | .inf true => .nan
  | .fin n m e =>
    if m = 0 then .fin n 0 0
    else if n then .nan
    else
      let e' := if e % 2 = 0 then e - 256 else e - 257
      let m' := m * 2 ^ (e - e').toNat
      let r := isqrt m'
      .fin false (2 * r + b2n (r * r != m')) (e' / 2 - 1)

/-- Strictly less, as numbers; false with a NaN (R154). −0 and +0 are equal. -/
def ltNum : Num → Num → Bool
  | .nan, _ => false
  | _, .nan => false
  | .inf a, .inf b => a && !b
  | .inf a, .fin _ _ _ => a
  | .fin _ _ _, .inf b => !b
  | .fin n1 m1 e1, .fin n2 m2 e2 => decide ((addMant n1 m1 e1 (!n2) m2 e2).1 < 0)

/-- Equal, as numbers; false with a NaN (R154). -/
def eqNum (a b : Num) : Bool := a != .nan && b != .nan && !ltNum a b && !ltNum b a

/-- The sign of a value. -/
def numNeg : Num → Bool
  | .nan => false
  | .inf a => a
  | .fin n _ _ => n

/-- The lesser of two values, −0 below +0 (R154). -/
def minNum (a b : Num) : Num :=
  if a = .nan ∨ b = .nan then .nan
  else if ltNum a b then a else if ltNum b a then b else if numNeg a then a else b

/-- The greater of two values, +0 above −0 (R154). -/
def maxNum (a b : Num) : Num :=
  if a = .nan ∨ b = .nan then .nan
  else if ltNum a b then b else if ltNum b a then a else if numNeg a then b else a

/-- Whether the bits are a NaN or an infinity in a floating format (R163). -/
def nonFinite (f : Fmt) (n : Nat) : Bool :=
  match decodeNum f n with
  | .fin _ _ _ => false
  | _ => true

/-- The FP32 nearest-even sum that every node of a tree performs (R159). -/
def add32 (a b : Nat) : Nat := encodeNum .fp32 0 false noDraw (addNum 0 (decodeNum .fp32 a) (decodeNum .fp32 b))

/-- The tree sum of R159 over `2^n` leaves from `lo`: absent leaves pass the other side up unchanged. -/
def treeSum (leaf : Nat → Option Nat) : Nat → Nat → Option Nat
  | 0, lo => leaf lo
  | n + 1, lo =>
    match treeSum leaf n lo, treeSum leaf n (lo + 2 ^ n) with
    | none, r => r
    | l, none => l
    | some l, some r => some (add32 l r)

/-! ### MX quantisation (R156) -/

/-- The largest unbiased exponent of an MX element format (R156). -/
def mxEmax : Fmt → Int
  | .e4m3 => 8 | .e5m2 => 15 | .e3m2 => 4 | .e2m3 => 2 | .e2m1 => 2 | _ => 0

/-- An element of an MX block: overflow saturates in every element format, whatever OVF says (R156). -/
def encodeMx (f : Fmt) (rm : Nat) (dr : Draw) (x : Num) : Nat :=
  let c := encodeNum f rm false dr x
  if f = .e5m2 ∧ bitsOf c 0 7 = 0x7C then c - 1 else c

/-- A block of source values quantised (R156): the E8M0 code and the elements. `sp` gives each source spacing. -/
def mxQuantise (f : Fmt) (rm : Nat) (words : List Nat) (sps : List Int) (vs : List Num) : Nat × List Nat :=
  if vs.any (fun v => match v with | .fin _ _ _ => false | _ => true) then (0xFF, vs.map (fun _ => 0))
  else
    let amax := vs.foldl (fun a v => maxNum a (absNum v)) (.fin false 0 0)
    let x : Nat := match amax with
      | .fin _ m e => if m = 0 then 0 else (max (-127) (min 127 (e + m.log2 - mxEmax f)) + 127).toNat
      | _ => 0
    (x, vs.zipIdx.map (fun p =>
      encodeMx f rm ⟨words.getD p.2 0, some (sps.getD p.2 0 + (127 - (x : Int)))⟩ (scaleNum (127 - (x : Int)) p.1)))

/-! ### Philox (R169, R170) -/

/-- One round of R169 with the keys as given. -/
def philoxRound (k0 k1 : Nat) (c : Nat × Nat × Nat × Nat) : Nat × Nat × Nat × Nat :=
  let p0 := 0xD2511F53 * c.1
  let p1 := 0xCD9E8D57 * c.2.2.1
  ((p1 / 2 ^ 32) ^^^ c.2.1 ^^^ k0, p1 % 2 ^ 32, (p0 / 2 ^ 32) ^^^ c.2.2.2 ^^^ k1, p0 % 2 ^ 32)

/-- `n` rounds of R169, the keys raised after each. -/
def philoxRounds : Nat → Nat → Nat → Nat × Nat × Nat × Nat → Nat × Nat × Nat × Nat
  | 0, _, _, c => c
  | n + 1, k0, k1, c =>
    philoxRounds n ((k0 + 0x9E3779B9) % 2 ^ 32) ((k1 + 0xBB67AE85) % 2 ^ 32) (philoxRound k0 k1 c)

/-- Philox-4×32 with 10 rounds (R169). -/
def philox (k0 k1 c0 c1 c2 c3 : Nat) : Nat × Nat × Nat × Nat := philoxRounds 10 k0 k1 (c0, c1, c2, c3)

/-- Word `i` of a generator call. -/
def philoxPick (w : Nat × Nat × Nat × Nat) : Nat → Nat
  | 0 => w.1
  | 1 => w.2.1
  | 2 => w.2.2.1
  | _ => w.2.2.2

/-- The random word for element position `p` (R170). -/
def drawWord (seed c2 step p : Nat) : Nat :=
  let q := p % 2 ^ 64 / 4
  philoxPick (philox (seed % 2 ^ 32) (seed / 2 ^ 32 % 2 ^ 32) (q % 2 ^ 32) (q / 2 ^ 32) (c2 % 2 ^ 32) (step % 2 ^ 32)) (p % 4)

end Sys2Proof.Machine
end

