-- ==== Sys2Proof/Config.lean ====
section
/-!
DEFINITION. Configuration constants and free values: what the spec leaves open is an opaque constant with no body, so
that no proof can see a value of it and every claim holds for all of them.
-/

namespace Sys2Proof.Config

/-- A free number, a fresh one for each index (the counter `State.free`): where the spec leaves a value or a choice
open and the machine goes on. Marked in the assumption log. -/
opaque freeNat : Nat → Nat

/-- A free 64-bit word for each index. -/
opaque freeWord : Nat → BitVec 64

/-- A free byte: index, position. -/
opaque freeByte : Nat → Nat → BitVec 8

/-- The candidate bits of the functions of R106 and R107 whose last bits the spec bounds but does not fix: a fixed
function of the function code, the format (true for FP64) and the input bits. -/
opaque trans : Nat → Bool → Nat → Nat

/-- What a conversion or operation writes where the spec states no result (a fixed function of code and input). -/
opaque unstated : Nat → Nat → Nat

/-- Whether a signature over the bytes (by key index) verifies, as the security engine's ECDSA P-384 and LMS/HSS units
compute it (R35, R469): the first argument names the algorithm. -/
opaque sigValid : Nat → Nat → List Nat → Bool

/-- The signature bytes that the device key produces over a message (R477, R478): the first argument names the
algorithm, the second the one-time index. -/
opaque sigMake : Nat → Nat → List Nat → List Nat

/-- The SHA-384 digest of bytes (FIPS 180-4), which the spec names and does not print. -/
opaque sha384 : List Nat → List Nat

/-- What the body of a policy object names: the DEVICE_ID's bytes and the field fuse bits to set (R468); the layout of
the body is stated nowhere. -/
opaque policyDevice : List Nat → List Nat
opaque policyBits : List Nat → List Nat

/-- The key slot that the body of a revocation object revokes (R468); the layout is stated nowhere. -/
opaque revokedSlot : List Nat → Nat

/-- The DEVICE_ID and the nonce that the body of a debug unlock token names (R470); the layout is stated nowhere. -/
opaque tokenDevice : List Nat → List Nat
opaque tokenNonce : List Nat → Nat

/-- The TAP's identification code (R467); its value is stated nowhere. -/
opaque idcode : Nat

/-- The random number generator of the security engine for nonces (R470). -/
opaque nonce : Nat → Nat

/-- The fused energy per byte of a die's canal, bridge and link traffic, in pJ (R372); no value is stated. -/
opaque trafficEnergy : Nat → Nat

end Sys2Proof.Config
end

