-- ==== Sys2Proof/Machine/RegsDie.lean ====
section
/-!
DEFINITION. Register tables: one `RegField` for each row of the spec's register tables, offsets, widths, kinds,
after-reset values and clearing reach as the tables give them (R14 to R17, R60, R61).
-/

namespace Sys2Proof.Machine.R

/-! ### DIE registers (R52, 01_module_organisation.md) -/

/-- DIE.PAGE_CAPS.CLASS_CAPS.HALF_ROWS, R52. -/
def DIE_PAGE_CAPS_CLASS_CAPS_HALF_ROWS : RegField :=
  ⟨.die, "PAGE_CAPS.CLASS_CAPS.HALF_ROWS", 0x8, 0, 0, 1, 16, 7, .ro, false, false, 64, [], .fixed, .never⟩
/-- DIE.STATUS.SELFTEST_DONE, R52. -/
def DIE_STATUS_SELFTEST_DONE : RegField :=
  ⟨.die, "STATUS.SELFTEST_DONE", 0x18, 0, 0, 1, 0, 1, .ro, false, false, 0, [], .fixed, .compute⟩
/-- DIE.STATUS.SPARES_FREE, R52. -/
def DIE_STATUS_SPARES_FREE : RegField :=
  ⟨.die, "STATUS.SPARES_FREE", 0x18, 0, 0, 1, 1, 7, .ro, false, false, 64, [], .calib, .never⟩
/-- DIE.STATUS.BLOCKS_WITHDRAWN, R52. -/
def DIE_STATUS_BLOCKS_WITHDRAWN : RegField :=
  ⟨.die, "STATUS.BLOCKS_WITHDRAWN", 0x18, 0, 0, 1, 8, 6, .ro, false, false, 0, [], .calib, .never⟩
/-- DIE.REPAIR k.COL, R52. -/
def DIE_REPAIR_COL : RegField :=
  ⟨.die, "REPAIR k.COL", 0x100, 4, 0, 64, 0, 6, .ro, false, false, 0, [], .calib, .never⟩
/-- DIE.REPAIR k.USED, R52. -/
def DIE_REPAIR_USED : RegField :=
  ⟨.die, "REPAIR k.USED", 0x100, 4, 0, 64, 6, 1, .ro, false, false, 0, [], .calib, .never⟩
/-- DIE.REPAIR k.FACTORY, R52. -/
def DIE_REPAIR_FACTORY : RegField :=
  ⟨.die, "REPAIR k.FACTORY", 0x100, 4, 0, 64, 7, 1, .ro, false, false, 0, [], .fuse, .never⟩
/-- DIE.REPAIR k.CONDITIONAL, R52. -/
def DIE_REPAIR_CONDITIONAL : RegField :=
  ⟨.die, "REPAIR k.CONDITIONAL", 0x100, 4, 0, 64, 8, 1, .ro, false, false, 0, [], .fixed, .compute⟩
/-- DIE.WITHDRAWN, R52. -/
def DIE_WITHDRAWN : RegField :=
  ⟨.die, "WITHDRAWN", 0x200, 0, 0, 1, 0, 32, .ro, false, false, 0, [], .calib, .never⟩
/-- DIE.SELFTEST_FAILS, R52. -/
def DIE_SELFTEST_FAILS : RegField :=
  ⟨.die, "SELFTEST_FAILS", 0x204, 0, 0, 1, 0, 12, .ro, false, false, 0, [], .fixed, .compute⟩

/-- The register fields of the DIE class, in the order of its table (R52). -/
def DIE_fields : List RegField :=
  [DIE_PAGE_CAPS_CLASS_CAPS_HALF_ROWS, DIE_STATUS_SELFTEST_DONE, DIE_STATUS_SPARES_FREE, DIE_STATUS_BLOCKS_WITHDRAWN, DIE_REPAIR_COL, DIE_REPAIR_USED, DIE_REPAIR_FACTORY, DIE_REPAIR_CONDITIONAL, DIE_WITHDRAWN, DIE_SELFTEST_FAILS]

/-! ### CANAL registers (R53, 01_module_organisation.md) -/

/-- CANAL.PAGE_CAPS.CLASS_CAPS.VCS, R53. -/
def CANAL_PAGE_CAPS_CLASS_CAPS_VCS : RegField :=
  ⟨.canal, "PAGE_CAPS.CLASS_CAPS.VCS", 0x8, 0, 0, 1, 16, 4, .ro, false, false, 8, [], .fixed, .never⟩
/-- CANAL.STATUS.BRIDGE_H, R53. -/
def CANAL_STATUS_BRIDGE_H : RegField :=
  ⟨.canal, "STATUS.BRIDGE_H", 0x18, 0, 0, 1, 0, 1, .ro, false, false, 0, [], .fixed, .compute⟩
/-- CANAL.STATUS.BRIDGE_V, R53. -/
def CANAL_STATUS_BRIDGE_V : RegField :=
  ⟨.canal, "STATUS.BRIDGE_V", 0x18, 0, 0, 1, 1, 1, .ro, false, false, 0, [], .fixed, .compute⟩
/-- CANAL.VC_WEIGHT n, R53. -/
def CANAL_VC_WEIGHT : RegField :=
  ⟨.canal, "VC_WEIGHT n", 0x100, 4, 0, 8, 0, 8, .rw, true, true, 1, [], .fixed, .module⟩
/-- CANAL.CE_COUNT, R53. -/
def CANAL_CE_COUNT : RegField :=
  ⟨.canal, "CE_COUNT", 0x140, 0, 0, 1, 0, 32, .rc, false, false, 0, [], .fixed, .module⟩
/-- CANAL.UE_COUNT, R53. -/
def CANAL_UE_COUNT : RegField :=
  ⟨.canal, "UE_COUNT", 0x144, 0, 0, 1, 0, 32, .rc, false, false, 0, [], .fixed, .module⟩
/-- CANAL.BRIDGE_H_BYTES, R53. -/
def CANAL_BRIDGE_H_BYTES : RegField :=
  ⟨.canal, "BRIDGE_H_BYTES", 0x150, 0, 0, 1, 0, 64, .ro, false, false, 0, [], .fixed, .compute⟩
/-- CANAL.BRIDGE_V_BYTES, R53. -/
def CANAL_BRIDGE_V_BYTES : RegField :=
  ⟨.canal, "BRIDGE_V_BYTES", 0x158, 0, 0, 1, 0, 64, .ro, false, false, 0, [], .fixed, .compute⟩

/-- The register fields of the CANAL class, in the order of its table (R53). -/
def CANAL_fields : List RegField :=
  [CANAL_PAGE_CAPS_CLASS_CAPS_VCS, CANAL_STATUS_BRIDGE_H, CANAL_STATUS_BRIDGE_V, CANAL_VC_WEIGHT, CANAL_CE_COUNT, CANAL_UE_COUNT, CANAL_BRIDGE_H_BYTES, CANAL_BRIDGE_V_BYTES]

/-! ### CORE registers (R115, 03_core.md) -/

/-- CORE.PAGE_CAPS.CLASS_CAPS.SHIFTED, R115. -/
def CORE_PAGE_CAPS_CLASS_CAPS_SHIFTED : RegField :=
  ⟨.core, "PAGE_CAPS.CLASS_CAPS.SHIFTED", 0x8, 0, 0, 1, 16, 1, .ro, false, false, 0, [], .fuse, .never⟩
/-- CORE.CTRL.HOLD, R115. -/
def CORE_CTRL_HOLD : RegField :=
  ⟨.core, "CTRL.HOLD", 0x10, 0, 0, 1, 0, 1, .rw, true, false, 0, [], .fixed, .block⟩
/-- CORE.STATUS.RUNNING, R115. -/
def CORE_STATUS_RUNNING : RegField :=
  ⟨.core, "STATUS.RUNNING", 0x18, 0, 0, 1, 0, 1, .ro, false, false, 0, [], .fixed, .block⟩
/-- CORE.STATUS.HELD, R115. -/
def CORE_STATUS_HELD : RegField :=
  ⟨.core, "STATUS.HELD", 0x18, 0, 0, 1, 1, 1, .ro, false, false, 0, [], .fixed, .block⟩
/-- CORE.STATUS.FAULTED, R115. -/
def CORE_STATUS_FAULTED : RegField :=
  ⟨.core, "STATUS.FAULTED", 0x18, 0, 0, 1, 2, 1, .ro, false, false, 0, [], .fixed, .block⟩
/-- CORE.STATUS.WAIT_BOOK, R115. -/
def CORE_STATUS_WAIT_BOOK : RegField :=
  ⟨.core, "STATUS.WAIT_BOOK", 0x18, 0, 0, 1, 3, 1, .ro, false, false, 0, [], .fixed, .block⟩
/-- CORE.STATUS.WAIT_TALLY, R115. -/
def CORE_STATUS_WAIT_TALLY : RegField :=
  ⟨.core, "STATUS.WAIT_TALLY", 0x18, 0, 0, 1, 4, 1, .ro, false, false, 0, [], .fixed, .block⟩
/-- CORE.STATUS.WAIT_XFER, R115. -/
def CORE_STATUS_WAIT_XFER : RegField :=
  ⟨.core, "STATUS.WAIT_XFER", 0x18, 0, 0, 1, 5, 1, .ro, false, false, 0, [], .fixed, .block⟩
/-- CORE.STATUS.DEBUG_STOP, R115. -/
def CORE_STATUS_DEBUG_STOP : RegField :=
  ⟨.core, "STATUS.DEBUG_STOP", 0x18, 0, 0, 1, 6, 1, .ro, false, false, 0, [], .fixed, .block⟩
/-- CORE.STATUS.GRANTED, R115. -/
def CORE_STATUS_GRANTED : RegField :=
  ⟨.core, "STATUS.GRANTED", 0x18, 0, 0, 1, 7, 3, .ro, false, false, 0, [], .fixed, .block⟩
/-- CORE.STATUS.LOOPS, R115. -/
def CORE_STATUS_LOOPS : RegField :=
  ⟨.core, "STATUS.LOOPS", 0x18, 0, 0, 1, 10, 3, .ro, false, false, 0, [], .fixed, .block⟩
/-- CORE.STATUS.PC, R115. -/
def CORE_STATUS_PC : RegField :=
  ⟨.core, "STATUS.PC", 0x18, 0, 0, 1, 16, 12, .ro, false, false, 0, [], .fixed, .block⟩
/-- CORE.CUR_CTX.CONTEXT, R115. -/
def CORE_CUR_CTX_CONTEXT : RegField :=
  ⟨.core, "CUR_CTX.CONTEXT", 0x100, 0, 0, 1, 0, 6, .ro, false, false, 0, [], .fixed, .block⟩
/-- CORE.CUR_CTX.VALID, R115. -/
def CORE_CUR_CTX_VALID : RegField :=
  ⟨.core, "CUR_CTX.VALID", 0x100, 0, 0, 1, 6, 1, .ro, false, false, 0, [], .fixed, .block⟩
/-- CORE.CUR_CTX.POLDER, R115. -/
def CORE_CUR_CTX_POLDER : RegField :=
  ⟨.core, "CUR_CTX.POLDER", 0x100, 0, 0, 1, 8, 8, .ro, false, false, 0, [], .fixed, .block⟩
/-- CORE.CUR_CTX.GEN, R115. -/
def CORE_CUR_CTX_GEN : RegField :=
  ⟨.core, "CUR_CTX.GEN", 0x100, 0, 0, 1, 16, 16, .ro, false, false, 0, [], .fixed, .block⟩
/-- CORE.CUR_SEG.STREAM, R115. -/
def CORE_CUR_SEG_STREAM : RegField :=
  ⟨.core, "CUR_SEG.STREAM", 0x104, 0, 0, 1, 0, 2, .ro, false, false, 0, [], .fixed, .block⟩
/-- CORE.CUR_SEG.ROLE, R115. -/
def CORE_CUR_SEG_ROLE : RegField :=
  ⟨.core, "CUR_SEG.ROLE", 0x104, 0, 0, 1, 2, 3, .ro, false, false, 0, [], .fixed, .block⟩
/-- CORE.CUR_SEG.RESIDENT, R115. -/
def CORE_CUR_SEG_RESIDENT : RegField :=
  ⟨.core, "CUR_SEG.RESIDENT", 0x104, 0, 0, 1, 5, 3, .ro, false, false, 0, [], .fixed, .block⟩
/-- CORE.BOOKING.REQUESTED, R115. -/
def CORE_BOOKING_REQUESTED : RegField :=
  ⟨.core, "BOOKING.REQUESTED", 0x108, 0, 0, 1, 0, 3, .ro, false, false, 0, [], .fixed, .block⟩
/-- CORE.BOOKING.GRANTED, R115. -/
def CORE_BOOKING_GRANTED : RegField :=
  ⟨.core, "BOOKING.GRANTED", 0x108, 0, 0, 1, 3, 3, .ro, false, false, 0, [], .fixed, .block⟩
/-- CORE.BOOKING.PENDING, R115. -/
def CORE_BOOKING_PENDING : RegField :=
  ⟨.core, "BOOKING.PENDING", 0x108, 0, 0, 1, 6, 1, .ro, false, false, 0, [], .fixed, .block⟩
/-- CORE.TSLOTS.ARMED, R115. -/
def CORE_TSLOTS_ARMED : RegField :=
  ⟨.core, "TSLOTS.ARMED", 0x10c, 0, 0, 1, 0, 4, .ro, false, false, 0, [], .fixed, .block⟩
/-- CORE.TSLOTS.SATISFIED, R115. -/
def CORE_TSLOTS_SATISFIED : RegField :=
  ⟨.core, "TSLOTS.SATISFIED", 0x10c, 0, 0, 1, 4, 4, .ro, false, false, 0, [], .fixed, .block⟩
/-- CORE.XFER.NMOVE_OUT, R115. -/
def CORE_XFER_NMOVE_OUT : RegField :=
  ⟨.core, "XFER.NMOVE_OUT", 0x110, 0, 0, 1, 0, 2, .ro, false, false, 0, [], .fixed, .block⟩
/-- CORE.FAULT_INSN, R115. -/
def CORE_FAULT_INSN : RegField :=
  ⟨.core, "FAULT_INSN", 0x120, 0, 0, 1, 0, 64, .ro, false, false, 0, [], .fixed, .block⟩
/-- CORE.FAULT_PC.PC, R115. -/
def CORE_FAULT_PC_PC : RegField :=
  ⟨.core, "FAULT_PC.PC", 0x128, 0, 0, 1, 0, 12, .ro, false, false, 0, [], .fixed, .block⟩
/-- CORE.FAULT_PC.VALID, R115. -/
def CORE_FAULT_PC_VALID : RegField :=
  ⟨.core, "FAULT_PC.VALID", 0x128, 0, 0, 1, 31, 1, .ro, false, false, 0, [], .fixed, .block⟩
/-- CORE.CE_COUNT, R115. -/
def CORE_CE_COUNT : RegField :=
  ⟨.core, "CE_COUNT", 0x130, 0, 0, 1, 0, 32, .rc, false, false, 0, [], .fixed, .block⟩
/-- CORE.UE_ADDR.ADDR, R115. -/
def CORE_UE_ADDR_ADDR : RegField :=
  ⟨.core, "UE_ADDR.ADDR", 0x134, 0, 0, 1, 0, 18, .ro, false, false, 0, [], .fixed, .block⟩
/-- CORE.UE_ADDR.IMEM, R115. -/
def CORE_UE_ADDR_IMEM : RegField :=
  ⟨.core, "UE_ADDR.IMEM", 0x134, 0, 0, 1, 18, 1, .ro, false, false, 0, [], .fixed, .block⟩
/-- CORE.UE_ADDR.VALID, R115. -/
def CORE_UE_ADDR_VALID : RegField :=
  ⟨.core, "UE_ADDR.VALID", 0x134, 0, 0, 1, 31, 1, .ro, false, false, 0, [], .fixed, .block⟩
/-- CORE.DBG_CTRL.STOP, R115. -/
def CORE_DBG_CTRL_STOP : RegField :=
  ⟨.core, "DBG_CTRL.STOP", 0x140, 0, 0, 1, 0, 1, .rw, false, false, 0, [], .fixed, .block⟩
/-- CORE.DBG_CTRL.STEP, R115. -/
def CORE_DBG_CTRL_STEP : RegField :=
  ⟨.core, "DBG_CTRL.STEP", 0x140, 0, 0, 1, 1, 1, .wo, false, false, 0, [], .fixed, .never⟩
/-- CORE.DBG_CTRL.RESUME, R115. -/
def CORE_DBG_CTRL_RESUME : RegField :=
  ⟨.core, "DBG_CTRL.RESUME", 0x140, 0, 0, 1, 2, 1, .wo, false, false, 0, [], .fixed, .never⟩
/-- CORE.DBG_BP.PC, R115. -/
def CORE_DBG_BP_PC : RegField :=
  ⟨.core, "DBG_BP.PC", 0x144, 0, 0, 1, 0, 12, .rw, false, false, 0, [], .fixed, .block⟩
/-- CORE.DBG_BP.EN, R115. -/
def CORE_DBG_BP_EN : RegField :=
  ⟨.core, "DBG_BP.EN", 0x144, 0, 0, 1, 31, 1, .rw, false, false, 0, [], .fixed, .block⟩
/-- CORE.XREG n, R115. -/
def CORE_XREG : RegField :=
  ⟨.core, "XREG n", 0x200, 8, 1, 31, 0, 64, .ro, false, false, 0, [], .fixed, .block⟩
/-- CORE.EVT_CNT n, R115. -/
def CORE_EVT_CNT : RegField :=
  ⟨.core, "EVT_CNT n", 0x800, 8, 0, 32, 0, 64, .ro, false, false, 0, [], .fixed, .block⟩
/-- CORE.EVT_SEL n, R115. -/
def CORE_EVT_SEL : RegField :=
  ⟨.core, "EVT_SEL n", 0x900, 4, 0, 32, 0, 32, .rw, true, false, 0, [], .fixed, .block⟩

/-- The register fields of the CORE class, in the order of its table (R115). -/
def CORE_fields : List RegField :=
  [CORE_PAGE_CAPS_CLASS_CAPS_SHIFTED, CORE_CTRL_HOLD, CORE_STATUS_RUNNING, CORE_STATUS_HELD, CORE_STATUS_FAULTED, CORE_STATUS_WAIT_BOOK, CORE_STATUS_WAIT_TALLY, CORE_STATUS_WAIT_XFER, CORE_STATUS_DEBUG_STOP, CORE_STATUS_GRANTED, CORE_STATUS_LOOPS, CORE_STATUS_PC, CORE_CUR_CTX_CONTEXT, CORE_CUR_CTX_VALID, CORE_CUR_CTX_POLDER, CORE_CUR_CTX_GEN, CORE_CUR_SEG_STREAM, CORE_CUR_SEG_ROLE, CORE_CUR_SEG_RESIDENT, CORE_BOOKING_REQUESTED] ++
  [CORE_BOOKING_GRANTED, CORE_BOOKING_PENDING, CORE_TSLOTS_ARMED, CORE_TSLOTS_SATISFIED, CORE_XFER_NMOVE_OUT, CORE_FAULT_INSN, CORE_FAULT_PC_PC, CORE_FAULT_PC_VALID, CORE_CE_COUNT, CORE_UE_ADDR_ADDR, CORE_UE_ADDR_IMEM, CORE_UE_ADDR_VALID, CORE_DBG_CTRL_STOP, CORE_DBG_CTRL_STEP, CORE_DBG_CTRL_RESUME, CORE_DBG_BP_PC, CORE_DBG_BP_EN, CORE_XREG, CORE_EVT_CNT, CORE_EVT_SEL]

/-! ### ARRAY registers (R145, 04_matrix_array.md) -/

/-- ARRAY.CFG.AT, R145. -/
def ARRAY_CFG_AT : RegField :=
  ⟨.array, "CFG.AT", 0x1000, 0, 0, 1, 0, 4, .ro, false, false, 0, [], .fixed, .block⟩
/-- ARRAY.CFG.BT, R145. -/
def ARRAY_CFG_BT : RegField :=
  ⟨.array, "CFG.BT", 0x1000, 0, 0, 1, 4, 4, .ro, false, false, 0, [], .fixed, .block⟩
/-- ARRAY.CFG.AMODE, R145. -/
def ARRAY_CFG_AMODE : RegField :=
  ⟨.array, "CFG.AMODE", 0x1000, 0, 0, 1, 8, 1, .ro, false, false, 0, [], .fixed, .block⟩
/-- ARRAY.CFG.XP, R145. -/
def ARRAY_CFG_XP : RegField :=
  ⟨.array, "CFG.XP", 0x1000, 0, 0, 1, 9, 5, .ro, false, false, 0, [], .fixed, .block⟩
/-- ARRAY.CFG.XC2, R145. -/
def ARRAY_CFG_XC2 : RegField :=
  ⟨.array, "CFG.XC2", 0x1000, 0, 0, 1, 14, 5, .ro, false, false, 0, [], .fixed, .block⟩
/-- ARRAY.ACC0_STATE.STATE, R145. -/
def ARRAY_ACC0_STATE_STATE : RegField :=
  ⟨.array, "ACC0_STATE.STATE", 0x1004, 0, 0, 1, 0, 2, .ro, false, false, 0, [], .fixed, .block⟩
/-- ARRAY.ACC0_STATE.KIND, R145. -/
def ARRAY_ACC0_STATE_KIND : RegField :=
  ⟨.array, "ACC0_STATE.KIND", 0x1004, 0, 0, 1, 2, 1, .ro, false, false, 0, [], .fixed, .block⟩
/-- ARRAY.ACC0_STATE.SAT, R145. -/
def ARRAY_ACC0_STATE_SAT : RegField :=
  ⟨.array, "ACC0_STATE.SAT", 0x1004, 0, 0, 1, 3, 1, .ro, false, false, 0, [], .fixed, .block⟩
/-- ARRAY.ACC0_STATE.POISON, R145. -/
def ARRAY_ACC0_STATE_POISON : RegField :=
  ⟨.array, "ACC0_STATE.POISON", 0x1004, 0, 0, 1, 4, 1, .ro, false, false, 0, [], .fixed, .block⟩
/-- ARRAY.ACC0_STATE.TILE, R145. -/
def ARRAY_ACC0_STATE_TILE : RegField :=
  ⟨.array, "ACC0_STATE.TILE", 0x1004, 0, 0, 1, 8, 4, .ro, false, false, 0, [], .fixed, .block⟩
/-- ARRAY.ACC0_STATE.INFLIGHT, R145. -/
def ARRAY_ACC0_STATE_INFLIGHT : RegField :=
  ⟨.array, "ACC0_STATE.INFLIGHT", 0x1004, 0, 0, 1, 12, 2, .ro, false, false, 0, [], .fixed, .block⟩
/-- ARRAY.ACC0_SHAPE.M, R145. -/
def ARRAY_ACC0_SHAPE_M : RegField :=
  ⟨.array, "ACC0_SHAPE.M", 0x1008, 0, 0, 1, 0, 10, .ro, false, false, 0, [], .fixed, .block⟩
/-- ARRAY.ACC0_SHAPE.N, R145. -/
def ARRAY_ACC0_SHAPE_N : RegField :=
  ⟨.array, "ACC0_SHAPE.N", 0x1008, 0, 0, 1, 16, 10, .ro, false, false, 0, [], .fixed, .block⟩
/-- ARRAY.ACC1_STATE, R145. -/
def ARRAY_ACC1_STATE : RegField :=
  ⟨.array, "ACC1_STATE", 0x100c, 0, 0, 1, 0, 32, .ro, false, false, 0, [], .fixed, .block⟩
/-- ARRAY.ACC1_SHAPE, R145. -/
def ARRAY_ACC1_SHAPE : RegField :=
  ⟨.array, "ACC1_SHAPE", 0x1010, 0, 0, 1, 0, 32, .ro, false, false, 0, [], .fixed, .block⟩
/-- ARRAY.ASTATUS.BUSY, R145. -/
def ARRAY_ASTATUS_BUSY : RegField :=
  ⟨.array, "ASTATUS.BUSY", 0x1014, 0, 0, 1, 0, 1, .ro, false, false, 0, [], .fixed, .block⟩
/-- ARRAY.ASTATUS.WAIT_ACC, R145. -/
def ARRAY_ASTATUS_WAIT_ACC : RegField :=
  ⟨.array, "ASTATUS.WAIT_ACC", 0x1014, 0, 0, 1, 1, 1, .ro, false, false, 0, [], .fixed, .block⟩
/-- ARRAY.ASTATUS.WAIT_QUEUE, R145. -/
def ARRAY_ASTATUS_WAIT_QUEUE : RegField :=
  ⟨.array, "ASTATUS.WAIT_QUEUE", 0x1014, 0, 0, 1, 2, 1, .ro, false, false, 0, [], .fixed, .block⟩
/-- ARRAY.ASTATUS.QLEN, R145. -/
def ARRAY_ASTATUS_QLEN : RegField :=
  ⟨.array, "ASTATUS.QLEN", 0x1014, 0, 0, 1, 3, 2, .ro, false, false, 0, [], .fixed, .block⟩
/-- ARRAY.ASTATUS.DRAIN, R145. -/
def ARRAY_ASTATUS_DRAIN : RegField :=
  ⟨.array, "ASTATUS.DRAIN", 0x1014, 0, 0, 1, 5, 1, .ro, false, false, 0, [], .fixed, .block⟩
/-- ARRAY.ASTATUS.FOLD, R145. -/
def ARRAY_ASTATUS_FOLD : RegField :=
  ⟨.array, "ASTATUS.FOLD", 0x1014, 0, 0, 1, 16, 9, .ro, false, false, 0, [], .fixed, .block⟩
/-- ARRAY.MMA_COUNT, R145. -/
def ARRAY_MMA_COUNT : RegField :=
  ⟨.array, "MMA_COUNT", 0x1020, 0, 0, 1, 0, 64, .ro, false, false, 0, [], .fixed, .block⟩
/-- ARRAY.MAC_COUNT, R145. -/
def ARRAY_MAC_COUNT : RegField :=
  ⟨.array, "MAC_COUNT", 0x1028, 0, 0, 1, 0, 64, .ro, false, false, 0, [], .fixed, .block⟩
/-- ARRAY.CELL_SLOTS, R145. -/
def ARRAY_CELL_SLOTS : RegField :=
  ⟨.array, "CELL_SLOTS", 0x1030, 0, 0, 1, 0, 64, .ro, false, false, 0, [], .fixed, .block⟩
/-- ARRAY.SAT_COUNT, R145. -/
def ARRAY_SAT_COUNT : RegField :=
  ⟨.array, "SAT_COUNT", 0x1038, 0, 0, 1, 0, 32, .rc, false, false, 0, [], .fixed, .block⟩
/-- ARRAY.ACC_CE_COUNT, R145. -/
def ARRAY_ACC_CE_COUNT : RegField :=
  ⟨.array, "ACC_CE_COUNT", 0x103c, 0, 0, 1, 0, 32, .rc, false, false, 0, [], .fixed, .block⟩
/-- ARRAY.ACC_UE.ENTRY, R145. -/
def ARRAY_ACC_UE_ENTRY : RegField :=
  ⟨.array, "ACC_UE.ENTRY", 0x1040, 0, 0, 1, 0, 12, .ro, false, false, 0, [], .fixed, .block⟩
/-- ARRAY.ACC_UE.ACC, R145. -/
def ARRAY_ACC_UE_ACC : RegField :=
  ⟨.array, "ACC_UE.ACC", 0x1040, 0, 0, 1, 12, 1, .ro, false, false, 0, [], .fixed, .block⟩
/-- ARRAY.ACC_UE.VALID, R145. -/
def ARRAY_ACC_UE_VALID : RegField :=
  ⟨.array, "ACC_UE.VALID", 0x1040, 0, 0, 1, 31, 1, .ro, false, false, 0, [], .fixed, .block⟩
/-- ARRAY.ACC_DBG_IDX.ENTRY, R145. -/
def ARRAY_ACC_DBG_IDX_ENTRY : RegField :=
  ⟨.array, "ACC_DBG_IDX.ENTRY", 0x1050, 0, 0, 1, 0, 12, .rw, false, false, 0, [], .fixed, .block⟩
/-- ARRAY.ACC_DBG_IDX.ACC, R145. -/
def ARRAY_ACC_DBG_IDX_ACC : RegField :=
  ⟨.array, "ACC_DBG_IDX.ACC", 0x1050, 0, 0, 1, 12, 1, .rw, false, false, 0, [], .fixed, .block⟩
/-- ARRAY.ACC_DBG_DATA, R145. -/
def ARRAY_ACC_DBG_DATA : RegField :=
  ⟨.array, "ACC_DBG_DATA", 0x1054, 0, 0, 1, 0, 32, .ro, false, false, 0, [], .fixed, .never⟩

/-- The register fields of the ARRAY class, in the order of its table (R145). -/
def ARRAY_fields : List RegField :=
  [ARRAY_CFG_AT, ARRAY_CFG_BT, ARRAY_CFG_AMODE, ARRAY_CFG_XP, ARRAY_CFG_XC2, ARRAY_ACC0_STATE_STATE, ARRAY_ACC0_STATE_KIND, ARRAY_ACC0_STATE_SAT, ARRAY_ACC0_STATE_POISON, ARRAY_ACC0_STATE_TILE, ARRAY_ACC0_STATE_INFLIGHT, ARRAY_ACC0_SHAPE_M, ARRAY_ACC0_SHAPE_N, ARRAY_ACC1_STATE, ARRAY_ACC1_SHAPE, ARRAY_ASTATUS_BUSY, ARRAY_ASTATUS_WAIT_ACC, ARRAY_ASTATUS_WAIT_QUEUE, ARRAY_ASTATUS_QLEN, ARRAY_ASTATUS_DRAIN] ++
  [ARRAY_ASTATUS_FOLD, ARRAY_MMA_COUNT, ARRAY_MAC_COUNT, ARRAY_CELL_SLOTS, ARRAY_SAT_COUNT, ARRAY_ACC_CE_COUNT, ARRAY_ACC_UE_ENTRY, ARRAY_ACC_UE_ACC, ARRAY_ACC_UE_VALID, ARRAY_ACC_DBG_IDX_ENTRY, ARRAY_ACC_DBG_IDX_ACC, ARRAY_ACC_DBG_DATA]

/-! ### MEMC registers (R211, 06_memory_tiers.md) -/

/-- MEMC.PAGE_CAPS.CLASS_CAPS.SECT, R211. -/
def MEMC_PAGE_CAPS_CLASS_CAPS_SECT : RegField :=
  ⟨.memc, "PAGE_CAPS.CLASS_CAPS.SECT", 0x8, 0, 0, 1, 16, 1, .ro, false, false, 0, [], .derived, .never⟩
/-- MEMC.CTRL.SCRUB_EN, R211. -/
def MEMC_CTRL_SCRUB_EN : RegField :=
  ⟨.memc, "CTRL.SCRUB_EN", 0x10, 0, 0, 1, 0, 1, .rw, true, true, 1, [], .fixed, .module⟩
/-- MEMC.STATUS.TRAINED, R211. -/
def MEMC_STATUS_TRAINED : RegField :=
  ⟨.memc, "STATUS.TRAINED", 0x18, 0, 0, 1, 0, 1, .ro, false, false, 0, [], .fixed, .module⟩
/-- MEMC.STATUS.SELF_REFRESH, R211. -/
def MEMC_STATUS_SELF_REFRESH : RegField :=
  ⟨.memc, "STATUS.SELF_REFRESH", 0x18, 0, 0, 1, 1, 1, .ro, false, false, 0, [], .fixed, .module⟩
/-- MEMC.STATUS.MAPOUT_PENDING, R211. -/
def MEMC_STATUS_MAPOUT_PENDING : RegField :=
  ⟨.memc, "STATUS.MAPOUT_PENDING", 0x18, 0, 0, 1, 2, 1, .ro, false, false, 0, [], .fixed, .module⟩
/-- MEMC.STATUS.RELOCATING, R211. -/
def MEMC_STATUS_RELOCATING : RegField :=
  ⟨.memc, "STATUS.RELOCATING", 0x18, 0, 0, 1, 3, 1, .ro, false, false, 0, [], .fixed, .module⟩
/-- MEMC.CH_STATE_LO, R211. -/
def MEMC_CH_STATE_LO : RegField :=
  ⟨.memc, "CH_STATE_LO", 0x100, 0, 0, 1, 0, 32, .ro, false, false, 0, [], .calib, .never⟩
/-- MEMC.CH_STATE_HI, R211. -/
def MEMC_CH_STATE_HI : RegField :=
  ⟨.memc, "CH_STATE_HI", 0x104, 0, 0, 1, 0, 32, .ro, false, false, 0, [], .calib, .never⟩
/-- MEMC.MAPOUT_REQ.CH, R211. -/
def MEMC_MAPOUT_REQ_CH : RegField :=
  ⟨.memc, "MAPOUT_REQ.CH", 0x108, 0, 0, 1, 0, 5, .wo, false, false, 0, [], .fixed, .never⟩
/-- MEMC.MAPOUT_GO.GO, R211. -/
def MEMC_MAPOUT_GO_GO : RegField :=
  ⟨.memc, "MAPOUT_GO.GO", 0x10c, 0, 0, 1, 0, 1, .wo, false, false, 0, [], .fixed, .never⟩
/-- MEMC.CE_LIMIT, R211. -/
def MEMC_CE_LIMIT : RegField :=
  ⟨.memc, "CE_LIMIT", 0x110, 0, 0, 1, 0, 32, .rw, true, true, 10000, [], .fixed, .module⟩
/-- MEMC.SCRUB_HOURS, R211. -/
def MEMC_SCRUB_HOURS : RegField :=
  ⟨.memc, "SCRUB_HOURS", 0x114, 0, 0, 1, 0, 8, .rw, true, true, 8, [], .fixed, .module⟩
/-- MEMC.CE_COUNT, R211. -/
def MEMC_CE_COUNT : RegField :=
  ⟨.memc, "CE_COUNT", 0x118, 0, 0, 1, 0, 32, .rc, false, false, 0, [], .fixed, .module⟩
/-- MEMC.UE_COUNT, R211. -/
def MEMC_UE_COUNT : RegField :=
  ⟨.memc, "UE_COUNT", 0x11c, 0, 0, 1, 0, 32, .rc, false, false, 0, [], .fixed, .module⟩
/-- MEMC.DET_COUNT, R211. -/
def MEMC_DET_COUNT : RegField :=
  ⟨.memc, "DET_COUNT", 0x120, 0, 0, 1, 0, 32, .rc, false, false, 0, [], .fixed, .module⟩
/-- MEMC.SCRUB_UE_COUNT, R211. -/
def MEMC_SCRUB_UE_COUNT : RegField :=
  ⟨.memc, "SCRUB_UE_COUNT", 0x124, 0, 0, 1, 0, 32, .rc, false, false, 0, [], .fixed, .module⟩
/-- MEMC.LAST_ERR_ADDR, R211. -/
def MEMC_LAST_ERR_ADDR : RegField :=
  ⟨.memc, "LAST_ERR_ADDR", 0x128, 0, 0, 1, 0, 48, .ro, false, false, 0, [], .fixed, .module⟩
/-- MEMC.LAST_ERR.CH, R211. -/
def MEMC_LAST_ERR_CH : RegField :=
  ⟨.memc, "LAST_ERR.CH", 0x130, 0, 0, 1, 0, 5, .ro, false, false, 0, [], .fixed, .module⟩
/-- MEMC.LAST_ERR.SYMBOLS, R211. -/
def MEMC_LAST_ERR_SYMBOLS : RegField :=
  ⟨.memc, "LAST_ERR.SYMBOLS", 0x130, 0, 0, 1, 5, 4, .ro, false, false, 0, [], .fixed, .module⟩
/-- MEMC.LAST_ERR.CLASS, R211. -/
def MEMC_LAST_ERR_CLASS : RegField :=
  ⟨.memc, "LAST_ERR.CLASS", 0x130, 0, 0, 1, 9, 1, .ro, false, false, 0, [], .fixed, .module⟩
/-- MEMC.LAST_ERR.VALID, R211. -/
def MEMC_LAST_ERR_VALID : RegField :=
  ⟨.memc, "LAST_ERR.VALID", 0x130, 0, 0, 1, 31, 1, .ro, false, false, 0, [], .fixed, .module⟩
/-- MEMC.RD_BYTES, R211. -/
def MEMC_RD_BYTES : RegField :=
  ⟨.memc, "RD_BYTES", 0x140, 0, 0, 1, 0, 64, .ro, false, false, 0, [], .fixed, .module⟩
/-- MEMC.WR_BYTES, R211. -/
def MEMC_WR_BYTES : RegField :=
  ⟨.memc, "WR_BYTES", 0x148, 0, 0, 1, 0, 64, .ro, false, false, 0, [], .fixed, .module⟩
/-- MEMC.BACKED_MIB, R211. -/
def MEMC_BACKED_MIB : RegField :=
  ⟨.memc, "BACKED_MIB", 0x180, 0, 0, 1, 0, 20, .ro, false, false, 524288, [], .calib, .never⟩
/-- MEMC.SECT n.MODE, R211. -/
def MEMC_SECT_MODE : RegField :=
  ⟨.memc, "SECT n.MODE", 0x800, 4, 0, 512, 0, 2, .rw, true, true, 0, [], .fixed, .module⟩
/-- MEMC.SECT n.SET, R211. -/
def MEMC_SECT_SET : RegField :=
  ⟨.memc, "SECT n.SET", 0x800, 4, 0, 512, 2, 3, .rw, true, true, 0, [], .fixed, .module⟩
/-- MEMC.SECT n.CLASS, R211. -/
def MEMC_SECT_CLASS : RegField :=
  ⟨.memc, "SECT n.CLASS", 0x800, 4, 0, 512, 5, 1, .rw, true, true, 0, [], .fixed, .module⟩
/-- MEMC.SECT n.PIECE, R211. -/
def MEMC_SECT_PIECE : RegField :=
  ⟨.memc, "SECT n.PIECE", 0x800, 4, 0, 512, 6, 9, .rw, true, true, 0, [], .fixed, .module⟩

/-- The register fields of the MEMC class, in the order of its table (R211). -/
def MEMC_fields : List RegField :=
  [MEMC_PAGE_CAPS_CLASS_CAPS_SECT, MEMC_CTRL_SCRUB_EN, MEMC_STATUS_TRAINED, MEMC_STATUS_SELF_REFRESH, MEMC_STATUS_MAPOUT_PENDING, MEMC_STATUS_RELOCATING, MEMC_CH_STATE_LO, MEMC_CH_STATE_HI, MEMC_MAPOUT_REQ_CH, MEMC_MAPOUT_GO_GO, MEMC_CE_LIMIT, MEMC_SCRUB_HOURS, MEMC_CE_COUNT, MEMC_UE_COUNT, MEMC_DET_COUNT, MEMC_SCRUB_UE_COUNT, MEMC_LAST_ERR_ADDR, MEMC_LAST_ERR_CH, MEMC_LAST_ERR_SYMBOLS, MEMC_LAST_ERR_CLASS] ++
  [MEMC_LAST_ERR_VALID, MEMC_RD_BYTES, MEMC_WR_BYTES, MEMC_BACKED_MIB, MEMC_SECT_MODE, MEMC_SECT_SET, MEMC_SECT_CLASS, MEMC_SECT_PIECE]

/-! ### BARGE registers (R212, 06_memory_tiers.md) -/

/-- BARGE.CTRL.HOLD, R212. -/
def BARGE_CTRL_HOLD : RegField :=
  ⟨.barge, "CTRL.HOLD", 0x10, 0, 0, 1, 0, 1, .rw, true, false, 0, [], .fixed, .block⟩
/-- BARGE.STATUS.INFLIGHT, R212. -/
def BARGE_STATUS_INFLIGHT : RegField :=
  ⟨.barge, "STATUS.INFLIGHT", 0x18, 0, 0, 1, 0, 6, .ro, false, false, 0, [], .fixed, .block⟩
/-- BARGE.STATUS.HELD, R212. -/
def BARGE_STATUS_HELD : RegField :=
  ⟨.barge, "STATUS.HELD", 0x18, 0, 0, 1, 6, 1, .ro, false, false, 0, [], .fixed, .block⟩
/-- BARGE.STATUS.WAIT_BOOK, R212. -/
def BARGE_STATUS_WAIT_BOOK : RegField :=
  ⟨.barge, "STATUS.WAIT_BOOK", 0x18, 0, 0, 1, 7, 1, .ro, false, false, 0, [], .fixed, .block⟩
/-- BARGE.DONE, R212. -/
def BARGE_DONE : RegField :=
  ⟨.barge, "DONE", 0x100, 0, 0, 1, 0, 64, .ro, false, false, 0, [], .fixed, .block⟩
/-- BARGE.BYTES, R212. -/
def BARGE_BYTES : RegField :=
  ⟨.barge, "BYTES", 0x108, 0, 0, 1, 0, 64, .ro, false, false, 0, [], .fixed, .block⟩
/-- BARGE.CANCELLED, R212. -/
def BARGE_CANCELLED : RegField :=
  ⟨.barge, "CANCELLED", 0x110, 0, 0, 1, 0, 32, .rc, false, false, 0, [], .fixed, .block⟩
/-- BARGE.ERR_CTX.CONTEXT, R212. -/
def BARGE_ERR_CTX_CONTEXT : RegField :=
  ⟨.barge, "ERR_CTX.CONTEXT", 0x114, 0, 0, 1, 0, 6, .ro, false, false, 0, [], .fixed, .block⟩
/-- BARGE.ERR_CTX.VALID, R212. -/
def BARGE_ERR_CTX_VALID : RegField :=
  ⟨.barge, "ERR_CTX.VALID", 0x114, 0, 0, 1, 6, 1, .ro, false, false, 0, [], .fixed, .block⟩
/-- BARGE.ERR_CTX.POLDER, R212. -/
def BARGE_ERR_CTX_POLDER : RegField :=
  ⟨.barge, "ERR_CTX.POLDER", 0x114, 0, 0, 1, 8, 8, .ro, false, false, 0, [], .fixed, .block⟩
/-- BARGE.ERR_CTX.GEN, R212. -/
def BARGE_ERR_CTX_GEN : RegField :=
  ⟨.barge, "ERR_CTX.GEN", 0x114, 0, 0, 1, 16, 16, .ro, false, false, 0, [], .fixed, .block⟩
/-- BARGE.ERR_DESC n, R212. -/
def BARGE_ERR_DESC : RegField :=
  ⟨.barge, "ERR_DESC n", 0x180, 4, 0, 16, 0, 32, .ro, false, false, 0, [], .fixed, .block⟩
/-- BARGE.EVT_SEL n, R212. -/
def BARGE_EVT_SEL : RegField :=
  ⟨.barge, "EVT_SEL n", 0x200, 4, 0, 8, 0, 32, .rw, true, false, 0, [], .fixed, .block⟩
/-- BARGE.EVT_CNT n, R212. -/
def BARGE_EVT_CNT : RegField :=
  ⟨.barge, "EVT_CNT n", 0x240, 8, 0, 8, 0, 64, .ro, false, false, 0, [], .fixed, .block⟩

/-- The register fields of the BARGE class, in the order of its table (R212). -/
def BARGE_fields : List RegField :=
  [BARGE_CTRL_HOLD, BARGE_STATUS_INFLIGHT, BARGE_STATUS_HELD, BARGE_STATUS_WAIT_BOOK, BARGE_DONE, BARGE_BYTES, BARGE_CANCELLED, BARGE_ERR_CTX_CONTEXT, BARGE_ERR_CTX_VALID, BARGE_ERR_CTX_POLDER, BARGE_ERR_CTX_GEN, BARGE_ERR_DESC, BARGE_EVT_SEL, BARGE_EVT_CNT]

/-! ### UPD registers (R243, 07_update_engines.md) -/

/-- UPD.CTRL.HOLD, R243. -/
def UPD_CTRL_HOLD : RegField :=
  ⟨.upd, "CTRL.HOLD", 0x10, 0, 0, 1, 0, 1, .rw, true, false, 0, [], .fixed, .compute⟩
/-- UPD.STATUS.BOUND, R243. -/
def UPD_STATUS_BOUND : RegField :=
  ⟨.upd, "STATUS.BOUND", 0x18, 0, 0, 1, 0, 4, .ro, false, false, 0, [], .fixed, .compute⟩
/-- UPD.STATUS.BUSY, R243. -/
def UPD_STATUS_BUSY : RegField :=
  ⟨.upd, "STATUS.BUSY", 0x18, 0, 0, 1, 4, 1, .ro, false, false, 0, [], .fixed, .compute⟩
/-- UPD.STATUS.HELD, R243. -/
def UPD_STATUS_HELD : RegField :=
  ⟨.upd, "STATUS.HELD", 0x18, 0, 0, 1, 5, 1, .ro, false, false, 0, [], .fixed, .compute⟩
/-- UPD.BIND n.DESC, R243. -/
def UPD_BIND_DESC : RegField :=
  ⟨.upd, "BIND n.DESC", 0x100, 128, 0, 4, 0, 64, .rw, true, true, 0, [], .fixed, .compute⟩
/-- UPD.BIND n.CTRL.VALID, R243. -/
def UPD_BIND_CTRL_VALID : RegField :=
  ⟨.upd, "BIND n.CTRL.VALID", 0x108, 128, 0, 4, 0, 1, .rw, true, false, 0, [], .fixed, .compute⟩
/-- UPD.BIND n.CTRL.SHARE, R243. -/
def UPD_BIND_CTRL_SHARE : RegField :=
  ⟨.upd, "BIND n.CTRL.SHARE", 0x108, 128, 0, 4, 8, 8, .rw, true, false, 1, [], .fixed, .compute⟩
/-- UPD.BIND n.STATE.PHASE, R243. -/
def UPD_BIND_STATE_PHASE : RegField :=
  ⟨.upd, "BIND n.STATE.PHASE", 0x10c, 128, 0, 4, 0, 3, .ro, false, false, 0, [], .fixed, .compute⟩
/-- UPD.BIND n.STATE.RESTORE, R243. -/
def UPD_BIND_STATE_RESTORE : RegField :=
  ⟨.upd, "BIND n.STATE.RESTORE", 0x10c, 128, 0, 4, 16, 16, .ro, false, false, 0, [], .fixed, .compute⟩
/-- UPD.BIND n.STEP, R243. -/
def UPD_BIND_STEP : RegField :=
  ⟨.upd, "BIND n.STEP", 0x110, 128, 0, 4, 0, 32, .ro, false, false, 0, [], .fixed, .compute⟩
/-- UPD.BIND n.OPT_COUNT, R243. -/
def UPD_BIND_OPT_COUNT : RegField :=
  ⟨.upd, "BIND n.OPT_COUNT", 0x114, 128, 0, 4, 0, 32, .ro, false, false, 0, [], .fixed, .compute⟩
/-- UPD.BIND n.LATE_DROP, R243. -/
def UPD_BIND_LATE_DROP : RegField :=
  ⟨.upd, "BIND n.LATE_DROP", 0x118, 128, 0, 4, 0, 32, .rc, false, false, 0, [], .fixed, .compute⟩
/-- UPD.BIND n.POOL_FREE, R243. -/
def UPD_BIND_POOL_FREE : RegField :=
  ⟨.upd, "BIND n.POOL_FREE", 0x11c, 128, 0, 4, 0, 16, .ro, false, false, 0, [], .fixed, .compute⟩
/-- UPD.BIND n.MIRROR_WAIT, R243. -/
def UPD_BIND_MIRROR_WAIT : RegField :=
  ⟨.upd, "BIND n.MIRROR_WAIT", 0x120, 128, 0, 4, 0, 64, .ro, false, false, 0, [], .fixed, .compute⟩
/-- UPD.BIND n.GRAD_SQ, R243. -/
def UPD_BIND_GRAD_SQ : RegField :=
  ⟨.upd, "BIND n.GRAD_SQ", 0x128, 128, 0, 4, 0, 64, .ro, false, false, 0, [], .fixed, .compute⟩
/-- UPD.BIND n.UPD_SQ, R243. -/
def UPD_BIND_UPD_SQ : RegField :=
  ⟨.upd, "BIND n.UPD_SQ", 0x130, 128, 0, 4, 0, 64, .ro, false, false, 0, [], .fixed, .compute⟩
/-- UPD.BIND n.GROUP_SQ, R243. -/
def UPD_BIND_GROUP_SQ : RegField :=
  ⟨.upd, "BIND n.GROUP_SQ", 0x138, 128, 0, 4, 0, 64, .ro, false, false, 0, [], .fixed, .compute⟩
/-- UPD.BIND n.NONFINITE, R243. -/
def UPD_BIND_NONFINITE : RegField :=
  ⟨.upd, "BIND n.NONFINITE", 0x140, 128, 0, 4, 0, 64, .ro, false, false, 0, [], .fixed, .compute⟩
/-- UPD.BIND n.SHARD_CRC, R243. -/
def UPD_BIND_SHARD_CRC : RegField :=
  ⟨.upd, "BIND n.SHARD_CRC", 0x148, 128, 0, 4, 0, 64, .ro, false, false, 0, [], .fixed, .compute⟩
/-- UPD.BIND n.GATHERS, R243. -/
def UPD_BIND_GATHERS : RegField :=
  ⟨.upd, "BIND n.GATHERS", 0x150, 128, 0, 4, 0, 64, .ro, false, false, 0, [], .fixed, .compute⟩
/-- UPD.BIND n.UPD_TICKS, R243. -/
def UPD_BIND_UPD_TICKS : RegField :=
  ⟨.upd, "BIND n.UPD_TICKS", 0x158, 128, 0, 4, 0, 64, .ro, false, false, 0, [], .fixed, .compute⟩

/-- The register fields of the UPD class, in the order of its table (R243). -/
def UPD_fields : List RegField :=
  [UPD_CTRL_HOLD, UPD_STATUS_BOUND, UPD_STATUS_BUSY, UPD_STATUS_HELD, UPD_BIND_DESC, UPD_BIND_CTRL_VALID, UPD_BIND_CTRL_SHARE, UPD_BIND_STATE_PHASE, UPD_BIND_STATE_RESTORE, UPD_BIND_STEP, UPD_BIND_OPT_COUNT, UPD_BIND_LATE_DROP, UPD_BIND_POOL_FREE, UPD_BIND_MIRROR_WAIT, UPD_BIND_GRAD_SQ, UPD_BIND_UPD_SQ, UPD_BIND_GROUP_SQ, UPD_BIND_NONFINITE, UPD_BIND_SHARD_CRC, UPD_BIND_GATHERS] ++
  [UPD_BIND_UPD_TICKS]

/-! ### LINK registers (R308, 09_links_collectives.md) -/

/-- LINK.PAGE_CAPS.CLASS_CAPS.OUTER, R308. -/
def LINK_PAGE_CAPS_CLASS_CAPS_OUTER : RegField :=
  ⟨.link, "PAGE_CAPS.CLASS_CAPS.OUTER", 0x8, 0, 0, 1, 16, 1, .ro, false, false, 0, [], .derived, .never⟩
/-- LINK.CTRL.ENABLE, R308. -/
def LINK_CTRL_ENABLE : RegField :=
  ⟨.link, "CTRL.ENABLE", 0x10, 0, 0, 1, 0, 1, .rw, true, true, 1, [], .fixed, .module⟩
/-- LINK.CTRL.FENCE, R308. -/
def LINK_CTRL_FENCE : RegField :=
  ⟨.link, "CTRL.FENCE", 0x10, 0, 0, 1, 1, 1, .rw, true, false, 1, [], .fixed, .compute⟩
/-- LINK.CTRL.MODE, R308. -/
def LINK_CTRL_MODE : RegField :=
  ⟨.link, "CTRL.MODE", 0x10, 0, 0, 1, 2, 2, .rw, true, true, 0, [], .fixed, .module⟩
/-- LINK.CTRL.LANE_112, R308. -/
def LINK_CTRL_LANE_112 : RegField :=
  ⟨.link, "CTRL.LANE_112", 0x10, 0, 0, 1, 4, 1, .rw, true, true, 0, [], .strap, .module⟩
/-- LINK.CTRL.SPREAD_ADV, R308. -/
def LINK_CTRL_SPREAD_ADV : RegField :=
  ⟨.link, "CTRL.SPREAD_ADV", 0x10, 0, 0, 1, 5, 1, .rw, true, true, 1, [], .fixed, .module⟩
/-- LINK.STATUS.STATE, R308. -/
def LINK_STATUS_STATE : RegField :=
  ⟨.link, "STATUS.STATE", 0x18, 0, 0, 1, 0, 3, .ro, false, false, 0, [], .fixed, .block⟩
/-- LINK.STATUS.RATE_224, R308. -/
def LINK_STATUS_RATE_224 : RegField :=
  ⟨.link, "STATUS.RATE_224", 0x18, 0, 0, 1, 3, 1, .ro, false, false, 0, [], .fixed, .block⟩
/-- LINK.STATUS.VERSION, R308. -/
def LINK_STATUS_VERSION : RegField :=
  ⟨.link, "STATUS.VERSION", 0x18, 0, 0, 1, 4, 4, .ro, false, false, 0, [], .fixed, .block⟩
/-- LINK.STATUS.FEC_528, R308. -/
def LINK_STATUS_FEC_528 : RegField :=
  ⟨.link, "STATUS.FEC_528", 0x18, 0, 0, 1, 8, 1, .ro, false, false, 0, [], .fixed, .block⟩
/-- LINK.STATUS.SPREAD_ON, R308. -/
def LINK_STATUS_SPREAD_ON : RegField :=
  ⟨.link, "STATUS.SPREAD_ON", 0x18, 0, 0, 1, 9, 1, .ro, false, false, 0, [], .fixed, .block⟩
/-- LINK.STATUS.ORDERED, R308. -/
def LINK_STATUS_ORDERED : RegField :=
  ⟨.link, "STATUS.ORDERED", 0x18, 0, 0, 1, 10, 1, .ro, false, false, 0, [], .fixed, .block⟩
/-- LINK.STATUS.TALLY_OPS, R308. -/
def LINK_STATUS_TALLY_OPS : RegField :=
  ⟨.link, "STATUS.TALLY_OPS", 0x18, 0, 0, 1, 11, 1, .ro, false, false, 0, [], .fixed, .block⟩
/-- LINK.STATUS.EMB_V2, R308. -/
def LINK_STATUS_EMB_V2 : RegField :=
  ⟨.link, "STATUS.EMB_V2", 0x18, 0, 0, 1, 12, 1, .ro, false, false, 0, [], .fixed, .block⟩
/-- LINK.STATUS.RETRYING, R308. -/
def LINK_STATUS_RETRYING : RegField :=
  ⟨.link, "STATUS.RETRYING", 0x18, 0, 0, 1, 13, 1, .ro, false, false, 0, [], .fixed, .block⟩
/-- LINK.LOCAL_CAPS, R308. -/
def LINK_LOCAL_CAPS : RegField :=
  ⟨.link, "LOCAL_CAPS", 0x100, 0, 0, 1, 0, 64, .ro, false, false, 0, [], .fixed, .block⟩
/-- LINK.PARTNER_CAPS, R308. -/
def LINK_PARTNER_CAPS : RegField :=
  ⟨.link, "PARTNER_CAPS", 0x108, 0, 0, 1, 0, 64, .ro, false, false, 0, [], .fixed, .block⟩
/-- LINK.PARTNER_CRED, R308. -/
def LINK_PARTNER_CRED : RegField :=
  ⟨.link, "PARTNER_CRED", 0x110, 0, 0, 1, 0, 64, .ro, false, false, 0, [], .fixed, .block⟩
/-- LINK.VC_CREDITS, R308. -/
def LINK_VC_CREDITS : RegField :=
  ⟨.link, "VC_CREDITS", 0x118, 0, 0, 1, 0, 64, .ro, false, false, 0, [], .fixed, .block⟩
/-- LINK.FEC_CE_SYM, R308. -/
def LINK_FEC_CE_SYM : RegField :=
  ⟨.link, "FEC_CE_SYM", 0x120, 0, 0, 1, 0, 64, .ro, false, false, 0, [], .fixed, .module⟩
/-- LINK.FEC_UE_CW, R308. -/
def LINK_FEC_UE_CW : RegField :=
  ⟨.link, "FEC_UE_CW", 0x128, 0, 0, 1, 0, 32, .rc, false, false, 0, [], .fixed, .module⟩
/-- LINK.REPLAYS, R308. -/
def LINK_REPLAYS : RegField :=
  ⟨.link, "REPLAYS", 0x12c, 0, 0, 1, 0, 32, .rc, false, false, 0, [], .fixed, .module⟩
/-- LINK.RETRAINS, R308. -/
def LINK_RETRAINS : RegField :=
  ⟨.link, "RETRAINS", 0x130, 0, 0, 1, 0, 32, .rc, false, false, 0, [], .fixed, .module⟩
/-- LINK.STALE_DROPS, R308. -/
def LINK_STALE_DROPS : RegField :=
  ⟨.link, "STALE_DROPS", 0x134, 0, 0, 1, 0, 32, .rc, false, false, 0, [], .fixed, .module⟩
/-- LINK.STALE_NOTICES, R308. -/
def LINK_STALE_NOTICES : RegField :=
  ⟨.link, "STALE_NOTICES", 0x138, 0, 0, 1, 0, 32, .rc, false, false, 0, [], .fixed, .module⟩
/-- LINK.BAD_FRAMES, R308. -/
def LINK_BAD_FRAMES : RegField :=
  ⟨.link, "BAD_FRAMES", 0x13c, 0, 0, 1, 0, 32, .rc, false, false, 0, [], .fixed, .module⟩
/-- LINK.TX_FRAMES, R308. -/
def LINK_TX_FRAMES : RegField :=
  ⟨.link, "TX_FRAMES", 0x140, 0, 0, 1, 0, 64, .ro, false, false, 0, [], .fixed, .module⟩
/-- LINK.RX_FRAMES, R308. -/
def LINK_RX_FRAMES : RegField :=
  ⟨.link, "RX_FRAMES", 0x148, 0, 0, 1, 0, 64, .ro, false, false, 0, [], .fixed, .module⟩
/-- LINK.TX_BYTES, R308. -/
def LINK_TX_BYTES : RegField :=
  ⟨.link, "TX_BYTES", 0x150, 0, 0, 1, 0, 64, .ro, false, false, 0, [], .fixed, .module⟩
/-- LINK.RX_BYTES, R308. -/
def LINK_RX_BYTES : RegField :=
  ⟨.link, "RX_BYTES", 0x158, 0, 0, 1, 0, 64, .ro, false, false, 0, [], .fixed, .module⟩
/-- LINK.THROUGH_FRAMES, R308. -/
def LINK_THROUGH_FRAMES : RegField :=
  ⟨.link, "THROUGH_FRAMES", 0x160, 0, 0, 1, 0, 64, .ro, false, false, 0, [], .fixed, .module⟩
/-- LINK.CREDIT_STALL_TICKS, R308. -/
def LINK_CREDIT_STALL_TICKS : RegField :=
  ⟨.link, "CREDIT_STALL_TICKS", 0x168, 0, 0, 1, 0, 64, .ro, false, false, 0, [], .fixed, .module⟩
/-- LINK.ETH_MAC, R308. -/
def LINK_ETH_MAC : RegField :=
  ⟨.link, "ETH_MAC", 0x180, 0, 0, 1, 0, 48, .rw, false, true, 0, [], .fixed, .module⟩
/-- LINK.ETH_QP_BASE, R308. -/
def LINK_ETH_QP_BASE : RegField :=
  ⟨.link, "ETH_QP_BASE", 0x188, 0, 0, 1, 0, 48, .rw, true, true, 0, [], .fixed, .module⟩
/-- LINK.ETH_QP_COUNT, R308. -/
def LINK_ETH_QP_COUNT : RegField :=
  ⟨.link, "ETH_QP_COUNT", 0x190, 0, 0, 1, 0, 7, .rw, true, true, 0, [], .fixed, .module⟩
/-- LINK.ETH_IP, R308. -/
def LINK_ETH_IP : RegField :=
  ⟨.link, "ETH_IP", 0x1a0, 0, 0, 1, 0, 128, .rw, false, true, 0, [], .fixed, .module⟩
/-- LINK.EVT_SEL n, R308. -/
def LINK_EVT_SEL : RegField :=
  ⟨.link, "EVT_SEL n", 0x200, 4, 0, 8, 0, 32, .rw, true, false, 0, [], .fixed, .module⟩
/-- LINK.EVT_CNT n, R308. -/
def LINK_EVT_CNT : RegField :=
  ⟨.link, "EVT_CNT n", 0x240, 8, 0, 8, 0, 64, .ro, false, false, 0, [], .fixed, .module⟩

/-- The register fields of the LINK class, in the order of its table (R308). -/
def LINK_fields : List RegField :=
  [LINK_PAGE_CAPS_CLASS_CAPS_OUTER, LINK_CTRL_ENABLE, LINK_CTRL_FENCE, LINK_CTRL_MODE, LINK_CTRL_LANE_112, LINK_CTRL_SPREAD_ADV, LINK_STATUS_STATE, LINK_STATUS_RATE_224, LINK_STATUS_VERSION, LINK_STATUS_FEC_528, LINK_STATUS_SPREAD_ON, LINK_STATUS_ORDERED, LINK_STATUS_TALLY_OPS, LINK_STATUS_EMB_V2, LINK_STATUS_RETRYING, LINK_LOCAL_CAPS, LINK_PARTNER_CAPS, LINK_PARTNER_CRED, LINK_VC_CREDITS, LINK_FEC_CE_SYM] ++
  [LINK_FEC_UE_CW, LINK_REPLAYS, LINK_RETRAINS, LINK_STALE_DROPS, LINK_STALE_NOTICES, LINK_BAD_FRAMES, LINK_TX_FRAMES, LINK_RX_FRAMES, LINK_TX_BYTES, LINK_RX_BYTES, LINK_THROUGH_FRAMES, LINK_CREDIT_STALL_TICKS, LINK_ETH_MAC, LINK_ETH_QP_BASE, LINK_ETH_QP_COUNT, LINK_ETH_IP, LINK_EVT_SEL, LINK_EVT_CNT]

/-! ### SLUICE registers (R396, 12_current_power_cooling.md) -/

/-- SLUICE.PAGE_CAPS.CLASS_CAPS.CANARIES, R396. -/
def SLUICE_PAGE_CAPS_CLASS_CAPS_CANARIES : RegField :=
  ⟨.sluice, "PAGE_CAPS.CLASS_CAPS.CANARIES", 0x8, 0, 0, 1, 16, 4, .ro, false, false, 4, [], .fixed, .never⟩
/-- SLUICE.CTRL.BUDGET, R396. -/
def SLUICE_CTRL_BUDGET : RegField :=
  ⟨.sluice, "CTRL.BUDGET", 0x10, 0, 0, 1, 0, 8, .rw, true, true, 240, [], .fixed, .module⟩
/-- SLUICE.CTRL.RAMP, R396. -/
def SLUICE_CTRL_RAMP : RegField :=
  ⟨.sluice, "CTRL.RAMP", 0x10, 0, 0, 1, 8, 8, .rw, true, true, 80, [], .fixed, .module⟩
/-- SLUICE.CTRL.BURST, R396. -/
def SLUICE_CTRL_BURST : RegField :=
  ⟨.sluice, "CTRL.BURST", 0x10, 0, 0, 1, 16, 8, .rw, true, true, 10, [], .fixed, .module⟩
/-- SLUICE.STATUS.ADMIT, R396. -/
def SLUICE_STATUS_ADMIT : RegField :=
  ⟨.sluice, "STATUS.ADMIT", 0x18, 0, 0, 1, 0, 7, .ro, false, false, 100, [], .fixed, .module⟩
/-- SLUICE.STATUS.PREGRANT, R396. -/
def SLUICE_STATUS_PREGRANT : RegField :=
  ⟨.sluice, "STATUS.PREGRANT", 0x18, 0, 0, 1, 7, 1, .ro, false, false, 0, [], .fixed, .module⟩
/-- SLUICE.STATUS.WAITING, R396. -/
def SLUICE_STATUS_WAITING : RegField :=
  ⟨.sluice, "STATUS.WAITING", 0x18, 0, 0, 1, 8, 8, .ro, false, false, 0, [], .fixed, .module⟩
/-- SLUICE.STATUS.K_RAISED, R396. -/
def SLUICE_STATUS_K_RAISED : RegField :=
  ⟨.sluice, "STATUS.K_RAISED", 0x18, 0, 0, 1, 16, 1, .ro, false, false, 0, [], .fixed, .module⟩
/-- SLUICE.BOOKED, R396. -/
def SLUICE_BOOKED : RegField :=
  ⟨.sluice, "BOOKED", 0x100, 0, 0, 1, 0, 20, .ro, false, false, 0, [], .fixed, .module⟩
/-- SLUICE.RESERVE, R396. -/
def SLUICE_RESERVE : RegField :=
  ⟨.sluice, "RESERVE", 0x104, 0, 0, 1, 0, 20, .ro, false, false, 0, [], .fixed, .module⟩
/-- SLUICE.LOCAL, R396. -/
def SLUICE_LOCAL : RegField :=
  ⟨.sluice, "LOCAL", 0x108, 0, 0, 1, 0, 16, .ro, false, false, 0, [], .fixed, .module⟩
/-- SLUICE.K, R396. -/
def SLUICE_K : RegField :=
  ⟨.sluice, "K", 0x10c, 0, 0, 1, 0, 16, .ro, false, false, 4096, [], .fixed, .module⟩
/-- SLUICE.FLOOR.BASE, R396. -/
def SLUICE_FLOOR_BASE : RegField :=
  ⟨.sluice, "FLOOR.BASE", 0x110, 0, 0, 1, 0, 10, .ro, false, false, 650, [], .fuse, .never⟩
/-- SLUICE.FLOOR.TRIM, R396. -/
def SLUICE_FLOOR_TRIM : RegField :=
  ⟨.sluice, "FLOOR.TRIM", 0x110, 0, 0, 1, 10, 4, .ro, false, false, 0, [], .calib, .never⟩
/-- SLUICE.FLOOR.EFFECTIVE, R396. -/
def SLUICE_FLOOR_EFFECTIVE : RegField :=
  ⟨.sluice, "FLOOR.EFFECTIVE", 0x110, 0, 0, 1, 14, 10, .ro, false, false, 650, [], .calib, .never⟩
/-- SLUICE.SLACK.LOW, R396. -/
def SLUICE_SLACK_LOW : RegField :=
  ⟨.sluice, "SLACK.LOW", 0x114, 0, 0, 1, 0, 8, .ro, false, false, 0, [], .fixed, .module⟩
/-- SLUICE.SLACK.MIN, R396. -/
def SLUICE_SLACK_MIN : RegField :=
  ⟨.sluice, "SLACK.MIN", 0x114, 0, 0, 1, 8, 8, .rw, true, true, 8, [], .fixed, .module⟩
/-- SLUICE.MARGIN_REQ.REQ, R396. -/
def SLUICE_MARGIN_REQ_REQ : RegField :=
  ⟨.sluice, "MARGIN_REQ.REQ", 0x118, 0, 0, 1, 0, 1, .wo, false, false, 0, [], .fixed, .never⟩
/-- SLUICE.CLASS n.CORE_MA, R396. -/
def SLUICE_CLASS_CORE_MA : RegField :=
  ⟨.sluice, "CLASS n.CORE_MA", 0x140, 4, 0, 8, 0, 16, .ro, false, false, 20, [20, 45, 70, 95, 115, 135, 155, 180], .fuse, .never⟩
/-- SLUICE.CLASS n.ENG_MA, R396. -/
def SLUICE_CLASS_ENG_MA : RegField :=
  ⟨.sluice, "CLASS n.ENG_MA", 0x140, 4, 0, 8, 16, 16, .ro, false, false, 0, [0, 250, 500, 750, 1000, 1250, 1500, 1750], .fuse, .never⟩
/-- SLUICE.HINT_COUNT, R396. -/
def SLUICE_HINT_COUNT : RegField :=
  ⟨.sluice, "HINT_COUNT", 0x160, 0, 0, 1, 0, 32, .rc, false, false, 0, [], .fixed, .module⟩
/-- SLUICE.BUDGET_WAIT_TICKS, R396. -/
def SLUICE_BUDGET_WAIT_TICKS : RegField :=
  ⟨.sluice, "BUDGET_WAIT_TICKS", 0x180, 0, 0, 1, 0, 64, .ro, false, false, 0, [], .fixed, .module⟩
/-- SLUICE.RAMP_WAIT_TICKS, R396. -/
def SLUICE_RAMP_WAIT_TICKS : RegField :=
  ⟨.sluice, "RAMP_WAIT_TICKS", 0x188, 0, 0, 1, 0, 64, .ro, false, false, 0, [], .fixed, .module⟩
/-- SLUICE.AMP_TICKS, R396. -/
def SLUICE_AMP_TICKS : RegField :=
  ⟨.sluice, "AMP_TICKS", 0x190, 0, 0, 1, 0, 64, .ro, false, false, 0, [], .fixed, .module⟩

/-- The register fields of the SLUICE class, in the order of its table (R396). -/
def SLUICE_fields : List RegField :=
  [SLUICE_PAGE_CAPS_CLASS_CAPS_CANARIES, SLUICE_CTRL_BUDGET, SLUICE_CTRL_RAMP, SLUICE_CTRL_BURST, SLUICE_STATUS_ADMIT, SLUICE_STATUS_PREGRANT, SLUICE_STATUS_WAITING, SLUICE_STATUS_K_RAISED, SLUICE_BOOKED, SLUICE_RESERVE, SLUICE_LOCAL, SLUICE_K, SLUICE_FLOOR_BASE, SLUICE_FLOOR_TRIM, SLUICE_FLOOR_EFFECTIVE, SLUICE_SLACK_LOW, SLUICE_SLACK_MIN, SLUICE_MARGIN_REQ_REQ, SLUICE_CLASS_CORE_MA, SLUICE_CLASS_ENG_MA] ++
  [SLUICE_HINT_COUNT, SLUICE_BUDGET_WAIT_TICKS, SLUICE_RAMP_WAIT_TICKS, SLUICE_AMP_TICKS]

/-! ### THERM registers (R398, 12_current_power_cooling.md) -/

/-- THERM.CTRL.THROTTLE_C, R398. -/
def THERM_CTRL_THROTTLE_C : RegField :=
  ⟨.therm, "CTRL.THROTTLE_C", 0x10, 0, 0, 1, 0, 7, .rw, true, true, 95, [], .fixed, .module⟩
/-- THERM.STATUS.THROTTLING, R398. -/
def THERM_STATUS_THROTTLING : RegField :=
  ⟨.therm, "STATUS.THROTTLING", 0x18, 0, 0, 1, 0, 1, .ro, false, false, 0, [], .fixed, .module⟩
/-- THERM.STATUS.AT_LIMIT, R398. -/
def THERM_STATUS_AT_LIMIT : RegField :=
  ⟨.therm, "STATUS.AT_LIMIT", 0x18, 0, 0, 1, 1, 1, .ro, false, false, 0, [], .fixed, .module⟩
/-- THERM.MAX.T, R398. -/
def THERM_MAX_T : RegField :=
  ⟨.therm, "MAX.T", 0x100, 0, 0, 1, 0, 16, .ro, false, false, 0, [], .fixed, .module⟩
/-- THERM.MAX.SENSOR, R398. -/
def THERM_MAX_SENSOR : RegField :=
  ⟨.therm, "MAX.SENSOR", 0x100, 0, 0, 1, 16, 6, .ro, false, false, 0, [], .fixed, .module⟩
/-- THERM.PEAK, R398. -/
def THERM_PEAK : RegField :=
  ⟨.therm, "PEAK", 0x104, 0, 0, 1, 0, 16, .rc, false, false, 0, [], .fixed, .module⟩
/-- THERM.SENS k.LO, R398. -/
def THERM_SENS_LO : RegField :=
  ⟨.therm, "SENS k.LO", 0x140, 4, 0, 32, 0, 16, .ro, false, false, 0, [], .fixed, .module⟩
/-- THERM.SENS k.HI, R398. -/
def THERM_SENS_HI : RegField :=
  ⟨.therm, "SENS k.HI", 0x140, 4, 0, 32, 16, 16, .ro, false, false, 0, [], .fixed, .module⟩
/-- THERM.REGION k.LO, R398. -/
def THERM_REGION_LO : RegField :=
  ⟨.therm, "REGION k.LO", 0x1c0, 4, 0, 8, 0, 16, .ro, false, false, 0, [], .fixed, .module⟩
/-- THERM.REGION k.HI, R398. -/
def THERM_REGION_HI : RegField :=
  ⟨.therm, "REGION k.HI", 0x1c0, 4, 0, 8, 16, 16, .ro, false, false, 0, [], .fixed, .module⟩
/-- THERM.BAD_MASK, R398. -/
def THERM_BAD_MASK : RegField :=
  ⟨.therm, "BAD_MASK", 0x1e0, 0, 0, 1, 0, 64, .ro, false, false, 0, [], .fixed, .module⟩
/-- THERM.THROTTLE_TICKS, R398. -/
def THERM_THROTTLE_TICKS : RegField :=
  ⟨.therm, "THROTTLE_TICKS", 0x1f0, 0, 0, 1, 0, 64, .ro, false, false, 0, [], .fixed, .module⟩

/-- The register fields of the THERM class, in the order of its table (R398). -/
def THERM_fields : List RegField :=
  [THERM_CTRL_THROTTLE_C, THERM_STATUS_THROTTLING, THERM_STATUS_AT_LIMIT, THERM_MAX_T, THERM_MAX_SENSOR, THERM_PEAK, THERM_SENS_LO, THERM_SENS_HI, THERM_REGION_LO, THERM_REGION_HI, THERM_BAD_MASK, THERM_THROTTLE_TICKS]

/-! ### PERF registers (R495, 15_counters_sampling.md) -/

/-- PERF.PAGE_CAPS.CLASS_CAPS.COUNTERS, R495. -/
def PERF_PAGE_CAPS_CLASS_CAPS_COUNTERS : RegField :=
  ⟨.perf, "PAGE_CAPS.CLASS_CAPS.COUNTERS", 0x8, 0, 0, 1, 16, 5, .ro, false, false, 16, [], .fixed, .never⟩
/-- PERF.CTRL.FREEZE, R495. -/
def PERF_CTRL_FREEZE : RegField :=
  ⟨.perf, "CTRL.FREEZE", 0x10, 0, 0, 1, 0, 1, .rw, false, false, 0, [], .fixed, .module⟩
/-- PERF.STATUS.FROZEN, R495. -/
def PERF_STATUS_FROZEN : RegField :=
  ⟨.perf, "STATUS.FROZEN", 0x18, 0, 0, 1, 0, 1, .ro, false, false, 0, [], .fixed, .module⟩
/-- PERF.EVT_SEL n, R495. -/
def PERF_EVT_SEL : RegField :=
  ⟨.perf, "EVT_SEL n", 0x100, 4, 0, 16, 0, 32, .rw, false, false, 0, [], .fixed, .module⟩
/-- PERF.EVT_CNT n, R495. -/
def PERF_EVT_CNT : RegField :=
  ⟨.perf, "EVT_CNT n", 0x140, 8, 0, 16, 0, 64, .ro, false, false, 0, [], .fixed, .module⟩
/-- PERF.SNAP_CTRL.CONTEXT, R495. -/
def PERF_SNAP_CTRL_CONTEXT : RegField :=
  ⟨.perf, "SNAP_CTRL.CONTEXT", 0x200, 0, 0, 1, 0, 6, .rw, false, false, 0, [], .fixed, .module⟩
/-- PERF.SNAP_CTRL.EN, R495. -/
def PERF_SNAP_CTRL_EN : RegField :=
  ⟨.perf, "SNAP_CTRL.EN", 0x200, 0, 0, 1, 6, 1, .rw, false, false, 0, [], .fixed, .module⟩
/-- PERF.SNAP_STEP, R495. -/
def PERF_SNAP_STEP : RegField :=
  ⟨.perf, "SNAP_STEP", 0x204, 0, 0, 1, 0, 32, .ro, false, false, 0, [], .fixed, .module⟩
/-- PERF.SNAP_TICK, R495. -/
def PERF_SNAP_TICK : RegField :=
  ⟨.perf, "SNAP_TICK", 0x208, 0, 0, 1, 0, 64, .ro, false, false, 0, [], .fixed, .module⟩
/-- PERF.SNAP_SEQ, R495. -/
def PERF_SNAP_SEQ : RegField :=
  ⟨.perf, "SNAP_SEQ", 0x210, 0, 0, 1, 0, 32, .ro, false, false, 0, [], .fixed, .module⟩
/-- PERF.SNAP_CNT n, R495. -/
def PERF_SNAP_CNT : RegField :=
  ⟨.perf, "SNAP_CNT n", 0x240, 8, 0, 16, 0, 64, .ro, false, false, 0, [], .fixed, .module⟩

/-- The register fields of the PERF class, in the order of its table (R495). -/
def PERF_fields : List RegField :=
  [PERF_PAGE_CAPS_CLASS_CAPS_COUNTERS, PERF_CTRL_FREEZE, PERF_STATUS_FROZEN, PERF_EVT_SEL, PERF_EVT_CNT, PERF_SNAP_CTRL_CONTEXT, PERF_SNAP_CTRL_EN, PERF_SNAP_STEP, PERF_SNAP_TICK, PERF_SNAP_SEQ, PERF_SNAP_CNT]

/-! ### SAMPLE registers (R496, 15_counters_sampling.md) -/

/-- SAMPLE.CTRL.EN, R496. -/
def SAMPLE_CTRL_EN : RegField :=
  ⟨.sample, "CTRL.EN", 0x10, 0, 0, 1, 0, 1, .rw, false, false, 0, [], .fixed, .module⟩
/-- SAMPLE.CTRL.OVERWRITE, R496. -/
def SAMPLE_CTRL_OVERWRITE : RegField :=
  ⟨.sample, "CTRL.OVERWRITE", 0x10, 0, 0, 1, 1, 1, .rw, false, false, 0, [], .fixed, .module⟩
/-- SAMPLE.CTRL.JITTER_LOG2, R496. -/
def SAMPLE_CTRL_JITTER_LOG2 : RegField :=
  ⟨.sample, "CTRL.JITTER_LOG2", 0x10, 0, 0, 1, 2, 4, .rw, false, false, 4, [], .fixed, .module⟩
/-- SAMPLE.CTRL.CTX_EN, R496. -/
def SAMPLE_CTRL_CTX_EN : RegField :=
  ⟨.sample, "CTRL.CTX_EN", 0x10, 0, 0, 1, 6, 1, .rw, false, false, 0, [], .fixed, .module⟩
/-- SAMPLE.CTRL.CONTEXT, R496. -/
def SAMPLE_CTRL_CONTEXT : RegField :=
  ⟨.sample, "CTRL.CONTEXT", 0x10, 0, 0, 1, 7, 6, .rw, false, false, 0, [], .fixed, .module⟩
/-- SAMPLE.STATUS.ACTIVE, R496. -/
def SAMPLE_STATUS_ACTIVE : RegField :=
  ⟨.sample, "STATUS.ACTIVE", 0x18, 0, 0, 1, 0, 1, .ro, false, false, 0, [], .fixed, .module⟩
/-- SAMPLE.STATUS.FULL, R496. -/
def SAMPLE_STATUS_FULL : RegField :=
  ⟨.sample, "STATUS.FULL", 0x18, 0, 0, 1, 1, 1, .ro, false, false, 0, [], .fixed, .module⟩
/-- SAMPLE.PERIOD, R496. -/
def SAMPLE_PERIOD : RegField :=
  ⟨.sample, "PERIOD", 0x100, 0, 0, 1, 0, 24, .rw, false, false, 65536, [], .fixed, .module⟩
/-- SAMPLE.CLASS_MASK, R496. -/
def SAMPLE_CLASS_MASK : RegField :=
  ⟨.sample, "CLASS_MASK", 0x104, 0, 0, 1, 0, 16, .rw, false, false, 16, [], .fixed, .module⟩
/-- SAMPLE.BLOCK_MASK, R496. -/
def SAMPLE_BLOCK_MASK : RegField :=
  ⟨.sample, "BLOCK_MASK", 0x108, 0, 0, 1, 0, 32, .rw, false, false, 0, [], .fixed, .module⟩
/-- SAMPLE.BUF_BASE, R496. -/
def SAMPLE_BUF_BASE : RegField :=
  ⟨.sample, "BUF_BASE", 0x110, 0, 0, 1, 0, 48, .rw, false, false, 0, [], .fixed, .module⟩
/-- SAMPLE.BUF_LOG2N, R496. -/
def SAMPLE_BUF_LOG2N : RegField :=
  ⟨.sample, "BUF_LOG2N", 0x118, 0, 0, 1, 0, 5, .rw, false, false, 10, [], .fixed, .module⟩
/-- SAMPLE.HEAD, R496. -/
def SAMPLE_HEAD : RegField :=
  ⟨.sample, "HEAD", 0x120, 0, 0, 1, 0, 64, .ro, false, false, 0, [], .fixed, .module⟩
/-- SAMPLE.TAIL, R496. -/
def SAMPLE_TAIL : RegField :=
  ⟨.sample, "TAIL", 0x128, 0, 0, 1, 0, 64, .rw, false, false, 0, [], .fixed, .module⟩
/-- SAMPLE.LOST, R496. -/
def SAMPLE_LOST : RegField :=
  ⟨.sample, "LOST", 0x130, 0, 0, 1, 0, 32, .rc, false, false, 0, [], .fixed, .module⟩
/-- SAMPLE.SKIPPED, R496. -/
def SAMPLE_SKIPPED : RegField :=
  ⟨.sample, "SKIPPED", 0x134, 0, 0, 1, 0, 32, .rc, false, false, 0, [], .fixed, .module⟩

/-- The register fields of the SAMPLE class, in the order of its table (R496). -/
def SAMPLE_fields : List RegField :=
  [SAMPLE_CTRL_EN, SAMPLE_CTRL_OVERWRITE, SAMPLE_CTRL_JITTER_LOG2, SAMPLE_CTRL_CTX_EN, SAMPLE_CTRL_CONTEXT, SAMPLE_STATUS_ACTIVE, SAMPLE_STATUS_FULL, SAMPLE_PERIOD, SAMPLE_CLASS_MASK, SAMPLE_BLOCK_MASK, SAMPLE_BUF_BASE, SAMPLE_BUF_LOG2N, SAMPLE_HEAD, SAMPLE_TAIL, SAMPLE_LOST, SAMPLE_SKIPPED]

end Sys2Proof.Machine.R
end

