-- ==== Sys2Proof/Machine/RegsHeader.lean ====
section
/-!
DEFINITION. Register tables: one `RegField` for each row of the spec's register tables, offsets, widths, kinds,
after-reset values and clearing reach as the tables give them (R14 to R17, R60, R61).
-/

namespace Sys2Proof.Machine.R

/-! ### HEADER registers (R61, 02_register_pages.md) -/

/-- HEADER.PAGE_ID.CLASS, R61. -/
def HEADER_PAGE_ID_CLASS : RegField :=
  ⟨.header, "PAGE_ID.CLASS", 0x0, 0, 0, 1, 0, 8, .ro, false, false, 0, [], .derived, .never⟩
/-- HEADER.PAGE_ID.INSTANCE, R61. -/
def HEADER_PAGE_ID_INSTANCE : RegField :=
  ⟨.header, "PAGE_ID.INSTANCE", 0x0, 0, 0, 1, 8, 24, .ro, false, false, 0, [], .derived, .never⟩
/-- HEADER.PAGE_VER.MINOR, R61. DESIGN CHOICE (log 67): 0 in every class, where no chapter gives a value. -/
def HEADER_PAGE_VER_MINOR : RegField :=
  ⟨.header, "PAGE_VER.MINOR", 0x4, 0, 0, 1, 0, 8, .ro, false, false, 0, [], .derived, .never⟩
/-- HEADER.PAGE_VER.MAJOR, R61. -/
def HEADER_PAGE_VER_MAJOR : RegField :=
  ⟨.header, "PAGE_VER.MAJOR", 0x4, 0, 0, 1, 8, 8, .ro, false, false, 1, [], .fixed, .never⟩
/-- HEADER.PAGE_CAPS.LOCK_CAP, R61. -/
def HEADER_PAGE_CAPS_LOCK_CAP : RegField :=
  ⟨.header, "PAGE_CAPS.LOCK_CAP", 0x8, 0, 0, 1, 0, 1, .ro, false, false, 0, [], .derived, .never⟩
/-- HEADER.PAGE_CAPS.WB_CAP, R61. -/
def HEADER_PAGE_CAPS_WB_CAP : RegField :=
  ⟨.header, "PAGE_CAPS.WB_CAP", 0x8, 0, 0, 1, 1, 1, .ro, false, false, 0, [], .derived, .never⟩
/-- HEADER.PAGE_CAPS.SRST_CAP, R61. -/
def HEADER_PAGE_CAPS_SRST_CAP : RegField :=
  ⟨.header, "PAGE_CAPS.SRST_CAP", 0x8, 0, 0, 1, 2, 1, .ro, false, false, 0, [], .derived, .never⟩
/-- HEADER.PAGE_CAPS.EMBED, R61. -/
def HEADER_PAGE_CAPS_EMBED : RegField :=
  ⟨.header, "PAGE_CAPS.EMBED", 0x8, 0, 0, 1, 3, 1, .ro, false, false, 0, [], .derived, .never⟩
/-- HEADER.PAGE_LOCK.LOCK, R61. DESIGN CHOICE (log 65): MODULE clears it on the AON page too, as
R61 and R447 say, where R55 says that only FULL clears that page. -/
def HEADER_PAGE_LOCK_LOCK : RegField :=
  ⟨.header, "PAGE_LOCK.LOCK", 0xc, 0, 0, 1, 0, 1, .rw, false, false, 0, [], .fixed, .module⟩
/-- HEADER.CTRL_PEND.CTRL_P, R61. -/
def HEADER_CTRL_PEND_CTRL_P : RegField :=
  ⟨.header, "CTRL_PEND.CTRL_P", 0x14, 0, 0, 1, 0, 1, .ro, false, false, 0, [], .fixed, .block⟩
/-- HEADER.CTRL_PEND.BLOCK_P, R61. -/
def HEADER_CTRL_PEND_BLOCK_P : RegField :=
  ⟨.header, "CTRL_PEND.BLOCK_P", 0x14, 0, 0, 1, 1, 1, .ro, false, false, 0, [], .fixed, .block⟩
/-- HEADER.CTRL_PEND.REPLACED, R61. -/
def HEADER_CTRL_PEND_REPLACED : RegField :=
  ⟨.header, "CTRL_PEND.REPLACED", 0x14, 0, 0, 1, 2, 1, .w1c, false, false, 0, [], .fixed, .block⟩
/-- HEADER.SRST.REQ, R61. -/
def HEADER_SRST_REQ : RegField :=
  ⟨.header, "SRST.REQ", 0x1c, 0, 0, 1, 0, 1, .wo, false, false, 0, [], .fixed, .never⟩
/-- HEADER.SRST.IDLE, R61. -/
def HEADER_SRST_IDLE : RegField :=
  ⟨.header, "SRST.IDLE", 0x1c, 0, 0, 1, 1, 1, .ro, false, false, 1, [], .fixed, .never⟩
/-- HEADER.SRST.SRST_REFUSED, R61. -/
def HEADER_SRST_SRST_REFUSED : RegField :=
  ⟨.header, "SRST.SRST_REFUSED", 0x1c, 0, 0, 1, 2, 1, .w1c, false, false, 0, [], .fixed, .block⟩
/-- HEADER.ERR_STAT.ERR, R61. -/
def HEADER_ERR_STAT_ERR : RegField :=
  ⟨.header, "ERR_STAT.ERR", 0x20, 0, 0, 1, 0, 31, .w1c, false, false, 0, [], .fixed, .block⟩
/-- HEADER.ERR_STAT.MULTI, R61. -/
def HEADER_ERR_STAT_MULTI : RegField :=
  ⟨.header, "ERR_STAT.MULTI", 0x20, 0, 0, 1, 31, 1, .w1c, false, false, 0, [], .fixed, .block⟩
/-- HEADER.ERR_MASK.MASK, R61. -/
def HEADER_ERR_MASK_MASK : RegField :=
  ⟨.header, "ERR_MASK.MASK", 0x24, 0, 0, 1, 0, 31, .rw, false, true, 0, [], .fixed, .block⟩
/-- HEADER.ERR_FIRST.CODE, R61. -/
def HEADER_ERR_FIRST_CODE : RegField :=
  ⟨.header, "ERR_FIRST.CODE", 0x28, 0, 0, 1, 0, 16, .ro, false, false, 0, [], .fixed, .block⟩
/-- HEADER.ERR_FIRST.BIT, R61. -/
def HEADER_ERR_FIRST_BIT : RegField :=
  ⟨.header, "ERR_FIRST.BIT", 0x28, 0, 0, 1, 16, 5, .ro, false, false, 0, [], .fixed, .block⟩
/-- HEADER.ERR_FIRST.VALID, R61. -/
def HEADER_ERR_FIRST_VALID : RegField :=
  ⟨.header, "ERR_FIRST.VALID", 0x28, 0, 0, 1, 31, 1, .ro, false, false, 0, [], .fixed, .block⟩
/-- HEADER.ERR_INJ.BIT, R61. -/
def HEADER_ERR_INJ_BIT : RegField :=
  ⟨.header, "ERR_INJ.BIT", 0x2c, 0, 0, 1, 0, 5, .rw, false, true, 0, [], .fixed, .block⟩
/-- HEADER.ERR_INJ.ARM, R61. -/
def HEADER_ERR_INJ_ARM : RegField :=
  ⟨.header, "ERR_INJ.ARM", 0x2c, 0, 0, 1, 8, 1, .rw, false, true, 0, [], .fixed, .block⟩
/-- HEADER.BOUNDARY_CNT.COUNT, R61. -/
def HEADER_BOUNDARY_CNT_COUNT : RegField :=
  ⟨.header, "BOUNDARY_CNT.COUNT", 0x30, 0, 0, 1, 0, 32, .ro, false, false, 0, [], .fixed, .block⟩

/-- The register fields of the HEADER class, in the order of its table (R61). -/
def HEADER_fields : List RegField :=
  [HEADER_PAGE_ID_CLASS, HEADER_PAGE_ID_INSTANCE, HEADER_PAGE_VER_MINOR, HEADER_PAGE_VER_MAJOR, HEADER_PAGE_CAPS_LOCK_CAP, HEADER_PAGE_CAPS_WB_CAP, HEADER_PAGE_CAPS_SRST_CAP, HEADER_PAGE_CAPS_EMBED, HEADER_PAGE_LOCK_LOCK, HEADER_CTRL_PEND_CTRL_P, HEADER_CTRL_PEND_BLOCK_P, HEADER_CTRL_PEND_REPLACED, HEADER_SRST_REQ, HEADER_SRST_IDLE, HEADER_SRST_SRST_REFUSED, HEADER_ERR_STAT_ERR, HEADER_ERR_STAT_MULTI, HEADER_ERR_MASK_MASK, HEADER_ERR_FIRST_CODE, HEADER_ERR_FIRST_BIT] ++
  [HEADER_ERR_FIRST_VALID, HEADER_ERR_INJ_BIT, HEADER_ERR_INJ_ARM, HEADER_BOUNDARY_CNT_COUNT]

end Sys2Proof.Machine.R
end

