-- ==== Sys2Proof/Machine/RegsModule.lean ====
section
/-!
DEFINITION. Register tables: one `RegField` for each row of the spec's register tables, offsets, widths, kinds,
after-reset values and clearing reach as the tables give them (R14 to R17, R60, R61).
-/

namespace Sys2Proof.Machine.R

/-! ### MGMT registers (R54, 01_module_organisation.md) -/

/-- MGMT.PAGE_CAPS.CLASS_CAPS.STANDBY_PATH, R54. -/
def MGMT_PAGE_CAPS_CLASS_CAPS_STANDBY_PATH : RegField :=
  ⟨.mgmt, "PAGE_CAPS.CLASS_CAPS.STANDBY_PATH", 0x8, 0, 0, 1, 16, 1, .ro, false, false, 1, [], .fixed, .never⟩
/-- MGMT.STATUS.FW_RUNNING, R54. -/
def MGMT_STATUS_FW_RUNNING : RegField :=
  ⟨.mgmt, "STATUS.FW_RUNNING", 0x18, 0, 0, 1, 0, 1, .ro, false, false, 0, [], .fixed, .module⟩
/-- MGMT.STATUS.PATH, R54. -/
def MGMT_STATUS_PATH : RegField :=
  ⟨.mgmt, "STATUS.PATH", 0x18, 0, 0, 1, 1, 1, .ro, false, false, 0, [], .fixed, .module⟩
/-- MGMT.STATUS.REF_OSC_OK, R54. -/
def MGMT_STATUS_REF_OSC_OK : RegField :=
  ⟨.mgmt, "STATUS.REF_OSC_OK", 0x18, 0, 0, 1, 2, 1, .ro, false, false, 0, [], .fixed, .module⟩
/-- MGMT.STATUS.MGMT_OSC_OK, R54. -/
def MGMT_STATUS_MGMT_OSC_OK : RegField :=
  ⟨.mgmt, "STATUS.MGMT_OSC_OK", 0x18, 0, 0, 1, 3, 1, .ro, false, false, 0, [], .fixed, .module⟩
/-- MGMT.TICK, R54. -/
def MGMT_TICK : RegField :=
  ⟨.mgmt, "TICK", 0x100, 0, 0, 1, 0, 64, .ro, false, false, 0, [], .fixed, .module⟩
/-- MGMT.FW_VERSION, R54. -/
def MGMT_FW_VERSION : RegField :=
  ⟨.mgmt, "FW_VERSION", 0x108, 0, 0, 1, 0, 32, .ro, false, false, 0, [], .fixed, .module⟩
/-- MGMT.FW_SVN, R54. -/
def MGMT_FW_SVN : RegField :=
  ⟨.mgmt, "FW_SVN", 0x10c, 0, 0, 1, 0, 7, .ro, false, false, 0, [], .fixed, .module⟩
/-- MGMT.HEARTBEAT, R54. -/
def MGMT_HEARTBEAT : RegField :=
  ⟨.mgmt, "HEARTBEAT", 0x110, 0, 0, 1, 0, 32, .ro, false, false, 0, [], .fixed, .module⟩
/-- MGMT.MGMT_CE_COUNT, R54. -/
def MGMT_MGMT_CE_COUNT : RegField :=
  ⟨.mgmt, "MGMT_CE_COUNT", 0x114, 0, 0, 1, 0, 32, .rc, false, false, 0, [], .fixed, .module⟩

/-- The register fields of the MGMT class, in the order of its table (R54). -/
def MGMT_fields : List RegField :=
  [MGMT_PAGE_CAPS_CLASS_CAPS_STANDBY_PATH, MGMT_STATUS_FW_RUNNING, MGMT_STATUS_PATH, MGMT_STATUS_REF_OSC_OK, MGMT_STATUS_MGMT_OSC_OK, MGMT_TICK, MGMT_FW_VERSION, MGMT_FW_SVN, MGMT_HEARTBEAT, MGMT_MGMT_CE_COUNT]

/-! ### AON registers (R55, 01_module_organisation.md) -/

/-- AON.CTRL.WAKE_PIN_EN, R55. -/
def AON_CTRL_WAKE_PIN_EN : RegField :=
  ⟨.aon, "CTRL.WAKE_PIN_EN", 0x10, 0, 0, 1, 0, 1, .rw, false, true, 1, [], .fixed, .full⟩
/-- AON.CTRL.I3C_WAKE_EN, R55. -/
def AON_CTRL_I3C_WAKE_EN : RegField :=
  ⟨.aon, "CTRL.I3C_WAKE_EN", 0x10, 0, 0, 1, 1, 1, .rw, false, true, 1, [], .fixed, .full⟩
/-- AON.STATUS.AUX_OK, R55. -/
def AON_STATUS_AUX_OK : RegField :=
  ⟨.aon, "STATUS.AUX_OK", 0x18, 0, 0, 1, 0, 1, .ro, false, false, 1, [], .fixed, .full⟩
/-- AON.STATUS.COOLANT_OK, R55. -/
def AON_STATUS_COOLANT_OK : RegField :=
  ⟨.aon, "STATUS.COOLANT_OK", 0x18, 0, 0, 1, 1, 1, .ro, false, false, 0, [], .fixed, .full⟩
/-- AON.STATUS.WAKE, R55. -/
def AON_STATUS_WAKE : RegField :=
  ⟨.aon, "STATUS.WAKE", 0x18, 0, 0, 1, 2, 1, .ro, false, false, 0, [], .fixed, .full⟩
/-- AON.STATUS.BOARD_HOT, R55. -/
def AON_STATUS_BOARD_HOT : RegField :=
  ⟨.aon, "STATUS.BOARD_HOT", 0x18, 0, 0, 1, 3, 1, .ro, false, false, 0, [], .fixed, .full⟩
/-- AON.TIME, R55. -/
def AON_TIME : RegField :=
  ⟨.aon, "TIME", 0x100, 0, 0, 1, 0, 48, .ro, false, false, 0, [], .fixed, .full⟩
/-- AON.BOARD_T, R55. -/
def AON_BOARD_T : RegField :=
  ⟨.aon, "BOARD_T", 0x108, 0, 0, 1, 0, 16, .ro, false, false, 0, [], .fixed, .full⟩
/-- AON.BOARD_T_LIMIT, R55. -/
def AON_BOARD_T_LIMIT : RegField :=
  ⟨.aon, "BOARD_T_LIMIT", 0x10c, 0, 0, 1, 0, 8, .rw, false, true, 85, [], .fixed, .full⟩
/-- AON.WAKE_CAUSE, R55. -/
def AON_WAKE_CAUSE : RegField :=
  ⟨.aon, "WAKE_CAUSE", 0x110, 0, 0, 1, 0, 3, .rc, false, false, 0, [], .fixed, .full⟩

/-- The register fields of the AON class, in the order of its table (R55). -/
def AON_fields : List RegField :=
  [AON_CTRL_WAKE_PIN_EN, AON_CTRL_I3C_WAKE_EN, AON_STATUS_AUX_OK, AON_STATUS_COOLANT_OK, AON_STATUS_WAKE, AON_STATUS_BOARD_HOT, AON_TIME, AON_BOARD_T, AON_BOARD_T_LIMIT, AON_WAKE_CAUSE]

/-! ### RST registers (R480, 14_reset_boot_security.md) -/

/-- RST.STATUS.COMEOUT, R480. -/
def RST_STATUS_COMEOUT : RegField :=
  ⟨.rst, "STATUS.COMEOUT", 0x18, 0, 0, 1, 0, 1, .ro, false, false, 0, [], .fixed, .module⟩
/-- RST.STATUS.STEP, R480. -/
def RST_STATUS_STEP : RegField :=
  ⟨.rst, "STATUS.STEP", 0x18, 0, 0, 1, 1, 4, .ro, false, false, 0, [], .fixed, .module⟩
/-- RST.STATUS.PATH, R480. -/
def RST_STATUS_PATH : RegField :=
  ⟨.rst, "STATUS.PATH", 0x18, 0, 0, 1, 5, 1, .ro, false, false, 0, [], .fixed, .module⟩
/-- RST.CAUSE, R480. -/
def RST_CAUSE : RegField :=
  ⟨.rst, "CAUSE", 0x100, 0, 0, 1, 0, 12, .rc, false, false, 1, [], .fixed, .full⟩
/-- RST.LAST_REACH, R480. -/
def RST_LAST_REACH : RegField :=
  ⟨.rst, "LAST_REACH", 0x104, 0, 0, 1, 0, 3, .ro, false, false, 0, [], .fixed, .full⟩
/-- RST.COMEOUT_TICKS, R480. -/
def RST_COMEOUT_TICKS : RegField :=
  ⟨.rst, "COMEOUT_TICKS", 0x108, 0, 0, 1, 0, 32, .ro, false, false, 0, [], .fixed, .never⟩
/-- RST.SW_RESET.REACH, R480. -/
def RST_SW_RESET_REACH : RegField :=
  ⟨.rst, "SW_RESET.REACH", 0x10c, 0, 0, 1, 0, 2, .wo, false, false, 0, [], .fixed, .never⟩
/-- RST.SW_RESET.KEY, R480. -/
def RST_SW_RESET_KEY : RegField :=
  ⟨.rst, "SW_RESET.KEY", 0x10c, 0, 0, 1, 8, 8, .wo, false, false, 0, [], .fixed, .never⟩
/-- RST.WDOG.TIMEOUT_MS, R480. -/
def RST_WDOG_TIMEOUT_MS : RegField :=
  ⟨.rst, "WDOG.TIMEOUT_MS", 0x110, 0, 0, 1, 0, 16, .rw, false, true, 2000, [], .fixed, .module⟩
/-- RST.WDOG.EN, R480. -/
def RST_WDOG_EN : RegField :=
  ⟨.rst, "WDOG.EN", 0x110, 0, 0, 1, 16, 1, .rw, false, true, 1, [], .fixed, .module⟩
/-- RST.WDOG.KICK, R480. -/
def RST_WDOG_KICK : RegField :=
  ⟨.rst, "WDOG.KICK", 0x110, 0, 0, 1, 17, 1, .wo, false, false, 0, [], .fixed, .never⟩
/-- RST.BOOT.FAILS, R480. -/
def RST_BOOT_FAILS : RegField :=
  ⟨.rst, "BOOT.FAILS", 0x114, 0, 0, 1, 0, 2, .ro, false, false, 0, [], .fixed, .full⟩
/-- RST.BOOT.SOURCE, R480. -/
def RST_BOOT_SOURCE : RegField :=
  ⟨.rst, "BOOT.SOURCE", 0x114, 0, 0, 1, 2, 2, .ro, false, false, 0, [], .strap, .module⟩
/-- RST.BOOT.SLOT, R480. -/
def RST_BOOT_SLOT : RegField :=
  ⟨.rst, "BOOT.SLOT", 0x114, 0, 0, 1, 4, 2, .ro, false, false, 0, [], .fixed, .module⟩
/-- RST.BOOT.MONITOR, R480. -/
def RST_BOOT_MONITOR : RegField :=
  ⟨.rst, "BOOT.MONITOR", 0x114, 0, 0, 1, 6, 1, .ro, false, false, 0, [], .fixed, .module⟩
/-- RST.BOOT.FW_OK, R480. -/
def RST_BOOT_FW_OK : RegField :=
  ⟨.rst, "BOOT.FW_OK", 0x114, 0, 0, 1, 7, 1, .rw, false, false, 0, [], .fixed, .module⟩
/-- RST.BOOT.FAILS_CLR, R480. -/
def RST_BOOT_FAILS_CLR : RegField :=
  ⟨.rst, "BOOT.FAILS_CLR", 0x114, 0, 0, 1, 8, 1, .wo, false, false, 0, [], .fixed, .never⟩
/-- RST.BKP n, R480. -/
def RST_BKP : RegField :=
  ⟨.rst, "BKP n", 0x140, 4, 0, 16, 0, 32, .rw, false, false, 0, [], .fixed, .full⟩
/-- RST.RET_ADDR, R480. -/
def RST_RET_ADDR : RegField :=
  ⟨.rst, "RET_ADDR", 0x180, 0, 0, 1, 2, 14, .rw, false, false, 0, [], .fixed, .full⟩
/-- RST.RET_DATA, R480. -/
def RST_RET_DATA : RegField :=
  ⟨.rst, "RET_DATA", 0x184, 0, 0, 1, 0, 32, .rw, false, false, 0, [], .fixed, .full⟩
/-- RST.RET_CTRL.SEAL, R480. -/
def RST_RET_CTRL_SEAL : RegField :=
  ⟨.rst, "RET_CTRL.SEAL", 0x188, 0, 0, 1, 0, 1, .wo, false, false, 0, [], .fixed, .never⟩
/-- RST.RET_STATUS.SEALED, R480. -/
def RST_RET_STATUS_SEALED : RegField :=
  ⟨.rst, "RET_STATUS.SEALED", 0x18c, 0, 0, 1, 0, 1, .ro, false, false, 0, [], .fixed, .full⟩
/-- RST.RET_STATUS.VALID, R480. -/
def RST_RET_STATUS_VALID : RegField :=
  ⟨.rst, "RET_STATUS.VALID", 0x18c, 0, 0, 1, 1, 1, .ro, false, false, 0, [], .fixed, .module⟩
/-- RST.RET_CRC, R480. -/
def RST_RET_CRC : RegField :=
  ⟨.rst, "RET_CRC", 0x190, 0, 0, 1, 0, 32, .ro, false, false, 0, [], .fixed, .full⟩

/-- The register fields of the RST class, in the order of its table (R480). -/
def RST_fields : List RegField :=
  [RST_STATUS_COMEOUT, RST_STATUS_STEP, RST_STATUS_PATH, RST_CAUSE, RST_LAST_REACH, RST_COMEOUT_TICKS, RST_SW_RESET_REACH, RST_SW_RESET_KEY, RST_WDOG_TIMEOUT_MS, RST_WDOG_EN, RST_WDOG_KICK, RST_BOOT_FAILS, RST_BOOT_SOURCE, RST_BOOT_SLOT, RST_BOOT_MONITOR, RST_BOOT_FW_OK, RST_BOOT_FAILS_CLR, RST_BKP, RST_RET_ADDR, RST_RET_DATA] ++
  [RST_RET_CTRL_SEAL, RST_RET_STATUS_SEALED, RST_RET_STATUS_VALID, RST_RET_CRC]

/-! ### STRAP registers (R481, 14_reset_boot_security.md) -/

/-- STRAP.CODE.CODE, R481. -/
def STRAP_CODE_CODE : RegField :=
  ⟨.strap, "CODE.CODE", 0x100, 0, 0, 1, 0, 4, .ro, false, false, 0, [], .strap, .module⟩
/-- STRAP.CODE.COUNT, R481. -/
def STRAP_CODE_COUNT : RegField :=
  ⟨.strap, "CODE.COUNT", 0x100, 0, 0, 1, 4, 10, .ro, false, false, 32, [], .strap, .module⟩
/-- STRAP.CODE.LEGACY, R481. -/
def STRAP_CODE_LEGACY : RegField :=
  ⟨.strap, "CODE.LEGACY", 0x100, 0, 0, 1, 14, 1, .ro, false, false, 0, [], .strap, .module⟩
/-- STRAP.PINS.BOOT0, R481. -/
def STRAP_PINS_BOOT0 : RegField :=
  ⟨.strap, "PINS.BOOT0", 0x104, 0, 0, 1, 0, 1, .ro, false, false, 1, [], .strap, .module⟩
/-- STRAP.PINS.BOOT1, R481. -/
def STRAP_PINS_BOOT1 : RegField :=
  ⟨.strap, "PINS.BOOT1", 0x104, 0, 0, 1, 1, 1, .ro, false, false, 1, [], .strap, .module⟩
/-- STRAP.PINS.OSCSEL, R481. -/
def STRAP_PINS_OSCSEL : RegField :=
  ⟨.strap, "PINS.OSCSEL", 0x104, 0, 0, 1, 2, 1, .ro, false, false, 1, [], .strap, .module⟩
/-- STRAP.EFFECT.BOOT_SRC, R481. -/
def STRAP_EFFECT_BOOT_SRC : RegField :=
  ⟨.strap, "EFFECT.BOOT_SRC", 0x108, 0, 0, 1, 0, 2, .ro, false, false, 0, [], .strap, .module⟩
/-- STRAP.EFFECT.LANE_112, R481. -/
def STRAP_EFFECT_LANE_112 : RegField :=
  ⟨.strap, "EFFECT.LANE_112", 0x108, 0, 0, 1, 2, 1, .ro, false, false, 0, [], .strap, .module⟩
/-- STRAP.EFFECT.I3C_B, R481. -/
def STRAP_EFFECT_I3C_B : RegField :=
  ⟨.strap, "EFFECT.I3C_B", 0x108, 0, 0, 1, 3, 1, .ro, false, false, 0, [], .strap, .module⟩
/-- STRAP.EFFECT.REFCLK, R481. -/
def STRAP_EFFECT_REFCLK : RegField :=
  ⟨.strap, "EFFECT.REFCLK", 0x108, 0, 0, 1, 4, 1, .ro, false, false, 0, [], .strap, .module⟩

/-- The register fields of the STRAP class, in the order of its table (R481). -/
def STRAP_fields : List RegField :=
  [STRAP_CODE_CODE, STRAP_CODE_COUNT, STRAP_CODE_LEGACY, STRAP_PINS_BOOT0, STRAP_PINS_BOOT1, STRAP_PINS_OSCSEL, STRAP_EFFECT_BOOT_SRC, STRAP_EFFECT_LANE_112, STRAP_EFFECT_I3C_B, STRAP_EFFECT_REFCLK]

/-! ### FUSE registers (R482, 14_reset_boot_security.md) -/

/-- FUSE.CFG.DEBUG_LEVEL, R482. -/
def FUSE_CFG_DEBUG_LEVEL : RegField :=
  ⟨.fuse, "CFG.DEBUG_LEVEL", 0x100, 0, 0, 1, 0, 2, .ro, false, false, 0, [], .fuse, .never⟩
/-- FUSE.CFG.MFG_PERMIT, R482. -/
def FUSE_CFG_MFG_PERMIT : RegField :=
  ⟨.fuse, "CFG.MFG_PERMIT", 0x100, 0, 0, 1, 2, 1, .ro, false, false, 0, [], .fuse, .never⟩
/-- FUSE.CFG.HOST_CLOSED, R482. -/
def FUSE_CFG_HOST_CLOSED : RegField :=
  ⟨.fuse, "CFG.HOST_CLOSED", 0x100, 0, 0, 1, 3, 6, .ro, false, false, 0, [], .fuse, .never⟩
/-- FUSE.CFG.QP, R482. -/
def FUSE_CFG_QP : RegField :=
  ⟨.fuse, "CFG.QP", 0x100, 0, 0, 1, 9, 3, .ro, false, false, 0, [], .fuse, .never⟩
/-- FUSE.CFG.REVOKED, R482. -/
def FUSE_CFG_REVOKED : RegField :=
  ⟨.fuse, "CFG.REVOKED", 0x100, 0, 0, 1, 12, 4, .ro, false, false, 0, [], .fuse, .never⟩
/-- FUSE.CFG.OWNER_SET, R482. -/
def FUSE_CFG_OWNER_SET : RegField :=
  ⟨.fuse, "CFG.OWNER_SET", 0x100, 0, 0, 1, 16, 2, .ro, false, false, 0, [], .fuse, .never⟩
/-- FUSE.CFG.DEBUG_LOWER, R482. -/
def FUSE_CFG_DEBUG_LOWER : RegField :=
  ⟨.fuse, "CFG.DEBUG_LOWER", 0x100, 0, 0, 1, 18, 3, .ro, false, false, 0, [], .fuse, .never⟩
/-- FUSE.SVN_FW, R482. -/
def FUSE_SVN_FW : RegField :=
  ⟨.fuse, "SVN_FW", 0x108, 0, 0, 1, 0, 64, .ro, false, false, 0, [], .fuse, .never⟩
/-- FUSE.SVN_IMG, R482. -/
def FUSE_SVN_IMG : RegField :=
  ⟨.fuse, "SVN_IMG", 0x110, 0, 0, 1, 0, 64, .ro, false, false, 0, [], .fuse, .never⟩
/-- FUSE.CE_COUNT, R482. -/
def FUSE_CE_COUNT : RegField :=
  ⟨.fuse, "CE_COUNT", 0x118, 0, 0, 1, 0, 32, .ro, false, false, 0, [], .fixed, .module⟩
/-- FUSE.KEY_SEL, R482. -/
def FUSE_KEY_SEL : RegField :=
  ⟨.fuse, "KEY_SEL", 0x120, 0, 0, 1, 0, 2, .rw, false, false, 0, [], .fixed, .module⟩
/-- FUSE.KEY_WORD n, R482. -/
def FUSE_KEY_WORD : RegField :=
  ⟨.fuse, "KEY_WORD n", 0x140, 4, 0, 24, 0, 32, .ro, false, false, 0, [], .fuse, .never⟩
/-- FUSE.PROG.BIT, R482. -/
def FUSE_PROG_BIT : RegField :=
  ⟨.fuse, "PROG.BIT", 0x180, 0, 0, 1, 0, 12, .rw, false, false, 0, [], .fixed, .module⟩
/-- FUSE.PROG.GO, R482. -/
def FUSE_PROG_GO : RegField :=
  ⟨.fuse, "PROG.GO", 0x180, 0, 0, 1, 31, 1, .wo, false, false, 0, [], .fixed, .never⟩
/-- FUSE.SVN_ADVANCE.FW, R482. -/
def FUSE_SVN_ADVANCE_FW : RegField :=
  ⟨.fuse, "SVN_ADVANCE.FW", 0x184, 0, 0, 1, 0, 7, .rw, false, false, 0, [], .fixed, .module⟩
/-- FUSE.SVN_ADVANCE.IMG, R482. -/
def FUSE_SVN_ADVANCE_IMG : RegField :=
  ⟨.fuse, "SVN_ADVANCE.IMG", 0x184, 0, 0, 1, 8, 7, .rw, false, false, 0, [], .fixed, .module⟩
/-- FUSE.SVN_ADVANCE.GO, R482. -/
def FUSE_SVN_ADVANCE_GO : RegField :=
  ⟨.fuse, "SVN_ADVANCE.GO", 0x184, 0, 0, 1, 31, 1, .wo, false, false, 0, [], .fixed, .never⟩
/-- FUSE.PROG_STATUS.BUSY, R482. -/
def FUSE_PROG_STATUS_BUSY : RegField :=
  ⟨.fuse, "PROG_STATUS.BUSY", 0x188, 0, 0, 1, 0, 1, .ro, false, false, 0, [], .fixed, .module⟩

/-- The register fields of the FUSE class, in the order of its table (R482). -/
def FUSE_fields : List RegField :=
  [FUSE_CFG_DEBUG_LEVEL, FUSE_CFG_MFG_PERMIT, FUSE_CFG_HOST_CLOSED, FUSE_CFG_QP, FUSE_CFG_REVOKED, FUSE_CFG_OWNER_SET, FUSE_CFG_DEBUG_LOWER, FUSE_SVN_FW, FUSE_SVN_IMG, FUSE_CE_COUNT, FUSE_KEY_SEL, FUSE_KEY_WORD, FUSE_PROG_BIT, FUSE_PROG_GO, FUSE_SVN_ADVANCE_FW, FUSE_SVN_ADVANCE_IMG, FUSE_SVN_ADVANCE_GO, FUSE_PROG_STATUS_BUSY]

/-! ### SEC registers (R483, 14_reset_boot_security.md) -/

/-- SEC.STATUS.BUSY, R483. -/
def SEC_STATUS_BUSY : RegField :=
  ⟨.sec, "STATUS.BUSY", 0x18, 0, 0, 1, 0, 1, .ro, false, false, 0, [], .fixed, .module⟩
/-- SEC.STATUS.DEBUG_UNLOCKED, R483. -/
def SEC_STATUS_DEBUG_UNLOCKED : RegField :=
  ⟨.sec, "STATUS.DEBUG_UNLOCKED", 0x18, 0, 0, 1, 1, 1, .ro, false, false, 0, [], .fixed, .module⟩
/-- SEC.STATUS.LMS_LOW, R483. -/
def SEC_STATUS_LMS_LOW : RegField :=
  ⟨.sec, "STATUS.LMS_LOW", 0x18, 0, 0, 1, 2, 1, .ro, false, false, 0, [], .fixed, .module⟩
/-- SEC.ATT_ADDR, R483. -/
def SEC_ATT_ADDR : RegField :=
  ⟨.sec, "ATT_ADDR", 0x100, 0, 0, 1, 0, 48, .rw, false, false, 0, [], .fixed, .module⟩
/-- SEC.ATT_REQ.KIND, R483. -/
def SEC_ATT_REQ_KIND : RegField :=
  ⟨.sec, "ATT_REQ.KIND", 0x108, 0, 0, 1, 0, 2, .wo, false, false, 0, [], .fixed, .never⟩
/-- SEC.ATT_REQ.GO, R483. -/
def SEC_ATT_REQ_GO : RegField :=
  ⟨.sec, "ATT_REQ.GO", 0x108, 0, 0, 1, 31, 1, .wo, false, false, 0, [], .fixed, .never⟩
/-- SEC.ATT_RESULT.CODE, R483. -/
def SEC_ATT_RESULT_CODE : RegField :=
  ⟨.sec, "ATT_RESULT.CODE", 0x10c, 0, 0, 1, 0, 2, .ro, false, false, 0, [], .fixed, .module⟩
/-- SEC.ATT_RESULT.LENGTH, R483. -/
def SEC_ATT_RESULT_LENGTH : RegField :=
  ⟨.sec, "ATT_RESULT.LENGTH", 0x10c, 0, 0, 1, 16, 16, .ro, false, false, 0, [], .fixed, .module⟩
/-- SEC.LMS_NEXT, R483. -/
def SEC_LMS_NEXT : RegField :=
  ⟨.sec, "LMS_NEXT", 0x110, 0, 0, 1, 0, 40, .ro, false, false, 0, [], .calib, .never⟩
/-- SEC.LMS_RESERVED, R483. -/
def SEC_LMS_RESERVED : RegField :=
  ⟨.sec, "LMS_RESERVED", 0x118, 0, 0, 1, 0, 40, .ro, false, false, 0, [], .calib, .never⟩
/-- SEC.DBG_NONCE, R483. -/
def SEC_DBG_NONCE : RegField :=
  ⟨.sec, "DBG_NONCE", 0x120, 0, 0, 1, 0, 128, .ro, false, false, 0, [], .fixed, .module⟩
/-- SEC.DBG_TOKEN, R483. -/
def SEC_DBG_TOKEN : RegField :=
  ⟨.sec, "DBG_TOKEN", 0x130, 0, 0, 1, 0, 48, .rw, false, false, 0, [], .fixed, .module⟩
/-- SEC.DBG_UNLOCK.GO, R483. -/
def SEC_DBG_UNLOCK_GO : RegField :=
  ⟨.sec, "DBG_UNLOCK.GO", 0x138, 0, 0, 1, 0, 1, .wo, false, false, 0, [], .fixed, .never⟩
/-- SEC.SIGS, R483. -/
def SEC_SIGS : RegField :=
  ⟨.sec, "SIGS", 0x140, 0, 0, 1, 0, 64, .ro, false, false, 0, [], .fixed, .module⟩

/-- The register fields of the SEC class, in the order of its table (R483). -/
def SEC_fields : List RegField :=
  [SEC_STATUS_BUSY, SEC_STATUS_DEBUG_UNLOCKED, SEC_STATUS_LMS_LOW, SEC_ATT_ADDR, SEC_ATT_REQ_KIND, SEC_ATT_REQ_GO, SEC_ATT_RESULT_CODE, SEC_ATT_RESULT_LENGTH, SEC_LMS_NEXT, SEC_LMS_RESERVED, SEC_DBG_NONCE, SEC_DBG_TOKEN, SEC_DBG_UNLOCK_GO, SEC_SIGS]

/-! ### PWR registers (R397, 12_current_power_cooling.md) -/

/-- PWR.PAGE_CAPS.CLASS_CAPS.RAILS, R397. -/
def PWR_PAGE_CAPS_CLASS_CAPS_RAILS : RegField :=
  ⟨.pwr, "PAGE_CAPS.CLASS_CAPS.RAILS", 0x8, 0, 0, 1, 16, 5, .ro, false, false, 24, [], .fixed, .never⟩
/-- PWR.CTRL.STATE_REQ, R397. -/
def PWR_CTRL_STATE_REQ : RegField :=
  ⟨.pwr, "CTRL.STATE_REQ", 0x10, 0, 0, 1, 0, 2, .rw, true, false, 0, [], .fixed, .module⟩
/-- PWR.STATUS.STATE, R397. -/
def PWR_STATUS_STATE : RegField :=
  ⟨.pwr, "STATUS.STATE", 0x18, 0, 0, 1, 0, 2, .ro, false, false, 0, [], .fixed, .module⟩
/-- PWR.STATUS.CAP_MODE, R397. -/
def PWR_STATUS_CAP_MODE : RegField :=
  ⟨.pwr, "STATUS.CAP_MODE", 0x18, 0, 0, 1, 2, 1, .ro, false, false, 0, [], .fixed, .module⟩
/-- PWR.STATUS.SLOWDOWN, R397. -/
def PWR_STATUS_SLOWDOWN : RegField :=
  ⟨.pwr, "STATUS.SLOWDOWN", 0x18, 0, 0, 1, 3, 1, .ro, false, false, 0, [], .fixed, .module⟩
/-- PWR.STATUS.COOLANT_OK, R397. -/
def PWR_STATUS_COOLANT_OK : RegField :=
  ⟨.pwr, "STATUS.COOLANT_OK", 0x18, 0, 0, 1, 4, 1, .ro, false, false, 0, [], .fixed, .module⟩
/-- PWR.STATUS.TRANSITION, R397. -/
def PWR_STATUS_TRANSITION : RegField :=
  ⟨.pwr, "STATUS.TRANSITION", 0x18, 0, 0, 1, 5, 1, .ro, false, false, 0, [], .fixed, .module⟩
/-- PWR.CAP_W, R397. -/
def PWR_CAP_W : RegField :=
  ⟨.pwr, "CAP_W", 0x100, 0, 0, 1, 0, 12, .rw, true, true, 2000, [], .fixed, .module⟩
/-- PWR.HOST_CAP_W, R397. -/
def PWR_HOST_CAP_W : RegField :=
  ⟨.pwr, "HOST_CAP_W", 0x104, 0, 0, 1, 0, 12, .rw, true, false, 2400, [], .fixed, .module⟩
/-- PWR.V_CEIL, R397. -/
def PWR_V_CEIL : RegField :=
  ⟨.pwr, "V_CEIL", 0x108, 0, 0, 1, 0, 10, .rw, true, true, 900, [], .fixed, .module⟩
/-- PWR.ADMIT_MIN, R397. -/
def PWR_ADMIT_MIN : RegField :=
  ⟨.pwr, "ADMIT_MIN", 0x10c, 0, 0, 1, 0, 7, .rw, true, true, 25, [], .fixed, .module⟩
/-- PWR.SLOW_ADMIT, R397. -/
def PWR_SLOW_ADMIT : RegField :=
  ⟨.pwr, "SLOW_ADMIT", 0x110, 0, 0, 1, 0, 7, .rw, true, true, 50, [], .fixed, .module⟩
/-- PWR.HYST_W, R397. -/
def PWR_HYST_W : RegField :=
  ⟨.pwr, "HYST_W", 0x114, 0, 0, 1, 0, 8, .rw, true, true, 20, [], .fixed, .module⟩
/-- PWR.P_MOD, R397. -/
def PWR_P_MOD : RegField :=
  ⟨.pwr, "P_MOD", 0x120, 0, 0, 1, 0, 16, .ro, false, false, 0, [], .fixed, .module⟩
/-- PWR.P_EST, R397. -/
def PWR_P_EST : RegField :=
  ⟨.pwr, "P_EST", 0x124, 0, 0, 1, 0, 16, .ro, false, false, 0, [], .fixed, .module⟩
/-- PWR.P_CTL, R397. -/
def PWR_P_CTL : RegField :=
  ⟨.pwr, "P_CTL", 0x128, 0, 0, 1, 0, 16, .ro, false, false, 0, [], .fixed, .module⟩
/-- PWR.CAP_EFF, R397. -/
def PWR_CAP_EFF : RegField :=
  ⟨.pwr, "CAP_EFF", 0x12c, 0, 0, 1, 0, 12, .ro, false, false, 2000, [], .fixed, .module⟩
/-- PWR.INLET_T, R397. -/
def PWR_INLET_T : RegField :=
  ⟨.pwr, "INLET_T", 0x130, 0, 0, 1, 0, 16, .ro, false, false, 0, [], .fixed, .module⟩
/-- PWR.VSET d, R397. -/
def PWR_VSET : RegField :=
  ⟨.pwr, "VSET d", 0x140, 4, 0, 4, 0, 10, .ro, false, false, 780, [], .fixed, .module⟩
/-- PWR.THR_ACTIVE, R397. -/
def PWR_THR_ACTIVE : RegField :=
  ⟨.pwr, "THR_ACTIVE", 0x150, 0, 0, 1, 0, 8, .ro, false, false, 0, [], .fixed, .module⟩
/-- PWR.MODULE_MJ, R397. -/
def PWR_MODULE_MJ : RegField :=
  ⟨.pwr, "MODULE_MJ", 0x160, 0, 0, 1, 0, 64, .ro, false, false, 0, [], .fixed, .module⟩
/-- PWR.UNATTRIB_MJ, R397. -/
def PWR_UNATTRIB_MJ : RegField :=
  ⟨.pwr, "UNATTRIB_MJ", 0x168, 0, 0, 1, 0, 64, .ro, false, false, 0, [], .fixed, .module⟩
/-- PWR.THR r.DUR, R397. -/
def PWR_THR_DUR : RegField :=
  ⟨.pwr, "THR r.DUR", 0x200, 32, 0, 8, 0, 64, .ro, false, false, 0, [], .fixed, .module⟩
/-- PWR.THR r.START, R397. -/
def PWR_THR_START : RegField :=
  ⟨.pwr, "THR r.START", 0x208, 32, 0, 8, 0, 64, .ro, false, false, 0, [], .fixed, .module⟩
/-- PWR.THR r.END, R397. -/
def PWR_THR_END : RegField :=
  ⟨.pwr, "THR r.END", 0x210, 32, 0, 8, 0, 64, .ro, false, false, 0, [], .fixed, .module⟩
/-- PWR.THR r.DEPTH.MIN_MV, R397. -/
def PWR_THR_DEPTH_MIN_MV : RegField :=
  ⟨.pwr, "THR r.DEPTH.MIN_MV", 0x218, 32, 0, 8, 0, 10, .ro, false, false, 0, [], .fixed, .module⟩
/-- PWR.THR r.DEPTH.MIN_ADMIT, R397. -/
def PWR_THR_DEPTH_MIN_ADMIT : RegField :=
  ⟨.pwr, "THR r.DEPTH.MIN_ADMIT", 0x218, 32, 0, 8, 10, 7, .ro, false, false, 0, [], .fixed, .module⟩
/-- PWR.THR r.DEPTH.OPEN, R397. -/
def PWR_THR_DEPTH_OPEN : RegField :=
  ⟨.pwr, "THR r.DEPTH.OPEN", 0x218, 32, 0, 8, 31, 1, .ro, false, false, 0, [], .fixed, .module⟩
/-- PWR.RAIL n.VI.V_MV, R397. -/
def PWR_RAIL_V_MV : RegField :=
  ⟨.pwr, "RAIL n.VI.V_MV", 0x400, 8, 0, 24, 0, 16, .ro, false, false, 0, [], .fixed, .module⟩
/-- PWR.RAIL n.VI.I_DA, R397. -/
def PWR_RAIL_I_DA : RegField :=
  ⟨.pwr, "RAIL n.VI.I_DA", 0x400, 8, 0, 24, 16, 16, .ro, false, false, 0, [], .fixed, .module⟩
/-- PWR.RAIL n.P.P, R397. -/
def PWR_RAIL_P : RegField :=
  ⟨.pwr, "RAIL n.P.P", 0x404, 8, 0, 24, 0, 20, .ro, false, false, 0, [], .fixed, .module⟩

/-- The register fields of the PWR class, in the order of its table (R397). -/
def PWR_fields : List RegField :=
  [PWR_PAGE_CAPS_CLASS_CAPS_RAILS, PWR_CTRL_STATE_REQ, PWR_STATUS_STATE, PWR_STATUS_CAP_MODE, PWR_STATUS_SLOWDOWN, PWR_STATUS_COOLANT_OK, PWR_STATUS_TRANSITION, PWR_CAP_W, PWR_HOST_CAP_W, PWR_V_CEIL, PWR_ADMIT_MIN, PWR_SLOW_ADMIT, PWR_HYST_W, PWR_P_MOD, PWR_P_EST, PWR_P_CTL, PWR_CAP_EFF, PWR_INLET_T, PWR_VSET, PWR_THR_ACTIVE] ++
  [PWR_MODULE_MJ, PWR_UNATTRIB_MJ, PWR_THR_DUR, PWR_THR_START, PWR_THR_END, PWR_THR_DEPTH_MIN_MV, PWR_THR_DEPTH_MIN_ADMIT, PWR_THR_DEPTH_OPEN, PWR_RAIL_V_MV, PWR_RAIL_I_DA, PWR_RAIL_P]

/-! ### SCHED registers (R367, 11_polders_contexts_schedule.md) -/

/-- SCHED.PAGE_CAPS.CLASS_CAPS.SLOTS, R367. -/
def SCHED_PAGE_CAPS_CLASS_CAPS_SLOTS : RegField :=
  ⟨.sched, "PAGE_CAPS.CLASS_CAPS.SLOTS", 0x8, 0, 0, 1, 16, 9, .ro, false, false, 256, [], .fixed, .never⟩
/-- SCHED.CTRL.RUN, R367. -/
def SCHED_CTRL_RUN : RegField :=
  ⟨.sched, "CTRL.RUN", 0x10, 0, 0, 1, 0, 1, .rw, true, false, 0, [], .fixed, .module⟩
/-- SCHED.CTRL.SWAP_POLICY, R367. -/
def SCHED_CTRL_SWAP_POLICY : RegField :=
  ⟨.sched, "CTRL.SWAP_POLICY", 0x10, 0, 0, 1, 1, 2, .rw, true, true, 0, [], .fixed, .module⟩
/-- SCHED.CTRL.SWAP_N, R367. -/
def SCHED_CTRL_SWAP_N : RegField :=
  ⟨.sched, "CTRL.SWAP_N", 0x10, 0, 0, 1, 8, 8, .rw, true, true, 1, [], .fixed, .module⟩
/-- SCHED.STATUS.RUNNING, R367. -/
def SCHED_STATUS_RUNNING : RegField :=
  ⟨.sched, "STATUS.RUNNING", 0x18, 0, 0, 1, 0, 1, .ro, false, false, 0, [], .fixed, .module⟩
/-- SCHED.STATUS.RESIDENT, R367. -/
def SCHED_STATUS_RESIDENT : RegField :=
  ⟨.sched, "STATUS.RESIDENT", 0x18, 0, 0, 1, 4, 5, .ro, false, false, 0, [], .fixed, .module⟩
/-- SCHED.STATUS.KNOWN, R367. -/
def SCHED_STATUS_KNOWN : RegField :=
  ⟨.sched, "STATUS.KNOWN", 0x18, 0, 0, 1, 9, 7, .ro, false, false, 0, [], .fixed, .module⟩
/-- SCHED.CYCLE_TICKS, R367. -/
def SCHED_CYCLE_TICKS : RegField :=
  ⟨.sched, "CYCLE_TICKS", 0x100, 0, 0, 1, 0, 24, .rw, true, true, 100000, [], .fixed, .module⟩
/-- SCHED.OVERRUN_TICKS, R367. -/
def SCHED_OVERRUN_TICKS : RegField :=
  ⟨.sched, "OVERRUN_TICKS", 0x104, 0, 0, 1, 0, 24, .rw, true, true, 5000, [], .fixed, .module⟩
/-- SCHED.POLDER_BASE, R367. -/
def SCHED_POLDER_BASE : RegField :=
  ⟨.sched, "POLDER_BASE", 0x108, 0, 0, 1, 0, 48, .rw, true, true, 0, [], .fixed, .module⟩
/-- SCHED.CREATE_DESC, R367. -/
def SCHED_CREATE_DESC : RegField :=
  ⟨.sched, "CREATE_DESC", 0x110, 0, 0, 1, 0, 48, .rw, false, false, 0, [], .fixed, .module⟩
/-- SCHED.CREATE_GO.GO, R367. -/
def SCHED_CREATE_GO_GO : RegField :=
  ⟨.sched, "CREATE_GO.GO", 0x118, 0, 0, 1, 0, 1, .wo, false, false, 0, [], .fixed, .never⟩
/-- SCHED.CREATE_RESULT.NUM, R367. -/
def SCHED_CREATE_RESULT_NUM : RegField :=
  ⟨.sched, "CREATE_RESULT.NUM", 0x11c, 0, 0, 1, 0, 6, .ro, false, false, 0, [], .fixed, .module⟩
/-- SCHED.CREATE_RESULT.CODE, R367. -/
def SCHED_CREATE_RESULT_CODE : RegField :=
  ⟨.sched, "CREATE_RESULT.CODE", 0x11c, 0, 0, 1, 6, 2, .ro, false, false, 0, [], .fixed, .module⟩
/-- SCHED.CREATE_RESULT.BUSY, R367. -/
def SCHED_CREATE_RESULT_BUSY : RegField :=
  ⟨.sched, "CREATE_RESULT.BUSY", 0x11c, 0, 0, 1, 8, 1, .ro, false, false, 0, [], .fixed, .module⟩
/-- SCHED.CYCLES, R367. -/
def SCHED_CYCLES : RegField :=
  ⟨.sched, "CYCLES", 0x120, 0, 0, 1, 0, 64, .ro, false, false, 0, [], .fixed, .module⟩
/-- SCHED.SWAPS, R367. -/
def SCHED_SWAPS : RegField :=
  ⟨.sched, "SWAPS", 0x128, 0, 0, 1, 0, 32, .rc, false, false, 0, [], .fixed, .module⟩
/-- SCHED.POLDER_GEN p, R367. -/
def SCHED_POLDER_GEN : RegField :=
  ⟨.sched, "POLDER_GEN p", 0x400, 4, 0, 128, 0, 16, .ro, false, false, 0, [], .fixed, .module⟩
/-- SCHED.SLOT n.POLDER, R367. -/
def SCHED_SLOT_POLDER : RegField :=
  ⟨.sched, "SLOT n.POLDER", 0x800, 8, 0, 256, 0, 7, .rw, true, true, 0, [], .fixed, .module⟩
/-- SCHED.SLOT n.VALID, R367. -/
def SCHED_SLOT_VALID : RegField :=
  ⟨.sched, "SLOT n.VALID", 0x800, 8, 0, 256, 7, 1, .rw, true, true, 0, [], .fixed, .module⟩
/-- SCHED.SLOT n.CONTEXT, R367. -/
def SCHED_SLOT_CONTEXT : RegField :=
  ⟨.sched, "SLOT n.CONTEXT", 0x800, 8, 0, 256, 8, 6, .rw, true, true, 0, [], .fixed, .module⟩
/-- SCHED.SLOT n.GUARANTEED, R367. -/
def SCHED_SLOT_GUARANTEED : RegField :=
  ⟨.sched, "SLOT n.GUARANTEED", 0x800, 8, 0, 256, 14, 1, .rw, true, true, 0, [], .fixed, .module⟩
/-- SCHED.SLOT n.DURATION, R367. -/
def SCHED_SLOT_DURATION : RegField :=
  ⟨.sched, "SLOT n.DURATION", 0x804, 8, 0, 256, 0, 24, .rw, true, true, 0, [], .fixed, .module⟩

/-- The register fields of the SCHED class, in the order of its table (R367). -/
def SCHED_fields : List RegField :=
  [SCHED_PAGE_CAPS_CLASS_CAPS_SLOTS, SCHED_CTRL_RUN, SCHED_CTRL_SWAP_POLICY, SCHED_CTRL_SWAP_N, SCHED_STATUS_RUNNING, SCHED_STATUS_RESIDENT, SCHED_STATUS_KNOWN, SCHED_CYCLE_TICKS, SCHED_OVERRUN_TICKS, SCHED_POLDER_BASE, SCHED_CREATE_DESC, SCHED_CREATE_GO_GO, SCHED_CREATE_RESULT_NUM, SCHED_CREATE_RESULT_CODE, SCHED_CREATE_RESULT_BUSY, SCHED_CYCLES, SCHED_SWAPS, SCHED_POLDER_GEN, SCHED_SLOT_POLDER, SCHED_SLOT_VALID] ++
  [SCHED_SLOT_CONTEXT, SCHED_SLOT_GUARANTEED, SCHED_SLOT_DURATION]

/-! ### EMB registers (R444, 13_faults_recovery.md) -/

/-- EMB.CTRL.WARDEN_OK, R444. -/
def EMB_CTRL_WARDEN_OK : RegField :=
  ⟨.emb, "CTRL.WARDEN_OK", 0x10, 0, 0, 1, 0, 1, .rw, true, true, 1, [], .fixed, .module⟩
/-- EMB.STATUS.ID_SET, R444. -/
def EMB_STATUS_ID_SET : RegField :=
  ⟨.emb, "STATUS.ID_SET", 0x18, 0, 0, 1, 0, 1, .ro, false, false, 0, [], .fixed, .module⟩
/-- EMB.STATUS.WARDEN, R444. -/
def EMB_STATUS_WARDEN : RegField :=
  ⟨.emb, "STATUS.WARDEN", 0x18, 0, 0, 1, 1, 1, .ro, false, false, 0, [], .fixed, .module⟩
/-- EMB.STATUS.SAFE, R444. -/
def EMB_STATUS_SAFE : RegField :=
  ⟨.emb, "STATUS.SAFE", 0x18, 0, 0, 1, 2, 1, .ro, false, false, 0, [], .fixed, .module⟩
/-- EMB.MODULE_ID, R444. -/
def EMB_MODULE_ID : RegField :=
  ⟨.emb, "MODULE_ID", 0x100, 0, 0, 1, 0, 16, .rw, false, true, 0, [], .fixed, .module⟩
/-- EMB.WARDEN_ID, R444. -/
def EMB_WARDEN_ID : RegField :=
  ⟨.emb, "WARDEN_ID", 0x104, 0, 0, 1, 0, 16, .ro, false, false, 0, [], .fixed, .module⟩
/-- EMB.EPOCH, R444. -/
def EMB_EPOCH : RegField :=
  ⟨.emb, "EPOCH", 0x108, 0, 0, 1, 0, 32, .ro, false, false, 0, [], .fixed, .module⟩
/-- EMB.LINKS_LOST, R444. -/
def EMB_LINKS_LOST : RegField :=
  ⟨.emb, "LINKS_LOST", 0x10c, 0, 0, 1, 0, 32, .ro, false, false, 0, [], .fixed, .module⟩
/-- EMB.STARVE_US, R444. -/
def EMB_STARVE_US : RegField :=
  ⟨.emb, "STARVE_US", 0x110, 0, 0, 1, 0, 16, .rw, true, true, 500, [], .fixed, .module⟩
/-- EMB.STALL_LINES, R444. -/
def EMB_STALL_LINES : RegField :=
  ⟨.emb, "STALL_LINES", 0x114, 0, 0, 1, 0, 8, .rw, true, true, 64, [], .fixed, .module⟩
/-- EMB.REPLAY_MAX, R444. -/
def EMB_REPLAY_MAX : RegField :=
  ⟨.emb, "REPLAY_MAX", 0x118, 0, 0, 1, 0, 4, .rw, true, true, 3, [], .fixed, .module⟩
/-- EMB.ERR_CTX, R444. -/
def EMB_ERR_CTX : RegField :=
  ⟨.emb, "ERR_CTX", 0x11c, 0, 0, 1, 0, 6, .ro, false, false, 0, [], .fixed, .module⟩
/-- EMB.CAPTURE_BASE, R444. -/
def EMB_CAPTURE_BASE : RegField :=
  ⟨.emb, "CAPTURE_BASE", 0x120, 0, 0, 1, 0, 48, .rw, false, true, 0, [], .fixed, .module⟩
/-- EMB.CAPTURE.ARMED, R444. -/
def EMB_CAPTURE_ARMED : RegField :=
  ⟨.emb, "CAPTURE.ARMED", 0x128, 0, 0, 1, 0, 1, .rw, false, false, 1, [], .fixed, .full⟩
/-- EMB.CAPTURE.VALID, R444. -/
def EMB_CAPTURE_VALID : RegField :=
  ⟨.emb, "CAPTURE.VALID", 0x128, 0, 0, 1, 1, 1, .ro, false, false, 0, [], .fixed, .full⟩
/-- EMB.CAPTURE_SKIPPED, R444. -/
def EMB_CAPTURE_SKIPPED : RegField :=
  ⟨.emb, "CAPTURE_SKIPPED", 0x12c, 0, 0, 1, 0, 32, .rc, false, false, 0, [], .fixed, .full⟩
/-- EMB.SAFE.REASON, R444. -/
def EMB_SAFE_REASON : RegField :=
  ⟨.emb, "SAFE.REASON", 0x130, 0, 0, 1, 0, 16, .ro, false, false, 0, [], .fixed, .module⟩
/-- EMB.LOSSES, R444. -/
def EMB_LOSSES : RegField :=
  ⟨.emb, "LOSSES", 0x134, 0, 0, 1, 0, 32, .rc, false, false, 0, [], .fixed, .module⟩
/-- EMB.DECISIONS, R444. -/
def EMB_DECISIONS : RegField :=
  ⟨.emb, "DECISIONS", 0x138, 0, 0, 1, 0, 32, .rc, false, false, 0, [], .fixed, .module⟩
/-- EMB.CKPT n.CFG.C, R444. -/
def EMB_CKPT_C : RegField :=
  ⟨.emb, "CKPT n.CFG.C", 0x800, 32, 0, 64, 0, 16, .rw, true, true, 0, [], .fixed, .module⟩
/-- EMB.CKPT n.CFG.LINK, R444. -/
def EMB_CKPT_LINK : RegField :=
  ⟨.emb, "CKPT n.CFG.LINK", 0x800, 32, 0, 64, 16, 2, .rw, true, true, 3, [], .fixed, .module⟩
/-- EMB.CKPT n.CFG.QP, R444. -/
def EMB_CKPT_QP : RegField :=
  ⟨.emb, "CKPT n.CFG.QP", 0x800, 32, 0, 64, 18, 6, .rw, true, true, 0, [], .fixed, .module⟩
/-- EMB.CKPT n.RKEY, R444. -/
def EMB_CKPT_RKEY : RegField :=
  ⟨.emb, "CKPT n.RKEY", 0x804, 32, 0, 64, 0, 32, .rw, true, true, 0, [], .fixed, .module⟩
/-- EMB.CKPT n.REMOTE, R444. -/
def EMB_CKPT_REMOTE : RegField :=
  ⟨.emb, "CKPT n.REMOTE", 0x808, 32, 0, 64, 0, 64, .rw, true, true, 0, [], .fixed, .module⟩
/-- EMB.CKPT n.LAST_STEP, R444. -/
def EMB_CKPT_LAST_STEP : RegField :=
  ⟨.emb, "CKPT n.LAST_STEP", 0x810, 32, 0, 64, 0, 32, .ro, false, false, 0, [], .fixed, .module⟩
/-- EMB.CKPT n.PENDING, R444. -/
def EMB_CKPT_PENDING : RegField :=
  ⟨.emb, "CKPT n.PENDING", 0x814, 32, 0, 64, 0, 32, .ro, false, false, 0, [], .fixed, .module⟩

/-- The register fields of the EMB class, in the order of its table (R444). -/
def EMB_fields : List RegField :=
  [EMB_CTRL_WARDEN_OK, EMB_STATUS_ID_SET, EMB_STATUS_WARDEN, EMB_STATUS_SAFE, EMB_MODULE_ID, EMB_WARDEN_ID, EMB_EPOCH, EMB_LINKS_LOST, EMB_STARVE_US, EMB_STALL_LINES, EMB_REPLAY_MAX, EMB_ERR_CTX, EMB_CAPTURE_BASE, EMB_CAPTURE_ARMED, EMB_CAPTURE_VALID, EMB_CAPTURE_SKIPPED, EMB_SAFE_REASON, EMB_LOSSES, EMB_DECISIONS, EMB_CKPT_C] ++
  [EMB_CKPT_LINK, EMB_CKPT_QP, EMB_CKPT_RKEY, EMB_CKPT_REMOTE, EMB_CKPT_LAST_STEP, EMB_CKPT_PENDING]

/-! ### HLINK registers (R509, 16_connectors_electrical.md) -/

/-- HLINK.CTRL.EVQ_EN, R509. -/
def HLINK_CTRL_EVQ_EN : RegField :=
  ⟨.hlink, "CTRL.EVQ_EN", 0x10, 0, 0, 1, 0, 1, .rw, true, false, 0, [], .fixed, .module⟩
/-- HLINK.STATUS.STATE, R509. -/
def HLINK_STATUS_STATE : RegField :=
  ⟨.hlink, "STATUS.STATE", 0x18, 0, 0, 1, 0, 3, .ro, false, false, 0, [], .fixed, .module⟩
/-- HLINK.STATUS.VERSION, R509. -/
def HLINK_STATUS_VERSION : RegField :=
  ⟨.hlink, "STATUS.VERSION", 0x18, 0, 0, 1, 3, 4, .ro, false, false, 0, [], .fixed, .module⟩
/-- HLINK.STATUS.RATE_224, R509. -/
def HLINK_STATUS_RATE_224 : RegField :=
  ⟨.hlink, "STATUS.RATE_224", 0x18, 0, 0, 1, 7, 1, .ro, false, false, 0, [], .fixed, .module⟩
/-- HLINK.EVQ_BASE, R509. -/
def HLINK_EVQ_BASE : RegField :=
  ⟨.hlink, "EVQ_BASE", 0x100, 0, 0, 1, 0, 48, .rw, true, true, 0, [], .fixed, .module⟩
/-- HLINK.EVQ_LOG2N, R509. -/
def HLINK_EVQ_LOG2N : RegField :=
  ⟨.hlink, "EVQ_LOG2N", 0x108, 0, 0, 1, 0, 5, .rw, true, true, 12, [], .fixed, .module⟩
/-- HLINK.EVQ_HEAD, R509. -/
def HLINK_EVQ_HEAD : RegField :=
  ⟨.hlink, "EVQ_HEAD", 0x110, 0, 0, 1, 0, 64, .ro, false, false, 0, [], .fixed, .module⟩
/-- HLINK.EVQ_TAIL, R509. -/
def HLINK_EVQ_TAIL : RegField :=
  ⟨.hlink, "EVQ_TAIL", 0x118, 0, 0, 1, 0, 64, .rw, false, false, 0, [], .fixed, .module⟩
/-- HLINK.EVQ_LOST, R509. -/
def HLINK_EVQ_LOST : RegField :=
  ⟨.hlink, "EVQ_LOST", 0x120, 0, 0, 1, 0, 32, .rc, false, false, 0, [], .fixed, .module⟩
/-- HLINK.MSI_VEC.VECTOR, R509. -/
def HLINK_MSI_VEC_VECTOR : RegField :=
  ⟨.hlink, "MSI_VEC.VECTOR", 0x124, 0, 0, 1, 0, 11, .rw, true, false, 0, [], .fixed, .module⟩
/-- HLINK.MSI_VEC.MASK, R509. -/
def HLINK_MSI_VEC_MASK : RegField :=
  ⟨.hlink, "MSI_VEC.MASK", 0x124, 0, 0, 1, 16, 1, .rw, false, false, 0, [], .fixed, .module⟩
/-- HLINK.MBX_BASE, R509. -/
def HLINK_MBX_BASE : RegField :=
  ⟨.hlink, "MBX_BASE", 0x128, 0, 0, 1, 0, 48, .rw, false, true, 0, [], .fixed, .module⟩
/-- HLINK.WIN n.BASE, R509. -/
def HLINK_WIN_BASE : RegField :=
  ⟨.hlink, "WIN n.BASE", 0x140, 8, 0, 4, 30, 18, .rw, true, true, 0, [], .fixed, .module⟩
/-- HLINK.TX_BYTES, R509. -/
def HLINK_TX_BYTES : RegField :=
  ⟨.hlink, "TX_BYTES", 0x180, 0, 0, 1, 0, 64, .ro, false, false, 0, [], .fixed, .module⟩
/-- HLINK.RX_BYTES, R509. -/
def HLINK_RX_BYTES : RegField :=
  ⟨.hlink, "RX_BYTES", 0x188, 0, 0, 1, 0, 64, .ro, false, false, 0, [], .fixed, .module⟩
/-- HLINK.FEC_CE_SYM, R509. -/
def HLINK_FEC_CE_SYM : RegField :=
  ⟨.hlink, "FEC_CE_SYM", 0x190, 0, 0, 1, 0, 64, .ro, false, false, 0, [], .fixed, .module⟩

/-- The register fields of the HLINK class, in the order of its table (R509). -/
def HLINK_fields : List RegField :=
  [HLINK_CTRL_EVQ_EN, HLINK_STATUS_STATE, HLINK_STATUS_VERSION, HLINK_STATUS_RATE_224, HLINK_EVQ_BASE, HLINK_EVQ_LOG2N, HLINK_EVQ_HEAD, HLINK_EVQ_TAIL, HLINK_EVQ_LOST, HLINK_MSI_VEC_VECTOR, HLINK_MSI_VEC_MASK, HLINK_MBX_BASE, HLINK_WIN_BASE, HLINK_TX_BYTES, HLINK_RX_BYTES, HLINK_FEC_CE_SYM]

/-! ### QUAY registers (R213, 06_memory_tiers.md) -/

/-- QUAY.CTRL.STREAM_SHARE, R213. -/
def QUAY_CTRL_STREAM_SHARE : RegField :=
  ⟨.quay, "CTRL.STREAM_SHARE", 0x10, 0, 0, 1, 0, 8, .rw, false, true, 192, [], .fixed, .module⟩
/-- QUAY.STATUS.READY, R213. -/
def QUAY_STATUS_READY : RegField :=
  ⟨.quay, "STATUS.READY", 0x18, 0, 0, 1, 0, 1, .ro, false, false, 0, [], .fixed, .module⟩
/-- QUAY.STATUS.INSTALLING, R213. -/
def QUAY_STATUS_INSTALLING : RegField :=
  ⟨.quay, "STATUS.INSTALLING", 0x18, 0, 0, 1, 1, 1, .ro, false, false, 0, [], .fixed, .module⟩
/-- QUAY.STATUS.DIR_COPY, R213. -/
def QUAY_STATUS_DIR_COPY : RegField :=
  ⟨.quay, "STATUS.DIR_COPY", 0x18, 0, 0, 1, 2, 1, .ro, false, false, 0, [], .fixed, .module⟩
/-- QUAY.IMAGES, R213. -/
def QUAY_IMAGES : RegField :=
  ⟨.quay, "IMAGES", 0x100, 0, 0, 1, 0, 7, .ro, false, false, 0, [], .fixed, .module⟩
/-- QUAY.FREE_BYTES, R213. -/
def QUAY_FREE_BYTES : RegField :=
  ⟨.quay, "FREE_BYTES", 0x108, 0, 0, 1, 0, 64, .ro, false, false, 0, [], .fixed, .module⟩
/-- QUAY.DIR_SEL, R213. -/
def QUAY_DIR_SEL : RegField :=
  ⟨.quay, "DIR_SEL", 0x110, 0, 0, 1, 0, 6, .rw, false, false, 0, [], .fixed, .module⟩
/-- QUAY.DIR_ID, R213. -/
def QUAY_DIR_ID : RegField :=
  ⟨.quay, "DIR_ID", 0x114, 0, 0, 1, 0, 32, .ro, false, false, 0, [], .fixed, .module⟩
/-- QUAY.DIR_VER, R213. -/
def QUAY_DIR_VER : RegField :=
  ⟨.quay, "DIR_VER", 0x118, 0, 0, 1, 0, 32, .ro, false, false, 0, [], .fixed, .module⟩
/-- QUAY.DIR_BASE, R213. -/
def QUAY_DIR_BASE : RegField :=
  ⟨.quay, "DIR_BASE", 0x120, 0, 0, 1, 0, 64, .ro, false, false, 0, [], .fixed, .module⟩
/-- QUAY.DIR_LEN, R213. -/
def QUAY_DIR_LEN : RegField :=
  ⟨.quay, "DIR_LEN", 0x128, 0, 0, 1, 0, 64, .ro, false, false, 0, [], .fixed, .module⟩
/-- QUAY.DIR_FLAGS.VALID, R213. -/
def QUAY_DIR_FLAGS_VALID : RegField :=
  ⟨.quay, "DIR_FLAGS.VALID", 0x130, 0, 0, 1, 0, 1, .ro, false, false, 0, [], .fixed, .module⟩
/-- QUAY.DIR_FLAGS.FACTORY, R213. -/
def QUAY_DIR_FLAGS_FACTORY : RegField :=
  ⟨.quay, "DIR_FLAGS.FACTORY", 0x130, 0, 0, 1, 1, 1, .ro, false, false, 0, [], .fixed, .module⟩
/-- QUAY.RD_BYTES, R213. -/
def QUAY_RD_BYTES : RegField :=
  ⟨.quay, "RD_BYTES", 0x140, 0, 0, 1, 0, 64, .ro, false, false, 0, [], .fixed, .module⟩
/-- QUAY.WR_BYTES, R213. -/
def QUAY_WR_BYTES : RegField :=
  ⟨.quay, "WR_BYTES", 0x148, 0, 0, 1, 0, 64, .ro, false, false, 0, [], .fixed, .module⟩
/-- QUAY.CE_COUNT, R213. -/
def QUAY_CE_COUNT : RegField :=
  ⟨.quay, "CE_COUNT", 0x150, 0, 0, 1, 0, 32, .rc, false, false, 0, [], .fixed, .module⟩
/-- QUAY.UE_COUNT, R213. -/
def QUAY_UE_COUNT : RegField :=
  ⟨.quay, "UE_COUNT", 0x154, 0, 0, 1, 0, 32, .rc, false, false, 0, [], .fixed, .module⟩
/-- QUAY.SPARE_PCT, R213. -/
def QUAY_SPARE_PCT : RegField :=
  ⟨.quay, "SPARE_PCT", 0x158, 0, 0, 1, 0, 7, .ro, false, false, 100, [], .calib, .never⟩

/-- The register fields of the QUAY class, in the order of its table (R213). -/
def QUAY_fields : List RegField :=
  [QUAY_CTRL_STREAM_SHARE, QUAY_STATUS_READY, QUAY_STATUS_INSTALLING, QUAY_STATUS_DIR_COPY, QUAY_IMAGES, QUAY_FREE_BYTES, QUAY_DIR_SEL, QUAY_DIR_ID, QUAY_DIR_VER, QUAY_DIR_BASE, QUAY_DIR_LEN, QUAY_DIR_FLAGS_VALID, QUAY_DIR_FLAGS_FACTORY, QUAY_RD_BYTES, QUAY_WR_BYTES, QUAY_CE_COUNT, QUAY_UE_COUNT, QUAY_SPARE_PCT]

/-! ### AUDIT registers (R445, 13_faults_recovery.md) -/

/-- AUDIT.CTRL.EN, R445. -/
def AUDIT_CTRL_EN : RegField :=
  ⟨.audit, "CTRL.EN", 0x10, 0, 0, 1, 0, 1, .rw, true, true, 1, [], .fixed, .module⟩
/-- AUDIT.CTRL.LOG2_RATE, R445. -/
def AUDIT_CTRL_LOG2_RATE : RegField :=
  ⟨.audit, "CTRL.LOG2_RATE", 0x10, 0, 0, 1, 1, 5, .rw, true, true, 16, [], .fixed, .module⟩
/-- AUDIT.CTRL.COND_T, R445. -/
def AUDIT_CTRL_COND_T : RegField :=
  ⟨.audit, "CTRL.COND_T", 0x10, 0, 0, 1, 6, 8, .rw, true, true, 85, [], .fixed, .module⟩
/-- AUDIT.CTRL.COND_MARGIN, R445. -/
def AUDIT_CTRL_COND_MARGIN : RegField :=
  ⟨.audit, "CTRL.COND_MARGIN", 0x10, 0, 0, 1, 14, 4, .rw, true, true, 5, [], .fixed, .module⟩
/-- AUDIT.CTRL.RETEST_N, R445. -/
def AUDIT_CTRL_RETEST_N : RegField :=
  ⟨.audit, "CTRL.RETEST_N", 0x10, 0, 0, 1, 18, 10, .rw, true, true, 256, [], .fixed, .module⟩
/-- AUDIT.STATUS.AUDITORS, R445. -/
def AUDIT_STATUS_AUDITORS : RegField :=
  ⟨.audit, "STATUS.AUDITORS", 0x18, 0, 0, 1, 0, 8, .ro, false, false, 0, [], .fixed, .module⟩
/-- AUDIT.TID, R445. -/
def AUDIT_TID : RegField :=
  ⟨.audit, "TID", 0x100, 0, 0, 1, 0, 24, .rw, true, true, 0, [], .fixed, .module⟩
/-- AUDIT.LOG_BASE, R445. -/
def AUDIT_LOG_BASE : RegField :=
  ⟨.audit, "LOG_BASE", 0x108, 0, 0, 1, 0, 48, .rw, true, true, 0, [], .fixed, .module⟩
/-- AUDIT.LOG_LOG2N, R445. -/
def AUDIT_LOG_LOG2N : RegField :=
  ⟨.audit, "LOG_LOG2N", 0x110, 0, 0, 1, 0, 4, .rw, true, true, 6, [], .fixed, .module⟩
/-- AUDIT.LOG_TAIL, R445. -/
def AUDIT_LOG_TAIL : RegField :=
  ⟨.audit, "LOG_TAIL", 0x114, 0, 0, 1, 0, 32, .ro, false, false, 0, [], .fixed, .module⟩
/-- AUDIT.SAMPLED, R445. -/
def AUDIT_SAMPLED : RegField :=
  ⟨.audit, "SAMPLED", 0x120, 0, 0, 1, 0, 64, .ro, false, false, 0, [], .fixed, .module⟩
/-- AUDIT.SKIPPED, R445. -/
def AUDIT_SKIPPED : RegField :=
  ⟨.audit, "SKIPPED", 0x128, 0, 0, 1, 0, 32, .rc, false, false, 0, [], .fixed, .module⟩
/-- AUDIT.MISMATCHES, R445. -/
def AUDIT_MISMATCHES : RegField :=
  ⟨.audit, "MISMATCHES", 0x12c, 0, 0, 1, 0, 32, .rc, false, false, 0, [], .fixed, .module⟩
/-- AUDIT.CORE_SEL, R445. -/
def AUDIT_CORE_SEL : RegField :=
  ⟨.audit, "CORE_SEL", 0x130, 0, 0, 1, 0, 13, .rw, false, false, 0, [], .fixed, .module⟩
/-- AUDIT.CORE_STATE.STATE, R445. -/
def AUDIT_CORE_STATE_STATE : RegField :=
  ⟨.audit, "CORE_STATE.STATE", 0x134, 0, 0, 1, 0, 3, .ro, false, false, 0, [], .fixed, .module⟩
/-- AUDIT.CORE_STATE.OUT, R445. -/
def AUDIT_CORE_STATE_OUT : RegField :=
  ⟨.audit, "CORE_STATE.OUT", 0x134, 0, 0, 1, 3, 1, .ro, false, false, 0, [], .fixed, .module⟩
/-- AUDIT.CORE_STATE.BAND, R445. -/
def AUDIT_CORE_STATE_BAND : RegField :=
  ⟨.audit, "CORE_STATE.BAND", 0x134, 0, 0, 1, 16, 16, .ro, false, false, 0, [], .fixed, .module⟩

/-- The register fields of the AUDIT class, in the order of its table (R445). -/
def AUDIT_fields : List RegField :=
  [AUDIT_CTRL_EN, AUDIT_CTRL_LOG2_RATE, AUDIT_CTRL_COND_T, AUDIT_CTRL_COND_MARGIN, AUDIT_CTRL_RETEST_N, AUDIT_STATUS_AUDITORS, AUDIT_TID, AUDIT_LOG_BASE, AUDIT_LOG_LOG2N, AUDIT_LOG_TAIL, AUDIT_SAMPLED, AUDIT_SKIPPED, AUDIT_MISMATCHES, AUDIT_CORE_SEL, AUDIT_CORE_STATE_STATE, AUDIT_CORE_STATE_OUT, AUDIT_CORE_STATE_BAND]

/-! ### RNG registers (R177, 05_numerics.md) -/

/-- RNG.PAGE_CAPS.CLASS_CAPS.EVAL, R177. -/
def RNG_PAGE_CAPS_CLASS_CAPS_EVAL : RegField :=
  ⟨.rng, "PAGE_CAPS.CLASS_CAPS.EVAL", 0x8, 0, 0, 1, 16, 1, .ro, false, false, 1, [], .fixed, .never⟩
/-- RNG.CTRL.FAST_UNORDERED_PERMIT, R177. -/
def RNG_CTRL_FAST_UNORDERED_PERMIT : RegField :=
  ⟨.rng, "CTRL.FAST_UNORDERED_PERMIT", 0x10, 0, 0, 1, 0, 1, .rw, true, true, 0, [], .fixed, .module⟩
/-- RNG.STATUS.KAT_DONE, R177. -/
def RNG_STATUS_KAT_DONE : RegField :=
  ⟨.rng, "STATUS.KAT_DONE", 0x18, 0, 0, 1, 0, 1, .ro, false, false, 0, [], .fixed, .module⟩
/-- RNG.STATUS.KAT_PASS, R177. -/
def RNG_STATUS_KAT_PASS : RegField :=
  ⟨.rng, "STATUS.KAT_PASS", 0x18, 0, 0, 1, 1, 1, .ro, false, false, 0, [], .fixed, .module⟩
/-- RNG.STATUS.EV_BUSY, R177. -/
def RNG_STATUS_EV_BUSY : RegField :=
  ⟨.rng, "STATUS.EV_BUSY", 0x18, 0, 0, 1, 2, 1, .ro, false, false, 0, [], .fixed, .module⟩
/-- RNG.EV_KEY, R177. -/
def RNG_EV_KEY : RegField :=
  ⟨.rng, "EV_KEY", 0x100, 0, 0, 1, 0, 64, .rw, false, false, 0, [], .fixed, .module⟩
/-- RNG.EV_CTR n, R177. -/
def RNG_EV_CTR : RegField :=
  ⟨.rng, "EV_CTR n", 0x108, 4, 0, 4, 0, 32, .rw, false, false, 0, [], .fixed, .module⟩
/-- RNG.EV_GO.GO, R177. -/
def RNG_EV_GO_GO : RegField :=
  ⟨.rng, "EV_GO.GO", 0x118, 0, 0, 1, 0, 1, .wo, false, false, 0, [], .fixed, .never⟩
/-- RNG.EV_OUT n, R177. -/
def RNG_EV_OUT : RegField :=
  ⟨.rng, "EV_OUT n", 0x120, 4, 0, 4, 0, 32, .ro, false, false, 0, [], .fixed, .module⟩
/-- RNG.NONCANON_CNT, R177. -/
def RNG_NONCANON_CNT : RegField :=
  ⟨.rng, "NONCANON_CNT", 0x130, 0, 0, 1, 0, 32, .rc, false, false, 0, [], .fixed, .module⟩

/-- The register fields of the RNG class, in the order of its table (R177). -/
def RNG_fields : List RegField :=
  [RNG_PAGE_CAPS_CLASS_CAPS_EVAL, RNG_CTRL_FAST_UNORDERED_PERMIT, RNG_STATUS_KAT_DONE, RNG_STATUS_KAT_PASS, RNG_STATUS_EV_BUSY, RNG_EV_KEY, RNG_EV_CTR, RNG_EV_GO_GO, RNG_EV_OUT, RNG_NONCANON_CNT]

/-! ### WLOCK registers (R339, 10_elastic_jobs_weight_lock.md) -/

/-- WLOCK.PAGE_CAPS.CLASS_CAPS.LOCKS, R339. -/
def WLOCK_PAGE_CAPS_CLASS_CAPS_LOCKS : RegField :=
  ⟨.wlock, "PAGE_CAPS.CLASS_CAPS.LOCKS", 0x8, 0, 0, 1, 16, 4, .ro, false, false, 8, [], .fixed, .never⟩
/-- WLOCK.STATUS.BOUND, R339. -/
def WLOCK_STATUS_BOUND : RegField :=
  ⟨.wlock, "STATUS.BOUND", 0x18, 0, 0, 1, 0, 8, .ro, false, false, 0, [], .fixed, .compute⟩
/-- WLOCK.ERR_LOCK.LOCK, R339. -/
def WLOCK_ERR_LOCK_LOCK : RegField :=
  ⟨.wlock, "ERR_LOCK.LOCK", 0x40, 0, 0, 1, 0, 3, .ro, false, false, 0, [], .fixed, .module⟩
/-- WLOCK.ERR_LOCK.VALID, R339. -/
def WLOCK_ERR_LOCK_VALID : RegField :=
  ⟨.wlock, "ERR_LOCK.VALID", 0x40, 0, 0, 1, 31, 1, .ro, false, false, 0, [], .fixed, .module⟩
/-- WLOCK.LOCK n.CTRL.VALID, R339. -/
def WLOCK_LOCK_CTRL_VALID : RegField :=
  ⟨.wlock, "LOCK n.CTRL.VALID", 0x100, 128, 0, 8, 0, 1, .rw, true, false, 0, [], .fixed, .compute⟩
/-- WLOCK.LOCK n.CTRL.MODE, R339. -/
def WLOCK_LOCK_CTRL_MODE : RegField :=
  ⟨.wlock, "LOCK n.CTRL.MODE", 0x100, 128, 0, 8, 1, 1, .rw, true, true, 0, [], .fixed, .module⟩
/-- WLOCK.LOCK n.CTRL.ACTIVE_REQ, R339. -/
def WLOCK_LOCK_CTRL_ACTIVE_REQ : RegField :=
  ⟨.wlock, "LOCK n.CTRL.ACTIVE_REQ", 0x100, 128, 0, 8, 2, 2, .rw, true, false, 0, [], .fixed, .compute⟩
/-- WLOCK.LOCK n.CTRL.CONTEXT, R339. -/
def WLOCK_LOCK_CTRL_CONTEXT : RegField :=
  ⟨.wlock, "LOCK n.CTRL.CONTEXT", 0x100, 128, 0, 8, 8, 6, .rw, true, true, 0, [], .fixed, .module⟩
/-- WLOCK.LOCK n.CTRL.POLL, R339. -/
def WLOCK_LOCK_CTRL_POLL : RegField :=
  ⟨.wlock, "LOCK n.CTRL.POLL", 0x100, 128, 0, 8, 16, 8, .rw, true, true, 2, [], .fixed, .module⟩
/-- WLOCK.LOCK n.CMD.OP, R339. -/
def WLOCK_LOCK_CMD_OP : RegField :=
  ⟨.wlock, "LOCK n.CMD.OP", 0x104, 128, 0, 8, 0, 3, .wo, false, false, 0, [], .fixed, .never⟩
/-- WLOCK.LOCK n.CMD.CH, R339. -/
def WLOCK_LOCK_CMD_CH : RegField :=
  ⟨.wlock, "LOCK n.CMD.CH", 0x104, 128, 0, 8, 3, 1, .wo, false, false, 0, [], .fixed, .never⟩
/-- WLOCK.LOCK n.STATUS.STATE_A, R339. -/
def WLOCK_LOCK_STATUS_STATE_A : RegField :=
  ⟨.wlock, "LOCK n.STATUS.STATE_A", 0x108, 128, 0, 8, 0, 3, .ro, false, false, 0, [], .fixed, .compute⟩
/-- WLOCK.LOCK n.STATUS.STATE_B, R339. -/
def WLOCK_LOCK_STATUS_STATE_B : RegField :=
  ⟨.wlock, "LOCK n.STATUS.STATE_B", 0x108, 128, 0, 8, 3, 3, .ro, false, false, 0, [], .fixed, .compute⟩
/-- WLOCK.LOCK n.STATUS.ACTIVE, R339. -/
def WLOCK_LOCK_STATUS_ACTIVE : RegField :=
  ⟨.wlock, "LOCK n.STATUS.ACTIVE", 0x108, 128, 0, 8, 6, 2, .ro, false, false, 0, [], .fixed, .compute⟩
/-- WLOCK.LOCK n.STATUS.BARRIER, R339. -/
def WLOCK_LOCK_STATUS_BARRIER : RegField :=
  ⟨.wlock, "LOCK n.STATUS.BARRIER", 0x108, 128, 0, 8, 8, 1, .ro, false, false, 0, [], .fixed, .compute⟩
/-- WLOCK.LOCK n.STATUS.HELD, R339. -/
def WLOCK_LOCK_STATUS_HELD : RegField :=
  ⟨.wlock, "LOCK n.STATUS.HELD", 0x108, 128, 0, 8, 9, 1, .ro, false, false, 0, [], .fixed, .compute⟩
/-- WLOCK.LOCK n.GEN, R339. -/
def WLOCK_LOCK_GEN : RegField :=
  ⟨.wlock, "LOCK n.GEN", 0x10c, 128, 0, 8, 0, 32, .ro, false, false, 0, [], .fixed, .compute⟩
/-- WLOCK.LOCK n.CH_A_BASE, R339. -/
def WLOCK_LOCK_CH_A_BASE : RegField :=
  ⟨.wlock, "LOCK n.CH_A_BASE", 0x110, 128, 0, 8, 0, 48, .rw, true, true, 0, [], .fixed, .module⟩
/-- WLOCK.LOCK n.CH_B_BASE, R339. -/
def WLOCK_LOCK_CH_B_BASE : RegField :=
  ⟨.wlock, "LOCK n.CH_B_BASE", 0x118, 128, 0, 8, 0, 48, .rw, true, true, 0, [], .fixed, .module⟩
/-- WLOCK.LOCK n.CH_LEN, R339. -/
def WLOCK_LOCK_CH_LEN : RegField :=
  ⟨.wlock, "LOCK n.CH_LEN", 0x120, 128, 0, 8, 0, 40, .rw, true, true, 0, [], .fixed, .module⟩
/-- WLOCK.LOCK n.RING_BASE, R339. -/
def WLOCK_LOCK_RING_BASE : RegField :=
  ⟨.wlock, "LOCK n.RING_BASE", 0x128, 128, 0, 8, 0, 48, .rw, true, true, 0, [], .fixed, .module⟩
/-- WLOCK.LOCK n.RING_LOG2N, R339. -/
def WLOCK_LOCK_RING_LOG2N : RegField :=
  ⟨.wlock, "LOCK n.RING_LOG2N", 0x130, 128, 0, 8, 0, 4, .rw, true, true, 0, [], .fixed, .module⟩
/-- WLOCK.LOCK n.IP_LAYERS, R339. -/
def WLOCK_LOCK_IP_LAYERS : RegField :=
  ⟨.wlock, "LOCK n.IP_LAYERS", 0x134, 128, 0, 8, 0, 12, .rw, true, true, 0, [], .fixed, .module⟩
/-- WLOCK.LOCK n.TAIL_TALLY, R339. -/
def WLOCK_LOCK_TAIL_TALLY : RegField :=
  ⟨.wlock, "LOCK n.TAIL_TALLY", 0x138, 128, 0, 8, 0, 48, .rw, true, true, 0, [], .fixed, .module⟩
/-- WLOCK.LOCK n.RET_A_TALLY, R339. -/
def WLOCK_LOCK_RET_A_TALLY : RegField :=
  ⟨.wlock, "LOCK n.RET_A_TALLY", 0x140, 128, 0, 8, 0, 48, .rw, true, true, 0, [], .fixed, .module⟩
/-- WLOCK.LOCK n.RET_B_TALLY, R339. -/
def WLOCK_LOCK_RET_B_TALLY : RegField :=
  ⟨.wlock, "LOCK n.RET_B_TALLY", 0x148, 128, 0, 8, 0, 48, .rw, true, true, 0, [], .fixed, .module⟩
/-- WLOCK.LOCK n.PASS_BASE, R339. -/
def WLOCK_LOCK_PASS_BASE : RegField :=
  ⟨.wlock, "LOCK n.PASS_BASE", 0x150, 128, 0, 8, 0, 48, .rw, true, true, 0, [], .fixed, .module⟩
/-- WLOCK.LOCK n.REWRITE_TALLY, R339. -/
def WLOCK_LOCK_REWRITE_TALLY : RegField :=
  ⟨.wlock, "LOCK n.REWRITE_TALLY", 0x158, 128, 0, 8, 0, 48, .rw, true, true, 0, [], .fixed, .module⟩
/-- WLOCK.LOCK n.DONE_TALLY, R339. -/
def WLOCK_LOCK_DONE_TALLY : RegField :=
  ⟨.wlock, "LOCK n.DONE_TALLY", 0x160, 128, 0, 8, 0, 48, .rw, true, true, 0, [], .fixed, .module⟩
/-- WLOCK.LOCK n.ADMITTED_A, R339. -/
def WLOCK_LOCK_ADMITTED_A : RegField :=
  ⟨.wlock, "LOCK n.ADMITTED_A", 0x168, 128, 0, 8, 0, 64, .ro, false, false, 0, [], .fixed, .compute⟩
/-- WLOCK.LOCK n.ADMITTED_B, R339. -/
def WLOCK_LOCK_ADMITTED_B : RegField :=
  ⟨.wlock, "LOCK n.ADMITTED_B", 0x170, 128, 0, 8, 0, 64, .ro, false, false, 0, [], .fixed, .compute⟩
/-- WLOCK.LOCK n.SWAPS, R339. -/
def WLOCK_LOCK_SWAPS : RegField :=
  ⟨.wlock, "LOCK n.SWAPS", 0x178, 128, 0, 8, 0, 16, .ro, false, false, 0, [], .fixed, .compute⟩
/-- WLOCK.LOCK n.IP_NEXT, R339. -/
def WLOCK_LOCK_IP_NEXT : RegField :=
  ⟨.wlock, "LOCK n.IP_NEXT", 0x17c, 128, 0, 8, 0, 12, .ro, false, false, 0, [], .fixed, .compute⟩
/-- WLOCK.HELD_TICKS n, R339. -/
def WLOCK_HELD_TICKS : RegField :=
  ⟨.wlock, "HELD_TICKS n", 0x500, 8, 0, 8, 0, 64, .ro, false, false, 0, [], .fixed, .compute⟩

/-- The register fields of the WLOCK class, in the order of its table (R339). -/
def WLOCK_fields : List RegField :=
  [WLOCK_PAGE_CAPS_CLASS_CAPS_LOCKS, WLOCK_STATUS_BOUND, WLOCK_ERR_LOCK_LOCK, WLOCK_ERR_LOCK_VALID, WLOCK_LOCK_CTRL_VALID, WLOCK_LOCK_CTRL_MODE, WLOCK_LOCK_CTRL_ACTIVE_REQ, WLOCK_LOCK_CTRL_CONTEXT, WLOCK_LOCK_CTRL_POLL, WLOCK_LOCK_CMD_OP, WLOCK_LOCK_CMD_CH, WLOCK_LOCK_STATUS_STATE_A, WLOCK_LOCK_STATUS_STATE_B, WLOCK_LOCK_STATUS_ACTIVE, WLOCK_LOCK_STATUS_BARRIER, WLOCK_LOCK_STATUS_HELD, WLOCK_LOCK_GEN, WLOCK_LOCK_CH_A_BASE, WLOCK_LOCK_CH_B_BASE, WLOCK_LOCK_CH_LEN] ++
  [WLOCK_LOCK_RING_BASE, WLOCK_LOCK_RING_LOG2N, WLOCK_LOCK_IP_LAYERS, WLOCK_LOCK_TAIL_TALLY, WLOCK_LOCK_RET_A_TALLY, WLOCK_LOCK_RET_B_TALLY, WLOCK_LOCK_PASS_BASE, WLOCK_LOCK_REWRITE_TALLY, WLOCK_LOCK_DONE_TALLY, WLOCK_LOCK_ADMITTED_A, WLOCK_LOCK_ADMITTED_B, WLOCK_LOCK_SWAPS, WLOCK_LOCK_IP_NEXT, WLOCK_HELD_TICKS]

/-! ### CTX registers (R368, 11_polders_contexts_schedule.md) -/

/-- CTX.CTRL.RUN, R368. -/
def CTX_CTRL_RUN : RegField :=
  ⟨.ctx, "CTRL.RUN", 0x10, 0, 0, 1, 0, 1, .rw, true, false, 0, [], .fixed, .module⟩
/-- CTX.CTRL.PIN, R368. -/
def CTX_CTRL_PIN : RegField :=
  ⟨.ctx, "CTRL.PIN", 0x10, 0, 0, 1, 1, 1, .rw, true, true, 0, [], .fixed, .module⟩
/-- CTX.CTRL.HOLD, R368. -/
def CTX_CTRL_HOLD : RegField :=
  ⟨.ctx, "CTRL.HOLD", 0x10, 0, 0, 1, 2, 1, .rw, true, false, 0, [], .fixed, .module⟩
/-- CTX.CTRL.POLL_US, R368. -/
def CTX_CTRL_POLL_US : RegField :=
  ⟨.ctx, "CTRL.POLL_US", 0x10, 0, 0, 1, 8, 8, .rw, true, false, 10, [], .fixed, .module⟩
/-- CTX.STATUS.STATE, R368. -/
def CTX_STATUS_STATE : RegField :=
  ⟨.ctx, "STATUS.STATE", 0x18, 0, 0, 1, 0, 3, .ro, false, false, 0, [], .fixed, .module⟩
/-- CTX.STATUS.RUNNING, R368. -/
def CTX_STATUS_RUNNING : RegField :=
  ⟨.ctx, "STATUS.RUNNING", 0x18, 0, 0, 1, 3, 1, .ro, false, false, 0, [], .fixed, .module⟩
/-- CTX.STATUS.BLOCKED, R368. -/
def CTX_STATUS_BLOCKED : RegField :=
  ⟨.ctx, "STATUS.BLOCKED", 0x18, 0, 0, 1, 4, 1, .ro, false, false, 0, [], .fixed, .module⟩
/-- CTX.STATUS.HELD, R368. -/
def CTX_STATUS_HELD : RegField :=
  ⟨.ctx, "STATUS.HELD", 0x18, 0, 0, 1, 5, 1, .ro, false, false, 0, [], .fixed, .module⟩
/-- CTX.STATUS.RUNNABLE_WAIT, R368. -/
def CTX_STATUS_RUNNABLE_WAIT : RegField :=
  ⟨.ctx, "STATUS.RUNNABLE_WAIT", 0x18, 0, 0, 1, 6, 1, .ro, false, false, 0, [], .fixed, .module⟩
/-- CTX.STATUS.POLDER, R368. -/
def CTX_STATUS_POLDER : RegField :=
  ⟨.ctx, "STATUS.POLDER", 0x18, 0, 0, 1, 8, 8, .ro, false, false, 0, [], .fixed, .module⟩
/-- CTX.STATUS.GEN, R368. -/
def CTX_STATUS_GEN : RegField :=
  ⟨.ctx, "STATUS.GEN", 0x18, 0, 0, 1, 16, 16, .ro, false, false, 0, [], .fixed, .module⟩
/-- CTX.CMD.OP, R368. -/
def CTX_CMD_OP : RegField :=
  ⟨.ctx, "CMD.OP", 0x100, 0, 0, 1, 0, 2, .wo, false, false, 0, [], .fixed, .never⟩
/-- CTX.DESC, R368. -/
def CTX_DESC : RegField :=
  ⟨.ctx, "DESC", 0x108, 0, 0, 1, 0, 48, .ro, false, false, 0, [], .fixed, .module⟩
/-- CTX.HEAD n, R368. -/
def CTX_HEAD : RegField :=
  ⟨.ctx, "HEAD n", 0x110, 8, 0, 4, 0, 64, .ro, false, false, 0, [], .fixed, .module⟩
/-- CTX.SHRINK_FLOOR, R368. -/
def CTX_SHRINK_FLOOR : RegField :=
  ⟨.ctx, "SHRINK_FLOOR", 0x130, 0, 0, 1, 0, 17, .ro, false, false, 0, [], .fixed, .module⟩
/-- CTX.BLOCKED_CYCLES, R368. -/
def CTX_BLOCKED_CYCLES : RegField :=
  ⟨.ctx, "BLOCKED_CYCLES", 0x134, 0, 0, 1, 0, 32, .ro, false, false, 0, [], .fixed, .module⟩
/-- CTX.TD_CANCELLED, R368. -/
def CTX_TD_CANCELLED : RegField :=
  ⟨.ctx, "TD_CANCELLED", 0x138, 0, 0, 1, 0, 32, .ro, false, false, 0, [], .fixed, .module⟩
/-- CTX.TD_DROPPED, R368. -/
def CTX_TD_DROPPED : RegField :=
  ⟨.ctx, "TD_DROPPED", 0x13c, 0, 0, 1, 0, 32, .ro, false, false, 0, [], .fixed, .module⟩
/-- CTX.ENGINE_TICKS, R368. -/
def CTX_ENGINE_TICKS : RegField :=
  ⟨.ctx, "ENGINE_TICKS", 0x140, 0, 0, 1, 0, 64, .ro, false, false, 0, [], .fixed, .module⟩
/-- CTX.UPD_TICKS, R368. -/
def CTX_UPD_TICKS : RegField :=
  ⟨.ctx, "UPD_TICKS", 0x148, 0, 0, 1, 0, 64, .ro, false, false, 0, [], .fixed, .module⟩
/-- CTX.SWITCH_TICKS, R368. -/
def CTX_SWITCH_TICKS : RegField :=
  ⟨.ctx, "SWITCH_TICKS", 0x150, 0, 0, 1, 0, 64, .ro, false, false, 0, [], .fixed, .module⟩
/-- CTX.DRAM_BYTES, R368. -/
def CTX_DRAM_BYTES : RegField :=
  ⟨.ctx, "DRAM_BYTES", 0x158, 0, 0, 1, 0, 64, .ro, false, false, 0, [], .fixed, .module⟩
/-- CTX.LINK_TX_BYTES, R368. -/
def CTX_LINK_TX_BYTES : RegField :=
  ⟨.ctx, "LINK_TX_BYTES", 0x160, 0, 0, 1, 0, 64, .ro, false, false, 0, [], .fixed, .module⟩
/-- CTX.LINK_RX_BYTES, R368. -/
def CTX_LINK_RX_BYTES : RegField :=
  ⟨.ctx, "LINK_RX_BYTES", 0x168, 0, 0, 1, 0, 64, .ro, false, false, 0, [], .fixed, .module⟩
/-- CTX.HOST_BYTES, R368. -/
def CTX_HOST_BYTES : RegField :=
  ⟨.ctx, "HOST_BYTES", 0x170, 0, 0, 1, 0, 64, .ro, false, false, 0, [], .fixed, .module⟩
/-- CTX.QUAY_BYTES, R368. -/
def CTX_QUAY_BYTES : RegField :=
  ⟨.ctx, "QUAY_BYTES", 0x178, 0, 0, 1, 0, 64, .ro, false, false, 0, [], .fixed, .module⟩
/-- CTX.ENERGY_MJ, R368. -/
def CTX_ENERGY_MJ : RegField :=
  ⟨.ctx, "ENERGY_MJ", 0x180, 0, 0, 1, 0, 64, .ro, false, false, 0, [], .fixed, .module⟩
/-- CTX.SWITCH_LAG_TICKS, R368. -/
def CTX_SWITCH_LAG_TICKS : RegField :=
  ⟨.ctx, "SWITCH_LAG_TICKS", 0x188, 0, 0, 1, 0, 64, .ro, false, false, 0, [], .fixed, .module⟩

/-- The register fields of the CTX class, in the order of its table (R368). -/
def CTX_fields : List RegField :=
  [CTX_CTRL_RUN, CTX_CTRL_PIN, CTX_CTRL_HOLD, CTX_CTRL_POLL_US, CTX_STATUS_STATE, CTX_STATUS_RUNNING, CTX_STATUS_BLOCKED, CTX_STATUS_HELD, CTX_STATUS_RUNNABLE_WAIT, CTX_STATUS_POLDER, CTX_STATUS_GEN, CTX_CMD_OP, CTX_DESC, CTX_HEAD, CTX_SHRINK_FLOOR, CTX_BLOCKED_CYCLES, CTX_TD_CANCELLED, CTX_TD_DROPPED, CTX_ENGINE_TICKS, CTX_UPD_TICKS] ++
  [CTX_SWITCH_TICKS, CTX_DRAM_BYTES, CTX_LINK_TX_BYTES, CTX_LINK_RX_BYTES, CTX_HOST_BYTES, CTX_QUAY_BYTES, CTX_ENERGY_MJ, CTX_SWITCH_LAG_TICKS]

end Sys2Proof.Machine.R
end

