-- ==== Sys2Proof/Machine/SMap.lean ====
section
/-!
DEFINITION. Sparse maps as plain data: a list of (key, value) pairs in one canonical form (keys strictly rising, no
entry equal to the value that an unlisted key reads as). Memories, register files and tables of the model are held so.
-/

namespace Sys2Proof.Machine

universe u

/-- What `k` reads as: the listed value, or `d` where `k` is not listed. -/
def mapGet {β : Type u} (d : β) : List (Nat × β) → Nat → β
  | [], _ => d
  | (k', v) :: m, k => if k' = k then v else mapGet d m k

/-- The map without an entry for `k`. -/
def mapDel {β : Type u} : List (Nat × β) → Nat → List (Nat × β)
  | [], _ => []
  | (k', v) :: m, k => if k' = k then mapDel m k else (k', v) :: mapDel m k

/-- Insert `(k, v)` before the first entry with a greater key. -/
def mapIns {β : Type u} : List (Nat × β) → Nat → β → List (Nat × β)
  | [], k, v => [(k, v)]
  | (k', v') :: m, k, v => if k < k' then (k, v) :: (k', v') :: m else (k', v') :: mapIns m k v

/-- The map in which `k` reads as `v`; writing the default removes the entry, so equal maps are equal data. -/
def mapSet {β : Type u} [DecidableEq β] (d : β) (m : List (Nat × β)) (k : Nat) (v : β) : List (Nat × β) :=
  if v = d then mapDel m k else mapIns (mapDel m k) k v

/-- The value listed for `k`, if any. -/
def mapFind {β : Type u} : List (Nat × β) → Nat → Option β
  | [], _ => none
  | (k', v) :: m, k => if k' = k then some v else mapFind m k

/-- The map in which `k` is listed with `v`. -/
def mapPut {β : Type u} (m : List (Nat × β)) (k : Nat) (v : β) : List (Nat × β) := mapIns (mapDel m k) k v

/-- The map without the entries whose key satisfies `p`. -/
def mapDrop {β : Type u} (m : List (Nat × β)) (p : Nat → Bool) : List (Nat × β) := m.filter (fun e => !p e.1)

/-- Every key of `m` is greater than `k`. -/
def keysAbove {β : Type u} (k : Nat) : List (Nat × β) → Bool
  | [] => true
  | (k', _) :: m => decide (k < k') && keysAbove k m

/-- The canonical form: keys strictly rising and no entry equal to the default. -/
def mapWf {β : Type u} [DecidableEq β] (d : β) : List (Nat × β) → Bool
  | [] => true
  | (k, v) :: m => keysAbove k m && decide (v ≠ d) && mapWf d m

end Sys2Proof.Machine
end

