-- ==== Sys2Proof/Machine/Units.lean ====
section
/-!
DEFINITION. The units of the NG4 as plain data: cores with their sequencer, scratchpad, array and accumulators
(chapters 03 and 04), transfer engines (06), contexts and streams (08, 11), update engines (07), links (09),
weight locks (10), power (12), recovery (13), reset and security (14).
-/

namespace Sys2Proof.Machine

/-! ### The core (chapters 03 and 04) -/

/-- One level of the loop stack (R86): the body from `start` to `last`, and the runs left, this one counted. -/
structure LoopLevel where
  start : Nat
  last  : Nat
  left  : Nat
deriving DecidableEq, Repr

/-- An address generator (R88). Counts are kept as encoded: 0 means 65,536. -/
structure AGen where
  base    : Nat
  stride0 : Int
  count0  : Nat
  stride1 : Int
  count1  : Nat
  wbase   : Nat
  wsize   : Nat
  i0      : Nat
  i1      : Nat
deriving DecidableEq, Repr

/-- A generator as the sequencer clears it. -/
def AGen.zero : AGen := ⟨0, 0, 0, 0, 0, 0, 0, 0, 0⟩

/-- The sequencer state that a yield saves and restores (R85): X1 to X31, the loop stack, AG0 to AG5, the pc. -/
structure SeqState where
  x     : List (Nat × DWord)
  loops : List LoopLevel
  ags   : List (Nat × AGen)
  pc    : Nat
deriving DecidableEq, Repr

/-- A cleared sequencer. -/
def SeqState.zero : SeqState := ⟨[], [], [], 0⟩

/-- A segment resident on a core (R85, R351): the ring entry it came from, its role, its image in instruction memory
(`idx`, `len` indices) and its tags (R245). -/
structure Seg where
  entry     : Nat
  role      : Nat
  idx       : Nat
  len       : Nat
  stepValid : Bool
  step      : Nat
deriving DecidableEq, Repr

/-- An armed tally slot (R95, R354): `seen` once its wait unit has seen a value at or above the threshold, `sat` once
the slot has become satisfied. -/
structure TSlot where
  addr : Nat
  thr  : Nat
  seen : Bool
  sat  : Bool
deriving DecidableEq, Repr

/-- The array configuration of MCFG (R127). -/
structure ArrayCfg where
  at_   : Nat
  bt    : Nat
  amode : Nat
  xp    : Nat
  xc2   : Nat
deriving DecidableEq, Repr

/-- An MMA in the array queue (R126 to R133) with everything captured at issue: configuration, position and c2 words,
seed and step of R170, and each panel as the number that its bytes spell (program order, R79); `abad` and `bbad` list the
poisoned panel offsets, and `insn` and `pc` the instruction and its index (R114). -/
structure MmaJob where
  cc    : Nat
  acc   : Nat
  tile  : Nat
  cont  : Bool
  m     : Nat
  n     : Nat
  k     : Nat
  at_   : Nat
  bt    : Nat
  amode : Nat
  c2    : Nat
  pos   : Nat
  seed  : Nat
  step  : Nat
  apan  : Nat
  bpan  : Nat
  abad  : List Nat
  bbad  : List Nat
  insn  : Nat
  pc    : Nat
deriving DecidableEq, Repr

/-- An ADRAIN under way (R136, R142), with its instruction and index (R114). -/
structure DrainJob where
  cc     : Nat
  acc    : Nat
  dtype  : Nat
  rm     : Nat
  ovf    : Bool
  start  : Nat
  stride : Nat
  c2     : Nat
  pos    : Nat
  seed   : Nat
  step   : Nat
  insn   : Nat
  pc     : Nat
deriving DecidableEq, Repr

/-- A neighbour move in progress (R99), with its instruction and index (R114). -/
structure NMove where
  cc     : Nat
  pull   : Bool
  peer   : Nat
  len    : Nat
  loc    : Nat
  remote : Nat
  tally  : Option Nat
  insn   : Nat
  pc     : Nat
deriving DecidableEq, Repr

/-- An accumulator (R138): state 0 IDLE, 1 OPEN, 2 DRAINING; its entries, which of them hold poison, which have
saturated in the present tile (R132), and bits found in error but not yet met by a read (R143); `any` where its unlisted
entries are not preserved and hold the free values of that draw (R141). -/
structure Acc where
  st     : Nat
  kind   : Nat
  sat    : Bool
  poison : Bool
  tile   : Nat
  m      : Nat
  n      : Nat
  ent    : List (Nat × Nat)
  bad    : List (Nat × Bool)
  satEnt : List (Nat × Bool)
  upset  : List (Nat × Nat)
  any    : Option Nat
deriving DecidableEq, Repr

/-- An accumulator after core self-test (R145). -/
def Acc.zero : Acc := ⟨0, 0, false, false, 0, 0, 0, [], [], [], [], none⟩

/-- One core: sequencer and resident segments, memories, vector unit, array, tally slots, booking, status. Stream codes
are 0 FWD, 1 BWD, 2 AUX (R115). `upset` maps list words holding one (1) or two (2) bits in error (R104). `scrAny` and
`vAny` are set where the scratch bytes and vector registers not listed are not preserved and hold free values (R84).
`work` and `shadow` are the sum registers of the cells, by cell number 64 × row + column, each sum with its poison mark
(R118), and `lastFold` the accumulator and tile whose single fold they hold (R135). `nonfin` is set where a gradient
contribution that entered the core in the reduction-node role held a non-finite value (R75, R163; log 81). -/
structure Core where
  seq       : SeqState
  saved     : List (Nat × SeqState)
  res       : List (Nat × Seg)
  cur       : Option Nat
  imem      : List (Nat × DWord)
  imemUpset : List (Nat × Nat)
  scr       : List Host.Cell
  scrAny    : Option Nat
  scrPoison : List (Nat × Bool)
  scrUpset  : List (Nat × Nat)
  v         : List (Nat × VReg)
  vAny      : Option Nat
  vPoison   : List (Nat × Bool)
  acc0      : Acc
  acc1      : Acc
  cfg       : ArrayCfg
  queue     : List MmaJob
  drain     : Option DrainJob
  work      : List (Nat × (Nat × Bool))
  shadow    : List (Nat × (Nat × Bool))
  lastFold  : Option (Nat × Nat)
  nonfin    : Bool
  slots     : List (Nat × TSlot)
  nmoves    : List NMove
  g         : Nat
  req       : Nat
  bookPend  : Bool
  waitBook  : Bool
  waitTally : Bool
  waitXfer  : Bool
  waitAcc   : Bool
  waitQueue : Bool
  faulted   : Bool
  held      : Bool
  dbgStop   : Bool
  stopIssue : Bool
  bpPass    : Bool
  ran       : Bool
  ctx       : Option Nat
  polder    : Nat
  gen       : Nat
  atSwitch  : Bool
  liveKib   : Nat
  liveBase  : Nat
  accLive   : Nat
deriving DecidableEq, Repr

/-- A core after COMPUTE reset and core self-test (R115, R116, R145). -/
def Core.zero : Core :=
  { seq := .zero, saved := [], res := [], cur := none, imem := [], imemUpset := [], scr := [], scrAny := none, scrPoison := [],
    scrUpset := [], v := [], vAny := none, vPoison := [], acc0 := .zero, acc1 := .zero, cfg := ⟨0, 0, 0, 0, 0⟩, queue := [],
    drain := none, work := [], shadow := [], lastFold := none, nonfin := false, slots := [], nmoves := [], g := 0, req := 0, bookPend := false, waitBook := false,
    waitTally := false, waitXfer := false, waitAcc := false, waitQueue := false, faulted := false, held := false,
    dbgStop := false, stopIssue := false, bpPass := false, ran := false, ctx := none, polder := 0, gen := 0, atSwitch := false, liveKib := 0,
    liveBase := 0, accLive := 0 }

/-! ### The audit engine (chapter 13) -/

/-- A sampled MMA at an auditor (R434 to R437): the audited core, its context, step tag and known state, the MMA's
count, shape and entries at retirement, the granted class, and the auditor's half-row (die × 64 + half-row). -/
structure AuditJob where
  core  : Nat
  ctx   : Nat
  step  : Option Nat
  count : Nat
  m     : Nat
  n     : Nat
  ent   : List (Nat × Nat)
  g     : Nat
  aud   : Nat
deriving DecidableEq, Repr

/-- A core's audit state (R438): 0 CLEAN, 1 RETEST, 2 WATCH, 3 CONDITIONAL, 4 FENCED; whether it is shifted out, its
band and T1 in units of 0.125 °C, clean MMAs counted in RETEST, an action due at its polder's next step boundary, the
tick since which its region has stayed cool, and the polders of its half-row that have come to a step boundary since an
action became due (R29). -/
structure AuditSt where
  st    : Nat
  out   : Bool
  band  : Nat
  t1    : Nat
  clean : Nat
  due   : Bool
  cool  : Option Nat
  seen  : List Nat
deriving DecidableEq, Repr

/-- A core never found wrong. -/
def AuditSt.zero : AuditSt := ⟨0, false, 0, 0, 0, false, none, []⟩

/-! ### Sluices and bookings (chapter 12) -/

/-- A booking request or release as a sluice holds it (R373, R374): the local tick it arrived in, whether it is an
engine's, whose it is (a core index, or an engine number), the class asked for. -/
structure BookReq where
  tick : Nat
  eng  : Bool
  who  : Nat
  cls  : Nat
deriving DecidableEq, Repr

/-- A HEAVY hint as its region keeps it (R377): the core, class, and the ticks of its three instants. -/
structure Hint where
  core   : Nat
  cls    : Nat
  pre    : Nat
  arm    : Nat
  expire : Nat
  armed  : Bool
  placed : Bool
deriving DecidableEq, Repr

/-- A sluice (R371 to R377): requests in order of arrival, releases under way, the class each core and engine books
as the ledger sees it, hints, and the ramp bucket in units of 1/1000 mA. -/
structure Sluice where
  waiting  : List BookReq
  releases : List BookReq
  coreCls  : List (Nat × Nat)
  engCls   : List (Nat × Nat)
  hints    : List Hint
  bucket   : Nat
deriving DecidableEq, Repr

/-- A sluice after reset: nothing booked, the bucket full at the default BURST. -/
def Sluice.zero : Sluice := ⟨[], [], [], [], [], 1000000⟩

/-! ### Transfer engines (chapter 06) -/

/-- The tags that work of a context carries (R204, R400): known context, polder, generation, job, step tag. -/
structure Tag where
  ctx    : Nat
  polder : Nat
  gen    : Nat
  job    : Nat
  step   : Option Nat
deriving DecidableEq, Repr

/-- A descriptor that a transfer engine holds (R193, R202): phase 0 offered, 1 accepted, 2 started with both sides
here, 3 started and awaiting a peer, 4 cancelled after its start (R203), 5 its data written on a peer and its tally there
awaited, 6 the byte of a peer awaited of which it keeps bits (R197). `alt` is the plane of its data (R289). `todo` counts what the peer still owes (acknowledgements, or bytes), `landed` holds
bytes of a remote source that await a transpose or conversion, by walk index and with their poison marks, and `crc` the CRC-64 of bytes sent. -/
structure BargeJob where
  words  : List Nat
  tag    : Tag
  phase  : Nat
  xid    : Nat
  todo   : Nat
  poison : Bool
  landed : List (Nat × (Nat × Bool))
  crc    : Nat
  alt    : Bool
deriving DecidableEq, Repr

/-- A transfer engine: its descriptors in order of submission, the class it books and the class it has asked for. -/
structure Engine where
  jobs : List BargeJob
  cls  : Nat
  ask  : Nat
deriving DecidableEq, Repr

/-- A transfer engine after reset. -/
def Engine.zero : Engine := ⟨[], 0, 0⟩

/-- A map-out accepted by MAPOUT_GO (R191): its stack, the module channels it maps out, and how far it is: 0 waiting, 1
holding contexts (step 5), 2 relocating (step 6). -/
structure MapJob where
  stack : Nat
  chans : List Nat
  phase : Nat
deriving DecidableEq, Repr

/-- An entry of the quay directory (R206, R213). -/
structure QuayEntry where
  id      : Nat
  ver     : Nat
  base    : Nat
  len     : Nat
  svn     : Nat
  factory : Bool
deriving DecidableEq, Repr

/-! ### Register accesses and host events (chapters 02 and 16) -/

/-- What the last register, window or bus access answered: its data and the error it ended with (0: none; else the
code of R402), and whether the data carries a poison mark (R187). -/
structure BusReply where
  data   : Nat
  err    : Nat
  poison : Bool
deriving DecidableEq, Repr

/-! ### Links (chapter 09) -/

/-- A frame on a link: the full header of its train (R283, without bodies), its place in the train, its body, whether it
closes the train, its dateline class (R287), and the link on which a through frame came, whose buffer it keeps until it is
sent (32: none). -/
structure Frame where
  hdr  : Train
  idx  : Nat
  body : FrameBody
  last : Bool
  cls  : Nat
  came : Nat
deriving DecidableEq, Repr

/-- A queue pair at work (R307): the tail that the last poll saw, and the request at its head: 0 not begun, 1 a WRITE sent,
2 a READ whose bytes are all written, 3 none is begun again. -/
structure QpSt where
  tail : Nat
  busy : Nat
deriving DecidableEq, Repr

/-- A queue pair after reset. -/
def QpSt.zero : QpSt := ⟨0, 0⟩

/-- A link engine (R275 to R288): frames waiting to be sent; the replay buffer, oldest first; the next SEQ to send and
to receive, and those received beyond it; the SEQ that the next CREDIT asks to replay from; per VC, frames outstanding and freed in each dateline
class, cumulative credits last received, cumulative stale counts; frames freed since the last CREDIT; the ticks of
recent replays and how often each SEQ was replayed; training attempts missed at each rate, the phase of an attempt (0
none, 1 signal, 2 equalisation, 3 FEC lock, 4 capability words awaited), and whether a signal was detected in any attempt
since training started; whether a retrain of an UP link is under way,
whether SRST holds it; whether a HELLO of the partner came and whether the join is complete; the partner's warden;
encapsulated frames whose train is not complete yet (R282); the rate at which the present attempt trains (0: 224, 1: 112
Gbit/s); the last CREDIT body and the last CAPS words sent; the queue pairs of an Ethernet link. -/
structure LinkSt where
  txq      : List Frame
  replay   : List (Nat × Frame)
  txSeq    : Nat
  rxSeq    : Nat
  rxGot    : List Nat
  nak      : Option Nat
  out0     : List (Nat × Nat)
  out1     : List (Nat × Nat)
  seen     : List (Nat × Nat)
  free0    : List (Nat × Nat)
  free1    : List (Nat × Nat)
  stale    : List (Nat × Nat)
  staleIn  : List (Nat × Nat)
  unsent   : Nat
  replays  : List Nat
  again    : List (Nat × Nat)
  tries224 : Nat
  tries112 : Nat
  phase    : Nat
  sensed   : Bool
  retrain  : Bool
  heard    : Bool
  joined   : Bool
  warden   : Nat
  encap    : List Frame
  chosen   : Nat
  credOut  : Option CreditBody
  capsOut  : Option (Nat × Nat)
  qps      : List (Nat × QpSt)
deriving DecidableEq, Repr

/-- A link engine after reset. -/
def LinkSt.zero : LinkSt :=
  { txq := [], replay := [], txSeq := 0, rxSeq := 0, rxGot := [], nak := none, out0 := [], out1 := [], seen := [], free0 := [],
    free1 := [], stale := [], staleIn := [], unsent := 0, replays := [], again := [], tries224 := 0, tries112 := 0, phase := 0,
    sensed := false, retrain := false, heard := false, joined := false, warden := 0, encap := [], chosen := 0, credOut := none,
    capsOut := none, qps := [] }

/-! ### Placement (R297) -/

/-- A member entry of a placement table. -/
structure Member where
  module : Nat
  polder : Nat
  gen    : Nat
  dp     : Bool
  spare  : Bool
  mirror : Nat
  parent : Nat
deriving DecidableEq, Repr

/-- A version of a placement table as loaded: the owner of every virtual shard, unlisted shards belonging to member 0. -/
structure Place where
  addr    : Nat
  version : Nat
  eff     : Nat
  members : List Member
  shards  : List (Nat × Nat)
  next    : Nat
deriving DecidableEq, Repr

/-! ### Collectives and verdicts (chapter 09) -/

/-- What a verdict carries (R305): the step, the OR of the verdicts, the exact sums in units of 2^−320 as integers, the
counts and checksum, and whether an owner reduced in arrival order (R271; log 83). -/
structure Sums where
  step      : Nat
  overflow  : Bool
  gradSq    : Int
  groupSq   : Int
  updSq     : Int
  groupN    : Nat
  nonfinite : Nat
  crc       : Nat
  noncanon  : Bool
deriving DecidableEq, Repr

/-- The sums of a step before anything is added to them. -/
def Sums.zero (t : Nat) : Sums := ⟨t, false, 0, 0, 0, 0, 0, 0, false⟩

/-- A job verdict as a module holds it (R305): its values in FP64 or as integers, and the values of the step that the
update reads (R226): E, B and the B_noise last published before it. -/
structure Verdict where
  step      : Nat
  overflow  : Bool
  gradSq    : Nat
  groupSq   : Nat
  updSq     : Nat
  groupN    : Nat
  nonfinite : Nat
  crc       : Nat
  e         : Nat
  b         : Nat
  bn        : Nat
  noncanon  : Bool
deriving DecidableEq, Repr

/-- A collective entry taken from a ring (R300, R514): its context, ring position and words; whether its frames have
been issued; the transfer id and owner module of each NODE
series not yet acknowledged; gather blocks not yet served to the requester, by
owner module. -/
structure CollEntry where
  ctx    : Nat
  idx    : Nat
  words  : List Nat
  step   : Option Nat
  issued : Bool
  xids   : List (Nat × Nat)
  blocks : List (Nat × Nat)
deriving DecidableEq, Repr

/-! ### Update engines (chapter 07) -/

/-- A group table entry (R222). -/
structure Group where
  base   : Nat
  cfmt   : Nat
  frozen : Bool
  tid    : Nat
deriving DecidableEq, Repr

/-- A shard table entry (R220). -/
structure Shard where
  v       : Nat
  nb      : Nat
  loading : Bool
  base    : Nat
  gen     : Nat
deriving DecidableEq, Repr

/-- A binding descriptor as bound (R222), with its microprogram image as 64-bit words. -/
structure BindDesc where
  ctx    : Nat
  mw     : Bool
  nmom   : Nat
  fact   : Bool
  groups : List Group
  total  : Nat
  prog   : List Nat
  hyper  : Nat
  table  : Nat
  shards : List Shard
  pool   : Nat
  slots  : Nat
  mod    : Nat
  mirror : Nat
deriving DecidableEq, Repr

/-- A node partial in the pool (R228): shard, group, local block, level and lowest leaf; the 1,024 values as they were
placed; whether it is non-finite; and the slot of the pool that holds the values from then on. -/
structure Node where
  v     : Nat
  u     : Nat
  j     : Nat
  level : Nat
  a     : Nat
  vals  : List Nat
  bad   : Bool
  slot  : Nat
deriving DecidableEq, Repr

/-- A contribution train whose block is not complete yet: the words received so far (R303). -/
structure Series where
  src   : Nat
  v     : Nat
  u     : Nat
  level : Nat
  a     : Nat
  j     : Nat
  words : List Nat
  bad   : Bool
deriving DecidableEq, Repr

/-- A binding of an update engine: its descriptor; the phase of STATE.PHASE; the nodes in the pool, blocks in
transfer and node keys received; contributions and gathers held at the credits, each with the link it came on (32: this
module itself); parts held for restore; parts whose mirror acknowledgement is awaited; blocks whose root is formed; the
exact sums of the step being reduced, and whether they have gone up; parts of the step being updated not yet decided,
its PRO scalars and the tick at which it began; UPD_SQ and the CRCs of the step being updated, or of the last one
updated; the last step boundary passed; whether the mirror partner is lost; outgoing parts not acknowledged, those of
them whose stream has started, and parts of LOADING shards whose generation word has landed (R314); checkpoint writes
awaited; whether its shards came by a substitution (R422); the last step in which it added contributions in arrival
order, and the shard parts whose fast reduction was refused in this step (R176); contributions taken in part because the
pool had no free slot, each with the link it came on, and whether slots have been freed since they stopped (R228). -/
structure Binding where
  desc      : BindDesc
  phase     : Nat
  nodes     : List Node
  series    : List Series
  got       : List (Nat × Nat)
  heldN     : List (Nat × Train)
  heldG     : List (Nat × Train)
  restore   : List (Nat × Nat)
  mirWait   : List (Nat × Nat)
  roots     : List (Nat × Nat)
  sums      : Sums
  up        : Bool
  todo      : List (Nat × Nat)
  updStep   : Nat
  zs        : List Nat
  since     : Nat
  updSq     : Int
  crcs      : List ((Nat × Nat) × Nat)
  passed    : Nat
  hasPassed : Bool
  mirLost   : Bool
  migOut    : List (Nat × Nat)
  migSent   : List (Nat × Nat)
  migIn     : List (Nat × Nat)
  ckptWait  : List (Nat × Nat)
  spare     : Bool
  fastStep  : Option Nat
  fastOff   : List Nat
  stalled   : List (Nat × Train)
  freed     : Bool
deriving DecidableEq, Repr

/-- One of the two mirror slots of a shard part that this module keeps for a partner (R236): the job, the part, the
current slot, the generation whose stream is arriving, the generation word of
the current slot, and per slot the pieces written, address and length in order of arrival. -/
structure MirrorPart where
  job    : Nat
  v      : Nat
  u      : Nat
  cur    : Option Nat
  wgen   : Option Nat
  genW   : Nat
  slot0  : List (Nat × Nat)
  slot1  : List (Nat × Nat)
deriving DecidableEq, Repr

/-- A checkpoint write posted on a queue pair and not acknowledged (R430, R431): the link and queue pair, the known
context, the binding and part it writes (none: the member's commit record), the step, and the record's words. -/
structure CkptPost where
  link : Nat
  qp   : Nat
  ctx  : Nat
  bind : Nat
  part : Option (Nat × Nat)
  step : Nat
  body : List Nat
deriving DecidableEq, Repr

/-! ### Contexts, streams and polders (chapters 08 and 11) -/

/-- A ring entry that has started (R352): its stream and entry number, rectangle, completion tally, tags, whether a
dike stands on it (R401), the cores that have not yet passed SEGEND, and whether it has ended. -/
structure Started where
  stream    : Nat
  entry     : Nat
  y0        : Nat
  x0        : Nat
  h         : Nat
  w         : Nat
  doneTally : Nat
  doneEn    : Bool
  kind      : Nat
  stepValid : Bool
  step      : Nat
  last      : Bool
  level     : Nat
  uLo       : Nat
  uHi       : Nat
  mb        : Nat
  left      : List Nat
  ended     : Bool
  diked     : Bool
deriving DecidableEq, Repr

/-- A polder's place in the cyclic schedule (R355 to R358): the context it is switched to, the one it is switching to,
the switch phase (0 none, 1 waiting for switch points, 2 saving and restoring), its present slot and the tick of that
slot's nominal start. -/
structure PolState where
  cur    : Option Nat
  next   : Option Nat
  phase  : Nat
  slot   : Nat
  nomAt  : Nat
  endAt  : Nat
deriving DecidableEq, Repr

/-- A polder to which no context is switched. -/
def PolState.zero : PolState := ⟨none, none, 0, 256, 0, 0⟩

/-- A bound accumulation slot (R250, R251): the pair it is bound to, the groups in state HELD, and whether the LAST
segment of its micro-batch has ended. -/
structure AccSlot where
  step : Nat
  mb   : Nat
  held : List Nat
  last : Bool
deriving DecidableEq, Repr

/-- A planned step (R248): its number, B, the module's range and the descriptor's REPORT_TAG. -/
structure Plan where
  step  : Nat
  b     : Nat
  first : Nat
  count : Nat
deriving DecidableEq, Repr

/-- A ring of a context (R347): base address, log2 of its entries (0: stream absent), tail word address. -/
structure Ring where
  base  : Nat
  log2n : Nat
  tail  : Nat
deriving DecidableEq, Repr

/-- A known context (R344, R347): the descriptor's fields; the fetcher's place in each stream (entries seen by the last
tail read, next entry to start, entries started and not all ended); the slot table, plans and admission point of
training (R248 to R253); holds, dikes and counts; the placement versions in force, next, and before it while
its shards still move (R298, R311); the last job
verdicts, the sums received for the step from children (by member index) and own engines (65,536 + stack); the next
collective entry that the engine of each die takes, by die (R514). Stream codes are those of R347. -/
structure Ctx where
  job        : Nat
  polder     : Nat
  typ        : Nat
  noncanon   : Bool
  seed       : Nat
  stepBlock  : Nat
  placeBase  : Nat
  coll       : Ring
  lsEn       : Nat
  lsS        : Nat
  lsE0       : Nat
  lsEmin     : Nat
  lsEmax     : Nat
  lsG        : Nat
  lsNskip    : Nat
  saveBase   : Nat
  sects      : Nat
  progressUs : Nat
  rings      : List Ring
  gen        : Nat
  tails      : List (Nat × Nat)
  nextE      : List (Nat × Nat)
  started    : List Started
  slots      : List (Nat × AccSlot)
  plans      : List Plan
  admitStep  : Option Nat
  admitIdx   : Nat
  hold       : Option Nat
  swapOut    : Bool
  tearReq    : Bool
  swapFor    : Option Nat
  halted     : Bool
  haltCode   : Nat
  prep       : Bool
  slotFull   : Nat
  peerBound  : Nat
  reportAt   : Nat
  reportMj   : Nat
  replayStep : Nat
  replayCnt  : Nat
  marks      : List (Nat × Nat)
  boundary   : Option Nat
  mapHold    : Option Nat
  swapReq    : Bool
  waitTick   : Nat
  blockTicks : Nat
  blockCycle : Bool
  catchUp    : List (Nat × List Nat)
  drain      : Bool
  place      : Option Place
  placeNext  : Option Place
  placeOld   : Option Place
  verds      : List Verdict
  ups        : List (Nat × Sums)
  collNext   : List (Nat × Nat)
deriving DecidableEq, Repr

/-! ### The embankment protocol (chapter 13) -/

/-- A record of REGISTER (R413): the module and job it speaks for, its member index, the coordinator, the alternate. -/
structure Registered where
  module : Nat
  job    : Nat
  member : Nat
  root   : Nat
  alt    : Nat
deriving DecidableEq, Repr

/-- A loss report that a warden investigates, or that this module holds for the next warden (R414): the suspect, the
modules that reported, the nonce of its probe, whether it is held, and each reporter's link number. -/
structure LossCase where
  suspect : Nat
  by_     : List Nat
  nonce   : Nat
  held    : Bool
  links   : List Nat
deriving DecidableEq, Repr

/-- A recovery that this member prepares (R421, R423): the job, the lost module and the spare that takes its place, the
children whose answers are awaited, the maxima so far, DURABLE where it has come. -/
structure Recovery where
  job     : Nat
  lost    : Nat
  spare   : Nat
  wait    : List Nat
  verd    : Nat
  gen     : Nat
  durable : Option Nat
deriving DecidableEq, Repr

/-- The embankment protocol's state (R410 to R423, R433): the epoch in which this module contends for warden, the highest
epoch seen, records registered with it as warden, loss cases, the next nonce, modules declared lost in the present
epoch, recoveries under way, the least ROLLBACK limit received per job, and the contexts that had a binding at the last
COMPUTE reset (R427). -/
structure EmbSt where
  contend : Option Nat
  seen    : Nat
  regs    : List Registered
  losses  : List LossCase
  nonce   : Nat
  lost    : List Nat
  recov   : List Recovery
  limits  : List (Nat × Nat)
  hadBind : List Nat
deriving DecidableEq, Repr

/-- The protocol's state after reset. -/
def EmbSt.zero : EmbSt := ⟨none, 0, [], [], 0, [], [], [], []⟩

/-! ### Reset and capture (chapters 13 and 14) -/

/-- A capture under way (R407 to R409): the cause bit of its trigger, the local tick and error code at the trigger, the
reach of the reset that waits for it (0: none waits). -/
structure Capture where
  cause : Nat
  tick  : Nat
  code  : Nat
  reach : Nat
deriving DecidableEq, Repr

/-- The reset state machine (R446 to R450): sources asserted, by bit of RST.CAUSE; the pending reset's reach (0 none, 1
COMPUTE, 2 MODULE, 3 SUPPLY, 4 FULL) and whether it has taken effect; the reach of the come-out under way or last run;
a source that asserted during a come-out and waits for the end of its step; the capture under way, whether the capture
of an earlier trigger awaits its CAPTURE_DONE event, and how many captures were taken; whether both management paths
failed; the local ticks of the come-out under way. -/
structure ResetSt where
  asserted : List Nat
  pend     : Nat
  held     : Bool
  reach    : Nat
  again    : Nat
  capture  : Option Capture
  capDone  : Bool
  capSeq   : Nat
  bothFail : Bool
  ticks    : Nat
deriving DecidableEq, Repr

/-! ### Power (chapter 12) -/

/-- The power controller between its windows (R379 to R393): per rail the sum of the powers reported in this window, and
how many reports; per die the consecutive windows in which the ratio of R384 was low, and high; dies whose core-rail
telemetry is suspect; regions whose K is being raised; per
region the consecutive windows of low slack; per die the thermal ceiling; whether P_ctl above CAP_W has lowered a
set-point or ADMIT that is not restored yet; whether R381 acted, and the dies where the 105 °C limit acted, in this
window; per region BUDGET_WAIT_TICKS at the window's start, and the window's first local tick; per die the canal, bridge
and link bytes of the last window; remainders of energy in nJ, by context, 64 for what no key
attributes, 65 for the module; the power state to which a transition is under way; the wake that waits, as a bit of
WAKE_CAUSE; whether the schedule has run since come-out. -/
structure PowerSt where
  sums    : List (Nat × Nat)
  count   : Nat
  low     : List (Nat × Nat)
  high    : List (Nat × Nat)
  suspect : List Nat
  raising : List Nat
  slack   : List (Nat × Nat)
  ceil    : List (Nat × Nat)
  capped  : Bool
  tripped : Bool
  limit   : List Nat
  waits   : List (Nat × Nat)
  winAt   : Nat
  traffic : List (Nat × Nat)
  rem     : List (Nat × Nat)
  target  : Option Nat
  wake    : Option Nat
  ran     : Bool
deriving DecidableEq, Repr

/-- The power controller after reset. -/
def PowerSt.zero : PowerSt := ⟨[], 0, [], [], [], [], [], [], false, false, [], [], 0, [], [], none, none, false⟩

/-- The input pins and supplies whose level outlives a reset: COOLANT_OK, SLOWDOWN_N asserted, WAKE (R457), and whether
the 48 V input is present (R501). -/
structure Pins where
  coolant  : Bool
  slowdown : Bool
  wake     : Bool
  main     : Bool
deriving DecidableEq, Repr

/-! ### Boot and the root of trust (chapter 14) -/

/-- What the quay factory region and the fuses that no register shows hold: channels mapped out (R191); the firmware
slots and the committed main slot (R471); the TYPE 3 certificates and DEVICE_ID (R476); the power-fail record (R441);
the factory debug level and the slots' key hashes by word, slot × 24 + word (R464); whether every index of the LMS key
has been used (R477); the values that fuse sense will load into register fields, by field (R16, R453 step 3); the
factory's row shifts, each half-row (die × 64 + half-row) with the logical column it replaces (R29). -/
structure Factory where
  mapped   : List Nat
  fw       : List (Nat × List Nat)
  fwMain   : Nat
  certs    : List (List Nat)
  deviceId : List Nat
  pfail    : List Nat
  pfailSeq : Nat
  level    : Nat
  keys     : List (Nat × Nat)
  lmsOut   : Bool
  sensed   : List (Nat × Nat)
  shifts   : List (Nat × Nat)
deriving DecidableEq, Repr

/-- The running firmware's object; an attestation under way: its address and the bytes it will write; fuse bits that an
operation is blowing; whether step 4 waits for the host's boot image (R472) and the attempt it belongs to; whether a
SEAL is under way; whether the power-fail record is being written (R440). -/
structure BootSt where
  fw      : List Nat
  att     : Option (Nat × List Nat)
  prog    : List Nat
  mailbox : Bool
  sealing : Bool
  pfail   : Bool
deriving DecidableEq, Repr

/-- Before any firmware runs. -/
def BootSt.zero : BootSt := ⟨[], none, [], false, false, false⟩

end Sys2Proof.Machine
end

