-- ==== Sys2Proof/Machine/State.lean ====
section
/-!
DEFINITION. The machine state: everything the spec gives the NG4 to hold, as plain data, and the state right after
reset.
-/

namespace Sys2Proof.Machine

/-- Why a step stops with a fault. -/
inductive Fault where
  /-- Raised by the core-instruction commands when the 64-bit word does not spell the command's row (its CLASS, OP and
  function, R77, R78): such a command names no event of the machine. Safe: the machine stops where no rule speaks. -/
  | malformedCommand
deriving DecidableEq, Repr

/-- Why a step refuses. -/
inductive Refusal where
  /-- Raised by an arm of `exec` whose row has no meaning yet. Safe: nothing is claimed of it. -/
  | notModelled (mnemonic : String)
deriving DecidableEq, Repr

/-- The NG4's state. -/
structure State where
  /-- the commands waiting, first in, first out -/
  pending : List Instr
  /-- how many free values have been drawn (the model's own field) -/
  free : Nat
  /-- every register field that differs from its after-reset value, by page, offset and bit (R57, R60) -/
  regs : List (Nat × Nat)
  /-- pending WB values, one per register (R65) -/
  pend : List (Nat × Nat)
  /-- read shadows of multi-word registers, per path and word (R70) -/
  rshadow : List (Nat × Nat)
  /-- write shadows of multi-word registers, per path and word (R71) -/
  wshadow : List (Nat × Nat)
  /-- pages in block reset (R64), by page number -/
  inReset : List Nat
  /-- the last access's answer (R50, R56) -/
  reply : BusReply
  /-- the cores, by core index (R7) -/
  cores : List (Nat × Core)
  /-- device DRAM by physical place: channel × 2^31 + offset (R182) -/
  dram : List Host.Cell
  /-- 64-byte DRAM blocks whose unlisted bytes are free values, by physical block: one more than the draw (R358) -/
  dramAny : List (Nat × Nat)
  /-- 64-byte DRAM blocks stored poisoned, by physical block (R187) -/
  dramPoison : List (Nat × Bool)
  /-- module channels that failed retraining and await their map-out: reads poisoned, writes discarded (R180) -/
  chDead : List (Nat × Bool)
  /-- device-DRAM blocks found with symbols in error and not rewritten since, by physical block: how many (R186, R188) -/
  dramSyms : List (Nat × Nat)
  /-- ticks of the corrected errors of each channel in the last hour (R189) -/
  ceLog : List (Nat × List Nat)
  /-- ticks and blocks of the uncorrected errors of each channel in the last 24 hours (R189) -/
  ueLog : List (Nat × List (Nat × Nat))
  /-- map-outs accepted and not complete, the running one first (R191) -/
  mapQ : List MapJob
  /-- the fetcher's wait units, one per known context and stream, context × 4 + stream (R354) -/
  fwait : List (Nat × TSlot)
  /-- the quay store's user region, by window offset (R206) -/
  quay : List Host.Cell
  /-- 4 KiB quay pages found uncorrectable (R208) -/
  quayBad : List (Nat × Bool)
  /-- the quay directory in force, by entry (R206, R213) -/
  quayDir : List (Nat × QuayEntry)
  /-- host memory as the host window reaches it, by window offset (R205) -/
  host : List Host.Cell
  /-- host-memory bytes that hold data marked poisoned, by window offset (R187) -/
  hostPoison : List (Nat × Bool)
  /-- device-DRAM blocks, by address, that a read has just found uncorrectable, for the engines to act on (R235) -/
  metUe : List Nat
  /-- host-window pages (4 KiB) that the adapter does not translate (R205) -/
  hostHoles : List Nat
  /-- the sluices, by region (R371) -/
  sluices : List (Nat × Sluice)
  /-- the transfer engines, die × 16 + engine (R193) -/
  engines : List (Nat × Engine)
  /-- the next transfer id that an engine chooses (R286) -/
  nextXid : Nat
  /-- the known contexts, by number (R344) -/
  ctxs : List (Nat × Ctx)
  /-- the polders' places in the schedule (R355 to R358) -/
  pols : List (Nat × PolState)
  /-- the polder table in force: the 16 words of each valid entry (R341, R342) -/
  polTab : List (Nat × List Nat)
  /-- sampled MMAs at their auditors, oldest first (R435) -/
  audits : List AuditJob
  /-- each core's audit state (R438) -/
  auditSt : List (Nat × AuditSt)
  /-- auditors found faulty and not used again, by half-row (R436) -/
  badAuditors : List Nat
  /-- the cores issue nothing: a reset whose come-out has not ended, a capture, a power loss or safe mode has stopped them
  (R408, R440, R442, R453) -/
  stopAll : Bool
  /-- the link engines, by link (R6) -/
  links : List (Nat × LinkSt)
  /-- trains addressed to this module itself, on their way to its engines, oldest first -/
  inbox : List Train
  /-- trains whose transfer has no way to its destination and ends with PEER_LOST (R277, R279) -/
  lostQ : List Train
  /-- trains that no link carries now and that wait at the credits, each with the link it came on (32: this module's own)
  (R293, R295) -/
  pinHeld : List (Nat × Train)
  /-- trains that wait behind a contribution to a LOADING shard on their VC and link, oldest first (R316) -/
  behind : List (Nat × Train)
  /-- modules whose latest gather data on VC3 was multicast, so that their TALLY_ADD is too: whether this member is where it
  enters the tree, and the step whose version the tree is of (R301) -/
  mcast : List (Nat × Bool × Nat)
  /-- pairs of source × 65,536 + destination whose latest gather data seen here on VC3 was multicast, so that their TALLY_ADD
  follows the pinned path (R295, R301) -/
  mcastVia : List Nat
  /-- tallies, with the module that adds to them, whose barge's CRC write was refused here: the TALLY_ADD that follows is
  discarded with it (R199) -/
  crcDenied : List (Nat × Nat)
  /-- collective entries taken and not ended, oldest first (R514) -/
  colls : List CollEntry
  /-- the bindings of the update engines, stack × 4 + binding (R216) -/
  binds : List (Nat × Binding)
  /-- checkpoint writes posted and not acknowledged, oldest first (R430, R431) -/
  ckpts : List CkptPost
  /-- the mirror slots kept for partners (R236) -/
  mirrors : List MirrorPart
  /-- contexts that have taken the RNG page's pending value while others have not, each with what it took, by offset
  (R177) -/
  rngTaken : List (Nat × List (Nat × Nat))
  /-- contexts that have taken the AUDIT page's pending values, likewise (R445) -/
  auditTaken : List (Nat × List (Nat × Nat))
  /-- SCHED.POLDER_BASE has applied and the table at it is still to be read (R342) -/
  polDue : Bool
  /-- the embankment protocol (R410 to R423) -/
  emb : EmbSt
  /-- the reset sources, the pending reset and the come-out (R446 to R450) -/
  rst : ResetSt
  /-- the other directory copy, the sequence of the commit in force (R209) -/
  quayOther : List (Nat × QuayEntry)
  quaySeq : Nat
  /-- the directory copy that the commit word in force names (R209) -/
  quayCopy : Nat
  /-- the two slots of the commit word: the sequence and the copy that each holds (R209) -/
  quayWord0 : Nat × Nat
  quayWord1 : Nat × Nat
  /-- what the contexts that no polder is switched to left on cores, context × 8192 + core (R358) -/
  imgCores : List (Nat × Core)
  /-- weight locks that have stopped admitting after WL_RING (R333) -/
  wlStop : List Nat
  /-- the output of the evaluation that EV_GO started (R178) -/
  evOut : Nat
  /-- samples taken since EN last became 1, by die (R492) -/
  smpSeq : List (Nat × Nat)
  /-- the local tick of each die's latest sample (R491) -/
  smpTick : List (Nat × Nat)
  /-- the last levels that the counters of L events saw, by counter (R486) -/
  levels : List (Nat × Nat)
  /-- the power controller (R379 to R393) -/
  power : PowerSt
  /-- the input pins (R457) -/
  pins : Pins
  /-- the quay factory region and the fuses (R209, R464) -/
  factory : Factory
  /-- boot and the security engine (R453 to R478) -/
  boot : BootSt
  /-- retained SRAM, by word (R463) -/
  retained : List (Nat × Nat)
  /-- RST.CAUSE at the last come-out, and the come-outs since FULL (R478) -/
  lastCause : Nat
  comeouts : Nat
  /-- the I3C dynamic address (R502) and what the next private read returns (R503) -/
  i3cAddr : Option Nat
  i3cRead : List Nat
  /-- the TAP instruction in force: 0 BYPASS, 1 IDCODE, 2 EXTEST, 3 RESET_REQ; and the identification code that it shifts
  out (R467) -/
  tap : Nat
  tapOut : Nat
  /-- the part of a period of the 32.768 kHz count that has passed, in units of 10^-8 (R55) -/
  aonPart : Nat
  /-- ALERT_N is asserted by a device-fatal error (R400) -/
  alert : Bool
  /-- an MSI-X hold-off is running (R507) -/
  msiHold : Bool
  /-- event records were written during the hold-off (R507) -/
  msiDue : Bool
  /-- MSI-X messages sent, the vector of each, oldest first -/
  msiSent : List Nat
deriving DecidableEq, Repr

/-- The machine right after reset. -/
def State.reset : State :=
  { pending := [], free := 0, regs := [], pend := [], rshadow := [], wshadow := [], inReset := [], reply := ⟨0, 0, false⟩,
    cores := [], dram := [], dramAny := [], dramPoison := [], chDead := [], dramSyms := [], ceLog := [],
    ueLog := [], mapQ := [], fwait := [], quay := [], quayBad := [], quayDir := [], host := [], hostPoison := [], metUe := [], hostHoles := [], sluices := [], engines := [], nextXid := 0,
    ctxs := [], pols := [],
    polTab := [], audits := [], auditSt := [], badAuditors := [], stopAll := true, links := [], inbox := [], lostQ := [], pinHeld := [], behind := [], mcast := [], mcastVia := [], crcDenied := [], colls := [], binds := [], ckpts := [],
    mirrors := [], rngTaken := [], auditTaken := [], polDue := false, emb := .zero, rst := ⟨[0], 4, true, 4, 0, none, false, 0, false, 0⟩, quayOther := [], quaySeq := 0, quayCopy := 0, quayWord0 := (0, 0), quayWord1 := (0, 0), imgCores := [], wlStop := [],
    evOut := 0, smpSeq := [], smpTick := [], levels := [], power := .zero, pins := ⟨false, false, false, true⟩,
    factory := ⟨[], [], 0, [], [], [], 0, 0, [], false, [], []⟩, boot := .zero, retained := [], lastCause := 0, comeouts := 0,
    i3cAddr := none, i3cRead := [], tap := 0, tapOut := 0, aonPart := 0, alert := false, msiHold := false,
    msiDue := false, msiSent := [] }

end Sys2Proof.Machine
end

