-- ==== Sys2Proof/Machine/Ops.lean ====
section
/-!
DEFINITION. The named operations on registers and units that every meaning uses: reading and setting a register field,
a core, a page's state, and drawing a free value.
-/

namespace Sys2Proof.Machine

/-- Register `n` of a field on a page: its value. -/
def rdi (s : State) (p : Page) (f : RegField) (n : Nat) : Nat := mapGet (resetOf f n) s.regs (fieldKey p f n)

/-- A field on a page: its value. -/
def rd (s : State) (p : Page) (f : RegField) : Nat := rdi s p f 0

/-- Set register `n` of a field on a page, truncated to the field's width. -/
def wri (p : Page) (f : RegField) (n v : Nat) (s : State) : State :=
  { s with regs := mapSet (resetOf f n) s.regs (fieldKey p f n) (v % 2 ^ f.width) }

/-- Set a field on a page. -/
def wr (p : Page) (f : RegField) (v : Nat) (s : State) : State := wri p f 0 v s

/-- Add to a counter that wraps at its width. -/
def bump (p : Page) (f : RegField) (d : Nat) (s : State) : State := wr p f (rd s p f + d) s

/-- Add to register `n` of a counter that wraps at its width. -/
def bumpi (p : Page) (f : RegField) (n d : Nat) (s : State) : State := wri p f n (rdi s p f n + d) s

/-- Add to a counter that saturates at the top of its width. -/
def bumpSat (p : Page) (f : RegField) (d : Nat) (s : State) : State := wr p f (satAdd f.width (rd s p f) d) s

/-- The single pages of the module (R57). -/
def pgMgmt : Page := ⟨.mgmt, 0⟩
def pgAon : Page := ⟨.aon, 0⟩
def pgRst : Page := ⟨.rst, 0⟩
def pgStrap : Page := ⟨.strap, 0⟩
def pgFuse : Page := ⟨.fuse, 0⟩
def pgSec : Page := ⟨.sec, 0⟩
def pgPwr : Page := ⟨.pwr, 0⟩
def pgSched : Page := ⟨.sched, 0⟩
def pgEmb : Page := ⟨.emb, 0⟩
def pgHlink : Page := ⟨.hlink, 0⟩
def pgQuay : Page := ⟨.quay, 0⟩
def pgAudit : Page := ⟨.audit, 0⟩
def pgRng : Page := ⟨.rng, 0⟩
def pgWlock : Page := ⟨.wlock, 0⟩
def pgCore (c : Nat) : Page := ⟨.core, c⟩
def pgArray (c : Nat) : Page := ⟨.array, c⟩
def pgCtx (n : Nat) : Page := ⟨.ctx, n⟩
def pgMemc (k : Nat) : Page := ⟨.memc, k⟩
def pgUpd (k : Nat) : Page := ⟨.upd, k⟩
def pgLink (k : Nat) : Page := ⟨.link, k⟩
def pgBarge (e : Nat) : Page := ⟨.barge, e⟩
def pgSluice (r : Nat) : Page := ⟨.sluice, r⟩
def pgDie (d : Nat) : Page := ⟨.die, d⟩
def pgCanal (d : Nat) : Page := ⟨.canal, d⟩
def pgTherm (d : Nat) : Page := ⟨.therm, d⟩
def pgPerf (d : Nat) : Page := ⟨.perf, d⟩
def pgSample (d : Nat) : Page := ⟨.sample, d⟩

/-- How many pages of a class exist (R57); 0 for the header, which is no class. -/
def pageCount : Cls → Nat
  | .core | .array => 8192
  | .die | .canal | .therm | .sample => 4
  | .perf => 5
  | .memc | .upd => 8
  | .sluice | .barge | .ctx => 64
  | .link => 32
  | .header => 0
  | _ => 1

/-- Whether a page exists. -/
def pageExists (p : Page) : Bool := decide (p.inst < pageCount p.cls)

/-- The rows of a class's own table. -/
def classFields : Cls → List RegField
  | .core => R.CORE_fields | .array => R.ARRAY_fields | .canal => R.CANAL_fields | .die => R.DIE_fields
  | .sluice => R.SLUICE_fields | .barge => R.BARGE_fields | .memc => R.MEMC_fields | .upd => R.UPD_fields
  | .quay => R.QUAY_fields | .link => R.LINK_fields | .hlink => R.HLINK_fields | .emb => R.EMB_fields
  | .sched => R.SCHED_fields | .ctx => R.CTX_fields | .wlock => R.WLOCK_fields | .audit => R.AUDIT_fields
  | .rng => R.RNG_fields | .perf => R.PERF_fields | .sample => R.SAMPLE_fields | .pwr => R.PWR_fields
  | .therm => R.THERM_fields | .rst => R.RST_fields | .strap => R.STRAP_fields | .fuse => R.FUSE_fields
  | .sec => R.SEC_fields | .mgmt => R.MGMT_fields | .aon => R.AON_fields
  | .moddir | .header => []

/-- The rows of a page: the common header's and its class's (R60). -/
def fieldsOf (c : Cls) : List RegField := (if c = .array then [] else R.HEADER_fields) ++ classFields c

/-- The page that holds the header of a page: an ARRAY page shares its core's (R59). -/
def headPage (p : Page) : Page := if p.cls = .array then ⟨.core, p.inst⟩ else p

/-- The narrowest reach that clears a field of a page: a header field marked BLOCK on a page without block reset
follows its class (R61), and the errors of ERR_STAT, though not MULTI, follow its class's own table. -/
def fieldReach (p : Page) (f : RegField) : Reach :=
  if f.cls = .header ∧ f.reach = .block then
    (if bitSet (capsOf p.cls) 2 ∧ ¬(f.off = 0x20 ∧ f.lo = 0) then .block else headerReach p.cls)
  else f.reach

/-- The row that a filed field belongs to, with the page it is on. -/
def fieldFiled (key : Nat) : Option (Page × RegField) :=
  let lo := key % 64
  let off := key / 64 % 16384
  let inst := key / 64 / 16384 % 8192
  let code := key / 64 / 16384 / 8192
  match [Cls.moddir, .core, .array, .canal, .die, .sluice, .barge, .memc, .upd, .quay, .link, .hlink, .emb, .sched, .ctx,
      .wlock, .audit, .rng, .perf, .sample, .pwr, .therm, .rst, .strap, .fuse, .sec, .mgmt, .aon][code]? with
  | none => none
  | some c =>
    ((fieldsOf c).find? (fun f => f.lo == lo &&
      (if f.stride = 0 then f.off == off
       else decide (f.off + f.n0 * f.stride ≤ off) && decide (off < f.off + (f.n0 + f.cnt) * f.stride) &&
         (off - f.off) % f.stride == 0))).map (fun f => (⟨c, inst⟩, f))

/-- Whether a page's filed field is cleared by a reset of reach `r` (R16). -/
def clearedBy (r : Reach) (key : Nat) : Bool :=
  match fieldFiled key with
  | some (p, f) => decide (reachRank (fieldReach p f) ≤ reachRank r)
  | none => false

/-- The page number of a filed field. -/
def keyPage (key : Nat) : Nat := key / 64 / 16384

/-- The page number of a filed word. -/
def wkeyPage (key : Nat) : Nat := key / 16384

/-- Every register field of the pages that `on` selects returned to its after-reset value, where reach `r` clears it. -/
def clearRegs (r : Reach) (on : Nat → Bool) (s : State) : State :=
  { s with regs := mapDrop s.regs (fun k => on (keyPage k) && clearedBy r k) }

/-- The pending WB values and shadows of the pages that `on` selects discarded (R64, R71). -/
def dropPending (on : Nat → Bool) (s : State) : State :=
  { s with pend := mapDrop s.pend (fun k => on (wkeyPage k)),
           rshadow := mapDrop s.rshadow (fun k => on (wkeyPage (k / 4))),
           wshadow := mapDrop s.wshadow (fun k => on (wkeyPage (k / 4))) }

/-! ### Cores -/

/-- A core's state. -/
def coreOf (s : State) (c : Nat) : Core := mapGet .zero s.cores c

/-- Replace a core's state. -/
def setCore (c : Nat) (k : Core) (s : State) : State := { s with cores := mapSet .zero s.cores c k }

/-- Change a core's state. -/
def modCore (c : Nat) (f : Core → Core) (s : State) : State := setCore c (f (coreOf s c)) s

/-- The die of a core index (R7). -/
def dieOfCore (c : Nat) : Nat := c / 128 / 32 * 2 + c % 128 / 64

/-- The core block of a core index (R25). -/
def blockOfCore (c : Nat) : Nat := c / 128 / 8 * 16 + c % 128 / 8

/-- The sluice region of a core index, die × 16 + region (R26). -/
def regionOfCore (c : Nat) : Nat := dieOfCore c * 16 + (c / 128 % 32 / 8 * 4 + c % 128 % 64 / 16)

/-- Whether a link is idle (R308): DOWN, or FENCED with no frame queued. -/
def linkIdle (s : State) (k : Nat) : Bool :=
  rd s (pgLink k) R.LINK_STATUS_STATE == 0 ||
    (rd s (pgLink k) R.LINK_STATUS_STATE == 3 && (mapGet LinkSt.zero s.links k).txq.isEmpty)

/-- Whether the spare of a half-row can audit now: unused by repair, not found faulty, not busy (R435). -/
def auditorFree (s : State) (h : Nat) : Bool :=
  rdi s (pgDie (h / 64)) R.DIE_REPAIR_USED (h % 64) == 0 && !s.badAuditors.contains h && !s.audits.any (fun a => a.aud == h)

/-! ### Debug permission (R467) -/

/-- Whether invasive debug is open: level 3, or level 2 after an unlock. -/
def debugOpen (s : State) : Bool :=
  let l := rd s pgFuse R.FUSE_CFG_DEBUG_LEVEL
  decide (3 ≤ l) || (decide (l = 2) && rd s pgSec R.SEC_STATUS_DEBUG_UNLOCKED == 1)

/-! ### Free values -/

/-- Draw a free number and advance the counter. -/
def drawFree (s : State) : Nat × State := (Config.freeNat s.free, { s with free := s.free + 1 })

/-! ### Event counters (R484 to R489) -/

/-- The selection, counter rows and counter number of a page that counts events. -/
def counterRows : Cls → Option (RegField × RegField × Nat)
  | .core | .array => some (R.CORE_EVT_SEL, R.CORE_EVT_CNT, 32)
  | .barge => some (R.BARGE_EVT_SEL, R.BARGE_EVT_CNT, 8)
  | .link => some (R.LINK_EVT_SEL, R.LINK_EVT_CNT, 8)
  | .perf => some (R.PERF_EVT_SEL, R.PERF_EVT_CNT, 16)
  | _ => none

/-- The kind of an event code (R487): 1 an occurrence, 2 a level, 0 reserved. -/
def eventKind (e : Nat) : Nat :=
  if e ∈ [0x01, 0x02, 0x03, 0x04, 0x05, 0x09, 0x0A, 0x0B, 0x40, 0x41, 0x42, 0x45, 0x46, 0x60, 0x61, 0x62, 0x80, 0x81,
      0x82, 0x84, 0x85, 0xA0, 0xC0, 0xD0, 0xD1, 0xD2, 0xE0, 0xE1, 0xF0, 0xF1, 0xF2, 0xF3, 0xF4, 0xF5] then 1
  else if e ∈ [0x06, 0x07, 0x08, 0x0C, 0x43, 0x44, 0x63, 0x64, 0x65, 0x83, 0xC1, 0xC2, 0xD3, 0xE2] then 2
  else 0

/-- Whether a page offers an event (R484). -/
def eventOffered (p : Page) (e : Nat) : Bool :=
  match p.cls with
  | .core | .array => decide (1 ≤ e ∧ e ≤ 0x5F)
  | .barge => decide (0x60 ≤ e ∧ e ≤ 0x7F)
  | .link => decide (0x80 ≤ e ∧ e ≤ 0x9F)
  | .perf => if p.inst = 4 then decide (0xF0 ≤ e) else decide (0xA0 ≤ e ∧ e ≤ 0xEF)
  | _ => false

/-- The mode a selection has: 0 for a reserved code, an event not offered, or a reserved or misplaced SRC (R485). -/
def selMode (p : Page) (sel : Nat) : Nat :=
  let e := bitsOf sel 0 8
  let src := bitsOf sel 10 5
  if eventKind e = 0 ∨ !eventOffered p e then 0
  else if p.cls = .perf ∧ 17 ≤ src then 0
  else if p.cls ≠ .perf ∧ src ≠ 0 then 0
  else bitsOf sel 8 2

/-- Whether a selection counts event `e` of instance `src` for work of context `ctx` (R485, R486). -/
def selCounts (p : Page) (sel e src : Nat) (ctx : Option Nat) : Bool :=
  bitsOf sel 0 8 == e &&
  (p.cls != .perf || p.inst == 4 || bitsOf sel 10 5 == src || bitsOf sel 10 5 == 16) &&
  (!bitSet sel 25 || ctx == some (bitsOf sel 26 6))

/-- Count `d` occurrences of an E event at a page (R486); a frozen PERF page counts nothing (R489). -/
def countE (p : Page) (e src d : Nat) (ctx : Option Nat) (s : State) : State :=
  match counterRows p.cls with
  | none => s
  | some (sel, cnt, n) =>
    if p.cls = .perf ∧ rd s p R.PERF_CTRL_FREEZE = 1 then s
    else foldUpTo n (fun i t =>
      let v := rdi t p sel i
      if selMode p v = 1 ∧ selCounts p v e src ctx then bumpi p cnt i d t else t) s

/-- The page whose counters count a core's events. -/
def countCore (c e d : Nat) (s : State) : State := countE (pgCore c) e 0 d (coreOf s c).ctx s

end Sys2Proof.Machine
end

