-- ==== Sys2Proof/Machine/Mem.lean ====
section
/-!
DEFINITION. The memories and their address map: regions (R47 to R50), sections, interleave and map-out (R181, R182,
R190), poison marks (R187), scratch (R100, R104), tallies and the wait units that watch them (R354).
-/

namespace Sys2Proof.Machine

/-- The regions of the device physical address map (R47), with the offset inside the region. -/
inductive Region where
  | dram | quay | regs | scratch | host | none
deriving DecidableEq, Repr

/-- The region and offset of a device physical address; the unbacked part of a region is no region (R47, R50). -/
def regionOf (a : Nat) : Region × Nat :=
  let o := a % 2 ^ 40
  match a / 2 ^ 40 with
  | 0 => if o < 0x80_0000_0000 then (.dram, o) else (.none, o)
  | 1 => (.quay, o)
  | 2 => if o < 0x1000_0000 then (.regs, o) else (.none, o)
  | 3 => if o < 0x8000_0000 then (.scratch, o) else (.none, o)
  | 4 => (.host, o)
  | _ => (.none, o)

/-! ### Device DRAM -/

/-- An entry of the section table in force (R181). -/
structure Sect where
  mode  : Nat
  set   : Nat
  cls   : Nat
  piece : Nat
deriving DecidableEq, Repr

/-- Section `n` of the table in force (R181). -/
def sectOf (s : State) (n : Nat) : Sect :=
  let p := pgMemc 0
  ⟨rdi s p R.MEMC_SECT_MODE n, rdi s p R.MEMC_SECT_SET n, rdi s p R.MEMC_SECT_CLASS n, rdi s p R.MEMC_SECT_PIECE n⟩

/-- The number of members of a mode's interleave sets (R181); 0 for an unassigned section. -/
def modeK : Nat → Nat
  | 1 => 256
  | 2 => 64
  | 3 => 32
  | _ => 0

/-- The module channel of member `i` of a set (R181). -/
def memberOf (mode set i : Nat) : Nat := if mode = 2 then 64 * set + i else if mode = 3 then 32 * set + i else i

/-- The state of a module channel: 0 healthy, 1 DEGRADED, 2 mapped out (R211). -/
def chState (s : State) (ch : Nat) : Nat :=
  let p := pgMemc (ch / 32)
  let c := ch % 32
  if c < 16 then bitsOf (rd s p R.MEMC_CH_STATE_LO) (2 * c) 2 else bitsOf (rd s p R.MEMC_CH_STATE_HI) (2 * (c - 16)) 2

/-- The states of a stack's 32 channels, two bits each. -/
def stackStates (s : State) (k : Nat) : Nat := rd s (pgMemc k) R.MEMC_CH_STATE_LO + rd s (pgMemc k) R.MEMC_CH_STATE_HI * 2 ^ 32

/-- The members of a set that are mapped out, as indices in ascending order. -/
def failedMembers (s : State) (e : Sect) : List Nat :=
  let ws := (List.range 8).map (stackStates s)
  if ws.all (· == 0) then []
  else (List.range (modeK e.mode)).filter (fun i =>
    let ch := memberOf e.mode e.set i
    bitsOf (ws.getD (ch / 32) 0) (2 * (ch % 32)) 2 == 2)

/-- R182: the physical place of byte `b` of granule `g` of a section. -/
def placeOf (e : Sect) (g b : Nat) : Nat :=
  memberOf e.mode e.set (g % modeK e.mode) * 2 ^ 31 + (e.piece * 2 ^ 22 + g / modeK e.mode * 4096 + b)

/-- R190: the granule where granule `g` lives when the members listed in `failed` are mapped out. -/
def remapGranule (k : Nat) (failed : List Nat) (g : Nat) : Option Nat :=
  let f := failed.length
  let top := 262144 - f * (262144 / k)
  if top ≤ g then none
  else if !failed.contains (g % k) then some g
  else
    let j := g / k * f + (failed.filter (fun i => decide (i < g % k))).length
    let healthy := (List.range k).filter (fun i => !failed.contains i)
    some (top + j / (k - f) * k + healthy.getD (j % (k - f)) 0)

/-- The physical place of a device-DRAM address, channel × 2^31 + offset; none where it has no backing (R50, R190). -/
def locate (s : State) (a : Nat) : Option Nat :=
  let e := sectOf s (a / 2 ^ 30)
  if 0x80_0000_0000 ≤ a ∨ modeK e.mode = 0 then none
  else (remapGranule (modeK e.mode) (failedMembers s e) (a % 2 ^ 30 / 4096)).map (fun g => placeOf e g (a % 4096))

/-- Whether all `n` bytes from `a` are backed device DRAM. -/
def backed (s : State) (a n : Nat) : Bool := (List.range n).all (fun i => (locate s (a + i)).isSome)

/-- The class of the section of a device-DRAM address (R184). -/
def classOf (s : State) (a : Nat) : Nat := (sectOf s (a / 2 ^ 30)).cls

/-- Whether the symbols known to be in error in the block at address `a`, at physical place `q`, are more than the class in
force there corrects (R185, R186). -/
def symsBad (s : State) (a q : Nat) : Bool :=
  let n := mapGet 0 s.dramSyms (q / 64)
  n != 0 && (classOf s a != 0 || decide (4 < n))

/-- What byte `q` of device DRAM reads as where it is not listed: 0, or the free value that its block holds. -/
def dramUnlisted (s : State) (q : Nat) : Byte :=
  match mapGet 0 s.dramAny (q / 64) with
  | 0 => 0#8
  | i + 1 => Config.freeByte i (q % 64)

/-- The byte at a physical place of device DRAM. -/
def dramCell (s : State) (q : Nat) : Byte := mapGet (dramUnlisted s q) s.dram q

/-- The bytes of device DRAM from `a`; zeros where there is no backing (R50). -/
def dramRead (s : State) (a n : Nat) : List Nat :=
  (List.range n).map (fun i => match locate s (a + i) with | some q => (dramCell s q).toNat | none => 0)

/-- Whether a read of the `n` bytes from `a` meets poison: a block stored poisoned (R187), one of a channel that
failed retraining (R180), or one that its class cannot correct (R186). -/
def dramPoisoned (s : State) (a n : Nat) : Bool :=
  (List.range n).any (fun i => match locate s (a + i) with
    | some q => mapGet false s.dramPoison (q / 64) || mapGet false s.chDead (q / 2 ^ 31) || symsBad s (a + i) q
    | none => false)

/-- A 64-bit little-endian word of device DRAM. -/
def dramWord (s : State) (a : Nat) : Nat := ofBytes (dramRead s a 8)

/-- One armed unit sees the present value of its tally (R354). -/
def lookSlot (s : State) (t : TSlot) : TSlot := { t with seen := t.seen || decide (t.thr ≤ dramWord s t.addr) }

/-- Every armed unit that watches a word in the `n` bytes from `a` is sent the new value (R354), the units of
switched-out contexts too (R95). -/
def notifyTally (a n : Nat) (s : State) : State :=
  let hit (t : TSlot) : Bool := decide (t.addr < a + n ∧ a < t.addr + 8)
  let upd (e : Nat × TSlot) : Nat × TSlot := if hit e.2 then (e.1, lookSlot s e.2) else e
  let core (e : Nat × Core) : Nat × Core := (e.1, { e.2 with slots := e.2.slots.map upd })
  { s with
    cores := s.cores.map core, imgCores := s.imgCores.map core,
    fwait := s.fwait.map upd }

/-- One byte stored where it is backed and its channel works. -/
def putByte (a b : Nat) (s : State) : State :=
  match locate s a with
  | some q => if mapGet false s.chDead (q / 2 ^ 31) then s else { s with dram := mapSet (dramUnlisted s q) s.dram q (BitVec.ofNat 8 b) }
  | none => s

/-- Bytes stored from `a` in turn. -/
def putBytes (a : Nat) : List Nat → State → State
  | [], s => s
  | b :: bs, s => putBytes (a + 1) bs (putByte a b s)

/-- The poison mark of a 64-byte block after a write of `n` bytes from `a`: a poisoned write marks it and encodes it anew, a
write of all 64 bytes without poison clears it, a partial write leaves it (R187). -/
def markBlock (a n : Nat) (poison : Bool) (blk : Nat) (s : State) : State :=
  match locate s (blk * 64) with
  | none => s
  | some q =>
    if poison then
      { s with dramPoison := mapSet false s.dramPoison (q / 64) true, dramSyms := mapSet 0 s.dramSyms (q / 64) 0 }
    else if a ≤ blk * 64 ∧ blk * 64 + 64 ≤ a + n then
      { s with dramPoison := mapSet false s.dramPoison (q / 64) false, dramSyms := mapSet 0 s.dramSyms (q / 64) 0 }
    else s

/-- The 64-byte blocks that `n` bytes from `a` touch. -/
def blocksOf (a n : Nat) : List Nat := if n = 0 then [] else (List.range ((a + n - 1) / 64 - a / 64 + 1)).map (· + a / 64)

/-- The bytes of block `blk` that `n` bytes from `a` cover. -/
def coverOf (a n blk : Nat) : Nat := min (a + n) (blk * 64 + 64) - max a (blk * 64)

/-- One block's part of a write counted at its stack's controller (R211, R487). -/
def countWr (a n blk : Nat) (s : State) : State :=
  match locate s (blk * 64) with
  | none => s
  | some q =>
    let k := q / 2 ^ 31 / 32
    countE (pgPerf (k / 2)) 0xE1 (k % 2) 1 none (bump (pgMemc k) R.MEMC_WR_BYTES (coverOf a n blk) s)

/-- A write to device DRAM: the bytes, their blocks' poison marks and counts, and the armed units told (R187, R211,
R354). -/
def dramWrite (a : Nat) (bs : List Nat) (poison : Bool) (s : State) : State :=
  let s1 := putBytes a bs s
  let s2 := (blocksOf a bs.length).foldl (fun t b => countWr a bs.length b (markBlock a bs.length poison b t)) s1
  notifyTally a bs.length s2

/-- A physical block of device DRAM left with free bytes. -/
def blockFree (q i : Nat) (s : State) : State :=
  { s with dram := mapDrop s.dram (fun a => a / 64 == q), dramAny := mapSet 0 s.dramAny q (i + 1) }

/-- `n` 64-byte blocks of device DRAM from `a` written with bytes that the spec does not define: free values. -/
def dramScramble (a n : Nat) (s : State) : State :=
  foldUpTo n (fun i t =>
    let t1 := dramWrite (a + 64 * i) (List.replicate 64 0) false t
    match locate t1 (a + 64 * i) with
    | some q => { blockFree (q / 64) t1.free t1 with free := t1.free + 1 }
    | none => t1) s

/-- A 64-bit word written to device DRAM. -/
def dramPutWord (a v : Nat) (s : State) : State := dramWrite a (bytesOf 8 v) false s

/-- Whether an address can be a tally: 8-byte aligned and in the device-DRAM region (R47, R94). -/
def tallyAligned (a : Nat) : Bool := decide (a % 8 = 0 ∧ a < 2 ^ 40)

/-- The atomic add to a tally modulo 2^64 (R354). -/
def tallyAdd (a v : Nat) (s : State) : State := dramPutWord a ((dramWord s a + v) % 2 ^ 64) s

/-! ### Scratch (R100, R104) -/

/-- What byte `a` of a core's scratch reads as where it is not listed: 0, or a free value where it is not preserved. -/
def scrUnlisted (k : Core) (a : Nat) : Byte := match k.scrAny with | some i => Config.freeByte i a | none => 0#8

/-- A byte of a core's scratch. -/
def scrCell (k : Core) (a : Nat) : Byte := mapGet (scrUnlisted k a) k.scr a

/-- The bytes of a core's scratch from `a`. -/
def scrRead (k : Core) (a n : Nat) : List Nat := (List.range n).map (fun i => (scrCell k (a + i)).toNat)

/-- Bytes stored in a core's scratch from `a`. -/
def scrPut (a : Nat) : List Nat → Core → Core
  | [], k => k
  | b :: bs, k => scrPut (a + 1) bs { k with scr := mapSet (scrUnlisted k a) k.scr a (BitVec.ofNat 8 b) }

/-- The 64-bit words that `n` bytes from `a` touch. -/
def wordsOf (a n : Nat) : List Nat := if n = 0 then [] else (List.range ((a + n - 1) / 8 - a / 8 + 1)).map (· + a / 8)

/-- A write to scratch: the bytes, and the poison mark and error state of each word (a partial write is a
read-modify-write, R102, and leaves a poisoned word poisoned). -/
def scrWrite (a : Nat) (bs : List Nat) (poison : Bool) (k : Core) : Core :=
  let k1 := scrPut a bs k
  (wordsOf a bs.length).foldl (fun k w =>
    let whole : Bool := decide (a ≤ w * 8 ∧ w * 8 + 8 ≤ a + bs.length)
    let p := if poison then true else if whole then false else mapGet false k.scrPoison w
    { k with scrPoison := mapSet false k.scrPoison w p,
             scrUpset := if whole then mapSet 0 k.scrUpset w 0 else k.scrUpset }) k1

/-- A write to scratch of bytes that carry their own poison marks (R104, R187). -/
def scrWriteMarked (a : Nat) (bs : List Nat) (bad : List Bool) (k : Core) : Core :=
  let k1 := scrWrite a bs false k
  (List.range bs.length).foldl (fun k i =>
    if bad.getD i false then { k with scrPoison := mapSet false k.scrPoison ((a + i) / 8) true } else k) k1

/-- The check of a core in the reduction-node role (R75, R163): whether the bytes that enter its scratch at `a` hold an
FP32 element that is not finite or is poisoned (log 81). -/
def entered (a : Nat) (bs : List Nat) (bad : List Bool) (k : Core) : Core :=
  let hit (i : Nat) : Bool :=
    let o := (a + 3) / 4 * 4 - a + 4 * i
    decide (o + 4 ≤ bs.length) &&
      (nonFinite .fp32 (ofBytes ((bs.drop o).take 4)) || ((bad.drop o).take 4).any id)
  if (k.cur.bind (mapFind k.res)).map (fun g => g.role) = some 2 ∧ (List.range (bs.length / 4)).any hit then
    { k with nonfin := true }
  else k

/-- Whether the `n` bytes from `a` hold a word marked poisoned. -/
def scrPoisoned (k : Core) (a n : Nat) : Bool := (wordsOf a n).any (fun w => mapGet false k.scrPoison w)

/-- Whether the `n` bytes from `a` lie in scratch (R88). -/
def scrInRange (a : Int) (n : Nat) : Bool := decide (0 ≤ a ∧ a + n ≤ 0x40000)

/-! ### The quay window, host memory, and a byte of any region -/

/-- A byte of a device address as a transfer engine or the host reads it, with its poison mark. -/
def devByte (s : State) (a : Nat) : Nat × Bool :=
  match regionOf a with
  | (.dram, o) => ((dramRead s o 1).headD 0, dramPoisoned s o 1)
  | (.quay, o) => ((mapGet 0#8 s.quay o).toNat, mapGet false s.quayBad (o / 4096))
  | (.scratch, o) =>
    let k := coreOf s (o / 0x40000)
    ((scrCell k (o % 0x40000)).toNat, scrPoisoned k (o % 0x40000) 1)
  | (.host, o) => ((mapGet 0#8 s.host o).toNat, mapGet false s.hostPoison o)
  | _ => (0, false)

/-- Bytes written to host memory at a host-window offset. -/
def hostPut (o : Nat) : List Nat → State → State
  | [], s => s
  | b :: bs, s => hostPut (o + 1) bs { s with host := mapSet 0#8 s.host o (BitVec.ofNat 8 b),
                                              hostPoison := mapSet false s.hostPoison o false }

/-- Bytes written to host memory with their poison marks (R187). -/
def hostPutMarked (o : Nat) : List (Nat × Bool) → State → State
  | [], s => s
  | b :: bs, s => hostPutMarked (o + 1) bs { s with host := mapSet 0#8 s.host o (BitVec.ofNat 8 b.1),
                                                    hostPoison := mapSet false s.hostPoison o b.2 }

/-- Bytes written from a device address on, in the region of its first byte, as a transfer engine writes a leg. -/
def devWrite (a : Nat) (bs : List Nat) (poison : Bool) (s : State) : State :=
  match regionOf a with
  | (.dram, o) => dramWrite o bs poison s
  | (.scratch, o) => modCore (o / 0x40000) (fun k =>
      entered (o % 0x40000) bs (bs.map (fun _ => poison)) (scrWrite (o % 0x40000) bs poison k)) s
  | (.host, o) => hostPutMarked o (bs.map (fun b => (b, poison))) s
  | _ => s

end Sys2Proof.Machine
end

