-- ==== Sys2Proof/Machine/Flags.lean ====
section
/-!
DEFINITION. Error flags and host events: recording an error in ERR_STAT and ERR_FIRST (R61, R62, R400), the error
codes (R402), and the event ring with its MSI-X messages (R403, R507).
-/

namespace Sys2Proof.Machine

/-- The first code of each page class's row of R402, for the classes whose names run by ERR_STAT bit from it. -/
def codeBase : Cls → Nat
  | .core => 0x0101
  | c => clsCode c * 256 + 1

/-- The error code of an ERR_STAT bit of a class (R402). Names that several pages share carry the code of the row
that lists the name; ADDR_UNMAPPED and REG_ACCESS share bit 12 of a CORE page (R113). -/
def errCode (c : Cls) (bit : Nat) : Nat :=
  match c, bit with
  | .core, 12 => 0x0002
  | .core, 13 => 0x010D
  | .core, 14 => 0x010E
  | .core, 15 => 0x010F
  | .core, b => if 16 ≤ b then 0x0201 + (b - 16) else 0x0101 + b
  | .barge, 0 => 0x0601
  | .barge, 1 => 0x0002
  | .barge, 2 => 0x0602
  | .barge, 3 => 0x0003
  | .barge, 4 => 0x0603
  | .barge, 5 => 0x0604
  | .barge, 6 => 0x0605
  | .memc, 3 => 0x0002
  | .memc, 4 => 0x0704
  | .memc, 5 => 0x0705
  | .memc, 6 => 0x0706
  | .memc, b => 0x0701 + b
  | .quay, 2 => 0x0003
  | .quay, 3 => 0x0903
  | .quay, 4 => 0x0904
  | .quay, b => 0x0901 + b
  | .link, 9 => 0x0A0A
  | .link, 10 => 0x0A0B
  | .sched, 3 => 0x0E01
  | .ctx, 7 => 0x0A09
  | .ctx, 8 => 0x0603
  | .ctx, 9 => 0x0605
  | .ctx, 10 => 0x0804
  | .ctx, 11 => 0x0002
  | c, b => codeBase c + b

/-- The codes of R402 that a refused access ends with. -/
def codeRegAccess : Nat := 0x0001
def codeUnmapped : Nat := 0x0002
def codeQuayRo : Nat := 0x0003

/-- The host event codes of R403 that the model raises. -/
def evError : Nat := 0x8001
def evTeardownDone : Nat := 0x8002
def evScrubDone : Nat := 0x8003
def evSwapOut : Nat := 0x8004
def evSwapIn : Nat := 0x8005
def evMigrateOutDone : Nat := 0x8006
def evMigrateInDone : Nat := 0x8007
def evGateSwitched : Nat := 0x8008
def evChamberFree : Nat := 0x8009
def evWlSwapped : Nat := 0x800A
def evWlUnbound : Nat := 0x800B
def evBnoiseAdvise : Nat := 0x800C
def evBSteered : Nat := 0x800D
def evLossScaleFloor : Nat := 0x800E
def evSkipRun : Nat := 0x800F
def evWardenChange : Nat := 0x8010
def evJobRecovered : Nat := 0x8011
def evCkptDone : Nat := 0x8012
def evCkptRollback : Nat := 0x8013
def evCaptureDone : Nat := 0x8014
def evSafeMode : Nat := 0x8015
def evVersionDropped : Nat := 0x8016

/-- The records of the event ring: 2^EVQ_LOG2N, outside 6 to 16 as the nearer limit (R509). -/
def evqSize (s : State) : Nat := 2 ^ clampNat 6 16 (rd s pgHlink R.HLINK_EVQ_LOG2N)

/-- Word 0 of an event record (R507). -/
def eventWord0 (code : Nat) (p : Page) (ctx : Option Nat) : Nat :=
  code % 2 ^ 16 + clsCode p.cls * 2 ^ 16 + p.inst % 2 ^ 24 * 2 ^ 24 +
    (match ctx with | some n => n % 64 * 2 ^ 48 + 2 ^ 54 | none => 0)

/-- The MSI-X message for a record (R507): sent at once unless masked or a hold-off runs, at most one each 2 µs. -/
def signalMsi (s : State) : State :=
  if rd s pgHlink R.HLINK_MSI_VEC_MASK = 1 then s
  else if s.msiHold then { s with msiDue := true }
  else { s with msiHold := true, msiSent := s.msiSent ++ [rd s pgHlink R.HLINK_MSI_VEC_VECTOR] }

/-- A record that the event ring takes (R507): the two words in host memory, then EVQ_HEAD, then the message. -/
def deliverEvent (w0 arg : Nat) (s : State) : State :=
  let h := rd s pgHlink R.HLINK_EVQ_HEAD
  let o := (rd s pgHlink R.HLINK_EVQ_BASE + h % evqSize s * 16) % 2 ^ 40
  let s1 := hostPut o (bytesOf 8 w0 ++ bytesOf 8 (arg % 2 ^ 64)) s
  signalMsi (wr pgHlink R.HLINK_EVQ_HEAD (h + 1) s1)

/-- Whether the event ring is full (R507). -/
def evqFull (s : State) : Bool :=
  decide ((rd s pgHlink R.HLINK_EVQ_HEAD + 2 ^ 64 - rd s pgHlink R.HLINK_EVQ_TAIL) % 2 ^ 64 = evqSize s)

/-- The ERR_STAT, ERR_FIRST and MULTI effects of one error (R61, R62, R400): its bit is set; where unmasked, it loads
an empty ERR_FIRST, or sets MULTI over a held one. -/
def setErr (p : Page) (bit code : Nat) (s : State) : State :=
  let h := headPage p
  let s1 := wr h R.HEADER_ERR_STAT_ERR (rd s h R.HEADER_ERR_STAT_ERR ||| 2 ^ bit) s
  if bitSet (rd s h R.HEADER_ERR_MASK_MASK) bit then s1
  else if rd s h R.HEADER_ERR_FIRST_VALID = 1 then wr h R.HEADER_ERR_STAT_MULTI 1 s1
  else wr h R.HEADER_ERR_FIRST_VALID 1 (wr h R.HEADER_ERR_FIRST_BIT bit (wr h R.HEADER_ERR_FIRST_CODE code s1))

/-- A host event (R403, R507): counted as lost while EVQ_EN is 0; dropped, counted and EVQ_OVERFLOW raised on a full
ring, whose own ERROR event is dropped and counted likewise; else delivered. -/
def hostEvent (code : Nat) (p : Page) (ctx : Option Nat) (arg : Nat) (s : State) : State :=
  if rd s pgHlink R.HLINK_CTRL_EVQ_EN = 0 then bumpSat pgHlink R.HLINK_EVQ_LOST 1 s
  else if evqFull s then
    let masked := bitSet (rd s pgHlink R.HEADER_ERR_MASK_MASK) 2
    bumpSat pgHlink R.HLINK_EVQ_LOST (if masked then 1 else 2) (setErr pgHlink 2 (errCode .hlink 2) s)
  else deliverEvent (eventWord0 code p ctx) arg s

/-- An error recorded on its page, with the ERROR host event where unmasked (R400). -/
def recordCode (p : Page) (bit code : Nat) (ctx : Option Nat) (s : State) : State :=
  let s1 := setErr p bit code s
  if bitSet (rd s (headPage p) R.HEADER_ERR_MASK_MASK) bit then s1 else hostEvent evError (headPage p) ctx code s1

/-- An error recorded under its code of R402. -/
def recordErr (p : Page) (bit : Nat) (ctx : Option Nat) (s : State) : State :=
  recordCode p bit (errCode (headPage p).cls bit) ctx s

/-- Whether ERR_INJ arms the next check of kind `bit` on a page (R61), where debug permits injection (R63). -/
def injArmed (s : State) (p : Page) (bit : Nat) : Bool :=
  rd s (headPage p) R.HEADER_ERR_INJ_ARM == 1 && rd s (headPage p) R.HEADER_ERR_INJ_BIT == bit && debugOpen s

/-- One check of kind `bit` on a page: its own finding, or the injected one, which disarms the injection (R61, R63). -/
def checkFor (p : Page) (bit : Nat) (found : Bool) (s : State) : Bool × State :=
  if injArmed s p bit then (true, wr (headPage p) R.HEADER_ERR_INJ_ARM 0 s) else (found, s)

/-- One check of kind `bit` on a page, with what follows where it reports the error and where it does not. -/
def checked (p : Page) (bit : Nat) (found : Bool) (bad ok : State → State) (s : State) : State :=
  let r := checkFor p bit found s
  if r.1 then bad r.2 else ok r.2

/-- An access to a device-DRAM address without backing: MEMC instance 0 records it (R50, R211). -/
def noteUnmapped (ctx : Option Nat) (s : State) : State := recordErr (pgMemc 0) 3 ctx s

end Sys2Proof.Machine
end

