-- ==== Sys2Proof/Machine/Net.lean ====
section
/-!
DEFINITION. Sending: the link engines' queues, replay buffers and credits (R276, R287, R288), the routes of trains
(R272, R273, R292 to R295), and trains that this module issues.
-/

namespace Sys2Proof.Machine

/-! ### Links -/

/-- A link engine's state. -/
def linkOf (s : State) (k : Nat) : LinkSt := mapGet .zero s.links k

/-- Replace a link engine's state. -/
def setLink (k : Nat) (l : LinkSt) (s : State) : State := { s with links := mapSet .zero s.links k l }

/-- Change a link engine's state. -/
def modLink (k : Nat) (f : LinkSt → LinkSt) (s : State) : State := setLink k (f (linkOf s k)) s

/-- A link's STATUS.STATE (R308). -/
def linkState (s : State) (k : Nat) : Nat := rd s (pgLink k) R.LINK_STATUS_STATE

/-- Whether a link is UP. -/
def linkUp (s : State) (k : Nat) : Bool := linkState s k == 4

/-- Whether a link carries EMB frames: FENCED or UP (R279). -/
def linkEmb (s : State) (k : Nat) : Bool := linkState s k == 4 || linkState s k == 3

/-- This module's id (R272). -/
def myId (s : State) : Nat := rd s pgEmb R.EMB_MODULE_ID

/-- The fields of a module id (R272). -/
def idC (m : Nat) : Nat := bitsOf m 0 4
def idX (m : Nat) : Nat := bitsOf m 4 3
def idY (m : Nat) : Nat := bitsOf m 7 3
def idZ (m : Nat) : Nat := bitsOf m 10 4
def idPod (m : Nat) : Nat := bitsOf m 14 2

/-- The module id of its fields. -/
def idOf (pod z y x c : Nat) : Nat := pod % 4 * 2 ^ 14 + z % 16 * 2 ^ 10 + y % 8 * 2 ^ 7 + x % 8 * 16 + c % 16

/-- The partner that the table of R273 gives for a link of module `m` in its role; none for L31. -/
def linkPartner (m k : Nat) : Option (Nat × Nat) :=
  let c := idC m
  let x := idX m
  let y := idY m
  let z := idZ m
  let p := idPod m
  if k ≤ 14 then some (idOf p z y x (c + k + 1), 14 - k)
  else match k with
    | 15 => some (idOf p z y (x + 1) c, 17)
    | 16 => some (idOf p z y (x + 1) (c ^^^ 8), 18)
    | 17 => some (idOf p z y (x + 7) c, 15)
    | 18 => some (idOf p z y (x + 7) (c ^^^ 8), 16)
    | 19 => some (idOf p z (y + 1) x c, 21)
    | 20 => some (idOf p z (y + 1) x (c ^^^ 8), 22)
    | 21 => some (idOf p z (y + 7) x c, 19)
    | 22 => some (idOf p z (y + 7) x (c ^^^ 8), 20)
    | 23 => some (idOf p (z + 1) y x c, 25)
    | 24 => some (idOf p (z + 1) y x (c ^^^ 8), 26)
    | 25 => some (idOf p (z + 15) y x c, 23)
    | 26 => some (idOf p (z + 15) y x (c ^^^ 8), 24)
    | 27 => some (idOf p (if c % 2 = 0 then z + 2 else z + 14) y x (c ^^^ 1), 27)
    | 28 => some (idOf (p + 1) z y x c, 30)
    | 29 => some (idOf (p + 2) z y x c, 29)
    | 30 => some (idOf (p + 3) z y x c, 28)
    | _ => none

/-- Whether a link's buffers are split into dateline classes (R287): the torus links and the bypass. -/
def classed (k : Nat) : Bool := decide (15 ≤ k ∧ k ≤ 27)

/-! ### Routes -/

/-- The way round a ring of `n` from `a` to `b` (R292): none where they are equal, else whether it is the + way, taken
on a tie. -/
def ringWay (n a b : Nat) : Option Bool :=
  let d := (b + n - a % n) % n
  if d = 0 then none else some (decide (2 * d ≤ n))

/-- Link A of the first hop from module `me` to module `dst` (R292). -/
def firstHop (me dst : Nat) : Nat :=
  if idPod me ≠ idPod dst then 28 + (idPod dst + 4 - idPod me - 1) % 4
  else match ringWay 8 (idX me) (idX dst) with
    | some true => 15
    | some false => 17
    | none => match ringWay 8 (idY me) (idY dst) with
      | some true => 19
      | some false => 21
      | none => match ringWay 16 (idZ me) (idZ dst) with
        | some true => 23
        | some false => 25
        | none => (idC dst + 16 - idC me - 1) % 16

/-- Whether a link is a torus link. -/
def isTorus (k : Nat) : Bool := decide (15 ≤ k ∧ k ≤ 26)

/-- Whether a train follows a pinned path (R295): REDUCE trains, verdicts, multicast gather data and the TALLY_ADD that
follows it (R289). -/
def pinnedTrain (s : State) (t : Train) : Bool :=
  t.type == 6 || (t.type == 0 && (t.op == 12 || t.op == 13 || (t.op == 5 && bitSet t.arg 56))) ||
    (t.type == 1 && t.vc == 3 && s.mcastVia.contains (t.src * 65536 + t.dst))

/-- Whether gather data from a source to a destination is multicast, noted for the TALLY_ADD that follows it. -/
def noteMcast (t : Train) (s : State) : State :=
  if t.type = 0 ∧ t.op = 5 then
    let k := t.src * 65536 + t.dst
    { s with mcastVia := (if bitSet t.arg 56 then [k] else []) ++ s.mcastVia.filter (· != k) }
  else s

/-- Whether R294's fallback applies to a train: VC0 to VC3, VC6, and EMB frames (R415). -/
def mayDivert (t : Train) : Bool := decide (t.vc ≤ 3) || t.vc == 6 || t.type == 4

/-- Whether a link can carry a train now (R279). -/
def carries (s : State) (t : Train) (k : Nat) : Bool := if t.type = 4 then linkEmb s k else linkUp s k

/-- The diversion from a hop whose next module is fenced (R294): L27 where the hop is in Z and L27 heads that way, else
the cell hop to c ⊕ 1. -/
def diversion (me k : Nat) : Nat :=
  if (k = 23 ∨ k = 24) ∧ idC me % 2 = 0 ∨ (k = 25 ∨ k = 26) ∧ idC me % 2 = 1 then 27
  else if idC me % 2 = 0 then 0 else 14

/-- Whether the module at the other end of a link is fenced by the embankment protocol (R294, R414): the link is FENCED, or
the module is declared lost. -/
def fencedNext (s : State) (k : Nat) : Bool :=
  linkState s k == 3 || (match linkPartner (myId s) k with | some m => s.emb.lost.contains m.1 | none => false)

/-- The link on which a train leaves this module: the route of R292, link B at the source of a train on the ⊕8 plane,
at an intermediate module the diversion of R294 where the next module is fenced; none where no way carries it. A pinned
path has no fallback. -/
def routeLink (s : State) (src : Bool) (t : Train) : Option Nat :=
  let a := firstHop (myId s) t.dst
  let k := if src && t.alt && isTorus a then a + 1 else a
  if pinnedTrain s t then (if carries s t a then some a else none)
  else if carries s t k then some k
  else
    let d := diversion (myId s) k
    if !src && mayDivert t && fencedNext s k && carries s t d then some d else none

/-- The dateline class in which a frame travels on the hop over a link (R287): 1 once its way in the hop's dimension
has crossed the dateline. -/
def hopClass (me src k : Nat) : Nat :=
  let n := (linkPartner me k).getD (0, 0)
  let past (plus : Bool) (a b : Nat) : Nat := if plus then b2n (decide (b < a)) else b2n (decide (a < b))
  if k = 15 ∨ k = 16 then past true (idX src) (idX n.1)
  else if k = 17 ∨ k = 18 then past false (idX src) (idX n.1)
  else if k = 19 ∨ k = 20 then past true (idY src) (idY n.1)
  else if k = 21 ∨ k = 22 then past false (idY src) (idY n.1)
  else if k = 23 ∨ k = 24 then past true (idZ src) (idZ n.1)
  else if k = 25 ∨ k = 26 then past false (idZ src) (idZ n.1)
  else if k = 27 then past (idC me % 2 == 0) (idZ src) (idZ n.1)
  else 0

/-- The dateline class in which a frame from `src` arrived at module `me` on link `k` (R287). -/
def cameClass (me src k : Nat) : Nat :=
  match linkPartner me k with
  | some (m, k') => if classed k then hopClass m src k' else 0
  | none => 0

/-! ### Credits -/

/-- The receive buffers of a VC that the partner has announced (R280). -/
def credTotal (s : State) (k vc : Nat) : Nat :=
  bitsOf (rd s (pgLink k) R.LINK_PARTNER_CRED) (8 * vc) 8 *
    (if bitSet (rd s (pgLink k) R.LINK_PARTNER_CAPS) 12 then 2 else 1)

/-- Frames of a VC outstanding on a link. -/
def credUsed (l : LinkSt) (vc : Nat) : Nat := mapGet 0 l.out0 vc + mapGet 0 l.out1 vc

/-- Credits of a VC held (R288). -/
def credFree (s : State) (k vc : Nat) : Nat := credTotal s k vc - credUsed (linkOf s k) vc

/-- Whether a frame of a VC and class may be sent (R287, R288). -/
def mayCredit (s : State) (k vc cls : Nat) : Bool :=
  let l := linkOf s k
  let a := mapGet 0 l.out0 vc
  let b := mapGet 0 l.out1 vc
  decide (a + b < credTotal s k vc) &&
    (!classed k || decide ((if cls = 0 then a else b) < 32) || decide ((a - 32) + (b - 32) < 192))

/-- Whether frames of a TYPE are replayed and credited (R283). -/
def creditedType (ty : Nat) : Bool := ty != 2 && ty != 3 && ty != 5

/-- The VC of a frame: EMB frames are on VC7 (R283). -/
def frameVc (h : Train) : Nat := if h.type = 4 then 7 else h.vc % 8

/-- The known context whose tag a train carries: its job on this module (R204). -/
def ctxOfJob (s : State) (job : Nat) : Option Nat := (s.ctxs.find? (fun e => e.2.job == job)).map (fun e => e.1)

/-- Frame body bytes counted for the context whose tag they carry (R362). -/
def countLink (tx : Bool) (ty job n : Nat) (s : State) : State :=
  if ty = 4 then s
  else match ctxOfJob s job with
    | some c => bump (pgCtx c) (if tx then R.CTX_LINK_TX_BYTES else R.CTX_LINK_RX_BYTES) n s
    | none => s

/-- The frames of a train that arrived on a link (32: it came from this module itself) freed (R288). -/
def freeTrain (k : Nat) (t : Train) (s : State) : State :=
  if 32 ≤ k then s
  else
    let vc := frameVc t
    let n := max 1 t.bodies.length
    modLink k (fun l =>
      if cameClass (myId s) t.src k = 0 then { l with free0 := mapSet 0 l.free0 vc (mapGet 0 l.free0 vc + n), unsent := l.unsent + n }
      else { l with free1 := mapSet 0 l.free1 vc (mapGet 0 l.free1 vc + n), unsent := l.unsent + n }) s

/-- A train held at the credits: the frames that its arrival had freed are taken back (R228). -/
def holdTrain (k : Nat) (t : Train) (s : State) : State :=
  if 32 ≤ k then s
  else
    let vc := frameVc t
    let n := max 1 t.bodies.length
    modLink k (fun l =>
      if cameClass (myId s) t.src k = 0 then { l with free0 := mapSet 0 l.free0 vc (mapGet 0 l.free0 vc - n), unsent := l.unsent - n }
      else { l with free1 := mapSet 0 l.free1 vc (mapGet 0 l.free1 vc - n), unsent := l.unsent - n }) s

/-- The buffer of one through frame, which came on link `k` (32: none), freed when the frame goes out (R287, R288). -/
def freeFrame (k : Nat) (h : Train) (s : State) : State :=
  if 32 ≤ k then s
  else
    let vc := frameVc h
    modLink k (fun l =>
      if cameClass (myId s) h.src k = 0 then { l with free0 := mapSet 0 l.free0 vc (mapGet 0 l.free0 vc + 1), unsent := l.unsent + 1 }
      else { l with free1 := mapSet 0 l.free1 vc (mapGet 0 l.free1 vc + 1), unsent := l.unsent + 1 }) s

/-! ### Dies that traffic crosses (R23, R53) -/

/-- The die that a stack, and the die that a link or the host link engine, attaches to (R19 to R21). -/
def dieOfStack (k : Nat) : Nat := k / 2
def dieOfLink (k : Nat) : Nat := k / 8 % 4

/-- `n` bytes from die `a` to die `b` in dimension order, X first and then Y, counted on the bridges they cross (R23,
R53; log 77). -/
def bridgeBytes (a b n : Nat) (s : State) : State :=
  let s1 := if a % 2 = b % 2 then s else bump (pgCanal a) R.CANAL_BRIDGE_H_BYTES n s
  if a / 2 = b / 2 then s1 else bump (pgCanal (a / 2 * 2 + b % 2)) R.CANAL_BRIDGE_V_BYTES n s1

/-! ### Sending -/

/-- One waiting frame goes out on a link: numbered, kept for replay, its credit taken, counted (R276, R288, R308); the
buffer that a through frame kept is freed. -/
def emitFrame (k : Nat) (f : Frame) (s : State) : State :=
  let l := linkOf s k
  let vc := frameVc f.hdr
  let l' := { l with
    replay := l.replay ++ [(l.txSeq, f)],
    txSeq := (l.txSeq + 1) % 4096,
    out0 := if f.cls = 0 then mapSet 0 l.out0 vc (mapGet 0 l.out0 vc + 1) else l.out0,
    out1 := if f.cls = 0 then l.out1 else mapSet 0 l.out1 vc (mapGet 0 l.out1 vc + 1) }
  let s1 := bump (pgLink k) R.LINK_TX_FRAMES 1 (bump (pgLink k) R.LINK_TX_BYTES f.body.len (setLink k l' s))
  let own : Bool := f.hdr.src == myId s
  let s2 := if own then countLink true f.hdr.type f.hdr.job f.body.len s1 else s1
  let s3 := if own then s2 else bump (pgLink k) R.LINK_THROUGH_FRAMES 1 (countE (pgLink k) 0x84 0 1 none s2)
  let s4 := if f.hdr.type = 4 then countE (pgPerf 4) 0xF5 0 1 none s3 else s3
  freeFrame f.came f.hdr (countE (pgLink k) 0x80 0 1 (ctxOfJob s f.hdr.job) s4)

/-- The waiting frames of a link taken in turn: a frame goes out where the link carries it, its VC has a credit for it
and the replay buffer of 512 has room; a frame left waiting holds back the later ones of its VC (R276, R288, R289). -/
def pumpFrames (k : Nat) : List Frame → List Nat → State → State
  | [], _, s => s
  | f :: fs, stuck, s =>
    let vc := frameVc f.hdr
    if !stuck.contains vc && carries s f.hdr k && mayCredit s k vc f.cls && decide ((linkOf s k).replay.length < 512) then
      pumpFrames k fs stuck (emitFrame k f s)
    else pumpFrames k fs (vc :: stuck) (modLink k (fun l => { l with txq := l.txq ++ [f] }) s)

/-- A link sends what it can. -/
def pump (k : Nat) (s : State) : State :=
  let q := (linkOf s k).txq
  pumpFrames k q [] (modLink k (fun l => { l with txq := [] }) s)

/-- The four 64-bit words of a frame's full header (R283): `poison`, `last`, its SEQ and the length of its body stand
beside the train's fields. -/
def fullHeader (t : Train) (poison last : Bool) (seq len : Nat) : List Nat :=
  [t.type % 8 + t.op % 32 * 2 ^ 3 + t.vc % 8 * 2 ^ 8 + b2n poison * 2 ^ 11 + b2n last * 2 ^ 12 + b2n t.stepValid * 2 ^ 13 +
     b2n t.alt * 2 ^ 14 + seq % 2 ^ 12 * 2 ^ 16 + t.dst % 2 ^ 16 * 2 ^ 32 + t.src % 2 ^ 16 * 2 ^ 48,
   t.polder % 2 ^ 8 + t.gen % 2 ^ 16 * 2 ^ 8 + t.step % 2 ^ 32 * 2 ^ 24 + len % 2 ^ 8 * 2 ^ 56,
   t.addr % 2 ^ 48 + t.job % 2 ^ 16 * 2 ^ 48, t.arg % 2 ^ 64]

/-- The header fields that the words of a full header spell (R283), as a train without bodies. -/
def headerTrain (ws : List Nat) : Train :=
  let w0 := ws.getD 0 0
  let w1 := ws.getD 1 0
  let w2 := ws.getD 2 0
  { type := bitsOf w0 0 3, op := bitsOf w0 3 5, vc := bitsOf w0 8 3, stepValid := bitSet w0 13, alt := bitSet w0 14,
    seq := bitsOf w0 16 12, dst := bitsOf w0 32 16, src := bitsOf w0 48 16, polder := bitsOf w1 0 8, gen := bitsOf w1 8 16,
    step := bitsOf w1 24 32, addr := bitsOf w2 0 48, job := bitsOf w2 48 16, arg := ws.getD 3 0, bodies := [], gaps := [],
    closed := bitSet w0 12 }

/-- The word of a CONT frame's header (R284). -/
def contHeader (vc : Nat) (poison last : Bool) (seq len : Nat) : Nat :=
  7 + vc % 8 * 2 ^ 3 + b2n poison * 2 ^ 6 + b2n last * 2 ^ 7 + seq % 2 ^ 12 * 2 ^ 8 + len % 2 ^ 8 * 2 ^ 20

/-- The headers that a train's frames carry: the full one, then a CONT header for each other frame (R283, R284). -/
def trainHeaders (t : Train) : List (List Nat) :=
  let bs := if t.bodies.isEmpty then [⟨0, [], false⟩] else t.bodies
  bs.zipIdx.map (fun p =>
    let last := t.closed && decide (p.2 + 1 = bs.length)
    let seq := (t.seq + p.2 + (t.gaps.take (p.2 + 1)).foldl (· + ·) 0) % 4096
    if p.2 = 0 then fullHeader t p.1.poison last seq p.1.len else [contHeader t.vc p.1.poison last seq p.1.len])

/-- The frames of a train (R284): the first carries the full header; those of a through train keep their buffers on link
`came`. -/
def framesOfTrain (t : Train) (cls came : Nat) : List Frame :=
  let bs := if t.bodies.isEmpty then [⟨0, [], false⟩] else t.bodies
  bs.zipIdx.map (fun p => ⟨{ t with bodies := [], gaps := [] }, p.2, p.1, decide (p.2 + 1 = bs.length), cls, came⟩)

/-- Whether a link is resolved to version 1 (R282). -/
def linkV1 (s : State) (k : Nat) : Bool := rd s (pgLink k) R.LINK_STATUS_VERSION == 1

/-- Bytes with poison marks cut into version-1 payloads of 224 bytes; `n` bounds the frames (R282). -/
def v1Bodies : Nat → List (Nat × Bool) → List FrameBody
  | 0, _ => []
  | n + 1, bs =>
    if bs.isEmpty then [] else
      let h := bs.take 224
      ⟨h.length, h.map (fun b => BitVec.ofNat 8 b.1), h.any (fun b => b.2)⟩ :: v1Bodies n (bs.drop 224)

/-- The 16-byte tag extension of a version-1 frame (R282): words 1 and 3 of the full header, so POLDER, GEN, STEP and
ARG, with the frame's place in its train in bits [61:56] of the first and the mark of the last in bit 62. JOB stays in the
16-byte header. DESIGN CHOICE (log 85): the spec gives no layout, and 16 bytes do not hold all that it names. -/
def tagExt (t : Train) (i : Nat) (last : Bool) : List Byte :=
  (bytesOf 8 (t.polder % 2 ^ 8 + t.gen % 2 ^ 16 * 2 ^ 8 + t.step % 2 ^ 32 * 2 ^ 24 + i % 2 ^ 6 * 2 ^ 56 + b2n last * 2 ^ 62) ++
    bytesOf 8 (t.arg % 2 ^ 64)).map (BitVec.ofNat 8 ·)

/-- The frames of a train as a version-1 link carries it (R282): no trains, so each frame has the header, the tag
extension, its data's own address, and at most 224 bytes of payload; TALLY_ADD and REDUCE travel as ENCAP with the carried
TYPE. EMB frames are of version 1 liveness only and are not changed here. -/
def framesV1 (t : Train) (cls came : Nat) : List Frame :=
  let all : List (Nat × Bool) := t.bodies.flatMap (fun b => b.bytes.map (fun x => (x.toNat, b.poison)))
  let cut := v1Bodies (all.length / 224 + 1) all
  let bs : List FrameBody := if cut.isEmpty then [⟨0, [], false⟩] else cut
  bs.zipIdx.map (fun p =>
    let last := decide (p.2 + 1 = bs.length)
    let from_ := if p.2 < max 1 t.bodies.length then came else 32
    if t.type = 4 then ⟨{ t with bodies := [], gaps := [] }, 0, p.1, true, cls, from_⟩
    else
      let body : FrameBody := { p.1 with len := p.1.len + 16, bytes := tagExt t p.2 last ++ p.1.bytes }
      if t.type = 1 ∨ t.type = 6 then
        ⟨{ t with type := 0, op := 14, arg := t.type, bodies := [], gaps := [] }, 0, body, true, cls, from_⟩
      else ⟨{ t with addr := t.addr + 224 * p.2, bodies := [], gaps := [] }, 0, body, true, cls, from_⟩)

/-- A train that came on link `came` (32: this module's own) put on a link; one that passes through crosses the dies from
link to link (R293). -/
def putOnLink (came k : Nat) (t : Train) (s : State) : State :=
  let cls := hopClass (myId s) t.src k
  let fs := if linkV1 s k then framesV1 t cls came else framesOfTrain t cls came
  let n := t.bodies.foldl (fun a b => a + b.bytes.length) 0
  let s1 := if 32 ≤ came then s else bridgeBytes (dieOfLink came) (dieOfLink k) n s
  pump k (modLink k (fun l => { l with txq := l.txq ++ fs }) s1)

/-- A train on its way from this module, come on link `came` (32: its own) (R292 to R295): to itself, onto a link, held at
the credits, or lost. A pinned train waits for its path; so does a through train, whose source the model cannot tell of the
loss (log 86). -/
def forwardTrain (came : Nat) (t : Train) (s0 : State) : State :=
  let s := noteMcast t s0
  if t.dst = myId s then { s with inbox := s.inbox ++ [t] }
  else match routeLink s (decide (32 ≤ came)) t with
    | some k => putOnLink came k t s
    | none => if pinnedTrain s t || decide (came < 32) then { s with pinHeld := s.pinHeld ++ [(came, t)] }
        else { s with lostQ := s.lostQ ++ [t] }

/-- The plane that the source chooses for a transfer (R294): ALT = 1 where link B of a torus first hop holds more free
credits of the VC than link A. -/
def chooseAlt (s : State) (t : Train) : Bool :=
  let a := firstHop (myId s) t.dst
  (decide (t.vc ≤ 3) || t.vc == 6) && !pinnedTrain s t && isTorus a && decide (t.dst ≠ myId s) && t.type != 4 &&
    linkUp s (a + 1) && decide (credFree s a t.vc < credFree s (a + 1) t.vc)

/-- The trains of one transfer on a plane that is chosen already (R289, R294). -/
def sendOn (alt : Bool) (ts : List Train) (s : State) : State := ts.foldl (fun u x => forwardTrain 32 { x with alt := alt } u) s

/-- The plane of a transfer: that of its first train. -/
def seriesAlt (s : State) (ts : List Train) : Bool := match ts with | t :: _ => chooseAlt s t | [] => false

/-- The trains of one transfer, which follow one path (R289, R294). -/
def sendSeries (ts : List Train) (s : State) : State := sendOn (seriesAlt s ts) ts s

/-- A train issued by this module. -/
def sendTrain (t : Train) (s : State) : State := sendSeries [t] s

/-- The trains that wait for a link are tried again (R293, R295). -/
def retryPinned (s : State) : State := s.pinHeld.foldl (fun u t => forwardTrain t.1 t.2 u) { s with pinHeld := [] }

/-- Whether a point-to-point barge can reach a module: not across a pod link (R272, R292). -/
def routeOk (s : State) (dst : Nat) : Bool := idPod dst == idPod (myId s)

/-! ### Links that go down -/

/-- The frames of a queue gathered into trains, each with the link it came on: a frame of index 0 begins one; frames whose
first frame is gone stay apart. -/
def regroup (fs : List Frame) : List (Nat × Train) :=
  fs.foldl (fun ts f =>
    match ts.getLast? with
    | some t => if f.idx ≠ 0 ∧ { t.2 with bodies := [] } = f.hdr then
          ts.dropLast ++ [(t.1, { t.2 with bodies := t.2.bodies ++ [f.body] })]
        else ts ++ [(f.came, { f.hdr with bodies := [f.body] })]
    | none => [(f.came, { f.hdr with bodies := [f.body] })]) []

/-- The frames that wait for a link taken from it: trains of this module end with PEER_LOST, all of them on a link that is
fenced (R279), those of no pinned path on one that goes DOWN (R277, R295); through trains wait for another way (R293). -/
def spillLink (k : Nat) (down : Bool) (s : State) : State :=
  let l := linkOf s k
  let gone := if down then (regroup (l.replay.map (fun e => e.2))).map (fun e => e.2) else []
  let stay (f : Frame) : Bool := !down && f.hdr.type == 4
  let wait := regroup (l.txq.filter (fun f => !stay f))
  let ends (e : Nat × Train) : Bool := decide (32 ≤ e.1) && (!down || !pinnedTrain s e.2)
  let s1 := setLink k { l with txq := l.txq.filter stay, replay := if down then [] else l.replay } s
  { s1 with lostQ := s1.lostQ ++ gone ++ (wait.filter ends).map (fun e => e.2),
            pinHeld := s1.pinHeld ++ wait.filter (fun e => !ends e) }

/-- A link goes DOWN: its traffic spilled, its state cleared; it stays so until it trains again (R277, R278). -/
def dropLink (k : Nat) (s : State) : State :=
  let s1 := setLink k LinkSt.zero (spillLink k true s)
  [R.LINK_STATUS_STATE, R.LINK_STATUS_RATE_224, R.LINK_STATUS_VERSION, R.LINK_STATUS_FEC_528, R.LINK_STATUS_SPREAD_ON,
    R.LINK_STATUS_ORDERED, R.LINK_STATUS_TALLY_OPS, R.LINK_STATUS_EMB_V2, R.LINK_STATUS_RETRYING].foldl
    (fun t f => wr (pgLink k) f 0 t) s1

/-! ### EMB messages (R415) -/

/-- The train that an EMB message travels as: word 0 of the body EPOCH, SUBJECT, AUX; word 1 ARG; then `extra`. -/
def embTrain (e : EmbMsg) : Train :=
  { type := 4, op := e.op, vc := 7, stepValid := true, alt := false, seq := 0, dst := e.dst, src := e.src, polder := 0,
    gen := 0, step := e.step, addr := 0, job := e.job, arg := 0, gaps := [], closed := true,
    bodies :=
      let bs := (e.epoch % 2 ^ 32 + e.subject % 2 ^ 16 * 2 ^ 32 + e.aux % 2 ^ 16 * 2 ^ 48) :: e.arg % 2 ^ 64 :: e.extra
      let bytes := bs.flatMap (fun w => bytesOf 8 w)
      [⟨min bytes.length 224, (bytes.take 224).map (BitVec.ofNat 8 ·), false⟩] ++
        (if 224 < bytes.length then
          [⟨min (bytes.length - 224) 252, ((bytes.drop 224).take 252).map (BitVec.ofNat 8 ·), false⟩] else []) }

/-- An EMB message sent over the route to its destination. -/
def sendEmb (e : EmbMsg) (s : State) : State := forwardTrain 32 (embTrain e) s

/-- An EMB message sent to the partner of one link. -/
def sendEmbOn (k : Nat) (e : EmbMsg) (s : State) : State :=
  if linkEmb s k then putOnLink 32 k (embTrain e) s else s

/-! ### Trains -/

/-- A train header of TYPE 0, 1 or 6 that carries a context's tag (R204, R286), with its body. -/
def mkTrain (s : State) (g : Tag) (type op vc dst addr arg : Nat) (bodies : List FrameBody) : Train :=
  { type := type, op := op, vc := vc, stepValid := g.step.isSome, alt := false, seq := 0, dst := dst, src := myId s,
    polder := g.polder, gen := g.gen, step := g.step.getD 0, addr := addr, job := g.job, arg := arg, bodies := bodies,
    gaps := [], closed := true }

/-- Bytes with poison marks cut into CONT-frame bodies of 252 bytes; `n` bounds the frames (R284). -/
def contFrames : Nat → List (Nat × Bool) → List FrameBody
  | 0, _ => []
  | n + 1, bs =>
    if bs.isEmpty then [] else
      let h := bs.take 252
      ⟨h.length, h.map (fun b => BitVec.ofNat 8 b.1), h.any (fun b => b.2)⟩ :: contFrames n (bs.drop 252)

/-- Bytes with poison marks as the frames of one train: 224 in the first, 252 in each other (R285). -/
def framesOf (bs : List (Nat × Bool)) : List FrameBody :=
  let h := bs.take 224
  ⟨h.length, h.map (fun b => BitVec.ofNat 8 b.1), h.any (fun b => b.2)⟩ :: contFrames 63 (bs.drop 224)

/-- Bytes without marks as the frames of one train. -/
def framesClean (bs : List Nat) : List FrameBody := framesOf (bs.map (fun b => (b, false)))

/-- The body bytes of a train with the poison mark of the frame each came in (R187). -/
def bodyBytes (t : Train) : List (Nat × Bool) :=
  t.bodies.flatMap (fun b => b.bytes.map (fun x => (x.toNat, b.poison)))

/-- The bytes of a train's body. -/
def bodyNats (t : Train) : List Nat := (bodyBytes t).map (fun b => b.1)

/-- Word `i` (8 bytes) of a train's body. -/
def bodyWord (t : Train) (i : Nat) : Nat := ofBytes (((bodyNats t).drop (8 * i)).take 8)

/-- Whether a train carries poisoned data. -/
def trainBad (t : Train) : Bool := t.bodies.any (fun b => b.poison)

end Sys2Proof.Machine
end

