-- ==== Sys2Proof/Machine/Booking.lean ====
section
/-!
DEFINITION. Bookings: requests and releases on their way to a sluice (R90, R202, R373, R374), and the current ledger with
its reserves and its admission tests (R371 to R377).
-/

namespace Sys2Proof.Machine

/-- A sluice's state. -/
def sluiceOf (s : State) (r : Nat) : Sluice := mapGet .zero s.sluices r

/-- Replace a sluice's state. -/
def setSluice (r : Nat) (k : Sluice) (s : State) : State := { s with sluices := mapSet .zero s.sluices r k }

/-- The local tick counter (R54). -/
def tickOf (s : State) : Nat := rd s pgMgmt R.MGMT_TICK

/-- Whether request `a` is served before `b`: the earlier tick; within one tick cores before engines, ascending (R374). -/
def bookBefore (a b : BookReq) : Bool :=
  if a.tick ≠ b.tick then decide (a.tick < b.tick)
  else if a.eng ≠ b.eng then !a.eng else decide (a.who < b.who)

/-- A request put in its place in the queue. -/
def bookInsert (a : BookReq) : List BookReq → List BookReq
  | [] => [a]
  | b :: bs => if bookBefore a b then a :: b :: bs else b :: bookInsert a bs

/-- A booking request reaches a sluice's queue, in place of an earlier one of the same requester. -/
def askSluice (r : Nat) (eng : Bool) (who cls : Nat) (s : State) : State :=
  let k := sluiceOf s r
  let q := k.waiting.filter (fun b => !(b.eng == eng && b.who == who))
  setSluice r { k with waiting := bookInsert ⟨tickOf s, eng, who, cls⟩ q } s

/-- A waiting request is withdrawn. -/
def withdrawAsk (r : Nat) (eng : Bool) (who : Nat) (s : State) : State :=
  let k := sluiceOf s r
  setSluice r { k with waiting := k.waiting.filter (fun b => !(b.eng == eng && b.who == who)) } s

/-- A release to class `cls` sets out for the sluice (R374: it lowers B when it arrives). -/
def sendRelease (r : Nat) (eng : Bool) (who cls : Nat) (s : State) : State :=
  let k := sluiceOf s r
  setSluice r { k with releases := k.releases ++ [⟨tickOf s, eng, who, cls⟩] } s

/-- A core's booking lowered to a class; its waiting raise, if any, withdrawn (R83, R90, R114). -/
def lowerCore (c cls : Nat) (s : State) : State :=
  let k := coreOf s c
  let s1 := if k.bookPend then withdrawAsk (regionOfCore c) false c s else s
  let s2 := if k.g ≠ cls then sendRelease (regionOfCore c) false c cls s1 else s1
  modCore c (fun k => { k with g := cls, bookPend := false }) s2

/-! ### Transfer engines as the booking sees them -/

/-- A transfer engine's state. -/
def engOf (s : State) (e : Nat) : Engine := mapGet .zero s.engines e

/-- Replace a transfer engine's state. -/
def setEng (e : Nat) (k : Engine) (s : State) : State := { s with engines := mapSet .zero s.engines e k }

/-- Field `[lo + n − 1 : lo]` of 64-bit word `i` of a descriptor held as 32-bit words. -/
def bdf (ws : List Nat) (i lo n : Nat) : Nat := bitsOf (ws.getD (2 * i) 0 + ws.getD (2 * i + 1) 0 * 2 ^ 32) lo n

/-- CC and LEN of a descriptor (R193). -/
def bCc (ws : List Nat) : Nat := bdf ws 0 2 3
def bLen (ws : List Nat) : Nat := bdf ws 3 0 40

/-- Whether a started barge has accesses left to make (R202): one whose destination is on another module has none once its
data is sent. -/
def accessLeft (j : BargeJob) : Bool :=
  bLen j.words != 0 && (j.phase == 2 || j.phase == 4 || j.phase == 6 || (j.phase == 3 && bdf j.words 0 7 1 == 0))

/-- The class an engine needs for the barges that it has started and that have not made their last access (R202). -/
def engNeeds (k : Engine) : Nat := k.jobs.foldl (fun m j => if accessLeft j then max m (bCc j.words) else m) 0

/-- After a barge ends: the booking lowered where less is needed, a waiting raise that no barge needs withdrawn (R202). -/
def engSettle (e : Nat) (s : State) : State :=
  let k := engOf s e
  let need := engNeeds k
  let wants := k.jobs.any (fun j => j.phase == 1 && bLen j.words != 0 && decide (k.cls < bCc j.words))
  let s1 := if k.ask ≠ 0 ∧ !wants then withdrawAsk e true e (setEng e { engOf s e with ask := 0 } s) else s
  if need < k.cls then sendRelease e true e need (setEng e { engOf s1 e with cls := need } s1) else s1

/-! ### Collective engines as the booking sees them (R300, R372) -/

/-- The CC of a collective entry: that of a gather's WALK; a REDUCE_SEND names none. -/
def collCc (c : CollEntry) : Nat := if c.words.getD 0 0 % 4 = 1 then bitsOf (c.words.getD 8 0) 2 3 else 0

/-- The collective engine of die `d` among the engines, and the region in which it books: SL0 on D0 and D2, SL3 on D1
and D3 (R372). -/
def collEng (d : Nat) : Nat := 64 + d
def collRegion (d : Nat) : Nat := d * 16 + (if d % 2 = 0 then 0 else 3)

/-- The entries of a die's collective engine. -/
def collsOfDie (s : State) (d : Nat) : List CollEntry := s.colls.filter (fun c => c.idx % 4 == d)

/-- A collective engine's booking lowered to the highest CC of its entries at work; a raise that no entry waits for any
more withdrawn (R202, R300). -/
def collSettleDie (d : Nat) (s : State) : State :=
  let e := collEng d
  let k := engOf s e
  let need := (collsOfDie s d).foldl (fun m c => if c.issued then max m (collCc c) else m) 0
  let wants := (collsOfDie s d).any (fun c => !c.issued && decide (k.cls < collCc c))
  let s1 := if k.ask ≠ 0 ∧ !wants then withdrawAsk (collRegion d) true e (setEng e { k with ask := 0 } s) else s
  if need < k.cls then sendRelease (collRegion d) true e need (setEng e { engOf s1 e with cls := need } s1) else s1

/-- The bookings of the four collective engines brought in line with their entries. -/
def collSettle (s : State) : State := foldUpTo 4 collSettleDie s

/-! ### Exact fractions -/

/-- A fraction, kept as it arises: `d` is never 0. -/
structure Frac where
  n : Int
  d : Nat
deriving DecidableEq, Repr

/-- A whole number. -/
def Frac.ofInt (z : Int) : Frac := ⟨z, 1⟩
def Frac.add (a b : Frac) : Frac := if a.d = b.d then ⟨a.n + b.n, a.d⟩ else ⟨a.n * b.d + b.n * a.d, a.d * b.d⟩
def Frac.sub (a b : Frac) : Frac := ⟨a.n * b.d - b.n * a.d, a.d * b.d⟩
def Frac.mul (a b : Frac) : Frac := ⟨a.n * b.n, a.d * b.d⟩
def Frac.le (a b : Frac) : Bool := decide (a.n * b.d ≤ b.n * a.d)
def Frac.lt (a b : Frac) : Bool := decide (a.n * b.d < b.n * a.d)
def Frac.min (a b : Frac) : Frac := if a.le b then a else b
def Frac.max (a b : Frac) : Frac := if a.le b then b else a
/-- The whole part of a fraction that is not negative; 0 for a negative one. -/
def Frac.floor (a : Frac) : Nat := (a.n / a.d).toNat
/-- The least whole number not below a fraction that is not negative. -/
def Frac.ceil (a : Frac) : Nat := ((a.n + a.d - 1) / a.d).toNat

/-! ### The ledger (R371) -/

/-- A region's fused calibration of a class, in the core and in the engine column, in mA. -/
def coreCal (s : State) (r c : Nat) : Nat := rdi s (pgSluice r) R.SLUICE_CLASS_CORE_MA c
def engCal (s : State) (r c : Nat) : Nat := if c = 0 then 0 else rdi s (pgSluice r) R.SLUICE_CLASS_ENG_MA c

/-- The class at which the ledger has a core or an engine. -/
def ledgerCls (s : State) (r : Nat) (eng : Bool) (who : Nat) : Nat :=
  mapGet 0 (if eng then (sluiceOf s r).engCls else (sluiceOf s r).coreCls) who

/-- The calibrated current booked in a region: each of its 128 cores once, and the engines. -/
def ledgerCal (s : State) (r : Nat) : Nat :=
  let k := sluiceOf s r
  coreCal s r 0 * (128 - k.coreCls.length) + k.coreCls.foldl (fun a e => a + coreCal s r e.2) 0 +
    k.engCls.foldl (fun a e => a + engCal s r e.2) 0

/-- The scale K of a region, in units of 1/4,096, and its die's set-point in mV. -/
def kOf (s : State) (r : Nat) : Nat := rd s (pgSluice r) R.SLUICE_K
def vOf (s : State) (d : Nat) : Nat := rdi s pgPwr R.PWR_VSET d

/-- The amps of a calibrated current at scale `k` and set-point `v`, in mA. -/
def ampsAt (k v cal : Nat) : Frac := ⟨cal * k * (v * v), 4096 * 608400⟩

/-- The ledger B of a region in mA. -/
def ledgerB (s : State) (r : Nat) : Frac := ampsAt (kOf s r) (vOf s (r / 16)) (ledgerCal s r)

/-! ### Reserves and tests (R373, R377) -/

/-- BUDGET, RAMP and BURST as they apply (R396): 0.1 A and 0.1 A/µs. -/
def budgetOf (s : State) (r : Nat) : Nat := clampNat 80 240 (rd s (pgSluice r) R.SLUICE_CTRL_BUDGET)
def rampOf (s : State) (r : Nat) : Nat := clampNat 10 80 (rd s (pgSluice r) R.SLUICE_CTRL_RAMP)
def burstOf (s : State) (r : Nat) : Nat := clampNat 1 40 (rd s (pgSluice r) R.SLUICE_CTRL_BURST)

/-- BUDGET × ADMIT / 100 of a region, in mA. -/
def admitLimit (s : State) (r : Nat) : Frac := .ofInt (budgetOf s r * rd s (pgSluice r) R.SLUICE_STATUS_ADMIT)

/-- The calibrated reserve that the armed hints of a region hold, without that of core `but`. -/
def reserveCal (s : State) (r : Nat) (but : Option Nat) : Nat :=
  (sluiceOf s r).hints.foldl (fun a h =>
    if h.armed && but != some h.core then a + (coreCal s r h.cls - coreCal s r (ledgerCls s r false h.core)) else a) 0

/-- The reserve H at scale `k`: the unconsumed reserves, capped at BUDGET × ADMIT / 100 − B. -/
def reserveAt (s : State) (r k : Nat) (but : Option Nat) : Frac :=
  let v := vOf s (r / 16)
  let room := (admitLimit s r).sub (ampsAt k v (ledgerCal s r))
  (ampsAt k v (reserveCal s r but)).min (room.max (.ofInt 0))

/-- Whether a request is covered by its own core's armed hint (R377). -/
def hinted (s : State) (r : Nat) (q : BookReq) : Bool :=
  !q.eng && (sluiceOf s r).hints.any (fun h => h.armed && h.core == q.who && decide (q.cls ≤ h.cls))

/-- The calibrated increase of the region's booking that a request asks for (R373). -/
def deltaCal (s : State) (r : Nat) (q : BookReq) : Nat :=
  let was := ledgerCls s r q.eng q.who
  if q.eng then engCal s r q.cls - engCal s r was else coreCal s r q.cls - coreCal s r was

/-- The first test of R373 at scale `k`: B + Δ + H within the admitted budget. -/
def budgetFits (s : State) (r k : Nat) (q : BookReq) : Bool :=
  let v := vOf s (r / 16)
  let h := reserveAt s r k (if hinted s r q then some q.who else none)
  ((ampsAt k v (ledgerCal s r + deltaCal s r q)).add h).le (admitLimit s r)

/-- Δ of a request in µA, as the ramp bucket counts it. -/
def deltaUa (s : State) (r : Nat) (q : BookReq) : Nat :=
  ((ampsAt (kOf s r) (vOf s (r / 16)) (deltaCal s r q)).mul (.ofInt 1000)).ceil

/-- The second test of R373: the ramp bucket holds Δ, or a hint lets the request skip it. -/
def rampFits (s : State) (r : Nat) (q : BookReq) : Bool := hinted s r q || decide (deltaUa s r q ≤ (sluiceOf s r).bucket)

/-- The capacity of a region's bucket in µA: the larger of BURST and the Δ of the request at the head. -/
def bucketCap (s : State) (r : Nat) : Nat :=
  max (burstOf s r * 100000) (match (sluiceOf s r).waiting with | q :: _ => deltaUa s r q | [] => 0)

/-- What a region's bucket gains in a local tick, in µA: its ramp rate, scaled down where the rates of its die's regions
with waiting requests sum above 100 A/µs. -/
def refillOf (s : State) (r : Nat) : Nat :=
  let busy (q : Nat) : Bool := !(sluiceOf s q).waiting.isEmpty
  let sum := ((List.range 16).filter (fun k => busy (r / 16 * 16 + k))).foldl (fun a k => a + rampOf s (r / 16 * 16 + k)) 0
  if busy r && decide (1000 < sum) then rampOf s r * 1000000 / sum else rampOf s r * 1000

end Sys2Proof.Machine
end

