-- ==== Sys2Proof/Machine/ResetOps.lean ====
section
/-!
DEFINITION. Resets: what each reach clears and keeps (R446, R447), the sources and the pending reset (R448 to R451), and
the start of a capture (R407, R408).
-/

namespace Sys2Proof.Machine

/-- The reach of a rank of the reset state machine (R446). -/
def reachOf : Nat → Reach
  | 0 => .block
  | 1 => .compute
  | 2 => .module
  | 3 => .supply
  | _ => .full

/-- A known context (R344). -/
def ctxOf (s : State) (n : Nat) : Option Ctx := mapFind s.ctxs n

/-- Replace a known context. -/
def setCtx (n : Nat) (k : Ctx) (s : State) : State := { s with ctxs := mapPut s.ctxs n k }

/-- Change a known context, if there is one. -/
def modCtx (n : Nat) (f : Ctx → Ctx) (s : State) : State :=
  match ctxOf s n with
  | some k => setCtx n (f k) s
  | none => s

/-- The state codes of CTX.STATUS.STATE (R344). -/
def stEmpty : Nat := 0
def stSwapped : Nat := 1
def stResident : Nat := 2
def stSwapping : Nat := 3
def stTearing : Nat := 4
def stScrubbing : Nat := 5

/-- A known context's state (R344). -/
def ctxState (s : State) (n : Nat) : Nat := rd s (pgCtx n) R.CTX_STATUS_STATE

/-- Entries ended on a stream: the head (R349). -/
def headOf (s : State) (n st : Nat) : Nat := rdi s (pgCtx n) R.CTX_HEAD st

/-- A known context after a COMPUTE reset (R366): each stream resumes at its head, what ran on cores is lost. -/
def ctxReset (s : State) (n : Nat) (x : Ctx) : Ctx :=
  { x with
    started := [], swapOut := false, tearReq := false, swapFor := none, halted := false, swapReq := false,
    nextE := (List.range 4).foldl (fun m st => mapPut m st (headOf s n st)) [] }

/-- The known contexts at a COMPUTE reset (R366): every resident one, and one being swapped, enters SWAPPED. -/
def ctxsReset (s : State) : State :=
  s.ctxs.foldl (fun t e =>
    let t1 := setCtx e.1 (ctxReset s e.1 e.2) t
    let t2 := wr (pgCtx e.1) R.CTX_STATUS_RUNNING 0 (wr (pgCtx e.1) R.CTX_STATUS_HELD 0 t1)
    if ctxState s e.1 = stResident ∨ ctxState s e.1 = stSwapping then wr (pgCtx e.1) R.CTX_STATUS_STATE stSwapped t2 else t2) s

/-- A sluice when its region's cores and engines have been reset: nothing booked, requested or hinted (R447). -/
def sluiceReset (k : Sluice) : Sluice := { k with waiting := [], releases := [], coreCls := [], engCls := [], hints := [] }

/-- Whether a weight lock is bound (R339). -/
def lockBound (s : State) (l : Nat) : Bool := bitSet (rd s pgWlock R.WLOCK_STATUS_BOUND) l

/-- A weight lock unbinds (R338): VALID is cleared, its counts are abandoned, both chambers are FREE, the gate closed;
WL_UNBOUND is raised. -/
def unbindLock (l : Nat) (s : State) : State :=
  if !lockBound s l then s
  else
    let s1 := wr pgWlock R.WLOCK_STATUS_BOUND (putBits (rd s pgWlock R.WLOCK_STATUS_BOUND) l 1 0) s
    let s2 := [R.WLOCK_LOCK_CTRL_VALID, R.WLOCK_LOCK_CTRL_ACTIVE_REQ, R.WLOCK_LOCK_STATUS_STATE_A, R.WLOCK_LOCK_STATUS_STATE_B,
      R.WLOCK_LOCK_STATUS_ACTIVE, R.WLOCK_LOCK_STATUS_BARRIER, R.WLOCK_LOCK_STATUS_HELD, R.WLOCK_LOCK_GEN,
      R.WLOCK_LOCK_ADMITTED_A, R.WLOCK_LOCK_ADMITTED_B, R.WLOCK_LOCK_SWAPS, R.WLOCK_LOCK_IP_NEXT].foldl (fun t f => wri pgWlock f l 0 t) s1
    hostEvent evWlUnbound pgWlock (some (rdi s pgWlock R.WLOCK_LOCK_CTRL_CONTEXT l)) 0 { s2 with wlStop := s2.wlStop.filter (· != l) }

/-- The reset state machine changed. -/
def modRst (f : ResetSt → ResetSt) (s : State) : State := { s with rst := f s.rst }


/-- The stacks placed in self-refresh before a COMPUTE or wider reset takes effect (R180). -/
def selfRefresh (s : State) : State := foldUpTo 8 (fun k t => wr (pgMemc k) R.MEMC_STATUS_SELF_REFRESH 1 t) s

/-- What every reach from COMPUTE on clears (R447): cores, update engines, transfer engines, collective entries, wait
units; links that were UP go back to FENCED (R279), and their waiting traffic is discarded. -/
def computeReset (s : State) : State :=
  let s0 := foldUpTo 8 unbindLock (selfRefresh s)
  let s1 := ctxsReset (clearRegs .compute (fun _ => true) s0)
  let s2 := dropPending (fun pg =>
    pg / 8192 == clsCode .core || pg / 8192 == clsCode .array || pg / 8192 == clsCode .barge || pg / 8192 == clsCode .upd) s1
  let s3 := { s2 with
    cores := [], inReset := [], engines := [], binds := [], colls := [], fwait := [], audits := [], pols := [],
    inbox := [], lostQ := [], pinHeld := [], behind := [], mcast := [], mcastVia := [], crcDenied := [], metUe := [], ckpts := [], stopAll := true, imgCores := [], wlStop := [],
    emb := { s2.emb with recov := [], hadBind := ((s2.binds.map (fun e => e.2.desc.ctx)) ++ s2.emb.hadBind).eraseDups },
    sluices := s2.sluices.map (fun e => (e.1, sluiceReset e.2)) }
  foldUpTo 32 (fun k t =>
    if rd s (pgLink k) R.LINK_STATUS_STATE = 4 then wr (pgLink k) R.LINK_STATUS_STATE 3 t
    else wr (pgLink k) R.LINK_STATUS_STATE (rd s (pgLink k) R.LINK_STATUS_STATE) t)
    (foldUpTo 32 (fun k t =>
      -- link training is kept by a COMPUTE reset (R447): the negotiated STATUS and capability words stay
      [R.LINK_STATUS_RATE_224, R.LINK_STATUS_VERSION, R.LINK_STATUS_FEC_528, R.LINK_STATUS_SPREAD_ON, R.LINK_STATUS_ORDERED,
        R.LINK_STATUS_TALLY_OPS, R.LINK_STATUS_EMB_V2, R.LINK_STATUS_RETRYING, R.LINK_LOCAL_CAPS, R.LINK_PARTNER_CAPS,
        R.LINK_PARTNER_CRED, R.LINK_VC_CREDITS].foldl (fun t f => wr (pgLink k) f (rd s (pgLink k) f) t) t) s3)

/-- What every reach from MODULE on clears besides (R447): all register fields of that reach, pending values and
shadows, the context, schedule and polder tables, links, the host link's state. -/
def moduleReset (r : Reach) (s : State) : State :=
  let s1 := dropPending (fun _ => true) (clearRegs r (fun _ => true) (computeReset s))
  { s1 with
    ctxs := [], polTab := [], sluices := [], links := [], mirrors := [], rngTaken := [], auditTaken := [], polDue := false,
    ceLog := [], ueLog := [], mapQ := [], nextXid := 0, msiHold := false, msiDue := false, alert := false, emb := .zero,
    smpSeq := [], smpTick := [], levels := [], power := .zero, boot := { BootSt.zero with pfail := s.boot.pfail }, i3cAddr := none, i3cRead := [] }

/-- What SUPPLY and FULL clear besides: device DRAM (R179, R447). -/
def supplyReset (r : Reach) (s : State) : State :=
  { moduleReset r s with dram := [], dramAny := [], dramPoison := [], chDead := [], dramSyms := [] }

/-- The audit states that survive a FULL reset (R445): FENCED, and a CONDITIONAL band. -/
def auditKept (s : State) : List (Nat × AuditSt) := s.auditSt.filter (fun e => e.2.st == 3 || e.2.st == 4)

/-- What FULL clears besides: the always-on domain (R447, R463). -/
def fullReset (s : State) : State :=
  modRst (fun r => { r with capSeq := 0, capDone := false }) { supplyReset .full s with retained := [], lastCause := 0, comeouts := 0, aonPart := 0, auditSt := auditKept s }

/-- A reset of rank `r` takes effect. -/
def applyReset (r : Nat) (s : State) : State :=
  match r with
  | 0 => s
  | 1 => computeReset s
  | 2 => moduleReset .module s
  | 3 => supplyReset .supply s
  | _ => fullReset s

/-- The pending reset takes effect at its present reach, and its come-out starts from its first step when the last
source releases (R448). -/
def takeReset (s : State) : State := modRst (fun r => { r with held := true }) (applyReset s.rst.pend s)

/-- Whether a reset waits for COOLANT_OK (R443): a MODULE or narrower one in safe mode entered on COOLANT_LOSS. -/
def coolantHeld (r : Nat) (s : State) : Bool :=
  decide (r ≤ 2) && !s.pins.coolant && rd s pgEmb R.EMB_STATUS_SAFE == 1 && rd s pgEmb R.EMB_SAFE_REASON == errCode .pwr 2

/-- The pending reset takes effect, unless it waits for COOLANT_OK; RST.CAUSE keeps what it recorded. -/
def takeHere (s : State) : State :=
  if coolantHeld s.rst.pend s then s else wr pgRst R.RST_CAUSE (rd s pgRst R.RST_CAUSE) (takeReset s)

/-- The come-out of the pending reset begins (R448, R453): no step of it is complete. -/
def beginComeout (s : State) : State :=
  wr pgRst R.RST_STATUS_STEP 0 (wr pgRst R.RST_STATUS_COMEOUT 1
    (modRst (fun x => { x with reach := x.pend, pend := 0, held := false, again := 0, bothFail := false, ticks := 0 }) s))

/-- With no source asserted any longer, the release sequence starts (R448). -/
def tryRelease (s : State) : State :=
  if s.rst.asserted.isEmpty ∧ s.rst.held ∧ s.rst.pend ≠ 0 then beginComeout s else s

/-- A source releases (R446). -/
def releaseSource (b : Nat) (s : State) : State :=
  if s.rst.asserted.contains b then tryRelease (modRst (fun x => { x with asserted := x.asserted.filter (· != b) }) s) else s

/-- Whether a capture can be taken now (R407, R450): ARMED, with a base, in a module whose come-out has passed step 7. -/
def canCapture (s : State) : Bool :=
  rd s pgEmb R.EMB_CAPTURE_ARMED == 1 && rd s pgEmb R.EMB_CAPTURE_BASE != 0 && s.rst.pend == 0 &&
    (rd s pgRst R.RST_STATUS_COMEOUT == 0 || decide (7 ≤ rd s pgRst R.RST_STATUS_STEP))

/-- A capture begins (R408 step 1): grants stop, fetchers start nothing, cores stop issue; ARMED is cleared. -/
def startCapture (cause code reach : Nat) (s : State) : State :=
  let s1 := wr pgEmb R.EMB_CAPTURE_ARMED 0 s
  { modRst (fun r => { r with capture := some ⟨cause, tickOf s, code, reach⟩ }) s1 with stopAll := true }

/-- A trigger of a capture (R407): a capture, none over a running one (R449); while ARMED is 0 it is skipped and
counted. Answers whether a capture runs now. -/
def triggerCapture (cause code reach : Nat) (s : State) : Bool × State :=
  if s.rst.capture.isSome then (true, s)
  else if canCapture s then (true, startCapture cause code reach s)
  else if rd s pgEmb R.EMB_CAPTURE_ARMED = 0 then (false, bumpSat pgEmb R.EMB_CAPTURE_SKIPPED 1 s)
  else (false, s)

/-- A source of bit `b` and reach rank `r` asserts (R446 to R450). It is recorded in CAUSE and joins the pending reset;
during a come-out it takes effect at the end of the present step. With `cap` a capture is taken first where one can
be; a SUPPLY or FULL source stops a running capture, which is CAPTURE_INCOMPLETE only in a record that is lost. -/
def assertSource (b r : Nat) (cap : Bool) (code : Nat) (s : State) : State :=
  let cause := rd s pgRst R.RST_CAUSE ||| 2 ^ b
  let s1 := wr pgRst R.RST_CAUSE cause (modRst (fun x => { x with asserted := if x.asserted.contains b then x.asserted else x.asserted ++ [b] }) s)
  if rd s pgRst R.RST_STATUS_COMEOUT = 1 then modRst (fun x => { x with again := max (max x.again r) x.reach }) s1
  else
    let s2 := modRst (fun x => { x with pend := max x.pend r }) s1
    if s.rst.held then
      -- the pending reset has taken effect: a wider source widens it at once
      if s.rst.pend < r then wr pgRst R.RST_CAUSE cause (takeReset s2) else s2
    else if 3 ≤ r then
      wr pgRst R.RST_CAUSE (if r = 4 then 1 ||| 2 ^ b else cause) (takeReset (modRst (fun x => { x with capture := none }) s2))
    else if cap then
      let c := triggerCapture b code r s1
      let s3 := modRst (fun x => { x with pend := max x.pend r }) c.2
      if c.1 then s3 else takeHere s3
    else if s.rst.capture.isSome then s2
    else takeHere s2

end Sys2Proof.Machine
end

