-- ==== Sys2Proof/Machine/Errors.lean ====
section
/-!
DEFINITION. What an error does by its class (R399 to R401, R417 to R420, R426, R442): contexts halted behind dikes, jobs
told to replay or halt, steps replayed, the module taken to safe mode.
-/

namespace Sys2Proof.Machine

/-! ### Steps -/

/-- Step `a` is not after step `b`: step numbers are 32 bits and run on past 2^32 − 1 (R246). -/
def stepLe (a b : Nat) : Bool := decide ((b + 2 ^ 32 - a % 2 ^ 32) % 2 ^ 32 < 2 ^ 31)

/-- Step `a` is before step `b`. -/
def stepLt (a b : Nat) : Bool := stepLe a b && a % 2 ^ 32 != b % 2 ^ 32

/-- The step after. -/
def stepNext (a : Nat) : Nat := (a + 1) % 2 ^ 32

/-- The step before. -/
def stepPrev (a : Nat) : Nat := (a + 2 ^ 32 - 1) % 2 ^ 32

/-- Word `i` of a context's step block (R247). -/
def blockWord (s : State) (x : Ctx) (i : Nat) : Nat := dramWord s (x.stepBlock + 8 * i)

/-- LAST_REPORT of a training context (R247). -/
def lastReport (s : State) (x : Ctx) : Nat := bitsOf (blockWord s x 13) 11 32

/-- START_STEP of a training context (R247). -/
def startStep (s : State) (x : Ctx) : Nat := bitsOf (blockWord s x 7) 0 32

/-- The lowest step without a report (R263, R417). -/
def lowestOpen (s : State) (x : Ctx) : Nat := stepNext (lastReport s x)

/-! ### The job's members (R297, R298) -/

/-- This module's member index in a version. -/
def memberIdx (s : State) (p : Place) : Option Nat := p.members.findIdx? (fun m => m.module == myId s)

/-- A member entry of a version. -/
def memberAt (p : Place) (i : Nat) : Option Member := p.members[i]?

/-- The root of the broadcast tree: the job's coordinator (R413). -/
def rootOf (p : Place) : Nat := ((p.members.zipIdx).find? (fun m => m.1.parent == m.2)).map (fun m => m.2) |>.getD 0

/-- The members whose parent a member is. -/
def childrenOf (p : Place) (i : Nat) : List Nat :=
  ((p.members.zipIdx).filter (fun m => m.1.parent == i && m.2 != i)).map (fun m => m.2)

/-- The module of a member. -/
def moduleOf (p : Place) (i : Nat) : Nat := match memberAt p i with | some m => m.module | none => 0

/-- Whether a context's job runs on several modules. -/
def manyMembers (x : Ctx) : Bool := match x.place with | some p => decide (2 ≤ p.members.length) | none => false

/-- Whether this module is the coordinator of a context's job. -/
def isRoot (s : State) (x : Ctx) : Bool :=
  match x.place with
  | some p => memberIdx s p == some (rootOf p)
  | none => true

/-- An EMB message from this module in its present epoch (R415). -/
def embMsg (s : State) (op dst job step subject aux arg : Nat) (extra : List Nat) : EmbMsg :=
  ⟨op, myId s, dst, job, step, rd s pgEmb R.EMB_EPOCH, subject, aux, arg, extra⟩

/-- An EMB message to a context's coordinator. -/
def toRoot (x : Ctx) (op step subject aux arg : Nat) (s : State) : State :=
  match x.place with
  | some p => sendEmb (embMsg s op (moduleOf p (rootOf p)) x.job step subject aux arg []) s
  | none => s

/-- An EMB message to this member's children in the job's broadcast tree. -/
def toChildren (x : Ctx) (op step subject aux arg : Nat) (extra : List Nat) (s : State) : State :=
  match x.place with
  | some p => match memberIdx s p with
    | some i => (childrenOf p i).foldl (fun t c => sendEmb (embMsg s op (moduleOf p c) x.job step subject aux arg extra) t) s
    | none => s
  | none => s

/-! ### Cores and barges of a context -/

/-- Every core whose state satisfies `p`, changed. -/
def mapCores (p : Nat → Core → Bool) (f : Core → Core) (s : State) : State :=
  s.cores.foldl (fun t e => if p e.1 e.2 then setCore e.1 (f e.2) t else t) s

/-- The barges of a context that an engine holds. -/
def bargesOf (s : State) (n : Nat) : Nat :=
  s.engines.foldl (fun a e => a + (e.2.jobs.filter (fun j => j.tag.ctx == n && j.phase != 4)).length) 0

/-- The barges of a context cancelled (R203): unstarted ones, and those that await a peer, leave; a started local one
stops after its current leg (phase 4 until its completion). -/
def cancelBarges (n : Nat) (s : State) : State :=
  s.engines.foldl (fun t e =>
    let gone := (e.2.jobs.filter (fun j => j.tag.ctx == n && j.phase != 4)).length
    if gone = 0 then t
    else
      let keep := e.2.jobs.filterMap (fun j =>
        if j.tag.ctx = n then (if j.phase = 2 ∨ j.phase = 4 then some { j with phase := 4 } else none) else some j)
      engSettle e.1 (bumpSat (pgBarge e.1) R.BARGE_CANCELLED gone (setEng e.1 { e.2 with jobs := keep } t))) s

/-! ### Context-fatal errors -/

/-- A context halted behind a dike (R401): its fetcher starts nothing, its cores stop issue, its barges are cancelled. -/
def dikeCtx (n code : Nat) (s : State) : State :=
  cancelBarges n (mapCores (fun _ k => k.ctx == some n) (fun k => { k with stopIssue := true })
    (modCtx n (fun k => { k with halted := true, haltCode := if k.halted then k.haltCode else code }) s))

/-- An error recorded on the EMB page (R444): ERR_CTX holds the context of the ERR_FIRST record. -/
def recordEmb (bit : Nat) (ctx : Option Nat) (s : State) : State :=
  let s1 := recordErr pgEmb bit ctx s
  if rd s pgEmb R.HEADER_ERR_FIRST_VALID = 0 ∧ rd s1 pgEmb R.HEADER_ERR_FIRST_VALID = 1 then
    wr pgEmb R.EMB_ERR_CTX (ctx.getD 0) s1 else s1

/-- A HALT of a job reaches this member (R426): its context is halted, JOB_HALTED is raised. -/
def jobHalted (n code : Nat) (s : State) : State := recordEmb 6 (some n) (dikeCtx n code s)

/-- A context-fatal error in a context (R399, R426): it is halted; in a job of several modules the coordinator is told,
or, being the coordinator, this module broadcasts HALT. -/
def ctxFatal (n code : Nat) (s : State) : State :=
  match ctxOf s n with
  | none => s
  | some x =>
    if x.halted then s
    else if !manyMembers x then dikeCtx n code s
    else if isRoot s x then jobHalted n code (toChildren x 13 0 (myId s) code 0 [] s)
    else toRoot x 13 0 (myId s) code 0 (dikeCtx n code s)

/-! ### Step replay -/

/-- A resident segment of a core abandoned: its booking released, its tally slots cancelled, the array's queue discarded;
another stream's segment, if resident, goes on. -/
def abandonSeg (c st : Nat) (s : State) : State :=
  let k := coreOf s c
  if k.cur = some st then
    modCore c (fun k =>
      let k1 := { k with
        res := mapDel k.res st, saved := mapDel k.saved st, slots := [], queue := [], drain := none, faulted := false,
        stopIssue := false, waitBook := false, waitTally := false, waitXfer := false, waitAcc := false, waitQueue := false }
      match [1, 0, 2].find? (fun o => (mapFind k1.res o).isSome) with
      | some o => { k1 with cur := some o, seq := (mapFind k1.saved o).getD .zero, saved := mapDel k1.saved o }
      | none => { k1 with cur := none, seq := .zero }) (lowerCore c 0 s)
  else modCore c (fun k => { k with res := mapDel k.res st, saved := mapDel k.saved st }) s

/-- The entry of a stream from which steps `t` on are run again (R419): the first that it started tagged with the
lowest such step; none where it has started none. -/
def rewindTo (x : Ctx) (st t : Nat) : Option Nat :=
  let hits := x.marks.filter (fun m => m.1 / 2 ^ 32 == st && stepLe t (m.1 % 2 ^ 32))
  hits.foldl (fun b m => match b with | some e => some (min e m.2) | none => some m.2) none

/-- A stream rewound (R419): entries from the rewind position on are abandoned on their cores and start again. -/
def rewindStream (n t st : Nat) (s : State) : State :=
  match ctxOf s n with
  | none => s
  | some x => match rewindTo x st t with
    | none => s
    | some e =>
      let s1 := s.cores.foldl (fun u ck =>
        match mapFind ck.2.res st with
        | some g => if ck.2.ctx = some n ∧ e ≤ g.entry then abandonSeg ck.1 st u else u
        | none => u) s
      modCtx n (fun x => { x with
        nextE := mapPut x.nextE st e,
        started := x.started.filter (fun r => !(r.stream == st && decide (e ≤ r.entry))),
        marks := x.marks.filter (fun m => !(m.1 / 2 ^ 32 == st && stepLe t (m.1 % 2 ^ 32))) }) s1

/-- A binding's part of a replay of step `t` (R264): the node pool and the contributions of the step that are held, whole
or in part, are discarded. -/
def bindReplay (i t : Nat) (b : Binding) (s : State) : State :=
  let gone := (b.heldN ++ b.stalled).filter (fun h => stepLe t h.2.step)
  let b1 := { b with heldN := b.heldN.filter (fun h => !stepLe t h.2.step),
                     stalled := b.stalled.filter (fun h => !stepLe t h.2.step) }
  let b2 := if b.sums.step = t then
      { b1 with nodes := [], series := [], got := [], roots := [], up := false, fastOff := [], freed := true, sums := .zero t }
    else b1
  gone.foldl (fun u h => freeTrain h.1 h.2 u) { s with binds := mapPut s.binds i b2 }

/-- A replay of a context's steps from `t` on (R264, R419, R420): the fourth replay of one step is REPLAY_LIMIT. -/
def doReplay (n t : Nat) (s : State) : State :=
  match ctxOf s n with
  | none => s
  | some x =>
    let cnt := if x.replayStep = t ∧ x.replayCnt ≠ 0 then x.replayCnt + 1 else 1
    if rd s pgEmb R.EMB_REPLAY_MAX < cnt then
      ctxFatal n 0x0C06 (recordEmb 5 (some n) (setCtx n { x with replayStep := t, replayCnt := cnt } s))
    else
      let s1 := setCtx n { x with
        replayStep := t, replayCnt := cnt, prep := false,
        slots := x.slots.filter (fun e => !stepLe t e.2.step),
        admitStep := some t, admitIdx := 0,
        ups := x.ups.filter (fun u => !stepLe t u.2.step),
        slotFull := x.slotFull, peerBound := x.peerBound } s
      let s2 := rewindStream n t 2 (rewindStream n t 1 (rewindStream n t 0 s1))
      let s3 := s2.binds.foldl (fun u e => if e.2.desc.ctx = n then bindReplay e.1 t e.2 u else u) s2
      collSettle { s3 with
        colls := s3.colls.filter (fun c => !(c.ctx == n && (match c.step with | some st => stepLe t st | none => false))) }

/-- Whether this module holds the job verdict of a step (R417, R436). -/
def verdictHeld (x : Ctx) (t : Nat) : Bool := x.verds.any (fun v => stepLe t v.step)

/-- The coordinator's part of a request to replay step `t` (R417): ignored where the verdict has gone out; else a REPLAY
with no substitution is broadcast and acted on. -/
def rootReplay (n t : Nat) (s : State) : State :=
  match ctxOf s n with
  | none => s
  | some x =>
    if verdictHeld x t then s
    else doReplay n t (toChildren x 11 t (myId s) 0 t [] s)

/-- A step-fatal error in step `t` of a context, where its work carries the tag (R399, R417). A context without steps
treats it as context-fatal. -/
def stepFatal (n code : Nat) (t : Option Nat) (s : State) : State :=
  match ctxOf s n with
  | none => s
  | some x =>
    if x.typ ≠ 0 then ctxFatal n code s
    else if x.halted then s
    else
      let step := t.getD (lowestOpen s x)
      if isRoot s x then rootReplay n step s else toRoot x 12 step (myId s) 0 0 s

/-! ### Rollback (R433) -/

/-- A rollback reaches this member: it holds at the next step boundary and raises CKPT_ROLLBACK. -/
def holdForRollback (n : Nat) (s : State) : State :=
  match ctxOf s n with
  | none => s
  | some x =>
    hostEvent evCkptRollback pgEmb (some n) 0 (setCtx n { x with hold := some (x.hold.getD (lowestOpen s x)) } s)

/-- The coordinator broadcasts ROLLBACK with a LIMIT. -/
def rootRollback (n limit : Nat) (s : State) : State :=
  match ctxOf s n with
  | none => s
  | some x => holdForRollback n (toChildren x 14 0 0 0 limit [] s)

/-- A module asks for a rollback below `limit` (R235, R436). -/
def askRollback (n limit : Nat) (s : State) : State :=
  match ctxOf s n with
  | none => s
  | some x => if isRoot s x then rootRollback n limit s else toRoot x 16 0 (myId s) 0 limit s

/-! ### Safe mode (R442) -/

/-- The module enters safe mode with a reason: recorded once, the event raised, a capture taken, issue stopped, the
core rails at 650 mV, the native links DOWN. -/
def enterSafe (reason : Nat) (s : State) : State :=
  if rd s pgEmb R.EMB_STATUS_SAFE = 1 then s
  else
    let s1 := wr pgEmb R.EMB_SAFE_REASON reason (wr pgEmb R.EMB_STATUS_SAFE 1 s)
    let s2 := hostEvent evSafeMode pgEmb none 0 s1
    let s3 := (triggerCapture 0 reason 0 s2).2
    let s4 := foldUpTo 4 (fun d t => wri pgPwr R.PWR_VSET d 650 t) { s3 with stopAll := true }
    foldUpTo 32 (fun k t => if rd t (pgLink k) R.LINK_STATUS_STATE = 5 then t else dropLink k t) s4

/-- A device-fatal error (R399, R400): ALERT_N is asserted and the module enters safe mode. -/
def deviceFatal (code : Nat) (s : State) : State := enterSafe code { s with alert := true }

/-! ### Canal traffic between dies (R23, R53) -/

/-- The die whose routers a device address is reached through (R19, R20, R34). -/
def dieOfAddr (s : State) (a : Nat) : Nat :=
  match regionOf a with
  | (.dram, o) => match locate s o with | some q => dieOfStack (q / 2 ^ 31 / 32) | none => 0
  | (.scratch, o) => dieOfCore (o / 0x40000)
  | _ => 0

/-- The SECDED check of the flits that carry data to die `b` (R53): a corrected word counted; a flit with a double-bit
error counted, delivered poisoned, and step-fatal for the work that owns it. Answers whether a flit is poisoned. -/
def flitCheck (b : Nat) (ctx step : Option Nat) (s : State) : Bool × State :=
  let ce := checkFor (pgCanal b) 0 false s
  let s1 := if ce.1 then recordErr (pgCanal b) 0 ctx (bumpSat (pgCanal b) R.CANAL_CE_COUNT 1 ce.2) else ce.2
  let ue := checkFor (pgCanal b) 1 false s1
  if !ue.1 then (false, ue.2)
  else
    let s2 := recordErr (pgCanal b) 1 ctx (bumpSat (pgCanal b) R.CANAL_UE_COUNT 1 ue.2)
    (true, match ctx with | some n => stepFatal n (errCode .canal 1) step s2 | none => s2)

/-- `n` bytes of a context's work from die `a` to die `b` over the canal: counted and checked. -/
def canalMove (a b n : Nat) (ctx step : Option Nat) (s : State) : Bool × State :=
  if n = 0 then (false, s) else flitCheck b ctx step (bridgeBytes a b n s)

end Sys2Proof.Machine
end

