-- ==== Sys2Proof/Machine/TransMath.lean ====
section
/-!
DEFINITION. The values of the TRANS functions of R106, in fixed point with 512 fraction bits, against which the bounds
of R107 hold a result (log 12). Their own error is far below the last place of any bound.
-/

namespace Sys2Proof.Machine

/-- One, in fixed point. -/
def fxOne : Int := 2 ^ 512

/-- The product of two fixed-point numbers. -/
def fxMul (a b : Int) : Int := a * b / fxOne

/-- A finite number in fixed point. -/
def fxOf : Num → Int
  | .fin n m e => signedMant n (if 0 ≤ e + 512 then m * 2 ^ (e + 512).toNat else m / 2 ^ (-(e + 512)).toNat)
  | _ => 0

/-- A fixed-point number times 2^k, as a number. -/
def fxNum (v k : Int) : Num := .fin (decide (v < 0)) v.natAbs (k - 512)

/-- The first `n` terms of a series: term 0 is `coef 0 t`, and `next` makes each t from the one before. -/
def fxSum (n : Nat) (next coef : Nat → Int → Int) (t : Int) : Int :=
  ((List.range n).foldl (fun (r : Int × Int) k => (next k r.1, r.2 + coef k r.1)) (t, 0)).2

/-- A term divided by the odd number of its place. -/
def fxOdd (k : Nat) (t : Int) : Int := t / (2 * k + 1 : Nat)

/-- e^r for |r| ≤ 1. -/
def fxExp (r : Int) : Int := fxSum 120 (fun k t => fxMul t r / (k + 1 : Nat)) (fun _ t => t) fxOne

/-- The natural logarithm of the fixed-point number `v` from 1 to 2. -/
def fxLn (v : Int) : Int :=
  let z := (v - fxOne) * fxOne / (v + fxOne)
  2 * fxSum 180 (fun _ t => fxMul t (fxMul z z)) fxOdd z

/-- The natural logarithm of 2. -/
def fxLn2 : Int := fxLn (2 * fxOne)

/-- The arc tangent of 1 / n. -/
def fxAtan (n : Int) : Int := fxSum 250 (fun _ t => -t / (n * n)) fxOdd (fxOne / n)

/-- The circle number. -/
def fxPi : Int := 16 * fxAtan 5 - 4 * fxAtan 239

/-- The sine of the fixed-point number `x`. -/
def fxSin (x : Int) : Int :=
  let r := x % (2 * fxPi)
  fxSum 160 (fun k t => -(fxMul t (fxMul r r)) / ((2 * k + 2) * (2 * k + 3) : Nat)) (fun _ t => t) r

/-- The error function of |x| ≤ 8. -/
def fxErf (x : Int) : Int :=
  let root : Int := isqrt (fxPi * fxOne).toNat
  2 * fxSum 420 (fun k t => -(fxMul t (fxMul x x)) / (k + 1 : Nat)) fxOdd x * fxOne / root

/-- 2^p for the fixed-point number `p`; far outside every format's range, a power of two as far outside. -/
def fxPow2 (p : Int) : Num :=
  if p < -(5000 * fxOne) then .fin false 1 (-5000)
  else if 5000 * fxOne < p then .fin false 1 5000
  else
    let n := p / fxOne
    fxNum (fxExp (fxMul (p - n * fxOne) fxLn2)) n

/-- e^x for the fixed-point number `x`. -/
def fxExpNum (x : Int) : Num := fxPow2 (x * fxOne / fxLn2)

/-- The base-2 logarithm of a positive number, in fixed point. -/
def fxLog2 (m : Nat) (e : Int) : Int :=
  let t := m.log2
  fxLn (fxOf (.fin false m (-(t : Int)))) * fxOne / fxLn2 + (e + t) * fxOne

/-- The value of TRANS function `func` at `x`, where R106 and R154 state one: none for an infinity, for the logarithm or
inverse root of zero, and for those of a negative number. -/
def transValue (func : Nat) (x : Num) : Option Num :=
  match x with
  | .fin n m e =>
    let v := fxOf x
    match func with
    | 1 => if m = 0 ∨ n then none else some (divNum (.fin false 1 0) (sqrtNum x))
    | 2 => some (fxPow2 v)
    | 3 => if m = 0 ∨ n then none else some (fxNum (fxLog2 m e) 0)
    | 4 => some (fxExpNum v)
    | 5 => if m = 0 ∨ n then none else some (fxNum (fxMul (fxLog2 m e) fxLn2) 0)
    | 6 =>
      if 300 * fxOne < v.natAbs then some (.fin n 1 0)
      else
        let u := fxOf (fxExpNum (-(2 * (v.natAbs : Int))))
        some (fxNum (signedMant n ((fxOne - u) * fxOne / (fxOne + u)).toNat) 0)
    | 7 =>
      if v < -(200 * fxOne) then some (fxExpNum v)
      else some (fxNum (fxOne * fxOne / (fxOne + fxOf (fxExpNum (-v)))) 0)
    | 8 => if 8 * fxOne < v.natAbs then some (.fin n 1 0) else some (fxNum (fxErf v) 0)
    | 9 => some (fxNum (fxSin v) 0)
    | _ => some (fxNum (fxSin (v + fxPi / 2)) 0)
  | _ => none

/-- Whether a number's magnitude is at most b × 2^k. -/
def absLe (x : Num) (b : Nat) (k : Int) : Bool :=
  match x with
  | .fin _ m e => if k ≤ e then decide (m * 2 ^ (e - k).toNat ≤ b) else decide (m ≤ b * 2 ^ (k - e).toNat)
  | _ => false

/-- The power of two that one unit in the last place of `y` is, in format `f`. -/
def ulpOf (f : Fmt) : Num → Int
  | .fin _ m e =>
    let least : Int := 1 - fmtBias f
    (if m = 0 then least else max least (e + m.log2)) - fmtMant f
  | _ => 0

/-- The units in the last place by which a TRANS result may miss (R107). -/
def transUlps (func : Nat) (f : Fmt) : Nat :=
  if func = 4 ∨ func = 5 then (if f = .fp64 then 1 else 2)
  else if func = 6 ∨ func = 7 ∨ func = 8 then 3
  else if func = 9 ∨ func = 10 then 2 else 1

/-- Whether the bits `c` meet the bound of R107 for a function whose value at `x` is `y`: beyond 65,536 the bound of SIN
and COS is an absolute 2^−22. -/
def transMeets (func : Nat) (f : Fmt) (x y : Num) (c : Nat) : Bool :=
  let miss := addNum 0 (decodeNum f c) (negNum y)
  if (func = 9 ∨ func = 10) ∧ !absLe x 65536 0 then absLe miss 1 (-22) else absLe miss (transUlps func f) (ulpOf f y)

end Sys2Proof.Machine
end

