-- ==== Sys2Proof/Machine/VecMath.lean ====
section
/-!
DEFINITION. Lane arithmetic of the vector unit: ARITH, TRANS, REDUCE, CVT, VPERM and VMOVX on 512-bit registers
(R105 to R111, R148, R154, R160).
-/

namespace Sys2Proof.Machine

/-- Lanes of a lane format code: 8 for FP64, else 16 (R105). -/
def laneCount (fmt : Nat) : Nat := if fmt = 1 then 8 else 16

/-- Lane width in bits. -/
def laneBits (fmt : Nat) : Nat := if fmt = 1 then 64 else 32

/-- Lane `i` of a register for elements of `b` bits (R148: the little-endian byte sequence). -/
def laneOf (b : Nat) (v : VReg) (i : Nat) : Nat := bitsOf v.toNat (i * b) b

/-- A register from elements of `b` bits, the rest zero. -/
def packLanes (b : Nat) (es : List Nat) : VReg :=
  BitVec.ofNat 512 (es.foldr (fun e acc => e % 2 ^ b + acc * 2 ^ b) 0)

/-- A register with element `i` of `b` bits replaced. -/
def putLane (b : Nat) (v : VReg) (i e : Nat) : VReg := BitVec.ofNat 512 (putBits v.toNat (i * b) b e)

/-- The floating format of a lane format code. -/
def laneFmt (fmt : Nat) : Fmt := if fmt = 1 then .fp64 else .fp32

/-- One lane of an ARITH function on floating lanes (R106, R107, R154). DESIGN CHOICE (log 72): SEL tests the bits of
VC's lane, so −0 counts as nonzero. -/
def arithFloat (f : Fmt) (func rm : Nat) (a b c : Nat) : Nat :=
  let x := decodeNum f a
  let y := decodeNum f b
  let z := decodeNum f c
  let enc := encodeNum f rm false noDraw
  let ones := 2 ^ fmtBits f - 1
  match func with
  | 0 => enc (addNum rm x y)
  | 1 => enc (addNum rm x (negNum y))
  | 2 => enc (mulNum x y)
  | 3 => enc (addNum rm (mulNum x y) z)
  | 4 => enc (minNum x y)
  | 5 => enc (maxNum x y)
  | 6 => enc (absNum x)
  | 7 => enc (negNum x)
  | 8 => if eqNum x y then ones else 0
  | 9 => if ltNum x y then ones else 0
  | 10 => if x = .nan ∨ y = .nan then 0 else if ltNum y x then 0 else ones
  | 11 => if c ≠ 0 then a else b
  | 12 => enc (divNum x y)
  | _ => enc (sqrtNum x)

/-- One lane of an ARITH function on INT32 lanes (R106). -/
def arithInt (func : Nat) (a b c : Nat) : Nat :=
  let x := signedOf 32 a
  let y := signedOf 32 b
  let ones := 2 ^ 32 - 1
  match func with
  | 0 => (a + b) % 2 ^ 32
  | 1 => wrapInt 32 (x - y)
  | 2 => a * b % 2 ^ 32
  | 3 => (a * b + c) % 2 ^ 32
  | 4 => if x ≤ y then a else b
  | 5 => if x ≤ y then b else a
  | 6 => wrapInt 32 (if x < 0 then -x else x)
  | 7 => wrapInt 32 (-x)
  | 8 => if a = b then ones else 0
  | 9 => if x < y then ones else 0
  | 10 => if x ≤ y then ones else 0
  | _ => if c ≠ 0 then a else b

/-- One lane of an ARITH function in lane format `fmt`. -/
def arithLane (fmt func rm a b c : Nat) : Nat :=
  if fmt = 2 then arithInt func a b c else arithFloat (laneFmt fmt) func rm a b c

/-- ARITH over all lanes. -/
def vecArith (fmt func rm : Nat) (a b c : VReg) : VReg :=
  let w := laneBits fmt
  packLanes w ((List.range (laneCount fmt)).map (fun i => arithLane fmt func rm (laneOf w a i) (laneOf w b i) (laneOf w c i)))

/-- One lane of a TRANS function (R107): RCP is correctly rounded; a NaN gives the canonical NaN; for the others the
result is the free candidate of the input bits where it meets the bound of R107, and else the nearest value. An input for
which the spec states no value gives the candidate itself (log 12). -/
def transLane (fmt func rm a : Nat) : Nat :=
  let f := laneFmt fmt
  let x := decodeNum f a
  let c := Config.trans func (fmt == 1) a % 2 ^ fmtBits f
  if x = .nan then canonNaN f
  else if func = 0 then encodeNum f rm false noDraw (divNum (.fin false 1 0) x)
  else match transValue func x with
    | none => c
    | some y => if transMeets func f x y c then c else encodeNum f 0 false noDraw y

/-- TRANS over all lanes. -/
def vecTrans (fmt func rm : Nat) (a : VReg) : VReg :=
  let w := laneBits fmt
  packLanes w ((List.range (laneCount fmt)).map (fun i => transLane fmt func rm (laneOf w a i)))

/-- One node of a REDUCE tree above the first level (R160). -/
def reduceNode (fmt func rm l r : Nat) : Nat :=
  arithLane fmt (if func = 1 then 5 else if func = 2 then 4 else 0) rm l r 0

/-- A first-level node: SUMSQ rounds `a × a + b × b` once (R108, R160). -/
def reduceLeaf (fmt func rm l r : Nat) : Nat :=
  if func = 3 then
    (if fmt = 2 then (l * l + r * r) % 2 ^ 32
     else
      let f := laneFmt fmt
      let x := decodeNum f l
      let y := decodeNum f r
      encodeNum f rm false noDraw (addNum rm (mulNum x x) (mulNum y y)))
  else reduceNode fmt func rm l r

/-- Combine neighbours with `op`. -/
def pairUp (op : Nat → Nat → Nat) : List Nat → List Nat
  | a :: b :: rest => op a b :: pairUp op rest
  | rest => rest

/-- Levels of pairwise combination after the first. -/
def reduceLevels (op : Nat → Nat → Nat) : Nat → List Nat → List Nat
  | 0, es => es
  | n + 1, es => reduceLevels op n (pairUp op es)

/-- REDUCE: the tree's root in lane 0, zero elsewhere (R108, R160). -/
def vecReduce (fmt func rm : Nat) (a : VReg) : VReg :=
  let w := laneBits fmt
  let es := (List.range (laneCount fmt)).map (laneOf w a)
  let l1 := pairUp (reduceLeaf fmt func rm) es
  packLanes w ((reduceLevels (reduceNode fmt func rm) 3 l1).take 1)

/-- CVT: elements converted and packed into the low bits, the rest zero (R110, R148); `word i` is element i's draw. -/
def vecCvt (src dst : Fmt) (rm : Nat) (ovf : Bool) (word : Nat → Nat) (a : VReg) : VReg :=
  let n := if src = .fp64 ∨ dst = .fp64 then 8 else 16
  packLanes (fmtBits dst) ((List.range n).map (fun i => convertNum src dst rm ovf (word i) (laneOf (fmtBits src) a i)))

/-- VPERM (R109). -/
def vecPerm (fmt : Nat) (shift : Int) (a b : VReg) : VReg :=
  let w := laneBits fmt
  let n := laneCount fmt
  packLanes w ((List.range n).map (fun (l : Nat) =>
    let j : Int := (l : Int) + shift
    if 0 ≤ j ∧ j < n then laneOf w a j.toNat else laneOf w b (j % n).toNat))

/-- VRNG: 16 random words (R110). -/
def vecRng (seed c2 step pos : Nat) : VReg :=
  packLanes 32 ((List.range 16).map (fun l => drawWord seed c2 step (pos + l)))

end Sys2Proof.Machine
end

