-- ==== Sys2Proof/Machine/Operands.lean ====
section
/-!
DEFINITION. Operand forms of the core's instructions: fields of the instruction word and its reserved bits (R77), the
scalar and vector registers (R80, R105), immediates, and the address generators (R88).
-/

namespace Sys2Proof.Machine

/-- Field `[lo + n − 1 : lo]` of an instruction word. -/
def fld (w : DWord) (lo n : Nat) : Nat := bitsOf w.toNat lo n

/-- CLASS of an instruction word (R77). -/
def wClass (w : DWord) : Nat := fld w 0 4

/-- OP of an instruction word (R77). -/
def wOp (w : DWord) : Nat := fld w 4 4

/-- CC of an instruction word (R77). -/
def wCc (w : DWord) : Nat := fld w 8 3

/-- Whether every bit outside the listed fields (lowest bit, width) is 0 (R77). -/
def onlyFields (w : DWord) (fs : List (Nat × Nat)) : Bool :=
  fs.foldl (fun n f => putBits n f.1 f.2 0) w.toNat == 0

/-- X[i]: X0 reads as 0 (R80). -/
def xget (k : Core) (i : Nat) : DWord := if i = 0 then 0#64 else mapGet 0#64 k.seq.x i

/-- X[i] as a number. -/
def xnat (k : Core) (i : Nat) : Nat := (xget k i).toNat

/-- X[i] := v: a write to X0 is discarded (R80). -/
def xset (i : Nat) (v : DWord) (k : Core) : Core :=
  if i = 0 then k else { k with seq := { k.seq with x := mapSet 0#64 k.seq.x i v } }

/-- What V[i] reads as where it is not listed: 0, or a free value where it is not preserved. -/
def vUnlisted (k : Core) (i : Nat) : VReg :=
  match k.vAny with
  | some d => BitVec.ofNat 512 (ofBytes ((List.range 64).map (fun j => (Config.freeByte d (64 * i + j)).toNat)))
  | none => 0#512

/-- V[i]. -/
def vget (k : Core) (i : Nat) : VReg := mapGet (vUnlisted k i) k.v i

/-- Whether V[i] holds a poisoned value (R104). -/
def vbad (k : Core) (i : Nat) : Bool := mapGet false k.vPoison i

/-- V[i] := v with its poison mark. -/
def vset (i : Nat) (v : VReg) (bad : Bool) (k : Core) : Core :=
  { k with v := mapSet (vUnlisted k i) k.v i v, vPoison := mapSet false k.vPoison i bad }

/-- IMM32 of a SCALAR word, sign-extended to 64 bits (R80). -/
def imm32 (w : DWord) : DWord := BitVec.ofInt 64 (signedOf 32 (fld w 28 32))

/-- An address generator of the core. -/
def agOf (k : Core) (i : Nat) : AGen := mapGet .zero k.seq.ags i

/-- Replace an address generator. -/
def agSet (i : Nat) (g : AGen) (k : Core) : Core :=
  { k with seq := { k.seq with ags := mapSet .zero k.seq.ags i g } }

/-- A count field: 0 means 65,536 (R89). -/
def agCount (n : Nat) : Nat := if n = 0 then 65536 else n

/-- The generator's present address before placement: signed, 32 bits (R88). -/
def agRaw (g : AGen) : Int :=
  signedOf 32 (wrapInt 32 ((g.base : Int) + g.i0 * g.stride0 + g.i1 * g.stride1))

/-- The generator's present address, placed in the window where WSIZE is not 0 (R88). -/
def agAddr (g : AGen) : Int :=
  if g.wsize = 0 then agRaw g else (g.wbase : Int) + (agRaw g - g.wbase) % g.wsize

/-- The generator advanced (R88). -/
def agNext (g : AGen) : AGen :=
  if g.i0 + 1 = agCount g.count0 then
    (if g.i1 + 1 = agCount g.count1 then { g with i0 := 0, i1 := 0 } else { g with i0 := 0, i1 := g.i1 + 1 })
  else { g with i0 := g.i0 + 1 }

/-- The start address an instruction names: generator `ag` 0 to 5, or X[xa] with `ag` 6, as a signed number. -/
def startAddr (k : Core) (ag xa : Nat) : Int := if ag = 6 then (xget k xa).toInt else agAddr (agOf k ag)

/-- The core with the generator that an instruction names advanced (R88). -/
def agUse (ag : Nat) (k : Core) : Core := if ag < 6 then agSet ag (agNext (agOf k ag)) k else k

end Sys2Proof.Machine
end

