-- ==== Sys2Proof/Machine/ArrayMath.lean ====
section
/-!
DEFINITION. The arithmetic of the matrix array: operand types and panels (R120 to R122), one output in the reference
order (R128 to R132, R158), folds into an accumulator, and the rows of an ADRAIN (R142).
-/

namespace Sys2Proof.Machine

/-- The element format of an array type code (R120). -/
def arrFmt (t : Nat) : Option Fmt :=
  [Fmt.e4m3, .e5m2, .e4m3, .e5m2, .e3m2, .e2m3, .e2m1, .mxint8, .int8, .uint8, .int4, .uint4, .bf16, .fp16, .fp32][t]?

/-- The group of an array type code (R120); 0 for the reserved code. -/
def arrGroup (t : Nat) : Nat :=
  if t ≤ 1 then 1 else if t ≤ 7 then 2 else if t ≤ 11 then 3 else if t ≤ 13 then 4 else if t = 14 then 5 else 0

/-- Element bits of an array type code. -/
def arrBits (t : Nat) : Nat := match arrFmt t with | some f => fmtBits f | none => 0

/-- Whether MCFG accepts a pair of types and an accumulation mode (R120). -/
def pairLegal (at_ bt amode : Nat) : Bool :=
  arrGroup at_ != 0 && arrGroup at_ == arrGroup bt && (arrGroup at_ != 4 || at_ == bt) &&
  !(amode == 1 && arrGroup at_ == 3)

/-- ru64: up to a multiple of 64 (R122). -/
def ru64 (n : Nat) : Nat := (n + 63) / 64 * 64

/-- The stream handshakes of a fold for one type (R121). -/
def hkOf (t other amode k : Nat) : Nat :=
  match arrGroup t with
  | 1 => if amode = 1 then 2 * k else k
  | 2 => if t = 6 ∧ other = 6 then k / 2 else k
  | 3 => if 10 ≤ t ∧ 10 ≤ other then (k + 1) / 2 else k
  | 4 => 2 * k
  | _ => 16 * k

/-- Hk of a pair: the larger of the two rows' values (R121). -/
def pairHk (at_ bt amode k : Nat) : Nat := max (hkOf at_ bt amode k) (hkOf bt at_ amode k)

/-- 512 times the MACs per cell per handshake of a pair (R121, R145 CELL_SLOTS). -/
def pairSlots (at_ bt amode : Nat) : Nat := 512 * 32 / pairHk at_ bt amode 32

/-- Bytes of a slice of `q` elements per k (8 for A, 64 for B) with `k` steps (R122): SA or SB. -/
def sliceBytes (t q k : Nat) : Nat :=
  ru64 (k * q * arrBits t / 8) + (if arrGroup t = 2 then ru64 (k / 32 * q) else 0)

/-- Bytes of a panel of `d` rows (A) or columns (B) with `q` elements per vector (R122). -/
def panelBytes (t q d k : Nat) : Nat := (d + q - 1) / q * sliceBytes t q k

/-- The bits of element `i` of vector `k` of slice `sl` (R122). -/
def panelElem (t q kk : Nat) (pan : Nat) (sl k i : Nat) : Nat :=
  let b := arrBits t
  let base := sl * sliceBytes t q kk + k * (q * b / 8)
  bitsOf pan (8 * base + i * b) b

/-- The scale byte of block `kb` for element `i` of slice `sl` (R122). -/
def panelScale (t q kk : Nat) (pan : Nat) (sl kb i : Nat) : Nat :=
  bitsOf pan (8 * (sl * sliceBytes t q kk + ru64 (kk * q * arrBits t / 8) + kb * q + i)) 8

/-- Whether a poisoned panel offset in `bad` reaches element `i` of slice `sl` at some k (R143). -/
def panelBad (t q kk : Nat) (bad : List Nat) (sl i : Nat) : Bool :=
  let b := arrBits t
  let lo := sl * sliceBytes t q kk
  let sc := lo + ru64 (kk * q * b / 8)
  bad.any (fun o =>
    (decide (lo ≤ o ∧ o < lo + kk * (q * b / 8)) &&
      (let r := (o - lo) % (q * b / 8)
       decide (i * b / 8 ≤ r ∧ r ≤ (i * b + b - 1) / 8))) ||
    (arrGroup t == 2 && decide (sc ≤ o ∧ o < sc + kk / 32 * q) && (o - sc) % q == i))

/-- The random word of an addition with AMODE = 1 (R131). -/
def arrWord (j : MmaJob) (m n kk : Nat) : Nat :=
  drawWord j.seed j.c2 j.step (j.pos + (kk * j.m + m) * j.n + n)

/-- round32 of R158. -/
def round32 (j : MmaJob) (m n kk : Nat) (x : Num) : Nat :=
  if j.amode = 1 then encodeNum .fp32 4 false ⟨arrWord j m n kk, none⟩ x else encodeNum .fp32 0 false noDraw x

/-- The value of an A or B element. -/
def arrVal (t : Nat) (bits : Nat) : Num := match arrFmt t with | some f => decodeNum f bits | none => .nan

/-- The signed integer value of a group-3 element. -/
def arrInt (t : Nat) (bits : Nat) : Int :=
  match arrVal t bits with
  | .fin neg m _ => signedMant neg m
  | _ => 0

/-- Product of element k of row m and column n. -/
def mmaProduct (j : MmaJob) (m n k : Nat) : Num :=
  mulNum (arrVal j.at_ (panelElem j.at_ 8 j.k j.apan (m / 8) k (m % 8)))
    (arrVal j.bt (panelElem j.bt 64 j.k j.bpan (n / 64) k (n % 64)))

/-- The exact sum of the products of a block of 32 k (R158, group 2). -/
def mmaBlock (j : MmaJob) (m n kb : Nat) : Num :=
  let p := (List.range 32).foldl (fun a i => addNum 0 a (mmaProduct j m n (kb * 32 + i))) (.fin true 0 0)
  let xa := panelScale j.at_ 8 j.k j.apan (m / 8) kb (m % 8)
  let xb := panelScale j.bt 64 j.k j.bpan (n / 64) kb (n % 64)
  if xa = 255 ∨ xb = 255 then .nan else scaleNum ((xa : Int) - 127 + ((xb : Int) - 127)) p

/-- One integer addition with saturation and whether it saturated (R132, R158). -/
def sat32 (s : Nat) (p : Int) : Nat × Bool :=
  let z := signedOf 32 s + p
  if z < -2147483648 then (0x80000000, true) else if 2147483647 < z then (0x7FFFFFFF, true) else (wrapInt 32 z, false)

/-- One output of an MMA from its starting sum (R128, R158): the sum's bits and whether an addition saturated. -/
def mmaCell (j : MmaJob) (m n s0 : Nat) : Nat × Bool :=
  match arrGroup j.at_ with
  | 2 => ((List.range (j.k / 32)).foldl
      (fun s kb => round32 j m n kb (addNum 0 (decodeNum .fp32 s) (mmaBlock j m n kb))) s0, false)
  | 3 => (List.range j.k).foldl (fun s k =>
      let r := sat32 s.1 (arrInt j.at_ (panelElem j.at_ 8 j.k j.apan (m / 8) k (m % 8)) *
        arrInt j.bt (panelElem j.bt 64 j.k j.bpan (n / 64) k (n % 64)))
      (r.1, s.2 || r.2)) (s0, false)
  | _ => ((List.range j.k).foldl
      (fun s k => round32 j m n k (addNum 0 (decodeNum .fp32 s) (mmaProduct j m n k))) s0, false)

/-- Whether the tile of an MMA is INT32 (R120). -/
def jobKind (j : MmaJob) : Nat := if arrGroup j.at_ = 3 then 1 else 0

/-- What entry `e` of an accumulator reads as where it is not listed: 0, or a free value where it is not preserved. -/
def accUnlisted (a : Acc) (e : Nat) : Nat :=
  match a.any with
  | some i => ofBytes ((List.range 4).map (fun j => (Config.freeByte i (4 * e + j)).toNat))
  | none => 0

/-- Entry `e` of an accumulator. -/
def accEnt (a : Acc) (e : Nat) : Nat := mapGet (accUnlisted a e) a.ent e

/-- The entries of an accumulator that are not 0. -/
def accPlain (a : Acc) : List (Nat × Nat) :=
  match a.any with
  | none => a.ent
  | some _ => (List.range 4096).filterMap (fun e => if accEnt a e = 0 then none else some (e, accEnt a e))

/-- One active cell's result drained into the accumulator (R128, R129, R132, R143): entries newly saturated counted. -/
def mmaEntry (j : MmaJob) (m n : Nat) (r : Acc × Nat) : Acc × Nat :=
  let a := r.1
  let e := m * j.n + n
  let s0 := if j.cont then accEnt a e else if jobKind j = 1 then 0 else 0x80000000
  let bad := (j.cont && mapGet false a.bad e) || panelBad j.at_ 8 j.k j.abad (m / 8) (m % 8) ||
    panelBad j.bt 64 j.k j.bbad (n / 64) (n % 64)
  let v := mmaCell j m n s0
  let fresh := v.2 && !mapGet false a.satEnt e
  ({ a with ent := mapSet (accUnlisted a e) a.ent e v.1, bad := mapSet false a.bad e bad, upset := mapSet 0 a.upset e 0,
            satEnt := mapSet false a.satEnt e (mapGet false a.satEnt e || v.2),
            sat := a.sat || v.2, poison := a.poison || bad }, r.2 + b2n fresh)

/-- The folds of an MMA (R128). -/
def foldCount (j : MmaJob) : Nat := (j.m + 7) / 8 * ((j.n + 63) / 64)

/-- Fold `f` of an MMA, N-fold outer and M-fold inner (R128). -/
def mmaFold (j : MmaJob) (f : Nat) (r : Acc × Nat) : Acc × Nat :=
  let nm := (j.m + 7) / 8
  let nf := f / nm
  let mf := f % nm
  foldUpTo 8 (fun i r => foldUpTo 64 (fun jj r =>
    if 8 * mf + i < j.m ∧ 64 * nf + jj < j.n then mmaEntry j (8 * mf + i) (64 * nf + jj) r else r) r) r

/-- Whether the fold of an MMA takes the sums that stand in the working registers, with no reload (R135): a CONTINUE on
a single-fold tile right after a fold of the same accumulator and tile. -/
def keepsSums (k : Core) (j : MmaJob) : Bool :=
  j.cont && foldCount j == 1 && k.lastFold == some (j.acc, j.tile)

/-- The accumulator from which the folds of an MMA start: its parked sums, or on the one fold of a `keepsSums` MMA the
sums of the working registers (R130, R135). -/
def startAcc (k : Core) (j : MmaJob) (a : Acc) : Acc :=
  if keepsSums k j then
    foldUpTo j.m (fun m a => foldUpTo j.n (fun n a =>
      let w := mapGet (0, false) k.work (64 * m + n)
      let e := m * j.n + n
      { a with ent := mapSet (accUnlisted a e) a.ent e w.1, bad := mapSet false a.bad e w.2 }) a) a
  else a

/-- The cells' sums after the last fold of an MMA, masked cells as they were (R118, R129). -/
def foldSums (j : MmaJob) (a : Acc) (w : List (Nat × (Nat × Bool))) : List (Nat × (Nat × Bool)) :=
  let f := foldCount j - 1
  let nm := (j.m + 7) / 8
  foldUpTo 8 (fun i w => foldUpTo 64 (fun jj w =>
    let m := 8 * (f % nm) + i
    let n := 64 * (f / nm) + jj
    if m < j.m ∧ n < j.n then mapSet (0, false) w (64 * i + jj) (accEnt a (m * j.n + n), mapGet false a.bad (m * j.n + n))
    else w) w) w

/-- The core once every fold of an MMA has drained into `a` (R118, R128, R135). -/
def foldsDone (j : MmaJob) (a : Acc) (k : Core) : Core :=
  let w := foldSums j a k.work
  { k with work := w, shadow := w, lastFold := if foldCount j = 1 then some (j.acc, j.tile) else none }

/-- The first `n` folds of an MMA, with the count of entries newly saturated. -/
def mmaFolds (j : MmaJob) (n : Nat) (a : Acc) : Acc × Nat := foldUpTo n (mmaFold j) (a, 0)

/-- An accumulator of the core. -/
def accOf (k : Core) (i : Nat) : Acc := if i = 0 then k.acc0 else k.acc1

/-- Replace an accumulator. -/
def setAcc (i : Nat) (a : Acc) (k : Core) : Core := if i = 0 then { k with acc0 := a } else { k with acc1 := a }

/-- The MMAs in flight into an accumulator (R145). -/
def inflight (k : Core) (i : Nat) : Nat := (k.queue.filter (fun j => j.acc == i)).length

/-- The destination format and element bytes of an ADRAIN DTYPE (R142). -/
def drainFmt (dtype kind : Nat) : Option (Fmt × Nat) :=
  match dtype with
  | 0 => some (if kind = 1 then .int32 else .fp32, 4)
  | 1 => some (.bf16, 2)
  | 2 => some (.fp16, 2)
  | 3 => some (.e4m3, 1)
  | 4 => some (.e5m2, 1)
  | 5 => some (.int8, 1)
  | _ => none

/-- Entry `e` of an accumulator as an ADRAIN writes it (R142): DTYPE 0 moves the bits. -/
def drainElem (d : DrainJob) (a : Acc) (e : Nat) : Nat :=
  let v := accEnt a e
  match drainFmt d.dtype a.kind with
  | some (f, _) =>
    if d.dtype = 0 then v
    else if d.dtype = 5 then satInt .int8 (signedOf 32 v)
    else convertNum .fp32 f d.rm d.ovf (if d.rm = 4 then drawWord d.seed d.c2 d.step (d.pos + e) else 0) v
  | none => v

/-- The element bytes of an ADRAIN. -/
def drainWidth (d : DrainJob) : Nat := match drainFmt d.dtype 0 with | some (_, w) => w | none => 4

/-- The row stride of an ADRAIN: RSTRIDE, or N × w when RSTRIDE is 0 (R142). -/
def drainStride (d : DrainJob) (n : Nat) : Nat := if d.stride = 0 then n * drainWidth d else d.stride

/-- The bytes of scratch that an ADRAIN of an M × N tile spans from its start. -/
def drainSpan (d : DrainJob) (m n : Nat) : Nat :=
  if m = 0 ∨ n = 0 then 0 else (m - 1) * drainStride d n + n * drainWidth d

/-- The first `rows` rows of an ADRAIN written to scratch, poisoned entries marked (R142, R143). -/
def drainRows (d : DrainJob) (rows : Nat) (k : Core) : Core :=
  let a := accOf k d.acc
  let w := drainWidth d
  foldUpTo (min rows a.m) (fun m k => foldUpTo a.n (fun n k =>
    scrWrite (d.start + m * drainStride d a.n + n * w) (bytesOf w (drainElem d a (m * a.n + n)))
      (mapGet false a.bad (m * a.n + n)) k) k) k

end Sys2Proof.Machine
end

