-- ==== Sys2Proof/Machine/CoreOps.lean ====
section
/-!
DEFINITION. Issue on a core: when a core issues (R79, R85, R114, R115), how the pc and the hardware loops advance
(R86, R87), how an instruction waits, and how a core fault is taken (R113, R114, R140).
-/

namespace Sys2Proof.Machine

/-- Whether a core may issue: a segment is current, it is neither faulted nor stopped, and the module runs (R442). With
`dbg` the core is one that the debug path has stopped and single-steps (R115). -/
def canIssue (dbg : Bool) (s : State) (k : Core) : Bool :=
  k.cur.isSome && !k.faulted && !k.stopIssue && !s.stopAll && (k.dbgStop == dbg)

/-- The pc and loop stack after an instruction that is not a taken branch: at a body's last instruction the loop
returns to its start, or is left (R86). -/
def loopNext : List LoopLevel → Nat → List LoopLevel × Nat
  | [], pc => ([], pc + 1)
  | l :: ls, pc =>
    if pc = l.last then
      (if 1 < l.left then ({ l with left := l.left - 1 } :: ls, l.start) else loopNext ls pc)
    else (l :: ls, pc + 1)

/-- The core with its pc moved past the present instruction. -/
def stepPc (k : Core) : Core :=
  let r := loopNext k.seq.loops k.seq.pc
  { k with ran := true, seq := { k.seq with loops := r.1, pc := r.2 } }

/-- The core after a taken branch: loop levels whose body does not contain the target are discarded (R87). -/
def branchTo (t : Nat) (k : Core) : Core :=
  { k with ran := true, seq := { k.seq with loops := k.seq.loops.filter (fun l => decide (l.start ≤ t ∧ t ≤ l.last)), pc := t } }

/-- The core with its issue waits cleared. -/
def noWaits (k : Core) : Core :=
  { k with waitBook := false, waitTally := false, waitXfer := false, waitAcc := false, waitQueue := false }

/-- An instruction issues and its unit works on: the core changed by `f`, its pc advanced. -/
def advance (c : Nat) (f : Core → Core) (s : State) : State := modCore c (fun k => stepPc (f (noWaits k))) s

/-- An instruction retires: the core changed by `f`, its pc advanced, the event counted (R487 event 0x01). -/
def retire (c : Nat) (f : Core → Core) (s : State) : State := countCore c 0x01 1 (advance c f s)

/-- A VEC instruction retires (R487 event 0x0A). -/
def retireVec (c : Nat) (f : Core → Core) (s : State) : State := countCore c 0x0A 1 (retire c f s)

/-- An instruction holds issue with the wait flags that `f` sets. -/
def holdIssue (c : Nat) (f : Core → Core) (s : State) : State := modCore c (fun k => f (noWaits k)) s

/-- Whether core (y, x) lies in the rectangle of a started entry. -/
def inRect (st : Started) (c : Nat) : Bool :=
  decide (st.y0 ≤ c / 128 ∧ c / 128 < st.y0 + st.h ∧ st.x0 ≤ c % 128 ∧ c % 128 < st.x0 + st.w)

/-- The dike on the segment that core `c` runs (R114, R401): its cores issue nothing for the context. -/
def dikeSegment (c : Nat) (s : State) : State :=
  let k := coreOf s c
  match k.ctx, k.cur with
  | some n, some st =>
    match ctxOf s n with
    | some x =>
      let hit := fun (e : Started) => e.stream == st && !e.ended && inRect e c
      let rects := x.started.filter hit
      mapCores (fun i k' => k'.ctx == some n && rects.any (fun e => inRect e i)) (fun k' => { k' with stopIssue := true })
        (setCtx n { x with started := x.started.map (fun e => if hit e then { e with diked := true } else e) } s)
    | none => s
  | _, _ => s

/-- The class of a core error bit (R113, R144): 0 corrected, 1 step-fatal, 2 context-fatal. -/
def coreErrClass (bit : Nat) : Nat :=
  if bit = 13 ∨ bit = 21 then 0 else if bit = 14 ∨ bit = 15 ∨ bit = 22 then 1 else 2

/-- The step tag of the segment that a core runs, where it carries one (R245, R417). -/
def coreStep (k : Core) : Option Nat :=
  match k.cur with
  | some st => match mapFind k.res st with
    | some g => if g.stepValid then some g.step else none
    | none => none
  | none => none

/-- One accumulator entry read (R143): a single-bit error corrected and counted, a double-bit error recorded and the
entry poisoned and ACCn_STATE.POISON set. -/
def accRead1 (c i e : Nat) (r : Bool × State) : Bool × State :=
  let s := r.2
  let a := accOf (coreOf s c) i
  let u := mapGet 0 a.upset e
  if u = 0 then r
  else if u = 1 then
    (r.1, recordErr (pgArray c) 21 (coreOf s c).ctx (bumpSat (pgArray c) R.ARRAY_ACC_CE_COUNT 1
      (modCore c (setAcc i { a with upset := mapSet 0 a.upset e 0 }) s)))
  else
    (true, wr (pgArray c) R.ARRAY_ACC_UE_ENTRY e (wr (pgArray c) R.ARRAY_ACC_UE_ACC i (wr (pgArray c) R.ARRAY_ACC_UE_VALID 1
      (modCore c (setAcc i { a with upset := mapSet 0 a.upset e 0, bad := mapSet false a.bad e true, poison := true }) s))))

/-- The SECDED check of accumulator entries that are read, with the injections of ACC_CE and ACC_UE (R61, R143).
Answers whether a double-bit error was met. -/
def accSecded (c i : Nat) (es : List Nat) (s : State) : Bool × State :=
  let (ce, s1) := checkFor (pgArray c) 21 false s
  let s2 := if ce then recordErr (pgArray c) 21 (coreOf s1 c).ctx (bumpSat (pgArray c) R.ARRAY_ACC_CE_COUNT 1 s1) else s1
  let (ue, s3) := checkFor (pgArray c) 22 false s2
  let s4 := if ue then modCore c (fun k =>
      let a := accOf k i
      setAcc i { a with upset := mapSet 0 a.upset (es.headD 0) 2 } k) s3 else s3
  es.foldl (fun r e => accRead1 c i e r) (false, s4)

/-- The MACs of fold `f` of an MMA by its active cells (R128, R129). -/
def foldMacs (j : MmaJob) (f : Nat) : Nat :=
  let nm := (j.m + 7) / 8
  min 8 (j.m - 8 * (f % nm)) * min 64 (j.n - 64 * (f / nm)) * j.k

/-- The accumulator entries that the first `n` folds of an MMA reload, a fold that keeps its sums aside (R134, R135). -/
def reloaded (k : Core) (j : MmaJob) (n : Nat) : List Nat :=
  if !j.cont || keepsSums k j then []
  else (List.range (j.m * j.n)).filter (fun e => decide (e % j.n / 64 * ((j.m + 7) / 8) + e / j.n / 8 < n))

/-- The SECDED check of the entries that an MMA's folds reload (R134, R143): none where nothing is reloaded. -/
def reloadSecded (c : Nat) (j : MmaJob) (n : Nat) (s : State) : Bool × State :=
  let es := reloaded (coreOf s c) j n
  if es.isEmpty then (false, s) else accSecded c j.acc es s

/-- The first `n` folds of an abandoned MMA drain, and the MACs of its active cells are counted: those of the finished
folds and `part` of the streaming one (R132, R140, R145; log 36). -/
def abortJob (c n part : Nat) (j : MmaJob) (s : State) : State :=
  let r := reloadSecded c j n s
  let k := coreOf r.2 c
  let d := mmaFolds j n (startAcc k j (accOf k j.acc))
  let macs := foldUpTo n (fun f t => t + foldMacs j f) (part % (foldMacs j n + 1))
  let s1 := countCore c 0x45 d.2 (bumpSat (pgArray c) R.ARRAY_SAT_COUNT d.2 (bump (pgArray c) R.ARRAY_MAC_COUNT macs
    (modCore c (setAcc j.acc d.1) r.2)))
  if r.1 then recordErr (pgArray c) 22 (coreOf s1 c).ctx s1 else s1

/-- The array's part of an accumulator hazard fault (R140): the folds of the queued MMAs that had finished streaming,
oldest first, complete (how many is open), the queue and the working sums are discarded, and an ADRAIN stops at its
current row (which is open). How many handshakes CELL_SLOTS counted for them is open too (log 36). -/
def abortArray (c : Nat) (s : State) : State :=
  let (f1, s1) := drawFree s
  let (f2, s2) := drawFree s1
  let (f3, s3) := drawFree s2
  let (f4, s4) := drawFree s3
  let q := (coreOf s c).queue
  let t1 := match q with
    | [] => s4
    | j :: js =>
      let n := f1 % (q.foldl (fun t j => t + foldCount j) 0 + 1)
      let u := bump (pgArray c) R.ARRAY_CELL_SLOTS (pairSlots j.at_ j.bt j.amode * f4)
        (abortJob c (min n (foldCount j)) f3 j s4)
      if n < foldCount j then u else js.foldl (fun t i => abortJob c (n - foldCount j) f3 i t) u
  let t2 := match (coreOf t1 c).drain with
    | none => t1
    | some d =>
      let a := accOf (coreOf t1 c) d.acc
      let rows := f2 % (a.m + 1)
      let r := if rows = 0 then (false, t1) else accSecded c d.acc (List.range (rows * a.n)) t1
      modCore c (drainRows d rows) (if r.1 then recordErr (pgArray c) 22 (coreOf r.2 c).ctx r.2 else r.2)
  modCore c (fun k => { k with queue := [], drain := none, work := [], lastFold := none }) t2

/-- A core error of class step-fatal or context-fatal (R114) under a code: issue stops at the instruction, the booking
is released, the instruction and its index are recorded, FAULTED is set, a dike rises on the segment, and the context
is acted on by the error's class (R399). -/
def coreFaultCode (c bit code : Nat) (w : DWord) (s : State) : State :=
  let k := coreOf s c
  let s1 := lowerCore c 0 (if 16 ≤ bit ∧ bit ≤ 18 then abortArray c s else s)
  let s2 := wr (pgCore c) R.CORE_FAULT_INSN w.toNat (wr (pgCore c) R.CORE_FAULT_PC_PC k.seq.pc
    (wr (pgCore c) R.CORE_FAULT_PC_VALID 1 s1))
  let s3 := recordCode (pgCore c) bit code k.ctx s2
  let s4 := dikeSegment c (modCore c (fun k => { noWaits k with faulted := true }) s3)
  match k.ctx with
  | some n => if coreErrClass bit = 1 then stepFatal n code (coreStep k) s4 else ctxFatal n code s4
  | none => s4

/-- A core error under its code of R402. -/
def coreFault (c bit : Nat) (w : DWord) (s : State) : State := coreFaultCode c bit (errCode .core bit) w s

/-- A core error that no instruction raised (a read by another agent met it): recorded, the core stops, and its
context is acted on (R104, R114). `src` is the instruction, with its index, whose work under way met it: it is recorded
in FAULT_INSN and FAULT_PC (R114 point 4). -/
def coreAsyncFault (c bit : Nat) (src : Option (Nat × Nat)) (s : State) : State :=
  let k := coreOf s c
  let s0 := match src with
    | some (w, pc) => wr (pgCore c) R.CORE_FAULT_INSN w (wr (pgCore c) R.CORE_FAULT_PC_PC pc
        (wr (pgCore c) R.CORE_FAULT_PC_VALID 1 s))
    | none => s
  let s1 := recordErr (pgCore c) bit k.ctx (lowerCore c 0 s0)
  let s2 := dikeSegment c (modCore c (fun k => { noWaits k with faulted := true }) s1)
  match k.ctx with
  | some n => stepFatal n (errCode .core bit) (coreStep k) s2
  | none => s2

/-- One check of kind `bit` at a core: where it fails, or an injection stands for it, the fault; else the continuation. -/
def coreCheck (c bit : Nat) (w : DWord) (bad : Bool) (s : State) (ok : State → State) : State :=
  let r := checkFor (pgCore c) bit bad s
  if r.1 then coreFault c bit w r.2 else ok r.2

/-- A corrected word of scratch or instruction memory: counted, nothing else changes (R104, R113). -/
def coreCe (c : Nat) (s : State) : State :=
  recordErr (pgCore c) 13 (coreOf s c).ctx (countCore c 0x0B 1 (bumpSat (pgCore c) R.CORE_CE_COUNT 1 s))

/-- The last uncorrectable word recorded (R115 UE_ADDR). -/
def noteUe (c a : Nat) (imem : Bool) (s : State) : State :=
  wr (pgCore c) R.CORE_UE_ADDR_ADDR a (wr (pgCore c) R.CORE_UE_ADDR_IMEM (b2n imem)
    (wr (pgCore c) R.CORE_UE_ADDR_VALID 1 s))

/-- The SECDED check of the scratch words that an access reads (R104): single-bit errors corrected and written back,
a double-bit error recorded with its row; an injected one stands in the first word read (log 78). Answers whether a
double-bit error was met. -/
def scrSecded (c a n : Nat) (s : State) : Bool × State :=
  let ws := wordsOf a n
  let k := coreOf s c
  let ces := ws.filter (fun w => mapGet 0 k.scrUpset w == 1)
  let ues := ws.filter (fun w => mapGet 0 k.scrUpset w == 2)
  let s1 := ces.foldl (fun t w => coreCe c (modCore c (fun k => { k with scrUpset := mapSet 0 k.scrUpset w 0 }) t)) s
  let (ce, s2) := checkFor (pgCore c) 13 false s1
  let s3 := if ce then coreCe c s2 else s2
  let (ue, s4) := checkFor (pgCore c) 14 (!ues.isEmpty) s3
  if ue then
    (true, noteUe c (ues.headD (a / 8) * 8 / 64 * 64) false
      (if ues.isEmpty then modCore c (fun k => { k with scrUpset := mapSet 0 k.scrUpset (a / 8) 2 }) s4 else s4))
  else (false, s4)

/-- Issue of word `w` on core `c` (R76, R79, R104, R113): nothing where the core cannot issue; a stop at the
breakpoint; IMEM_RANGE past index 4,095; IMEM_UE or a corrected word at fetch; else the instruction's own effect.
DESIGN CHOICE (log 75): after RESUME the first attempt to issue spends the pass over the breakpoint. -/
def issue (dbg : Bool) (c : Nat) (w : DWord) (body : State → State) (s : State) : State :=
  let k := coreOf s c
  if !canIssue dbg s k then s
  else if !dbg && !k.bpPass && rd s (pgCore c) R.CORE_DBG_BP_EN == 1 && rd s (pgCore c) R.CORE_DBG_BP_PC == k.seq.pc then
    modCore c (fun k => { k with dbgStop := true }) (wr (pgCore c) R.CORE_DBG_CTRL_STOP 1 s)
  else
    let s0 := modCore c (fun k => { k with bpPass := false }) s
    coreCheck c 1 w (decide (4095 < k.seq.pc)) s0 (fun s1 =>
      let r := checkFor (pgCore c) 15 (mapGet 0 k.imemUpset k.seq.pc == 2) s1
      if r.1 then coreFault c 15 w (noteUe c (k.seq.pc * 8) true r.2)
      else
        let s2 := if mapGet 0 k.imemUpset k.seq.pc = 1 then
            coreCe c (modCore c (fun k => { k with imemUpset := mapSet 0 k.imemUpset k.seq.pc 0 }) r.2) else r.2
        body s2)

/-- A core-instruction command: its word must spell its row, else the command is malformed (R77, R78). -/
def coreCmd (ok : Bool) (t : State) : Host.Outcome State Fault Refusal :=
  if ok then .next t else .fault .malformedCommand

/-- The booking check of a heavy instruction (R91): it issues, waits for a pending grant, or faults with BOOK_UNDER. -/
def heavy (c cc : Nat) (w : DWord) (go : State → State) (s : State) : State :=
  let k := coreOf s c
  if cc ≤ k.g then coreCheck c 5 w false s go
  else if k.bookPend && decide (cc ≤ k.req) then holdIssue c (fun k => { k with waitBook := true }) s
  else coreFault c 5 w s

/-- The highest class of the heavy work in flight on a core that a lowering booking waits for (R90). -/
def heavyAbove (k : Core) (cls : Nat) : Bool :=
  k.queue.any (fun j => decide (cls < j.cc)) || k.nmoves.any (fun m => decide (cls < m.cc)) ||
    (match k.drain with | some d => decide (cls < d.cc) | none => false)

/-- Whether an access of `n` bytes from `a` meets bytes that an ADRAIN under way has yet to write: the later access
waits, so that both take effect in program order (R79). -/
def underDrain (k : Core) (a n : Nat) : Bool :=
  match k.drain with
  | some d =>
    let acc := accOf k d.acc
    decide (a < d.start + drainSpan d acc.m acc.n ∧ d.start < a + n)
  | none => false

/-- The seed of the context that a core runs for (R110, R170). -/
def coreSeed (s : State) (k : Core) : Nat :=
  match k.ctx with
  | some n => match ctxOf s n with | some x => x.seed | none => 0
  | none => 0

/-- The step number of R170 for a core: its segment's STEP tag, or 0 when untagged or its context has no steps. -/
def coreDrawStep (s : State) (k : Core) : Nat :=
  match k.ctx with
  | some n => match ctxOf s n with
    | some x => if x.typ = 0 then (coreStep k).getD 0 else 0
    | none => 0
  | none => 0

/-- The tags that a core's transfers carry (R204). -/
def coreTag (s : State) (k : Core) : Tag :=
  let n := k.ctx.getD 0
  ⟨n, k.polder, k.gen, (match ctxOf s n with | some x => x.job | none => 0), coreStep k⟩

end Sys2Proof.Machine
end

