-- ==== Sys2Proof/Machine/Pages.lean ====
section
/-!
DEFINITION. Buffered writes of a page (R65 to R68): the pending buffer, one value per register, and its application at
the block's boundary.
-/

namespace Sys2Proof.Machine

/-- The pending value of the register at an offset, if one is held (R65). -/
def pendAt (s : State) (p : Page) (off : Nat) : Option Nat := mapFind s.pend (wordKey p off)

/-- The register number of a row that begins at an offset. -/
def regAt (f : RegField) (off : Nat) : Option Nat :=
  if f.stride = 0 then (if off = f.off then some 0 else none)
  else if f.off + f.n0 * f.stride ≤ off ∧ off < f.off + (f.n0 + f.cnt) * f.stride ∧ (off - f.off) % f.stride = 0 then
    some ((off - f.off) / f.stride)
  else none

/-- The rows of a page whose registers begin at an offset, with the register's number. On the FUSE page the offsets that
R482 gives both to KEY_WORD 16 to 18 and to PROG, SVN_ADVANCE and PROG_STATUS are the latter's. -/
def rowsAt (c : Cls) (off : Nat) : List (RegField × Nat) :=
  ((fieldsOf c).filterMap (fun f => (regAt f off).map (fun n => (f, n)))).filter (fun e =>
    !(c == .fuse && decide (0x180 ≤ off ∧ off < 0x18C) && e.1.stride != 0))

/-- A WB value is held for the register at an offset (R65): over a value already held, REPLACED is set. -/
def holdPend (p : Page) (off v : Nat) (s : State) : State :=
  let s1 := if (pendAt s p off).isSome then wr (headPage p) R.HEADER_CTRL_PEND_REPLACED 1 s else s
  { s1 with pend := mapPut s1.pend (wordKey p off) v }

/-- A counter set to 0 as its selection applies (R485); no level has been sampled for it yet. -/
def zeroCounter (p : Page) (cnt : RegField) (n : Nat) (s : State) : State :=
  { wri p cnt n 0 s with levels := mapDel s.levels (fieldKey p cnt n) }

/-- One field takes its pending value; an event selection that applies zeroes its counter (R65, R485). -/
def applyField (p : Page) (v : Nat) (fn : RegField × Nat) (s : State) : State :=
  let f := fn.1
  if !f.wb then s
  else
    let s1 := wri p f fn.2 (bitsOf v f.lo f.width) s
    match counterRows p.cls with
    | some (sel, cnt, _) => if f = sel then zeroCounter p cnt fn.2 s1 else s1
    | none => s1

/-- The pending value at an offset applied. -/
def applyAt (p : Page) (off v : Nat) (s : State) : State :=
  { (rowsAt p.cls off).foldl (fun t fn => applyField p v fn t) s with pend := mapDel s.pend (wordKey p off) }

/-- The pending offsets of a page. -/
def pendOffs (s : State) (p : Page) : List (Nat × Nat) :=
  s.pend.filterMap (fun e => if wkeyPage e.1 = pageKey p then some (e.1 % 16384, e.2) else none)

/-- The pending values of a page at the offsets that `sel` takes, applied together. -/
def applySel (p : Page) (sel : Nat → Bool) (s : State) : State :=
  (pendOffs s p).foldl (fun t e => if sel e.1 then applyAt p e.1 e.2 t else t) s

/-- A boundary of a block (R65): every pending value applied, BOUNDARY_CNT raised. -/
def boundary (p : Page) (s : State) : State :=
  bump (headPage p) R.HEADER_BOUNDARY_CNT_COUNT 1 (applySel p (fun _ => true) s)

/-- A boundary of a core's pages: the ARRAY page shares the CORE page's header, so both apply as one update with one
boundary counted (R59, R65). -/
def coreBoundary (c : Nat) (s : State) : State := boundary (pgCore c) (applySel (pgArray c) (fun _ => true) s)

/-- The pending values at the offsets that `sel` takes, discarded. -/
def dropSel (p : Page) (sel : Nat → Bool) (s : State) : State :=
  { s with pend := mapDrop s.pend (fun k => decide (wkeyPage k = pageKey p) && sel (k % 16384)) }

/-- A field of a page whose values each context takes for itself (R177, R445), as it is in force for a context: what the
context took, where it has taken a value that is not in force for all yet. -/
def takenRd (s : State) (p : Page) (taken : List (Nat × List (Nat × Nat))) (n : Nat) (f : RegField) : Nat :=
  match (mapFind taken n).bind (fun ws => mapFind ws f.off) with
  | some v => bitsOf v f.lo f.width
  | none => rd s p f

/-- What a field will read once its pending value, if any, applies. -/
def pendingRd (s : State) (p : Page) (f : RegField) (n : Nat) : Nat :=
  match pendAt s p (f.off + n * f.stride) with
  | some v => if f.wb then bitsOf v f.lo f.width else rdi s p f n
  | none => rdi s p f n

end Sys2Proof.Machine
end

