-- ==== Sys2Proof/Machine/AuditOps.lean ====
section
/-!
DEFINITION. Sampling of retired MMAs by the audit engine (R434, R435).
-/

namespace Sys2Proof.Machine

/-- A core's audit state. -/
def auditOf (s : State) (c : Nat) : AuditSt := mapGet .zero s.auditSt c

/-- Replace a core's audit state. -/
def setAudit (c : Nat) (a : AuditSt) (s : State) : State := { s with auditSt := mapSet .zero s.auditSt c a }

/-- The half-row of a core, die × 64 + die row × 2 + half (R27). -/
def halfRowOf (c : Nat) : Nat := dieOfCore c * 64 + c / 128 % 32 * 2 + c % 128 % 64 / 32

/-- The auditor for a core (R435): on its die where one is free, else on another; never in its half-row. -/
def pickAuditor (s : State) (c : Nat) : Option Nat :=
  let all := (List.range 256).filter (fun h => h != halfRowOf c && auditorFree s h)
  match all.find? (fun h => h / 64 == dieOfCore c) with
  | some h => some h
  | none => all.head?

/-- An AUDIT setting in force for a context (R445): what the context took at its boundary, else the value in force. -/
def auditRd (s : State) (n : Nat) (f : RegField) : Nat := takenRd s pgAudit s.auditTaken n f

/-- Whether the draw of R434 samples the MMA that the core's MMA_COUNT now numbers. -/
def auditDrawn (s : State) (n c : Nat) (j : MmaJob) : Bool :=
  decide (drawWord j.seed (auditRd s n R.AUDIT_TID * 256 + 5) j.step
      (c * 2 ^ 32 + rd s (pgArray c) R.ARRAY_MMA_COUNT % 2 ^ 32) < 2 ^ (32 - min 24 (auditRd s n R.AUDIT_CTRL_LOG2_RATE)))

/-- A retired MMA meets the sampler (R434, R438): sampled by draw, or always in RETEST; skipped where it is not
eligible or no auditor is free. -/
def auditSample (c : Nat) (j : MmaJob) (ent : List (Nat × Nat)) (s : State) : State :=
  let k := coreOf s c
  match k.ctx with
  | none => s
  | some n =>
    if auditRd s n R.AUDIT_CTRL_EN = 0 then s
    else if (auditOf s c).st = 1 ∨ auditDrawn s n c j then
      if j.m = 0 ∨ j.n = 0 ∨ j.k = 0 ∨ 262144 < panelBytes j.at_ 8 j.m j.k + panelBytes j.bt 64 j.n j.k then bumpSat pgAudit R.AUDIT_SKIPPED 1 s
      else match pickAuditor s c with
        | none => bumpSat pgAudit R.AUDIT_SKIPPED 1 s
        | some h =>
          { s with audits := s.audits ++
              [⟨c, n, coreStep k, rd s (pgArray c) R.ARRAY_MMA_COUNT, j.m, j.n, ent, k.g, h⟩] }
    else s

end Sys2Proof.Machine
end

