-- ==== Sys2Proof/Machine/DramOps.lean ====
section
/-!
DEFINITION. The stack controllers: error outcomes of a block read (R186), the counts and records of MEMC pages (R211),
DEGRADED channels (R189), the check of a section table (R181), and reads by other units.
-/

namespace Sys2Proof.Machine

/-- Local ticks in an hour. -/
def ticksPerHour : Nat := 360000000000

/-- The module channel and stack of a physical place. -/
def chOf (q : Nat) : Nat := q / 2 ^ 31
def stackOf (q : Nat) : Nat := q / 2 ^ 31 / 32

/-- The state of a module channel set (R211 CH_STATE). -/
def setChState (ch v : Nat) (s : State) : State :=
  let p := pgMemc (ch / 32)
  let c := ch % 32
  if c < 16 then wr p R.MEMC_CH_STATE_LO (putBits (rd s p R.MEMC_CH_STATE_LO) (2 * c) 2 v) s
  else wr p R.MEMC_CH_STATE_HI (putBits (rd s p R.MEMC_CH_STATE_HI) (2 * (c - 16)) 2 v) s

/-- A healthy channel becomes DEGRADED (R189, R191 step 1). -/
def degrade (ch : Nat) (s : State) : State :=
  if chState s ch ≠ 0 then s
  else recordErr (pgMemc (ch / 32)) 4 none (wr (pgMemc (ch / 32)) R.MEMC_STATUS_MAPOUT_PENDING 1 (setChState ch 1 s))

/-- The step-fatal consequence of an error for the work it belongs to. -/
def workStepFatal (ctx step : Option Nat) (code : Nat) (s : State) : State :=
  match ctx with | some n => stepFatal n code step s | none => s

/-- The context-fatal consequence of an error for the work it belongs to. -/
def workFatal (ctx : Option Nat) (code : Nat) (s : State) : State :=
  match ctx with | some n => ctxFatal n code s | none => s

/-- A corrected error of a block (R186, R188, R189): the corrected block is rewritten, the error counted, and its channel
DEGRADED past CE_LIMIT in an hour. -/
def dramCe (q : Nat) (ctx : Option Nat) (s : State) : State :=
  let ch := chOf q
  let p := pgMemc (stackOf q)
  let now := tickOf s
  let log := (mapFind s.ceLog ch).getD []
  let log' := now :: log.filter (fun t => decide (now < t + ticksPerHour))
  let s1 := recordErr p 0 ctx (bumpSat p R.MEMC_CE_COUNT 1 { s with
    ceLog := mapPut s.ceLog ch log', dramSyms := mapSet 0 s.dramSyms (q / 64) 0 })
  if rd s p R.MEMC_CE_LIMIT < log'.length then degrade ch s1 else s1

/-- The record of the last uncorrected or detected block (R211). -/
def lastErr (q a cls : Nat) (s : State) : State :=
  let p := pgMemc (stackOf q)
  wr p R.MEMC_LAST_ERR_ADDR (a / 64 * 64) (wr p R.MEMC_LAST_ERR_CH (chOf q % 32) (wr p R.MEMC_LAST_ERR_SYMBOLS 15
    (wr p R.MEMC_LAST_ERR_CLASS cls (wr p R.MEMC_LAST_ERR_VALID 1 s))))

/-- A DRAM_UE or DRAM_DETECT, by the section's class (R186): counted and recorded; a second one at another block of the
channel within 24 hours makes it DEGRADED (R189). -/
def dramBadNote (q a cls : Nat) (ctx : Option Nat) (s : State) : State :=
  let ch := chOf q
  let p := pgMemc (stackOf q)
  let now := tickOf s
  let log := ((mapFind s.ueLog ch).getD []).filter (fun e => decide (now < e.1 + 24 * ticksPerHour))
  let s1 := lastErr q a cls { s with ueLog := mapPut s.ueLog ch ((now, q / 64) :: log) }
  let s2 := if cls = 0 then bumpSat p R.MEMC_UE_COUNT 1 s1 else bumpSat p R.MEMC_DET_COUNT 1 s1
  let s3 := recordErr p (if cls = 0 then 1 else 2) ctx s2
  if log.any (fun e => e.2 != q / 64) then degrade ch s3 else s3

/-- A DRAM_UE or DRAM_DETECT met by a requester: step-fatal for its work (R186, R399); the update engines see a DRAM_UE
of their records (R235). -/
def dramBad (q a cls : Nat) (ctx step : Option Nat) (s : State) : State :=
  let s1 := workStepFatal ctx step (errCode .memc (if cls = 0 then 1 else 2)) (dramBadNote q a cls ctx s)
  if cls = 0 then { s1 with metUe := s1.metUe ++ [a / 64 * 64] } else s1

/-- What the controller's decoder does with a block at `a` and place `q` in which `n` of at most 8 symbols are in error
(R186): whether it reports the block uncorrectable, and the state after its checks. A block reported so stays known. -/
def decodeBlock (q a n : Nat) (ctx step : Option Nat) (s : State) : Bool × State :=
  let p := pgMemc (stackOf q)
  let cls := classOf s a
  let bad : Bool := n != 0 && (cls != 0 || decide (4 < n))
  let r := checkFor p (if cls = 0 then 1 else 2) bad s
  if r.1 then
    (true, dramBad q a cls ctx step { r.2 with dramSyms := mapSet 0 r.2.dramSyms (q / 64) (if bad then n else 8) })
  else if cls = 0 then
    let c := checkFor p 0 (n != 0) r.2
    (false, if c.1 then dramCe q ctx c.2 else c.2)
  else (false, r.2)

/-- One block's part of a read counted at its stack's controller (R211, R487). -/
def countRd (a n blk : Nat) (ctx : Option Nat) (s : State) : State :=
  match locate s (blk * 64) with
  | none => s
  | some q =>
    let k := stackOf q
    countE (pgPerf (k / 2)) 0xE0 (k % 2) 1 ctx (bump (pgMemc k) R.MEMC_RD_BYTES (coverOf a n blk) s)

/-- What a unit's read of a block meets: a channel that failed retraining, poison, or symbols known to be in error (R180,
R186, R187). -/
def meetBlock (ctx step : Option Nat) (blk : Nat) (s : State) : State :=
  match locate s (blk * 64) with
  | none => s
  | some q =>
    if mapGet false s.chDead (chOf q) then dramBad q (blk * 64) (classOf s (blk * 64)) ctx step s
    else if mapGet false s.dramPoison (q / 64) then s
    else (decodeBlock q (blk * 64) (mapGet 0 s.dramSyms (q / 64)) ctx step s).2

/-- The effects of a unit's read of `n` bytes of device DRAM from `a`: counts, and the errors of the blocks it meets.
The bytes and their poison are `dramRead` and `dramPoisoned`. -/
def dramFetch (a n : Nat) (ctx step : Option Nat) (s : State) : State :=
  (blocksOf a n).foldl (fun t b => meetBlock ctx step b (countRd a n b ctx t)) s

/-! ### Reads of device addresses by other units -/

/-- The effects of reading device-DRAM addresses: counts and the errors met, block by block (R186, R211). -/
def fetchDram (os : List Nat) (ctx step : Option Nat) (s : State) : State :=
  ((os.map (· / 64)).eraseDups).foldl (fun t b =>
    meetBlock ctx step b (countRd (b * 64) ((os.filter (fun o => o / 64 == b)).length) b ctx t)) s

/-- The effects of reading scratch addresses: the SECDED check of each word met (R104). -/
def fetchScratch (os : List Nat) (s : State) : State :=
  ((os.map (· / 8)).eraseDups).foldl (fun t w =>
    let c := w * 8 / 0x40000
    let r := scrSecded c (w * 8 % 0x40000) 8 t
    if r.1 then coreAsyncFault c 14 none r.2 else r.2) s

/-- The effects of reading quay-window addresses (R208, R213, R487): a page found uncorrectable raises QUAY_UE. -/
def fetchQuay (os : List Nat) (ctx step : Option Nat) (s : State) : State :=
  ((os.map (· / 4096)).eraseDups).foldl (fun t pg =>
    let t1 := countE (pgPerf 4) 0xF3 0 1 ctx (bump pgQuay R.QUAY_RD_BYTES ((os.filter (fun o => o / 4096 == pg)).length) t)
    let r := checkFor pgQuay 1 (mapGet false t1.quayBad pg) t1
    if r.1 then
      workStepFatal ctx step (errCode .quay 1) (recordErr pgQuay 1 ctx
        (bumpSat pgQuay R.QUAY_UE_COUNT 1 { r.2 with quayBad := mapSet false r.2.quayBad pg true }))
    else r.2) s

/-- The effects of reading device addresses, by region. -/
def fetchAll (as : List Nat) (ctx step : Option Nat) (s : State) : State :=
  let pick (r : Region) : List Nat := as.filterMap (fun a => if (regionOf a).1 = r then some (regionOf a).2 else none)
  fetchQuay (pick .quay) ctx step (fetchScratch (pick .scratch) (fetchDram (pick .dram) ctx step s))

/-- A byte as an access reads it: a scratch word with two bits in error is poisoned (R104). -/
def readByte (s : State) (a : Nat) : Nat × Bool :=
  let b := devByte s a
  match regionOf a with
  | (.scratch, o) => (b.1, b.2 || mapGet 0 (coreOf s (o / 0x40000)).scrUpset (o % 0x40000 / 8) == 2)
  | _ => b

/-! ### The section table (R181) -/

/-- The pieces that a mode uses per member, and the PIECE range it allows. -/
def modePieces (mode : Nat) : Nat := if mode = 1 then 1 else if mode = 2 then 4 else 8

/-- Whether an entry's SET and PIECE are in range. -/
def sectOk (e : Sect) : Bool :=
  e.mode == 0 || (decide (e.piece + modePieces e.mode ≤ 512) && (e.mode != 2 || decide (e.set ≤ 3)))

/-- Whether two interleave sets share a channel. -/
def setsMeet (e f : Sect) : Bool :=
  e.mode != 0 && f.mode != 0 &&
  (e.mode == 1 || f.mode == 1 ||
    (if e.mode = f.mode then e.set == f.set else if e.mode = 2 then f.set / 2 == e.set else e.set / 2 == f.set))

/-- Whether two sections use the same piece of a channel. -/
def sectsClash (e f : Sect) : Bool :=
  setsMeet e f && decide (e.piece < f.piece + modePieces f.mode ∧ f.piece < e.piece + modePieces e.mode)

/-- Whether a list of entries has no two that clash. -/
def noClash : List Sect → Bool
  | [] => true
  | e :: es => es.all (fun f => !sectsClash e f) && noClash es

/-- Section `n` as its pending value, if any, would make it. -/
def sectPending (s : State) (n : Nat) : Sect :=
  let p := pgMemc 0
  ⟨pendingRd s p R.MEMC_SECT_MODE n, pendingRd s p R.MEMC_SECT_SET n, pendingRd s p R.MEMC_SECT_CLASS n,
    pendingRd s p R.MEMC_SECT_PIECE n⟩

/-- Whether the table that would apply is valid. -/
def sectTableOk (s : State) : Bool :=
  let t := (List.range 512).map (sectPending s)
  t.all sectOk && noClash t

/-- Whether an offset of a MEMC page holds a section entry. -/
def sectOff (o : Nat) : Bool := decide (0x800 ≤ o ∧ o < 0x1000)

/-! ### Map-out, first part (R191) -/

/-- Whether a module channel is a member of a section's set (R181). -/
def chIn (e : Sect) (ch : Nat) : Bool :=
  e.mode == 1 || (e.mode == 2 && ch / 64 == e.set) || (e.mode == 3 && ch / 32 == e.set)

/-- Whether a section belongs to a set with one of the channels. -/
def sectHit (s : State) (chans : List Nat) (n : Nat) : Bool := chans.any (chIn (sectOf s n))

/-- Whether a polder holds a section of an affected set. -/
def polderHit (s : State) (chans : List Nat) (p : Nat) : Bool :=
  match mapFind s.polTab p with
  | some ws => (List.range 512).any (fun i => bitSet (ws.getD (3 + i / 64) 0) (i % 64) && sectHit s chans i)
  | none => false

/-- The contexts that a map-out holds (R191 step 5). -/
def mapCtxs (s : State) (chans : List Nat) : List Nat :=
  (s.ctxs.filter (fun e => polderHit s chans e.2.polder)).map (fun e => e.1)

/-- Step 5 of R191 begins for the map-out at the head: its contexts are to hold at a step boundary (R263). -/
def beginMap (s : State) : State :=
  match s.mapQ with
  | j :: js =>
    if j.phase ≠ 0 then s
    else (mapCtxs s j.chans).foldl (fun t n => modCtx n (fun x => { x with mapHold := some (x.mapHold.getD (lowestOpen s x)) }) t)
      { s with mapQ := { j with phase := 1 } :: js }
  | [] => s

/-- Step 5 begins at the controller's next boundary after the GO, where no other map-out runs. -/
def mapBoundary (k : Nat) (s : State) : State :=
  match s.mapQ with
  | j :: _ => if j.stack = k then beginMap s else s
  | [] => s

/-- The boundary of a MEMC page (R65, R181, R211): a section table that is not valid is refused as a whole; a SCRUB_HOURS
of 0 is ignored. -/
def memcBoundary (k : Nat) (s0 : State) : State :=
  let p := pgMemc k
  let s := if (pendAt s0 p 0x114).getD 1 % 256 = 0 then dropSel p (fun o => o == 0x114) s0 else s0
  mapBoundary k
    (if k = 0 ∧ (pendOffs s p).any (fun e => sectOff e.1) ∧ !sectTableOk s then
      boundary p (recordErr p 6 none (dropSel p sectOff s))
    else boundary p s)

/-! ### The commands of the stack controllers -/

/-- Whether device DRAM answers no request: safe mode with COOLANT_OK deasserted holds the stacks in self-refresh (R442). -/
def dramShut (s : State) : Bool := rd s pgEmb R.EMB_STATUS_SAFE == 1 && !s.pins.coolant

/-- A read of the 64-byte block at `a` in which the controller finds `symbols` symbols in error (R186, R187): its
answer is the block's bytes, with the mark of a poisoned block, or the code of the error that left them poisoned. -/
def doDramRead (a0 symbols : Nat) (o : WorkTag) (s : State) : State :=
  let a := a0 / 64 * 64
  let ctx := o.ctx.map (fun n => n.val)
  match (if dramShut s then none else locate s a) with
  | none => { noteUnmapped ctx s with reply := ⟨0, codeUnmapped, false⟩ }
  | some q =>
    let cls := classOf s a
    let s1 := countRd a 64 (a / 64) ctx s
    let bytes := ofBytes (dramRead s a 64)
    if mapGet false s.chDead (chOf q) then
      { dramBad q a cls ctx o.step s1 with reply := ⟨0, errCode .memc (1 + cls), true⟩ }
    else if mapGet false s.dramPoison (q / 64) then { s1 with reply := ⟨bytes, 0, true⟩ }
    else if 8 < symbols then
      let r := drawFree s1
      { r.2 with reply := ⟨r.1 % 2 ^ 512, 0, false⟩ }
    else
      let r := decodeBlock q a (max symbols (mapGet 0 s.dramSyms (q / 64))) ctx o.step s1
      { r.2 with reply := if r.1 then ⟨0, errCode .memc (1 + cls), true⟩ else ⟨bytes, 0, false⟩ }

/-- A write of a block, or of part of one, at `a` (R50, R187). -/
def doDramWrite (a : Nat) (d : List Byte) (poison : Bool) (o : WorkTag) (s : State) : State :=
  let bs := (d.take (64 - a % 64)).map (fun b => b.toNat)
  if dramShut s || (locate s a).isNone then { noteUnmapped (o.ctx.map (fun n => n.val)) s with reply := ⟨0, codeUnmapped, false⟩ }
  else { dramWrite a bs poison s with reply := ⟨0, 0, false⟩ }

/-- DRAM_WRITE (R187). -/
def execDramWrite (a : Nat) (d : List Byte) (poison : Bool) (o : WorkTag) (s : State) : Host.Outcome State Fault Refusal :=
  .next (doDramWrite a d poison o s)

/-- A patrol read of a backed block (R188), while SCRUB_EN is 1. -/
def doScrubRead (a0 symbols : Nat) (s : State) : State :=
  let a := a0 / 64 * 64
  match locate s a with
  | none => s
  | some q =>
    let p := pgMemc (stackOf q)
    let n := max symbols (mapGet 0 s.dramSyms (q / 64))
    if rd s p R.MEMC_CTRL_SCRUB_EN = 0 ∨ 8 < symbols ∨ mapGet false s.dramPoison (q / 64) then s
    else
      let r := checkFor p 5 (n != 0 && (classOf s a != 0 || decide (4 < n))) s
      if r.1 then
        recordErr p 5 none (bumpSat p R.MEMC_SCRUB_UE_COUNT 1
          (lastErr q a (classOf s a) { r.2 with dramSyms := mapSet 0 r.2.dramSyms (q / 64) n }))
      else if classOf s a = 0 then
        let c := checkFor p 0 (n != 0) r.2
        if c.1 then dramCe q none c.2 else c.2
      else r.2

/-- SCRUB_READ (R188). -/
def execScrubRead (a symbols : Nat) (s : State) : Host.Outcome State Fault Refusal := .next (doScrubRead a symbols s)

/-- REFRESH_INTERVAL (R211): the boundary of a trained stack that is not in self-refresh. -/
def execRefreshInterval (k : StackIx) (s : State) : Host.Outcome State Fault Refusal :=
  .next (if rd s (pgMemc k) R.MEMC_STATUS_TRAINED = 1 ∧ rd s (pgMemc k) R.MEMC_STATUS_SELF_REFRESH = 0 then
    memcBoundary k s else s)

end Sys2Proof.Machine
end

