-- ==== Sys2Proof/Machine/Place.lean ====
section
/-!
DEFINITION. Placement tables: loading and checking a version (R297 to R299, R309, R310), the version in force, ranks and
owners (R298), the shrink floor (R324).
-/

namespace Sys2Proof.Machine

/-- Pieces of at most 4 KiB granules that `n` bytes from `a` fall into: start and length. -/
def granulesOf (a n : Nat) : List (Nat × Nat) :=
  if n = 0 then [] else
    (List.range ((a + n - 1) / 4096 - a / 4096 + 1)).map (fun i =>
      let lo := max a ((a / 4096 + i) * 4096)
      (lo, min (a + n) ((a / 4096 + i + 1) * 4096) - lo))

/-- The bytes of device DRAM from `a`, as `dramRead`, located granule by granule. -/
def dramBulk (s : State) (a n : Nat) : List Nat :=
  (granulesOf a n).flatMap (fun g => match locate s g.1 with
    | some q => (List.range g.2).map (fun i => (dramCell s (q + i)).toNat)
    | none => List.replicate g.2 0)

/-- `n` 64-bit words of device DRAM from `a`. -/
def dramWords (s : State) (a n : Nat) : List Nat :=
  let bs := dramBulk s a (8 * n)
  (List.range n).map (fun i => ofBytes ((bs.drop (8 * i)).take 8))

/-- Word `i` of a list of words. -/
def wd (ws : List Nat) (i : Nat) : Nat := ws.getD i 0

/-- Field `[lo + n − 1 : lo]` of word `i`. -/
def wf (ws : List Nat) (i lo n : Nat) : Nat := bitsOf (wd ws i) lo n

/-- Entries of the shard map as read: shard and owner, owners other than member 0 only. -/
def ownersOf (bs : List Nat) : Nat → List (Nat × Nat)
  | v => match bs with
    | b0 :: b1 :: rest => if b0 + 256 * b1 = 0 then ownersOf rest (v + 1) else (v, b0 + 256 * b1) :: ownersOf rest (v + 1)
    | _ => []

/-- The owner of virtual shard `v` (R298). -/
def ownerOf (p : Place) (v : Nat) : Nat := mapGet 0 p.shards v

/-- A member entry of R297 from its two words. -/
def memberWords (w0 w1 : Nat) : Member :=
  ⟨bitsOf w0 0 16, bitsOf w0 16 8, bitsOf w0 24 16, bitsOf w0 40 1 == 1, bitsOf w0 41 1 == 1, bitsOf w1 0 16, bitsOf w1 16 16⟩

/-- A version as it stands in memory. -/
def readPlace (s : State) (a : Nat) : Place :=
  let h := dramWords s a 8
  let nm := wf h 1 32 17
  let ms := dramWords s (wf h 2 0 48) (2 * nm)
  { addr := a, version := wf h 0 16 32, eff := wf h 1 0 32,
    members := (List.range nm).map (fun i => memberWords (wd ms (2 * i)) (wd ms (2 * i + 1))),
    shards := ownersOf (dramBulk s (wf h 3 0 48) 131072) 0, next := wf h 4 0 48 }

/-- Whether the reserved fields of a version's header and member entries are 0 (R297). -/
def placeReserved (s : State) (a : Nat) : Bool :=
  let h := dramWords s a 8
  let nm := wf h 1 32 17
  let ms := dramWords s (wf h 2 0 48) (2 * nm)
  wf h 0 48 16 == 0 && wf h 1 49 15 == 0 && wf h 2 48 16 == 0 && wf h 3 48 16 == 0 && wf h 4 48 16 == 0 &&
    wd h 5 == 0 && wd h 6 == 0 && wd h 7 == 0 &&
    (List.range nm).all (fun i => wf ms (2 * i) 42 22 == 0 && wf ms (2 * i + 1) 32 32 == 0)

/-- Whether a member reaches the root by its parents within `n` steps. -/
def reachesRoot (p : Place) : Nat → Nat → Bool
  | 0, _ => false
  | n + 1, i => match memberAt p i with
    | some m => m.parent == i || reachesRoot p n m.parent
    | none => false

/-- Whether no element repeats. -/
def distinct : List Nat → Bool
  | [] => true
  | a :: l => !l.contains a && distinct l

/-- Members that are not SPARE and own no shard (R310). -/
def idleMembers (p : Place) : Bool :=
  let owners := (List.range 65536).foldl (fun (m : List (Nat × Bool)) v => mapSet false m (ownerOf p v) true) []
  (p.members.zipIdx).any (fun m => !m.1.spare && !mapGet false owners m.2)

/-- The checks of R299 that need the version alone, and R310's second. -/
def placeOk (s : State) (p : Place) : Bool :=
  let nm := p.members.length
  placeReserved s p.addr && decide (1 ≤ nm ∧ nm ≤ 65536) &&
    p.members.all (fun m => decide (m.mirror < nm ∧ m.parent < nm)) &&
    distinct (p.members.map (fun m => m.module)) &&
    p.shards.all (fun e => match memberAt p e.2 with | some m => !m.spare | none => false) &&
    (decide (p.shards.length = 65536) || (match memberAt p 0 with | some m => !m.spare | none => false)) &&
    p.members.all (fun m => !(m.dp && m.spare)) &&
    (p.members.zipIdx).all (fun m => m.1.mirror != m.2) &&
    ((p.members.zipIdx).filter (fun m => m.1.parent == m.2)).length == 1 &&
    (List.range nm).all (fun i => reachesRoot p (nm + 1) i) && !idleMembers p

/-- Whether a version names this module. -/
def namesMe (s : State) (p : Place) : Bool := (memberIdx s p).isSome

/-- This module's data-parallel rank and the number of DP members (R248, R298); none for a member without DP. -/
def rankOf (s : State) (p : Place) : Option Nat :=
  match memberIdx s p with
  | some i => match memberAt p i with
    | some m => if m.dp then some ((p.members.take i).filter (fun m => m.dp)).length else none
    | none => none
  | none => none

/-- N_DP of R248. -/
def dpCount (p : Place) : Nat := (p.members.filter (fun m => m.dp)).length

/-! ### The shrink floor (R324) -/

/-- RSTRIDE of a binding's records (R219). -/
def recStride (b : BindDesc) : Nat :=
  (if b.mw then 8192 else 4096) + b.nmom * 4096 + (if b.fact then 256 else 0) + 4096 + 2048 + 2048

/-- The mirrored bytes of a block: MB of R324. -/
def mirBytes (b : BindDesc) : Nat := recStride b - 8192

/-- The bindings of a context on this module: stack × 4 + binding. -/
def bindsOf (s : State) (n : Nat) : List (Nat × Binding) := s.binds.filter (fun e => e.2.desc.ctx == n)

/-- The sections of a polder (R341). -/
def polderSect (s : State) (p i : Nat) : Bool :=
  match mapFind s.polTab p with
  | some ws => bitSet (wd ws (3 + i / 64)) (i % 64)
  | none => false

/-- The stack-local correct bytes that a polder gives a stack, less the pool. -/
def stackBytes (s : State) (p stack slots : Nat) : Nat :=
  ((List.range 512).filter (fun i =>
    let e := sectOf s i
    polderSect s p i && e.mode == 3 && e.set == stack && e.cls == 0)).length * 2 ^ 30 - slots * 4096

/-- The bytes that `shards` shards of the job need on a stack. -/
def shardBytes (b : BindDesc) (shards : Nat) : Nat :=
  shards * ((b.total + 65535) / 65536) * (recStride b + 2 * mirBytes b)

/-- C of R324: the least that this member's polder gives a stack. DESIGN CHOICE (log 88): the module cannot read the other
members' polders, and takes them to be alike. -/
def leastBytes (s : State) (n polder : Nat) : Nat :=
  (bindsOf s n).foldl (fun c e => min c (stackBytes s polder (e.1 / 4) e.2.desc.slots)) (2 ^ 60)

/-- F_min of R324; 0 where no binding gives the sizes of the job. -/
def shrinkFloor (s : State) (n polder : Nat) : Nat :=
  match bindsOf s n with
  | [] => 0
  | e :: _ =>
    let c := leastBytes s n polder
    match (List.range 65536).find? (fun f => decide (shardBytes e.2.desc (((65536 + f) / (f + 1) + 7) / 8) ≤ c)) with
    | some f => f + 1
    | none => 65536

/-- The shards of stack `k` that member `i` owns under a version; those of member 0 are the shards listed for no other. -/
def shardsAt (p : Place) (i k : Nat) : Nat :=
  let mine := p.shards.filter (fun e => e.1 % 8 == k)
  if i = 0 then 8192 - mine.length else (mine.filter (fun e => e.2 == i)).length

/-- Whether a version's placement fits every stack of every member (R324); with no binding the sizes of the job are not
known here. -/
def placeFits (s : State) (n polder : Nat) (p : Place) : Bool :=
  match bindsOf s n with
  | e :: _ =>
    (List.range p.members.length).all (fun i => (List.range 8).all (fun k =>
      decide (shardBytes e.2.desc (shardsAt p i k) ≤ leastBytes s n polder)))
  | [] => true

/-! ### Loading (R299, R309, R310) -/

/-- PLACE_BAD (R299): context-fatal; no page's ERR_STAT holds a bit for it, so it is reported by its event alone. -/
def placeBad (n : Nat) (s : State) : State := ctxFatal n 0x0A0D (hostEvent evError (pgCtx n) (some n) 0x0A0D s)

/-- The fetcher's read of `n` bytes counted for its context (R362). -/
def fetchCtx (n a len : Nat) (s : State) : State :=
  bump (pgCtx n) R.CTX_DRAM_BYTES len (dramFetch a len (some n) none s)

/-- A version read at `a`, with its effects on the counters. -/
def loadPlace (n a : Nat) (s : State) : Place × State :=
  let p := readPlace s a
  (p, fetchCtx n a 64 (fetchCtx n (wf (dramWords s a 8) 2 0 48) (16 * p.members.length)
    (fetchCtx n (wf (dramWords s a 8) 3 0 48) 131072 s)))

/-- The shrink floor published after a load (R324). -/
def publishFloor (n polder : Nat) (s : State) : State := wr (pgCtx n) R.CTX_SHRINK_FLOOR (shrinkFloor s n polder) s

/-- Whether this module owns a shard under a version. -/
def ownsIn (s : State) (p : Place) (v : Nat) : Bool := memberIdx s p == some (ownerOf p v)

/-- The version before the one in force, or before the next one, by which shards move to this module: the version and its
predecessor. A context that has not planned yet has them in its placement-table area (R321). -/
def movePair (s : State) (x : Ctx) : Option (Place × Place) :=
  match x.placeNext, x.place, x.placeOld with
  | some q, some p, _ => some (q, p)
  | none, some q, some p => some (q, p)
  | none, none, _ =>
    let p := readPlace s x.placeBase
    if x.typ ≠ 0 ∨ x.placeBase = 0 ∨ p.next = 0 then none else some (readPlace s p.next, p)
  | _, _, _ => none

/-- Whether a shard is an incoming one here (R311, R312): owned under the later version, by another under the earlier. -/
def incomingIn (s : State) (x : Ctx) (v : Nat) : Bool :=
  match movePair s x with
  | some (q, p) => ownsIn s q v && !ownsIn s p v
  | none => false

/-- The parts of a binding that leave between two versions (R311). -/
def noteMove (s : State) (p q : Place) (b : Binding) : Binding :=
  let us := List.range b.desc.groups.length
  { b with
    migOut := (b.desc.shards.filter (fun h => !h.loading && ownsIn s p h.v && !ownsIn s q h.v)).flatMap
      (fun h => us.map (fun u => (h.v, u))),
    migSent := [] }

/-- A version loaded as the next one after `p`: the context's bindings note what leaves. -/
def noteMoves (n : Nat) (p q : Place) (s : State) : State :=
  { s with binds := s.binds.map (fun e => if e.2.desc.ctx = n then (e.1, noteMove s p q e.2) else e) }

/-- Whether shards still move for the version in force (R319): streams to send for it, or incoming shards still LOADING. -/
def migrating (s : State) (n : Nat) : Bool :=
  match ctxOf s n with
  | none => false
  | some x =>
    x.placeNext.isNone && x.place.isSome && (bindsOf s n).any (fun e => !e.2.migOut.isEmpty ||
      e.2.desc.shards.any (fun h => h.loading && incomingIn s x h.v))

/-- The version that the plan of step `t` uses loaded (R299, R309, R310): the first version of a context at PLACE_BASE;
then NEXT of the version in force, unless shards still move. Answers whether every load was accepted. -/
def loadVersions (n t : Nat) (s : State) : Bool × State :=
  match ctxOf s n with
  | none => (false, s)
  | some x =>
    let first := x.place.isNone
    let r := if first then loadPlace n x.placeBase s else (x.place.getD ⟨0, 0, 0, [], [], 0⟩, s)
    let p := r.1
    let s1 := r.2
    if first && (!placeOk s p || bitsOf (dramWord s x.placeBase) 0 16 != x.job || !placeFits s n x.polder p) then (false, s1)
    else
      -- NEXT of the version in force is not read while a next version is held or shards still move (R309, R319)
      let stay := !first && (x.placeNext.isSome || migrating s n)
      let nx := if first then p.next else wf (dramWords s p.addr 8) 4 0 48
      let s2 := if first || stay then s1 else fetchCtx n (p.addr + 32) 8 s1
      if stay then (true, s2)
      else if nx = 0 then
        if first && !namesMe s p then (false, s2)
        else (true, modCtx n (fun x => { x with place := some p }) (publishFloor n x.polder s2))
      else
        let q := loadPlace n nx s2
        if placeOk s q.1 && bitsOf (dramWord s nx) 0 16 == x.job && stepLt p.eff q.1.eff && stepLe t q.1.eff &&
            placeFits s n x.polder q.1 && (namesMe s p || (namesMe s q.1 && stepLe q.1.eff t)) then
          (true, noteMoves n p q.1 (modCtx n (fun x => { x with place := some p, placeNext := some q.1, placeOld := none })
            (publishFloor n x.polder q.2)))
        else (false, modCtx n (fun x => { x with place := if first then none else x.place }) q.2)

/-- The loaded next version comes into force at the plan of its EFFECTIVE_STEP (R309). -/
def enterVersion (n t : Nat) (s : State) : State :=
  modCtx n (fun x => match x.placeNext with
    | some q => if stepLe q.eff t then { x with placeOld := x.place, place := some q, placeNext := none } else x
    | none => x) s

/-- The version in force for step `t` along the NEXT chain from an accepted version `p` (R298, R299): none where a version
of the chain is refused. EFFECTIVE_STEP rises along the chain, so `k` bounds it. -/
def chainPlace (n t job : Nat) : Nat → Place → State → Option Place × State
  | 0, p, s => (some p, s)
  | k + 1, p, s =>
    if p.next = 0 then (some p, s)
    else
      let q := loadPlace n p.next s
      if !(placeOk s q.1 && bitsOf (dramWord s p.next) 0 16 == job && stepLt p.eff q.1.eff) then (none, q.2)
      else if stepLe q.1.eff t then chainPlace n t job k q.1 q.2
      else (some p, q.2)

/-- The version in force for step `t` of a context that plans no steps (R298, R299, R301): read from its placement-table
area when an entry needs it, along the whole chain. Answers whether the table was accepted. -/
def freshPlace (n t : Nat) (x : Ctx) (s : State) : Bool × State :=
  let r := loadPlace n x.placeBase s
  if !(placeOk s r.1 && bitsOf (dramWord s x.placeBase) 0 16 == x.job && namesMe s r.1) then (false, r.2)
  else match chainPlace n t x.job (2 ^ 31) r.1 r.2 with
    | (some p, s1) => (true, setCtx n { x with place := some p } s1)
    | (none, s1) => (false, s1)

/-- The placement that a gather of step `t` needs, loaded where the context's plans have not done so. -/
def needPlace (n t : Nat) (s : State) : Bool × State :=
  match ctxOf s n with
  | none => (false, s)
  | some x =>
    if x.typ ≠ 0 then freshPlace n t x s else if x.place.isNone then loadVersions n t s else (true, s)

/-- The version that governs step `t` among those held (R298). -/
def placeFor (x : Ctx) (t : Nat) : Option Place :=
  match x.placeNext, x.place, x.placeOld with
  | some q, some p, o => if stepLe q.eff t then some q else if stepLe p.eff t then some p else some (o.getD p)
  | none, some p, some o => if stepLe p.eff t then some p else some o
  | none, some p, none => some p
  | some q, none, _ => some q
  | none, none, o => o

end Sys2Proof.Machine
end

