-- ==== Sys2Proof/Machine/Fetch.lean ====
section
/-!
DEFINITION. The stream fetcher: tail reads (R349, R350), segment descriptors and their start and end (R351, R352),
training tags and accumulation slots (R245, R250 to R253), planning (R246, R248), holds at step boundaries (R263).
-/

namespace Sys2Proof.Machine

/-! ### When the fetcher works -/

/-- A polder's place in the schedule. -/
def polOf (s : State) (p : Nat) : PolState := mapGet .zero s.pols p

/-- Replace a polder's place in the schedule. -/
def setPol (p : Nat) (k : PolState) (s : State) : State := { s with pols := mapSet .zero s.pols p k }

/-- Whether the fetcher works for context `n` now (R350, R352, R358, R401, R408): it is resident, the schedule runs, its
polder is switched to it and not switching away, no dike stands on it and no replay is being prepared. -/
def fetchOn (s : State) (n : Nat) (x : Ctx) : Bool :=
  ctxState s n == stResident && rd s pgSched R.SCHED_STATUS_RUNNING == 1 && (polOf s x.polder).cur == some n &&
    (polOf s x.polder).phase == 0 && !x.halted && !x.prep && !s.stopAll

/-- The step at which a context is to be held (R263): the lower of the host's and the map-out's. -/
def holdStep (x : Ctx) : Option Nat :=
  match x.hold, x.mapHold with
  | some a, some b => some (if stepLe a b then a else b)
  | some a, none => some a
  | none, b => b

/-- Whether a hold lets work of a step tag (none: untagged) start (R263). -/
def holdLets (x : Ctx) (step : Option Nat) : Bool :=
  match holdStep x, step with
  | none, _ => true
  | some h, some t => stepLe t h
  | some _, none => false

/-- Whether every binding of a context has passed its step boundary `t` (R263). -/
def bindsPassed (s : State) (n t : Nat) : Bool := (bindsOf s n).all (fun e => e.2.hasPassed && stepLe t e.2.passed)

/-- Whether a context is held (R263 point 3); one without steps is held once nothing of it runs. -/
def isHeld (s : State) (n : Nat) : Bool :=
  match ctxOf s n with
  | none => false
  | some x => match holdStep x with
    | none => false
    | some h => (x.typ != 0 || (stepLe h (lastReport s x) && bindsPassed s n h)) && x.started.all (fun e => e.ended) &&
        bargesOf s n == 0

/-! ### Tails (R349, R350) -/

/-- The ring of a stream. -/
def ringOf (x : Ctx) (st : Nat) : Ring := x.rings.getD st ⟨0, 0, 0⟩

/-- The count of entries that the last tail read saw. -/
def tailOf (x : Ctx) (st : Nat) : Nat := mapGet 0 x.tails st

/-- The next entry of a stream to start. -/
def nextOf (x : Ctx) (st : Nat) : Nat := mapGet 0 x.nextE st

/-- A context error on its CTX page with its class (R368, R399): 0 corrected, 1 step-fatal, 2 context-fatal. -/
def ctxError (n bit cls : Nat) (s : State) : State :=
  let s1 := recordErr (pgCtx n) bit (some n) s
  if cls = 2 then ctxFatal n (errCode .ctx bit) s1
  else if cls = 1 then stepFatal n (errCode .ctx bit) none s1 else s1

/-- A tail word read (R349, R350). -/
def tailRead (n st : Nat) (s : State) : State :=
  match ctxOf s n with
  | none => s
  | some x =>
    let r := ringOf x st
    if r.log2n = 0 then s
    else
      let t := dramWord s r.tail
      let h := headOf s n st
      let s1 := fetchCtx n r.tail 8 s
      checked (pgCtx n) 2 (decide (t < h ∨ h + 2 ^ r.log2n < t)) (ctxError n 2 2)
        (modCtx n (fun x => { x with tails := mapSet 0 x.tails st t })) s1

/-- TAIL_READ (R350). -/
def execTailRead (n : CtxIx) (st : StreamIx) (s : State) : Host.Outcome State Fault Refusal :=
  .next (match ctxOf s n with
    | some x => if fetchOn s n x then tailRead n st s else s
    | none => s)

/-! ### Segment descriptors (R351) -/

/-- The words of entry `k` of a stream's ring. -/
def entryWords (s : State) (x : Ctx) (st k : Nat) : List Nat :=
  let r := ringOf x st
  dramWords s (r.base + k % 2 ^ r.log2n * 64) 8

/-- The cores of a rectangle, by index. -/
def rectCores (ws : List Nat) : List Nat :=
  (List.range (wf ws 3 16 7)).flatMap (fun i =>
    (List.range (wf ws 3 24 8)).map (fun j => (wf ws 3 0 6 + i) * 128 + wf ws 3 8 7 + j))

/-- Whether the reserved bits of a segment descriptor are 0. -/
def segReserved (ws : List Nat) : Bool :=
  wf ws 0 15 1 == 0 && wf ws 1 20 12 == 0 && wf ws 1 56 8 == 0 && wf ws 2 61 3 == 0 && wf ws 3 6 2 == 0 &&
    wf ws 3 15 1 == 0 && wf ws 3 23 1 == 0 && wf ws 3 32 32 == 0 && wf ws 4 48 16 == 0 && wf ws 7 49 15 == 0 &&
    wf ws 1 44 0 == 0

/-- Whether a core is fenced by an audit and has no spare in its place (R439). -/
def coreFenced (s : State) (c : Nat) : Bool :=
  let a := mapGet AuditSt.zero s.auditSt c
  a.st == 4 && !a.out && !a.due

/-- Whether a segment descriptor passes the checks of R351. -/
def segOk (s : State) (x : Ctx) (ws : List Nat) : Bool :=
  let y0 := wf ws 3 0 6
  let x0 := wf ws 3 8 7
  let h := wf ws 3 16 7
  let w := wf ws 3 24 8
  wf ws 0 0 2 == 1 && segReserved ws && decide (wf ws 0 2 3 ≤ 4) && decide (1 ≤ h ∧ h ≤ 64 ∧ 1 ≤ w ∧ w ≤ 128) &&
    decide (y0 + h ≤ 64 ∧ x0 + w ≤ 128) &&
    (rectCores ws).all (fun c => bitSet (match mapFind s.polTab x.polder with | some t => wd t (1 + blockOfCore c / 64) | none => 0) (blockOfCore c % 64) &&
      !coreFenced s c) &&
    decide (wf ws 1 32 12 + wf ws 2 48 13 ≤ 4096) && decide (wf ws 2 0 48 % 8 = 0) &&
    (wf ws 4 0 48 == 0 || tallyAligned (wf ws 4 0 48)) && (wf ws 7 48 1 == 0 || tallyAligned (wf ws 7 0 48))

/-! ### Tags and slots (R245, R250 to R253) -/

/-- The tag fields of a segment descriptor. -/
def tKind (ws : List Nat) : Nat := wf ws 0 5 3
def tStepValid (ws : List Nat) : Bool := wf ws 0 8 1 == 1
def tLast (ws : List Nat) : Bool := wf ws 0 9 1 == 1
def tLevel (ws : List Nat) : Nat := wf ws 0 10 5
def tULo (ws : List Nat) : Nat := wf ws 0 16 8
def tUHi (ws : List Nat) : Nat := wf ws 0 24 8
def tStep (ws : List Nat) : Nat := wf ws 0 32 32
def tMb (ws : List Nat) : Nat := wf ws 1 0 20

/-- Whether a segment is tagged (R245). -/
def tagged (ws : List Nat) : Bool := tStepValid ws || tKind ws != 0

/-- The plan of a step. -/
def planOf (x : Ctx) (t : Nat) : Option Plan := x.plans.find? (fun p => p.step == t)

/-- Whether every present leaf from `a` of a node of level `l` lies in a plan's range (R252). -/
def leavesIn (p : Plan) (a l : Nat) : Bool :=
  decide (p.first ≤ a ∧ min (a + 2 ^ l) p.b ≤ p.first + p.count ∧ a < p.b)

/-- Whether a NODE (`send` false) or SEND passes R252 under a plan. -/
def nodeOk (p : Plan) (send : Bool) (a l : Nat) : Bool :=
  decide (a % 2 ^ l = 0) && leavesIn p a l &&
    (if send then !(decide (2 ^ l < p.b) && leavesIn p (a / 2 ^ (l + 1) * 2 ^ (l + 1)) (l + 1))
     else decide (1 ≤ l ∧ a + 2 ^ (l - 1) < p.b))

/-- The slot bound to a pair. -/
def slotOf (x : Ctx) (t mb : Nat) : Option (Nat × AccSlot) := x.slots.find? (fun e => e.2.step == t && e.2.mb == mb)

/-- Whether a slot holds every group from `lo` to `hi`. -/
def holdsAll (a : AccSlot) (lo hi : Nat) : Bool := (List.range (hi + 1 - lo)).all (fun i => a.held.contains (lo + i))

/-- The condition of R250 and R251 under which a tagged segment starts. -/
def tagStarts (x : Ctx) (ws : List Nat) : Bool :=
  let a := slotOf x (tStep ws) (tMb ws)
  match tKind ws with
  | 2 =>
    (match a, slotOf x (tStep ws) (tMb ws + 2 ^ (tLevel ws - 1)) with
     | some p, some q => holdsAll p.2 (tULo ws) (tUHi ws) && holdsAll q.2 (tULo ws) (tUHi ws)
     | _, _ => false)
  | 3 => (match a with | some p => holdsAll p.2 (tULo ws) (tUHi ws) | none => false)
  | _ => a.isSome

/-- Whether a tag is refused with TRAIN_TAG (R245, R252). A NODE or SEND of a step not planned yet waits. -/
def tagBad (x : Ctx) (ws : List Nat) : Bool :=
  decide (4 ≤ tKind ws) ||
    ((tKind ws == 2 || tKind ws == 3) && (match planOf x (tStep ws) with
      | some p => !nodeOk p (tKind ws == 3) (tMb ws) (tLevel ws)
      | none => false))

/-! ### Starting a segment (R352) -/

/-- Whether a core can take a segment of stream `st` of context `n` now: no resident segment of that stream, no block
reset, no HOLD in effect (R115), and neither faulted nor behind a dike (R401). -/
def coreTakes (s : State) (n st c : Nat) : Bool :=
  let k := coreOf s c
  (mapFind k.res st).isNone && !s.inReset.contains (pageKey (pgCore c)) && rd s (pgCore c) R.CORE_CTRL_HOLD == 0 &&
    !k.faulted && !k.stopIssue && (k.ctx.isNone || k.ctx == some n || k.res.isEmpty)

/-- The image words of a descriptor. -/
def imageWords (s : State) (ws : List Nat) : List Nat := dramWords s (wf ws 2 0 48) (wf ws 2 48 13)

/-- One core takes a segment: image, registers, cleared stacks and generators; issue begins at ENTRY (R352). DESIGN
CHOICE (log 71): the booking stays as it is, 0 unless another stream is resident. -/
def startCore (n st entry gen pol : Nat) (ws img : List Nat) (c : Nat) (s : State) : State :=
  modCore c (fun k =>
    let x2 := (c / 128 - wf ws 3 0 6) * 65536 + (c % 128 - wf ws 3 8 7)
    let regs := mapSet 0#64 (mapSet 0#64 (mapSet 0#64 [] 1 (BitVec.ofNat 64 (wd ws 6))) 2 (BitVec.ofNat 64 x2)) 3 (BitVec.ofNat 64 n)
    let q : SeqState := ⟨regs, [], [], wf ws 1 44 12⟩
    let seg : Seg := ⟨entry, wf ws 0 2 3, wf ws 1 32 12, wf ws 2 48 13, tStepValid ws, tStep ws⟩
    let im := img.zipIdx.foldl (fun m p => mapSet 0#64 m (wf ws 1 32 12 + p.2) (BitVec.ofNat 64 p.1)) k.imem
    let up := img.zipIdx.foldl (fun m p => mapSet 0 m (wf ws 1 32 12 + p.2) 0) k.imemUpset
    let k1 := { k with imem := im, imemUpset := up, ctx := some n, polder := pol, gen := gen, res := mapPut k.res st seg }
    match k.cur with
    | some _ => { k1 with saved := mapPut k1.saved st q }
    | none => { k1 with cur := some st, seq := q, nonfin := false }) s

/-- The record of a started entry. -/
def startedOf (st entry : Nat) (ws : List Nat) : Started :=
  { stream := st, entry := entry, y0 := wf ws 3 0 6, x0 := wf ws 3 8 7, h := wf ws 3 16 7, w := wf ws 3 24 8,
    doneTally := wf ws 7 0 48, doneEn := wf ws 7 48 1 == 1, kind := tKind ws, stepValid := tStepValid ws, step := tStep ws,
    last := tLast ws, level := tLevel ws, uLo := tULo ws, uHi := tUHi ws, mb := tMb ws, left := rectCores ws, ended := false,
    diked := false }

/-- The rewind positions with that of a started tagged entry (R419), kept for the last three steps. -/
def putMark (st entry : Nat) (ws : List Nat) (m : List (Nat × Nat)) : List (Nat × Nat) :=
  if !tagged ws then m
  else
    let key := st * 2 ^ 32 + tStep ws
    let kept := m.filter (fun e => stepLt (tStep ws + 2 ^ 32 - 3) (e.1 % 2 ^ 32))
    if (mapFind kept key).isSome then kept else mapPut kept key entry

/-- A segment starts on its rectangle. -/
def startSegment (n st entry : Nat) (x : Ctx) (ws : List Nat) (s : State) : State :=
  let img := imageWords s ws
  let s1 := fetchCtx n (wf ws 2 0 48) (8 * wf ws 2 48 13) s
  let gen := rd s (pgCtx n) R.CTX_STATUS_GEN
  let s2 := (rectCores ws).foldl (fun t c => startCore n st entry gen x.polder ws img c t) s1
  modCtx n (fun x => { x with
    nextE := mapSet 0 x.nextE st (entry + 1), blockCycle := false, started := x.started ++ [startedOf st entry ws],
    marks := putMark st entry ws x.marks }) { s2 with fwait := mapDel s2.fwait (n * 4 + st) }

/-- The start wait of an entry (R352, R354): armed on the fetcher's unit for the stream; answers whether it is met. -/
def fetchWait (n st : Nat) (ws : List Nat) (s : State) : Bool × State :=
  let a := wf ws 4 0 48
  if a = 0 then (true, s)
  else match mapFind s.fwait (n * 4 + st) with
    | some t =>
      if t.addr = a ∧ t.thr = wd ws 5 then (t.seen, s)
      else
        let seen := decide (wd ws 5 ≤ dramWord s a)
        (seen, { s with fwait := mapPut s.fwait (n * 4 + st) ⟨a, wd ws 5, seen, false⟩ })
    | none =>
      let seen := decide (wd ws 5 ≤ dramWord s a)
      (seen, { s with fwait := mapPut s.fwait (n * 4 + st) ⟨a, wd ws 5, seen, false⟩ })

/-- SEGMENT_START (R352): the head entry of a stream that the tail has shown is fetched, refused, or started once its
conditions hold. -/
def segmentStart (n st : Nat) (s : State) : State :=
  match ctxOf s n with
  | none => s
  | some x =>
    let k := nextOf x st
    if !fetchOn s n x || st == 3 || decide (tailOf x st ≤ k) then s
    else
      let ws := entryWords s x st k
      let s1 := fetchCtx n ((ringOf x st).base + k % 2 ^ (ringOf x st).log2n * 64) 64 s
      checked (pgCtx n) 1 (!segOk s x ws) (ctxError n 1 2) (checked (pgCtx n) 3 (tagBad x ws) (ctxError n 3 2) (fun u =>
        let r := fetchWait n st ws u
        let tag := if tagged ws then some (tStep ws) else none
        if r.1 && holdLets x tag && (!tagged ws || tagStarts x ws) && (rectCores ws).all (coreTakes s n st) then
          startSegment n st k x ws r.2
        else r.2)) s1

/-- SEGMENT_START (R352). -/
def execSegmentStart (n : CtxIx) (st : StreamIx) (s : State) : Host.Outcome State Fault Refusal := .next (segmentStart n st s)

/-! ### What a context could do (R357, R360) -/

/-- What a context left on a core that its polder is not switched to it on (R358). -/
def imgCore (s : State) (n c : Nat) : Option Core := mapFind s.imgCores (n * 8192 + c)

/-- The segments of context `n` on a core, wherever they are held. -/
def resOf (s : State) (n c : Nat) : List (Nat × Seg) :=
  if (coreOf s c).ctx = some n then (coreOf s c).res else match imgCore s n c with | some k => k.res | none => []

/-- Whether the next entry of a stream meets start conditions 2 to 4 of R352. -/
def startable (s : State) (n : Nat) (x : Ctx) (st : Nat) : Bool :=
  if x.halted || (ringOf x st).log2n == 0 || decide (tailOf x st ≤ nextOf x st) then false
  else
    let ws := entryWords s x st (nextOf x st)
    !segOk s x ws || tagBad x ws ||
      ((wf ws 4 0 48 == 0 || decide (wd ws 5 ≤ dramWord s (wf ws 4 0 48))) &&
        holdLets x (if tagged ws then some (tStep ws) else none) && (!tagged ws || tagStarts x ws) &&
        (rectCores ws).all (fun c => (mapFind (resOf s n c) st).isNone))

/-- Whether a core can issue the next instruction of its segment now. -/
def coreReady (k : Core) : Bool :=
  k.cur.isSome && !k.faulted && !k.waitBook && !k.waitTally && !k.waitXfer && !k.waitAcc && !k.waitQueue &&
    (!k.stopIssue || k.atSwitch)

/-- Whether a core holds a ready segment (R85, R254): the current one can issue, or another is newly loaded or suspended at
a yield point. -/
def holdsReady (k : Core) : Bool := coreReady k || (!k.faulted && !k.stopIssue && !k.saved.isEmpty)

/-- Whether a context has segments on cores, running or suspended. -/
def hasSegments (s : State) (n : Nat) : Bool :=
  s.cores.any (fun e => e.2.ctx == some n && !e.2.res.isEmpty) || s.imgCores.any (fun e => e.1 / 8192 == n && !e.2.res.isEmpty)

/-- Whether a resident context is blocked now (R360). -/
def blockedNow (s : State) (n : Nat) : Bool :=
  match ctxOf s n with
  | none => false
  | some x =>
    ctxState s n == stResident && !s.cores.any (fun e => e.2.ctx == some n && coreReady e.2) &&
      !s.imgCores.any (fun e => e.1 / 8192 == n && !e.2.res.isEmpty) && !([0, 1, 2].any (startable s n x))

/-! ### Ending a segment (R251, R253, R352) -/

/-- A slot's groups from `lo` to `hi` made HELD or EMPTY. -/
def markGroups (a : AccSlot) (lo hi : Nat) (held : Bool) : AccSlot :=
  let out := a.held.filter (fun u => !decide (lo ≤ u ∧ u ≤ hi))
  { a with held := if held then out ++ (List.range (hi + 1 - lo)).map (fun i => lo + i) else out }

/-- The slot bound to a pair changed. -/
def modSlot (t mb : Nat) (f : AccSlot → AccSlot) (l : List (Nat × AccSlot)) : List (Nat × AccSlot) :=
  l.map (fun e => if e.2.step = t ∧ e.2.mb = mb then (e.1, f e.2) else e)

/-- The effect of a segment's end on the slot table (R251, R253); that of an untagged one is none (R245). -/
def slotEffect (e : Started) (l : List (Nat × AccSlot)) : List (Nat × AccSlot) :=
  let l1 := match e.kind with
    | 1 => modSlot e.step e.mb (fun a => markGroups a e.uLo e.uHi true) l
    | 2 => modSlot e.step (e.mb + 2 ^ (e.level - 1)) (fun a => markGroups a e.uLo e.uHi false) l
    | 3 => modSlot e.step e.mb (fun a => markGroups a e.uLo e.uHi false) l
    | _ => l
  if e.last && (e.stepValid || e.kind != 0) then modSlot e.step e.mb (fun a => { a with last := true }) l1 else l1

/-- The slots that stay bound: the LAST segment of the micro-batch has not ended, or a group is not EMPTY (R253). -/
def slotsBound (l : List (Nat × AccSlot)) : List (Nat × AccSlot) := l.filter (fun a => !(a.2.last && a.2.held.isEmpty))

/-- Whether a context holds a schedule slot: its polder is switched to it. -/
def holdsSlot (s : State) (n : Nat) (x : Ctx) : Bool := (polOf s x.polder).cur == some n && (polOf s x.polder).phase == 0

/-- The head after the entries from `h` on that have ended, at most `n` of them. -/
def headPast (l : List Started) (st : Nat) : Nat → Nat → Nat
  | 0, h => h
  | n + 1, h => if l.any (fun e => e.stream == st && e.entry == h && e.ended) then headPast l st n (h + 1) else h

/-- The head of a stream advanced over ended entries, written beside the tail word and on the CTX page (R349). -/
def advanceHead (n st : Nat) (s : State) : State :=
  match ctxOf s n with
  | none => s
  | some x =>
    let h := headOf s n st
    let h' := headPast x.started st (x.started.length + 1) h
    let s1 := setCtx n { x with started := x.started.filter (fun e => !(e.stream == st && e.ended && decide (e.entry < h'))) } s
    if h' = h then s1
    else dramPutWord ((ringOf x st).tail + 8) h' (wri (pgCtx n) R.CTX_HEAD st h' s1)

/-- SEGMENT_END (R352): the oldest started entry of a stream whose cores have all passed SEGEND ends. The slots that it
frees are free at once while the context holds a schedule slot, else at its next one (R253). -/
def segmentEndFetch (n st : Nat) (s : State) : State :=
  match ctxOf s n with
  | none => s
  | some x =>
    match x.started.find? (fun e => e.stream == st && !e.ended && e.left.isEmpty) with
    | none => s
    | some e =>
      let s1 := setCtx n { x with
        blockCycle := false, slots := if holdsSlot s n x then slotsBound (slotEffect e x.slots) else slotEffect e x.slots,
        started := x.started.map (fun r => if r.stream = st ∧ r.entry = e.entry then { r with ended := true } else r) } s
      let s2 := if e.doneEn then
          (if (locate s e.doneTally).isSome then tallyAdd e.doneTally 1 s1 else noteUnmapped (some n) s1) else s1
      advanceHead n st s2

/-- SEGMENT_END (R352). -/
def execSegmentEnd (n : CtxIx) (st : StreamIx) (s : State) : Host.Outcome State Fault Refusal :=
  .next (segmentEndFetch n st s)

/-! ### Planning (R246, R248) -/

/-- The mode of batch steering (R247). -/
def steerMode (s : State) (x : Ctx) : Nat := bitsOf (blockWord s x 0) 0 2

/-- Whether a tally field of a step block is one that R94 admits, with its reserved bits 0. -/
def blockTallyOk (w : Nat) : Bool := tallyAligned (bitsOf w 0 48) && bitsOf w 48 16 == 0

/-- The checks of R247 on a step block: every field in its range, every reserved field 0. -/
def stepBlockOk (s : State) (x : Ctx) : Bool :=
  let w := blockWord s x
  let w0 := w 0
  let bmin := bitsOf (w 1) 0 21
  let bmax := bitsOf (w 1) 21 21
  decide (x.stepBlock % 64 = 0) && backed s x.stepBlock 256 && !dramPoisoned s x.stepBlock 256 &&
    decide (bitsOf w0 0 2 ≠ 3 ∧ 1 ≤ bitsOf w0 2 4 ∧ bitsOf w0 2 4 ≤ 12 ∧ 1 ≤ bitsOf w0 20 5 ∧ bitsOf w0 20 5 ≤ 16 ∧
      bitsOf w0 25 4 ≤ 8 ∧ bitsOf w0 29 35 = 0) &&
    decide (1 ≤ bmin ∧ bmin ≤ bmax ∧ bmax ≤ 2 ^ 20 ∧ bitsOf (w 1) 42 22 = 0) && !ltNum (decodeNum .fp64 (w 3)) (decodeNum .fp64 (w 2)) &&
    decide (bitsOf (w 4) 0 48 % 128 = 0 ∧ bitsOf (w 4) 48 16 = 0) && blockTallyOk (w 5) && blockTallyOk (w 6) &&
    decide (bitsOf (w 7) 32 32 = 0 ∧ bitsOf (w 8) 53 11 = 0 ∧ bitsOf (w 9) 21 43 = 0 ∧
      -126 ≤ signedOf 8 (bitsOf (w 10) 0 8) ∧ bitsOf (w 10) 40 24 = 0 ∧ bitsOf (w 13) 43 21 = 0) &&
    (List.range 18).all (fun i => w (14 + i) == 0)

/-- The step block of a training context checked when a polder is switched to it (R247, R348): a bad one refuses the
context with STEP_DESC. -/
def bindCheck (n : Nat) (s : State) : State :=
  match ctxOf s n with
  | some x => if x.typ = 0 ∧ !x.halted ∧ !stepBlockOk s x then ctxError n 4 2 s else s
  | none => s

/-- Whether a step descriptor passes R246: in steer mode B is read for the first two steps only. -/
def stepDescOk (s : State) (x : Ctx) (ws : List Nat) : Bool :=
  let t := wf ws 0 0 32
  let reads := steerMode s x != 2 || t == startStep s x || t == stepNext (startStep s x)
  t == bitsOf (blockWord s x 8) 0 32 && wf ws 0 53 11 == 0 && (List.range 6).all (fun i => wd ws (2 + i) == 0) &&
    (!reads || decide (1 ≤ wf ws 0 32 21 ∧ wf ws 0 32 21 ≤ 2 ^ 20))

/-- B of step `t` (R248): from the descriptor, or in steer mode from the step block. -/
def planB (s : State) (x : Ctx) (ws : List Nat) : Nat :=
  let t := wf ws 0 0 32
  if steerMode s x = 2 ∧ t ≠ startStep s x ∧ t ≠ stepNext (startStep s x) then
    (if t = stepNext (lastReport s x) then bitsOf (blockWord s x 8) 32 21 else bitsOf (blockWord s x 9) 0 21)
  else wf ws 0 32 21

/-- Whether the report that a plan in steer mode needs has been written (R248). -/
def planReady (s : State) (x : Ctx) (t : Nat) : Bool :=
  steerMode s x != 2 || t == startStep s x || t == stepNext (startStep s x) ||
    stepLe (stepPrev (stepPrev t)) (lastReport s x)

/-- The address of report entry `t` (R269). -/
def reportAddr (s : State) (x : Ctx) (t : Nat) : Nat :=
  bitsOf (blockWord s x 4) 0 48 + t % 2 ^ bitsOf (blockWord s x 0) 20 5 * 128

/-- The plan half of report `t` (R269, R270): words 1 to 15, then word 0. -/
def writePlanHalf (x : Ctx) (p : Plan) (tag : Nat) (s : State) : State :=
  let a := reportAddr s x p.step
  let ws := (List.range 14).map (fun i => if i + 2 = 11 then tag else 0)
  let s1 := dramWrite (a + 8) (((p.b + p.first * 2 ^ 21 + p.count * 2 ^ 41) :: ws).flatMap (bytesOf 8)) false s
  dramPutWord a (p.step + 2 ^ 32) s1

/-- The first two B values of steer mode taken from the step descriptors (R247, R268). -/
def steerStart (x : Ctx) (t b : Nat) (s : State) : State :=
  if steerMode s x ≠ 2 then s
  else if t = startStep s x then dramPutWord (x.stepBlock + 64) (putBits (blockWord s x 8) 32 21 b) s
  else if t = stepNext (startStep s x) then dramPutWord (x.stepBlock + 72) (putBits (blockWord s x 9) 0 21 b) s
  else s

/-- The range of a member of rank `r` among `n` (R248). -/
def planRange (b r n : Nat) : Nat × Nat := (r * b / n, (r + 1) * b / n - r * b / n)

/-- A step planned (R248): range, plan half, NEXT_STEP, PLAN_TALLY; its step descriptor's entry is done (R349). The plans of
open steps, and of steps whose pairs are not all admitted, are kept (R244, R250). -/
def planStep (n k : Nat) (x : Ctx) (ws : List Nat) (s : State) : State :=
  let t := wf ws 0 0 32
  let b := planB s x ws
  let r := match x.place with
    | some p => (match rankOf s p with | some r => planRange b r (dpCount p) | none => (0, 0))
    | none => (0, 0)
  let p : Plan := ⟨t, b, r.1, r.2⟩
  let s1 := writePlanHalf x p (wd ws 1) s
  let s2 := steerStart x t b (dramPutWord (x.stepBlock + 64) (putBits (blockWord s1 x 8) 0 32 (stepNext t)) s1)
  let s3 := tallyAdd (bitsOf (blockWord s2 x 6) 0 48) 1 s2
  let open_ (q : Plan) : Bool := stepLt (t + 2 ^ 32 - 8) q.step || stepLe (lowestOpen s x) q.step ||
    (match x.admitStep with | some a => stepLe a q.step | none => true)
  let s4 := modCtx n (fun x => { x with
    plans := x.plans.filter (fun q => q.step != t && open_ q) ++ [p],
    nextE := mapSet 0 x.nextE 3 (k + 1),
    boundary := some (x.boundary.getD t), admitStep := some (x.admitStep.getD t),
    reportAt := if x.boundary.isNone then tickOf s else x.reportAt,
    reportMj := if x.boundary.isNone then rd s (pgCtx n) R.CTX_ENERGY_MJ else x.reportMj }) s3
  dramPutWord ((ringOf x 3).tail + 8) (k + 1) (wri (pgCtx n) R.CTX_HEAD 3 (k + 1) s4)

/-- Whether this module has left a job at step `t`: the version in force for it does not name the module (R321). -/
def leavesJob (s : State) (x : Ctx) (t : Nat) : Bool :=
  match placeFor x t with
  | some p => !namesMe s p
  | none => false

/-- STEP_PLAN (R248): the next step descriptor is checked, the placement versions are brought up, and the step planned.
A leaving member plans no step from the version's EFFECTIVE_STEP on (R321). -/
def stepPlan (n : Nat) (s : State) : State :=
  match ctxOf s n with
  | none => s
  | some x =>
    let k := nextOf x 3
    if !fetchOn s n x || x.typ != 0 || decide (tailOf x 3 ≤ k) then s
    else
      let ws := entryWords s x 3 k
      let t := wf ws 0 0 32
      let s1 := fetchCtx n ((ringOf x 3).base + k % 2 ^ (ringOf x 3).log2n * 64) 64 s
      let c := checkFor (pgCtx n) 4 (!stepDescOk s x ws) s1
      if c.1 then ctxError n 4 2 c.2
      else if !planReady s x t then s
      else
        let r := loadVersions n t c.2
        if !r.1 then placeBad n r.2
        else
          let s2 := enterVersion n t r.2
          match ctxOf s2 n with
          | none => s2
          | some x2 =>
            if leavesJob s2 x2 t then s2
            else retryPinned (planStep n k x2 ws s2)

/-! ### Admission (R250) -/

/-- The accumulation slots that a context uses (R247): 0 reads as 8. -/
def mbLimit (s : State) (x : Ctx) : Nat := let l := bitsOf (blockWord s x 0) 25 4; if l = 0 then 8 else min l 8

/-- The next pair to be admitted among the planned ranges. -/
def nextPair (x : Ctx) : Option (Nat × Nat × Nat) :=
  let at_ := x.admitStep.getD 0
  x.plans.findSome? (fun p =>
    if !stepLe at_ p.step then none
    else
      let i := if p.step = at_ then x.admitIdx else 0
      if i < p.count then some (p.step, p.first + i, i + 1) else none)

/-- The lowest-numbered free slot. -/
def freeSlot (s : State) (x : Ctx) : Option Nat := (List.range (mbLimit s x)).find? (fun i => (mapFind x.slots i).isNone)

/-- ADMISSION (R250): the next planned pair is bound to the lowest free slot. -/
def admission (n : Nat) (s : State) : State :=
  match ctxOf s n with
  | none => s
  | some x =>
    match nextPair x, freeSlot s x with
    | some (t, mb, i), some f =>
      if fetchOn s n x && holdLets x (some t) then
        setCtx n { x with slots := mapPut x.slots f ⟨t, mb, [], false⟩, admitStep := some t, admitIdx := i } s
      else s
    | _, _ => s

/-- ADMISSION (R250). -/
def execAdmission (n : CtxIx) (s : State) : Host.Outcome State Fault Refusal := .next (admission n s)

end Sys2Proof.Machine
end

