-- ==== Sys2Proof/Machine/RegAccess.lean ====
section
/-!
DEFINITION. Register accesses as every requester path makes them: what a field reads as, reads and writes of words,
the bit-alias window, multi-word shadows and the page directory (R15, R17, R56, R59 to R72).
-/

namespace Sys2Proof.Machine

/-! ### Requester paths (R51, R58, R466) -/

/-- The host window that a page lies in (R466). -/
def hostWindow (c : Cls) : Nat :=
  match c with
  | .core | .array | .die | .canal | .therm | .sample | .memc | .upd | .sluice | .barge | .link => 3
  | .fuse | .sec => 5
  | .perf => 3
  | _ => 4

/-- The window of a page: the module's PERF page is a module page. -/
def pageWindow (p : Page) : Nat := if p.cls = .perf ∧ p.inst = 4 then 4 else hostWindow p.cls

/-- Whether a host window is closed (R466). -/
def windowClosed (s : State) (b : Nat) : Bool := bitSet (rd s pgFuse R.FUSE_CFG_HOST_CLOSED) b

/-- Whether a path carries accesses now: the host link is up, or the management firmware runs (R54, R506). -/
def pathUp (p : Path) (s : State) : Bool :=
  match p with
  | .host => rd s pgHlink R.HLINK_STATUS_STATE == 3
  | .mgmt => rd s pgMgmt R.MGMT_STATUS_FW_RUNNING == 1

/-- Whether a path may reach a page: the host not through a closed window (R466). -/
def pathAllows (p : Path) (g : Page) (s : State) : Bool :=
  match p with
  | .host => !windowClosed s (pageWindow g)
  | .mgmt => true

/-- An access on a path to a page: nothing arrives while the path is down; a closed window or a page that does not
exist behaves as a reserved slot (R58, R466); else the access's own effect, with the answer `ok`. -/
def access (p : Path) (g : Page) (f : State → State) (s : State) : State :=
  if !pathUp p s then s
  else if !pathAllows p g s || !pageExists g then { s with reply := ⟨0, codeUnmapped, false⟩ }
  else f { s with reply := ⟨0, 0, false⟩ }

/-- Whether a field is absent from a page of its class: the section table is present in MEMC instance 0 only, and its
offsets read as 0 in the other instances (R211). -/
def fieldAbsent (p : Page) (f : RegField) : Bool := f.cls == .memc && p.inst != 0 && decide (0x800 ≤ f.off)

/-- The number of a path in the shadows. -/
def pathCode : Path → Nat
  | .host => 0
  | .mgmt => 1

/-! ### Views: RO fields that report a unit's state -/

/-- One bit per stream with a resident segment. -/
def residentBits (k : Core) : Nat := k.res.foldl (fun a e => a + 2 ^ e.1) 0

/-- One bit per tally slot that satisfies `q`. -/
def slotBits (k : Core) (q : TSlot → Bool) : Nat := k.slots.foldl (fun a e => if q e.2 then a + 2 ^ e.1 else a) 0

/-- Whether a core sits at a shifted physical position (R28): its half-row's spare is in use, and it lies between the
replaced core and the spare. -/
def coreShifted (s : State) (c : Nat) : Bool :=
  let p := pgDie (dieOfCore c)
  let k := c / 128 % 32 * 2 + c % 64 / 32
  let col := rdi s p R.DIE_REPAIR_COL k
  rdi s p R.DIE_REPAIR_USED k == 1 && (if k % 2 = 0 then decide (col ≤ c % 64) else decide (c % 64 ≤ col))

/-- The CORE page's status fields (R115), by offset and lowest bit. -/
def coreView (s : State) (c : Nat) (off n lo : Nat) : Option Nat :=
  let k := coreOf s c
  let seg := k.cur.bind (mapFind k.res)
  if 0x200 ≤ off ∧ off ≤ 0x2F8 then some (if k.dbgStop then xnat k n else 0)
  else match off, lo with
  | 0x8, 16 => some (b2n (coreShifted s c))
  | 0x18, 0 => some (b2n (k.cur.isSome && !k.faulted && !k.stopIssue && !k.dbgStop && !s.stopAll))
  | 0x18, 1 => some (b2n (rd s (pgCore c) R.CORE_CTRL_HOLD == 1 && k.res.isEmpty))
  | 0x18, 2 => some (b2n k.faulted)
  | 0x18, 3 => some (b2n k.waitBook)
  | 0x18, 4 => some (b2n k.waitTally)
  | 0x18, 5 => some (b2n k.waitXfer)
  | 0x18, 6 => some (b2n k.dbgStop)
  | 0x18, 7 => some k.g
  | 0x18, 10 => some k.seq.loops.length
  | 0x18, 16 => some k.seq.pc
  | 0x100, 0 => some (k.ctx.getD 0)
  | 0x100, 6 => some (b2n k.ctx.isSome)
  | 0x100, 8 => some k.polder
  | 0x100, 16 => some k.gen
  | 0x104, 0 => some (k.cur.getD 0)
  | 0x104, 2 => some (match seg with | some g => g.role | none => 0)
  | 0x104, 5 => some (residentBits k)
  | 0x108, 0 => some k.req
  | 0x108, 3 => some k.g
  | 0x108, 6 => some (b2n k.bookPend)
  | 0x10C, 0 => some (slotBits k (fun _ => true))
  | 0x10C, 4 => some (slotBits k (fun t => t.sat))
  | 0x110, 0 => some k.nmoves.length
  | _, _ => none

/-- An accumulator's STATE word (R145). -/
def accStateWord (k : Core) (i : Nat) : Nat :=
  let a := accOf k i
  a.st + a.kind * 4 + b2n a.sat * 8 + b2n a.poison * 16 + a.tile * 256 + inflight k i * 4096

/-- The ARRAY page's status fields (R145). The index of the streaming fold is not held: a free value below the MMA's
fold count while one streams. -/
def arrayView (s : State) (c : Nat) (off lo w : Nat) : Option Nat :=
  let k := coreOf s c
  match off with
  | 0x1000 => some (bitsOf (k.cfg.at_ + k.cfg.bt * 16 + k.cfg.amode * 256 + k.cfg.xp * 512 + k.cfg.xc2 * 16384) lo w)
  | 0x1004 => some (bitsOf (accStateWord k 0) lo w)
  | 0x1008 => some (bitsOf (k.acc0.m + k.acc0.n * 65536) lo w)
  | 0x100C => some (accStateWord k 1)
  | 0x1010 => some (k.acc1.m + k.acc1.n * 65536)
  | 0x1014 => some (bitsOf (b2n (!k.queue.isEmpty) + b2n k.waitAcc * 2 + b2n k.waitQueue * 4 + k.queue.length * 8 +
      b2n k.drain.isSome * 32 +
      (match k.queue with | j :: _ => Config.freeNat s.free % foldCount j * 65536 | [] => 0)) lo w)
  | 0x1054 =>
    some (if k.dbgStop then
        accEnt (accOf k (rd s (pgArray c) R.ARRAY_ACC_DBG_IDX_ACC)) (rd s (pgArray c) R.ARRAY_ACC_DBG_IDX_ENTRY)
      else 0)
  | _ => none

/-- The BARGE page's STATUS fields (R212). -/
def bargeView (s : State) (e off lo : Nat) : Option Nat :=
  let k := mapGet Engine.zero s.engines e
  match off, lo with
  | 0x18, 0 => some k.jobs.length
  | 0x18, 6 => some (rd s (pgBarge e) R.BARGE_CTRL_HOLD)
  | 0x18, 7 => some (b2n (k.ask != 0))
  | _, _ => none

/-- Whether a native link uses SPREAD_REF (R281). -/
def spreadUsed (s : State) (k : Nat) : Bool :=
  bitSet (rd s (pgLink k) R.LINK_LOCAL_CAPS) 11 && bitSet (rd s (pgLink k) R.LINK_PARTNER_CAPS) 11

/-- Whether the reference of the native links is spread: SPREAD_REF is in use on every UP native link (R281). -/
def spreadOn (s : State) : Bool :=
  (List.range 32).any (linkUp s) && (List.range 32).all (fun k => !linkUp s k || spreadUsed s k)

/-- The LINK page's fields that report the engine (R281, R308). -/
def linkView (s : State) (k off lo : Nat) : Option Nat :=
  match off, lo with
  | 0x8, 16 => some (b2n (decide (28 ≤ k)))
  | 0x18, 9 => some (b2n (spreadOn s && (linkState s k == 3 || linkState s k == 4)))
  | 0x118, 0 => some ((List.range 8).foldl (fun a vc => a + min 255 (credFree s k vc) * 2 ^ (8 * vc)) 0)
  | _, _ => none

/-- Whether a binding is at work (R243): an update under way, or a contribution's blocks still arriving. -/
def updBusy (b : Binding) : Bool := b.phase == 4 || !b.series.isEmpty

/-- Whether SRST.IDLE of a page reads 1 (R61, R116, and the owning chapters of BARGE and LINK); what counts as work on
the pages without block reset is DEDUCED (log 63). -/
def blockIdle (s : State) (p : Page) : Bool :=
  match p.cls with
  | .core | .array =>
    let k := coreOf s p.inst
    k.res.isEmpty && k.nmoves.isEmpty && k.slots.isEmpty && k.g == 0 && k.queue.isEmpty && k.drain.isNone
  | .barge => (mapGet Engine.zero s.engines p.inst).jobs.isEmpty
  | .link => linkIdle s p.inst
  | .upd => !s.binds.any (fun e => e.1 / 4 == p.inst && updBusy e.2)
  | .sec => rd s pgSec R.SEC_STATUS_BUSY == 0
  | .rng => rd s pgRng R.RNG_STATUS_EV_BUSY == 0
  | .fuse => rd s pgFuse R.FUSE_PROG_STATUS_BUSY == 0
  | .memc => s.mapQ.all (fun j => j.stack != p.inst)
  | .sched => rd s pgSched R.SCHED_STATUS_RUNNING == 0 && rd s pgSched R.SCHED_CREATE_RESULT_BUSY == 0
  | .ctx => (match ctxOf s p.inst with | some x => x.started.isEmpty && !decide (3 ≤ ctxState s p.inst) | none => true)
  | .emb => s.rst.capture.isNone && s.emb.recov.isEmpty
  | .rst => rd s pgRst R.RST_STATUS_COMEOUT == 0 && !s.boot.sealing
  | .pwr => s.power.target.isNone
  | .sluice => (sluiceOf s p.inst).waiting.isEmpty
  | .audit => s.audits.isEmpty
  | _ => true

/-- Whether a pending value of a page awaits its boundary at CTRL (`ctrl`) or elsewhere (R61). -/
def anyPend (s : State) (p : Page) (ctrl : Bool) : Bool :=
  (pendOffs s p).any (fun e => decide (e.1 = 0x10) == ctrl) ||
    (p.cls == .core && !ctrl && !(pendOffs s (pgArray p.inst)).isEmpty)

/-- The header fields that report the page itself (R61). -/
def headerView (s : State) (p : Page) (off lo : Nat) : Option Nat :=
  match off, lo with
  | 0x0, 0 => some (clsCode p.cls)
  | 0x0, 8 => some p.inst
  | 0x8, 0 => some (bitOf (capsOf p.cls) 0)
  | 0x8, 1 => some (bitOf (capsOf p.cls) 1)
  | 0x8, 2 => some (bitOf (capsOf p.cls) 2)
  | 0x8, 3 => some (bitOf (capsOf p.cls) 3)
  | 0x14, 0 => some (b2n (anyPend s p true))
  | 0x14, 1 => some (b2n (anyPend s p false))
  | 0x1C, 1 => some (b2n (blockIdle s p))
  | _, _ => none

/-- The QUAY page's fields of the directory entry that DIR_SEL selects (R213). -/
def quayView (s : State) (off lo : Nat) : Option Nat :=
  let e := mapFind s.quayDir (rd s pgQuay R.QUAY_DIR_SEL)
  match off, lo with
  | 0x114, 0 => some (match e with | some q => q.id | none => 0)
  | 0x118, 0 => some (match e with | some q => q.ver | none => 0)
  | 0x120, 0 => some (match e with | some q => 2 ^ 40 + q.base | none => 0)
  | 0x128, 0 => some (match e with | some q => q.len | none => 0)
  | 0x130, 0 => some (b2n e.isSome)
  | 0x130, 1 => some (match e with | some q => b2n q.factory | none => 0)
  | _, _ => none

/-- The FUSE page's key words of the slot that KEY_SEL selects (R482); PROG, SVN_ADVANCE and PROG_STATUS read as
themselves. -/
def fuseView (s : State) (off n : Nat) : Option Nat :=
  if 0x140 ≤ off ∧ off < 0x1A0 ∧ ¬(0x180 ≤ off ∧ off < 0x18C) then some (mapGet 0 s.factory.keys (rd s pgFuse R.FUSE_KEY_SEL * 24 + n)) else none

/-- The AUDIT page's state of the core that CORE_SEL selects (R445). -/
def auditView (s : State) (off lo : Nat) : Option Nat :=
  let a := mapGet AuditSt.zero s.auditSt (rd s pgAudit R.AUDIT_CORE_SEL)
  match off, lo with
  | 0x18, 0 => some (min 255 ((List.range 256).filter (auditorFree s)).length)
  | 0x134, 0 => some a.st
  | 0x134, 3 => some (b2n (a.out && a.st == 3))
  | 0x134, 16 => some a.band
  | _, _ => none

/-- The pins that the PWR and AON pages show (R397, R55). -/
def pinView (s : State) (c : Cls) (off lo : Nat) : Option Nat :=
  match c, off, lo with
  | .pwr, 0x18, 3 => some (b2n s.pins.slowdown)
  | .pwr, 0x18, 4 => some (b2n s.pins.coolant)
  | .aon, 0x18, 1 => some (b2n s.pins.coolant)
  | .aon, 0x18, 2 => some (b2n s.pins.wake)
  | _, _, _ => none

/-- The SLUICE page's fields that report the ledger and the queue (R396). -/
def sluiceView (s : State) (r off lo : Nat) : Option Nat :=
  match off, lo with
  | 0x18, 7 => some (b2n (reserveCal s r none != 0))
  | 0x18, 8 => some (min 255 (sluiceOf s r).waiting.length)
  | 0x18, 16 => some (b2n (decide (4096 < kOf s r)))
  | 0x100, 0 => some ((ledgerB s r).floor % 2 ^ 20)
  | 0x104, 0 => some ((reserveAt s r (kOf s r) none).floor % 2 ^ 20)
  | _, _ => none

/-- The CTX page's fields that report the context (R368). -/
def ctxView (s : State) (n off lo : Nat) : Option Nat :=
  match off, lo with
  | 0x18, 3 => some (match ctxOf s n with | some x => b2n ((polOf s x.polder).cur == some n) | none => 0)
  | 0x18, 4 => some (b2n (blockedNow s n))
  | 0x18, 5 => some (b2n (isHeld s n))
  | _, _ => none

/-- The UPD page's STATUS.BUSY and HELD (R243): an update under way, or a contribution's blocks still arriving. -/
def updView (s : State) (k off lo : Nat) : Option Nat :=
  let busy := s.binds.any (fun e => e.1 / 4 == k && updBusy e.2)
  match off, lo with
  | 0x18, 4 => some (b2n busy)
  | 0x18, 5 => some (b2n (!busy && rd s (pgUpd k) R.UPD_CTRL_HOLD == 1))
  | _, _ => none

/-- The PERF page's STATUS.FROZEN (R489). -/
def perfView (s : State) (p : Page) (off : Nat) : Option Nat := if off = 0x18 then some (rd s p R.PERF_CTRL_FREEZE) else none

/-- The word of retained SRAM at RET_ADDR (R480). -/
def retView (s : State) (off : Nat) : Option Nat :=
  if off = 0x184 then some (mapGet 0 s.retained (rd s pgRst R.RST_RET_ADDR)) else none

/-- What a field of a page holds as a read shows it: a view of the unit, else the stored value. -/
def viewField (s : State) (p : Page) (f : RegField) (n : Nat) : Nat :=
  let v := if f.cls = .header then headerView s p f.off f.lo
    else if p.cls = .core then coreView s p.inst (f.off + n * f.stride) n f.lo
    else if p.cls = .array then arrayView s p.inst f.off f.lo f.width
    else if p.cls = .barge then bargeView s p.inst f.off f.lo
    else match p.cls with
      | .memc => if f.off = 0x8 then some (b2n (p.inst == 0)) else none
      | .link => linkView s p.inst f.off f.lo
      | .quay => quayView s f.off f.lo
      | .fuse => fuseView s (f.off + n * f.stride) n
      | .audit => auditView s f.off f.lo
      | .pwr | .aon => pinView s p.cls f.off f.lo
      | .rst => retView s f.off
      | .ctx => ctxView s p.inst f.off f.lo
      | .sluice => sluiceView s p.inst f.off f.lo
      | .upd => updView s p.inst f.off f.lo
      | .perf => perfView s p f.off
      | _ => none
  v.getD (rdi s p f n)

/-! ### Whole registers -/

/-- The 32-bit words of the register that begins at an offset; 0 where none does. -/
def regWords (c : Cls) (b : Nat) : Nat :=
  (rowsAt c b).foldl (fun a fn => max a ((fn.1.lo + fn.1.width + 31) / 32)) 0

/-- The register that a word belongs to: its first offset and the word's number in it. -/
def regOfWord (c : Cls) (o : Nat) : Option (Nat × Nat) :=
  [0, 1, 2, 3].findSome? (fun k =>
    if 4 * k ≤ o ∧ k < regWords c (o - 4 * k) then some (o - 4 * k, k) else none)

/-- The value of the register at an offset as a read shows it (R15): WO reads 0, WB the pending value where one is
held. -/
def regVal (s : State) (p : Page) (b : Nat) : Nat :=
  (rowsAt p.cls b).foldl (fun v fn =>
    let f := fn.1
    let x := if f.kind = .wo ∨ fieldAbsent p f then 0
      else if f.wb then pendingRd s p f fn.2
      else viewField s p f fn.2
    v + x % 2 ^ f.width * 2 ^ f.lo) 0

/-- RC fields of a register whose bits meet `m` are cleared by a read of those bits (R15, R69). -/
def clearRc (p : Page) (b m : Nat) (s : State) : State :=
  (rowsAt p.cls b).foldl (fun t fn =>
    let f := fn.1
    let hit := bitsOf m f.lo f.width
    if f.kind = .rc ∧ hit ≠ 0 then wri p f fn.2 (rdi t p f fn.2 - (rdi t p f fn.2 &&& hit)) t else t) s

/-! ### Debug permission (R467) -/

/-- The registers whose writes need debug permission: ERR_INJ (R63) and the debug registers (R115, R145). -/
def debugReg (c : Cls) (b : Nat) : Bool :=
  b == 0x2C || (c == .core && (b == 0x140 || b == 0x144)) || (c == .array && b == 0x1050)

/-! ### Writes -/

/-- ERR_STAT bits cleared; with none left, ERR_FIRST is empty (R62). -/
def clearErrStat (h : Page) (v : Nat) (s : State) : State :=
  let e := rd s h R.HEADER_ERR_STAT_ERR
  let m := rd s h R.HEADER_ERR_STAT_MULTI
  let e' := e - (e &&& v)
  let m' := if bitSet v 31 then 0 else m
  let s1 := wr h R.HEADER_ERR_STAT_MULTI m' (wr h R.HEADER_ERR_STAT_ERR e' s)
  if e' = 0 ∧ m' = 0 then wr h R.HEADER_ERR_FIRST_VALID 0 s1 else s1

/-- `old` with the bits of `m` taken from `v`. -/
def mergeBits (old v m : Nat) : Nat := (old - (old &&& m)) + (v &&& m)

/-- Whether a field ignores a write that would leave it at `x`: SCRUB_HOURS 0 (R211), LINK.CTRL.MODE 3 or 1 and 2 where
OUTER is 0 (R308), ACTIVE_REQ 3 (R331), SWAP_POLICY 3 (R360), MODULE_ID while a link is UP (R444), the evaluator's operands
while it works (R178), the sample ring's place while EN is 1 (R493), FW_OK 0 (R480). -/
def fieldShut (s : State) (p : Page) (f : RegField) (x : Nat) : Bool :=
  match p.cls with
  | .memc => f == R.MEMC_SCRUB_HOURS && x == 0
  | .link => f == R.LINK_CTRL_MODE && (x == 3 || (x != 0 && decide (p.inst < 28)))
  | .wlock => f == R.WLOCK_LOCK_CTRL_ACTIVE_REQ && x == 3
  | .sched => f == R.SCHED_CTRL_SWAP_POLICY && x == 3
  | .emb => f == R.EMB_MODULE_ID && (List.range 32).any (fun k => rd s (pgLink k) R.LINK_STATUS_STATE == 4)
  | .rng => (f == R.RNG_EV_KEY || f == R.RNG_EV_CTR) && rd s pgRng R.RNG_STATUS_EV_BUSY == 1
  | .sample => (f == R.SAMPLE_BUF_BASE || f == R.SAMPLE_BUF_LOG2N) && rd s p R.SAMPLE_CTRL_EN == 1
  | .rst => f == R.RST_BOOT_FW_OK && x == 0
  | _ => false

/-- One field's part of a write of `v` under mask `m` that takes effect on acceptance (R15, R17, R69). -/
def writeField (p : Page) (locked : Bool) (v m : Nat) (fn : RegField × Nat) (s : State) : State :=
  let f := fn.1
  let fm := bitsOf m f.lo f.width
  let fv := bitsOf v f.lo f.width
  if f.wb ∨ fm = 0 ∨ (f.wl ∧ locked) ∨ fieldAbsent p f then s
  else match f.kind with
    | .rw =>
      let x := mergeBits (rdi s p f fn.2) fv fm
      if fieldShut s p f x then s else wri p f fn.2 x s
    | .w1c => wri p f fn.2 (rdi s p f fn.2 - (rdi s p f fn.2 &&& fv &&& fm)) s
    | .ro | .rc | .wo => s

/-- The pending value that a write of `v` under `m` leaves for a register (R65, R69): WB fields that take the write
change, and the others keep the pending or applied value. -/
def pendValue (s : State) (p : Page) (locked : Bool) (b v m : Nat) : Option Nat :=
  let rows := (rowsAt p.cls b).filter (fun fn => fn.1.wb && fn.1.kind == .rw && !fieldAbsent p fn.1)
  let new (fn : RegField × Nat) : Nat := mergeBits (pendingRd s p fn.1 fn.2) (bitsOf v fn.1.lo fn.1.width) (bitsOf m fn.1.lo fn.1.width)
  let taken (fn : RegField × Nat) : Bool :=
    bitsOf m fn.1.lo fn.1.width != 0 && !(fn.1.wl && locked) && !fieldShut s p fn.1 (new fn)
  if rows.any taken then
    some (rows.foldl (fun a fn => a + (if taken fn then new fn else pendingRd s p fn.1 fn.2) * 2 ^ fn.1.lo) 0)
  else none

/-- A write of `v` under mask `m` to the register at offset `b` of a page: PAGE_LOCK only sets, ERR_STAT clears, debug
registers need permission, WB fields are held, the rest take effect; then `hook` performs what the write triggers. -/
def writeReg (hook : Page → Nat → Nat → State → State) (p : Page) (b v m : Nat) (s : State) : State :=
  let h := headPage p
  let x := v &&& m
  if debugReg p.cls b && !debugOpen s then s
  else if b = 0x0C then (if bitSet x 0 then wr h R.HEADER_PAGE_LOCK_LOCK 1 s else s)
  else if b = 0x20 then clearErrStat h x s
  else
    let locked := rd s h R.HEADER_PAGE_LOCK_LOCK == 1
    let s1 := (rowsAt p.cls b).foldl (fun t fn => writeField p locked v m fn t) s
    let s2 := match pendValue s p locked b v m with
      | some w => holdPend p b w s1
      | none => s1
    hook p b x s2

/-! ### Words, shadows and aliases -/

/-- The number under which a shadow word of a path is filed. -/
def shadowKey (path : Nat) (p : Page) (o : Nat) : Nat := wordKey p o * 4 + path

/-- Whether a shadow entry belongs to a path and page. -/
def shadowOf (path : Nat) (p : Page) (key : Nat) : Bool := decide (key % 4 = path ∧ wkeyPage (key / 4) = pageKey p)

/-- The register word and bit that an alias offset names (R69). -/
def aliasWord (o : Nat) : Nat := (o - 0x2000) / 4 / 32 * 4
/-- The bit that an alias offset names (R69). -/
def aliasBit (o : Nat) : Nat := (o - 0x2000) / 4 % 32

/-- The word of the page directory at an offset (R72). DESIGN CHOICE (log 66): each class with one page per die is written as
1 by 4 instances, CORE and ARRAY as 8,192 by 1, the other entries as R72 writes SLUICE and module PERF; a stride that governs
a single step is stated nowhere and is opaque (log 18). -/
def moddirWord (o : Nat) : Nat :=
  let one (c : Cls) (q : Nat) : List Nat := [clsCode c + 256, 0x0C00_0000 + q * 0x4000, 1 + 65536,
    Config.unstated 72 (clsCode c) % 2 ^ 32]
  let die (c : Cls) (p n : Nat) : List Nat := [clsCode c + 256, 0x0800_0000 + p * 0x4000, n + 4 * 65536,
    (if n = 1 then Config.unstated 72 (clsCode c) % 65536 else 1) + 64 * 65536]
  let rows : List (List Nat) :=
    [[clsCode .core + 256, 0, 8192 + 65536, 1 + Config.unstated 72 1 % 65536 * 65536],
     [clsCode .array + 256 + 2 ^ 24, 0x1000, 8192 + 65536, 1 + Config.unstated 72 2 % 65536 * 65536],
     die .die 0 1, die .canal 1 1, die .therm 2 1, die .perf 3 1, die .sample 4 1, die .memc 6 2, die .upd 8 2,
     die .sluice 16 16, die .barge 32 16, die .link 48 8] ++
    [one .moddir 0, one .mgmt 1, one .aon 2, one .rst 3, one .strap 4, one .fuse 5, one .sec 6, one .pwr 7, one .sched 8,
     one .emb 9, one .hlink 10, one .quay 11, one .audit 12, one .rng 13,
     [clsCode .perf + 256 + 4 * 2 ^ 25, 0x0C03_8000, 1 + 65536, Config.unstated 72 0x1D % 2 ^ 32], one .wlock 15,
     [clsCode .ctx + 256, 0x0C00_0000 + 64 * 0x4000, 64 + 65536, 1 + Config.unstated 72 14 % 65536 * 65536]]
  if o = 0x100 then rows.length
  else if 0x200 ≤ o ∧ o < 0x200 + rows.length * 16 then (rows.getD ((o - 0x200) / 16) []).getD ((o - 0x200) % 16 / 4) 0
  else 0

/-- The page of a register word: offsets below 0x100 and the alias window of an ARRAY page are its core's (R59). -/
def ownerPage (p : Page) (o : Nat) : Page := if p.cls = .array ∧ (o < 0x1000 ∨ 0x2000 ≤ o) then ⟨.core, p.inst⟩ else p

/-- What a read of a one-word register does besides: an access to RET_DATA moves RET_ADDR on (R480). -/
def readEffect (p : Page) (b : Nat) (s : State) : State :=
  if p.cls = .rst ∧ b = 0x184 then bump pgRst R.RST_RET_ADDR 1 s else s

/-- A read of the 32-bit word at offset `o` of a page on a path (R15, R69, R70). -/
def readOff (path : Nat) (p0 : Page) (o : Nat) (s : State) : Nat × State :=
  let p := ownerPage p0 o
  if 0x2000 ≤ o then
    let w := aliasWord o
    let b := aliasBit o
    (bitOf (regVal s p w) b, clearRc p w (2 ^ b) s)
  else if p.cls = .moddir ∧ 0x100 ≤ o then (moddirWord o, s)
  else match regOfWord p.cls o with
    | none => (0, s)
    | some (b, k) =>
      let n := regWords p.cls b
      let v := regVal s p b
      if n = 1 then (v % 2 ^ 32, readEffect p b (clearRc p b (2 ^ 32 - 1) s))
      else if k = 0 then
        let keep := mapDrop s.rshadow (shadowOf path p)
        (v % 2 ^ 32, { s with rshadow :=
          (List.range (n - 1)).foldl (fun m i => mapPut m (shadowKey path p (b + 4 * (i + 1))) (bitsOf v (32 * (i + 1)) 32)) keep })
      else match mapFind s.rshadow (shadowKey path p o) with
        | some x => (x, { s with rshadow := mapDel s.rshadow (shadowKey path p o) })
        | none => (bitsOf v (32 * k) 32, s)

/-- A write of the 32-bit word at offset `o` of a page on a path (R69, R71). -/
def writeOff (hook : Page → Nat → Nat → State → State) (path : Nat) (p0 : Page) (o v : Nat) (s : State) : State :=
  let p := ownerPage p0 o
  if 0x2000 ≤ o then
    let w := aliasWord o
    let b := aliasBit o
    writeReg hook p w (v % 2 * 2 ^ b) (2 ^ b) s
  else match regOfWord p.cls o with
    | none => s
    | some (b, k) =>
      let n := regWords p.cls b
      if n ≤ 1 then writeReg hook p b v (2 ^ 32 - 1) s
      else if k + 1 < n then
        let keep := mapDrop s.wshadow (fun key => shadowOf path p key &&
          !((List.range n).any (fun i => key == shadowKey path p (b + 4 * i))))
        { s with wshadow := mapPut keep (shadowKey path p o) (v % 2 ^ 32) }
      else
        let held := (List.range (n - 1)).filterMap (fun i =>
          (mapFind s.wshadow (shadowKey path p (b + 4 * i))).map (fun w => (i, w)))
        let val := held.foldl (fun a e => a + e.2 * 2 ^ (32 * e.1)) (v % 2 ^ 32 * 2 ^ (32 * k))
        let msk := held.foldl (fun a e => a + (2 ^ 32 - 1) * 2 ^ (32 * e.1)) ((2 ^ 32 - 1) * 2 ^ (32 * k))
        writeReg hook p b val msk { s with wshadow := mapDrop s.wshadow (fun key =>
          (List.range n).any (fun i => key == shadowKey path p (b + 4 * i))) }

/-- A read of `width` bytes at offset `o` of a page: a 64-bit read is the low word, then the high word (R56). -/
def readPage (path : Nat) (p : Page) (o width : Nat) (s : State) : Nat × State :=
  let lo := readOff path p o s
  if width = 8 then
    let hi := readOff path p (o + 4) lo.2
    (lo.1 + hi.1 * 2 ^ 32, hi.2)
  else lo

/-- A write of `width` bytes at offset `o` of a page (R56). -/
def writePage (hook : Page → Nat → Nat → State → State) (path : Nat) (p : Page) (o width v : Nat) (s : State) : State :=
  let s1 := writeOff hook path p o (v % 2 ^ 32) s
  if width = 8 then writeOff hook path p (o + 4) (v / 2 ^ 32 % 2 ^ 32) s1 else s1

/-- Whether an access has a width and alignment that R56 performs. -/
def accessShape (a width : Nat) : Bool := (width == 4 || width == 8) && a % width == 0

end Sys2Proof.Machine
end

