-- ==== Sys2Proof/Machine/CoreScalar.lean ====
section
/-!
DEFINITION. The SCALAR instructions of a core: integer operations, LIH, and the loads and stores of scratch and of the
core's own page (R80, R81).
-/

namespace Sys2Proof.Machine

/-- The second operand of an ALU instruction (R80). -/
def aluB (k : Core) (w : DWord) : DWord := if fld w 27 1 = 1 then imm32 w else xget k (fld w 22 5)

/-- Whether an ALU word breaks R77: bits beyond its fields, or an immediate with IMM = 0 (R80). -/
def aluIllegal (w : DWord) : Bool := !onlyFields w [(0, 8), (12, 16), (28, 32)] || (fld w 27 1 == 0 && fld w 28 32 != 0)

/-- An ALU instruction: X[XD] := f X[XA] b (R80). -/
def doAlu (c : Nat) (w : DWord) (f : DWord → DWord → DWord) (s : State) : State :=
  coreCheck c 0 w (aluIllegal w) s
    (retire c (fun k => xset (fld w 12 5) (f (xget k (fld w 17 5)) (aluB k w)) k))

/-- 1 or 0 as a 64-bit word. -/
def boolWord (b : Bool) : DWord := if b then 1#64 else 0#64

/-- ADD (R80). -/
def execAdd (c : CoreIx) (w : DWord) (s : State) : Host.Outcome State Fault Refusal :=
  coreCmd (wClass w == 3 && wOp w == 0) (issue false c w (doAlu c w (fun a b => a + b)) s)

/-- SUB (R80). -/
def execSub (c : CoreIx) (w : DWord) (s : State) : Host.Outcome State Fault Refusal :=
  coreCmd (wClass w == 3 && wOp w == 1) (issue false c w (doAlu c w (fun a b => a - b)) s)

/-- AND (R80). -/
def execAndX (c : CoreIx) (w : DWord) (s : State) : Host.Outcome State Fault Refusal :=
  coreCmd (wClass w == 3 && wOp w == 2) (issue false c w (doAlu c w (fun a b => a &&& b)) s)

/-- OR (R80). -/
def execOrX (c : CoreIx) (w : DWord) (s : State) : Host.Outcome State Fault Refusal :=
  coreCmd (wClass w == 3 && wOp w == 3) (issue false c w (doAlu c w (fun a b => a ||| b)) s)

/-- XOR (R80). -/
def execXorX (c : CoreIx) (w : DWord) (s : State) : Host.Outcome State Fault Refusal :=
  coreCmd (wClass w == 3 && wOp w == 4) (issue false c w (doAlu c w (fun a b => a ^^^ b)) s)

/-- SHL (R80): by bits [5:0] of the second operand. -/
def execShl (c : CoreIx) (w : DWord) (s : State) : Host.Outcome State Fault Refusal :=
  coreCmd (wClass w == 3 && wOp w == 5) (issue false c w (doAlu c w (fun a b => a <<< (b.toNat % 64))) s)

/-- SHR (R80). -/
def execShr (c : CoreIx) (w : DWord) (s : State) : Host.Outcome State Fault Refusal :=
  coreCmd (wClass w == 3 && wOp w == 6) (issue false c w (doAlu c w (fun a b => a >>> (b.toNat % 64))) s)

/-- SAR (R80). -/
def execSar (c : CoreIx) (w : DWord) (s : State) : Host.Outcome State Fault Refusal :=
  coreCmd (wClass w == 3 && wOp w == 7) (issue false c w (doAlu c w (fun a b => a.sshiftRight (b.toNat % 64))) s)

/-- MUL (R80): the low 64 bits of the product. -/
def execMul (c : CoreIx) (w : DWord) (s : State) : Host.Outcome State Fault Refusal :=
  coreCmd (wClass w == 3 && wOp w == 8) (issue false c w (doAlu c w (fun a b => a * b)) s)

/-- SLT (R80): signed. -/
def execSlt (c : CoreIx) (w : DWord) (s : State) : Host.Outcome State Fault Refusal :=
  coreCmd (wClass w == 3 && wOp w == 9) (issue false c w (doAlu c w (fun a b => boolWord (a.slt b))) s)

/-- SLTU (R80): unsigned. -/
def execSltu (c : CoreIx) (w : DWord) (s : State) : Host.Outcome State Fault Refusal :=
  coreCmd (wClass w == 3 && wOp w == 10) (issue false c w (doAlu c w (fun a b => boolWord (a.ult b))) s)

/-- LIH (R80): bits [63:32] of X[XD] replaced by IMM32, bits [31:0] kept. -/
def doLih (c : Nat) (w : DWord) (s : State) : State :=
  coreCheck c 0 w (aluIllegal w) s
    (retire c (fun k => xset (fld w 12 5) (BitVec.ofNat 64 (putBits (xnat k (fld w 12 5)) 32 32 (fld w 28 32))) k))

/-- LIH (R80). -/
def execLih (c : CoreIx) (w : DWord) (s : State) : Host.Outcome State Fault Refusal :=
  coreCmd (wClass w == 3 && wOp w == 11) (issue false c w (doLih c w) s)

/-! ### Loads and stores -/

/-- Whether an LD or ST word breaks R77 or names generator 7 (R80). -/
def ldStIllegal (w : DWord) : Bool :=
  !onlyFields w [(0, 8), (12, 13), (25, 4), (29, 19)] || fld w 22 3 == 7

/-- The access address of an LD or ST (R80). -/
def ldStAddr (k : Core) (w : DWord) : Int := startAddr k (fld w 22 3) (fld w 17 5) + signedOf 19 (fld w 29 19)

/-- The bytes of an LD or ST (R80). -/
def ldStBytes (w : DWord) : Nat := 2 ^ fld w 25 2

/-- The value an LD writes: sign-extended with SIGNED, else zero-extended (R80). -/
def ldExtend (w : DWord) (v : Nat) : DWord :=
  if fld w 27 1 = 1 then BitVec.ofInt 64 (signedOf (8 * ldStBytes w) v) else BitVec.ofNat 64 v

/-- The stop and resume effects of a DBG_CTRL write (R115), STEP apart: STOP holds issue at the boundary, RESUME clears
STOP and lets the instruction at a breakpoint pass. DESIGN CHOICE (log 74): RESUME wins over STOP, and STOP = 0 alone
resumes. -/
def dbgCtrl (c x : Nat) (s : State) : State :=
  if bitSet x 2 then
    modCore c (fun k => { k with dbgStop := false, bpPass := true }) (wr (pgCore c) R.CORE_DBG_CTRL_STOP 0 s)
  else modCore c (fun k => { k with dbgStop := rd s (pgCore c) R.CORE_DBG_CTRL_STOP == 1 }) s

/-- What a core's own store to its page triggers: a block reset is refused, since its segment is resident (R64, R116);
DBG_CTRL acts. -/
def ownHook (c : Nat) (_p : Page) (b x : Nat) (s : State) : State :=
  if b = 0x1C ∧ bitSet x 0 then wr (pgCore c) R.HEADER_SRST_SRST_REFUSED 1 s
  else if b = 0x140 then dbgCtrl c x s
  else s

/-- The page of the core's own slot that an offset belongs to (R59, R81). -/
def ownPage (c o : Nat) : Page := if 0x1000 ≤ o ∧ o < 0x2000 then pgArray c else pgCore c

/-- The checks of an access to the core's own page (R56, R81), then the access. -/
def ownAccess (c : Nat) (w : DWord) (a : Int) (ok : State → State) (s : State) : State :=
  coreCheck c 12 w (decide (a < 0 ∨ 0x4000 ≤ a)) s (fun s =>
    if accessShape a.toNat (ldStBytes w) then ok s else coreFaultCode c 12 codeRegAccess w s)

/-- A load from scratch (R80, R88, R104): it waits for an ADRAIN that has yet to write its bytes (R79). -/
def loadScratch (c : Nat) (w : DWord) (a : Int) (s : State) : State :=
  let n := ldStBytes w
  coreCheck c 4 w (!scrInRange a n) s (fun s =>
    if underDrain (coreOf s c) a.toNat n then holdIssue c id s
    else
      let r := scrSecded c a.toNat n s
      if r.1 then
        let s1 := { r.2 with free := r.2.free + 1 }
        coreFault c 14 w (modCore c (fun k => xset (fld w 12 5) (Config.freeWord r.2.free) (agUse (fld w 22 3) k)) s1)
      else retire c (fun k => xset (fld w 12 5) (ldExtend w (ofBytes (scrRead k a.toNat n))) (agUse (fld w 22 3) k)) r.2)

/-- LD (R80, R81). -/
def doLd (c : Nat) (w : DWord) (s : State) : State :=
  coreCheck c 0 w (ldStIllegal w) s (fun s =>
    let a := ldStAddr (coreOf s c) w
    if fld w 28 1 = 0 then loadScratch c w a s
    else ownAccess c w a (fun s =>
      let r := readPage 2 (ownPage c a.toNat) a.toNat (ldStBytes w) s
      retire c (fun k => xset (fld w 12 5) (ldExtend w r.1) (agUse (fld w 22 3) k)) r.2) s)

/-- LD (R80, R81). -/
def execLd (c : CoreIx) (w : DWord) (s : State) : Host.Outcome State Fault Refusal :=
  coreCmd (wClass w == 3 && wOp w == 12) (issue false c w (doLd c w) s)

/-- The SECDED check of the words that a store covers in part, which it reads first (R102, R104). -/
def storeSecded (c a n : Nat) (s : State) : Bool × State :=
  let r1 := if a % 8 = 0 ∧ 8 ≤ n then (false, s) else scrSecded c a 1 s
  if (a + n) % 8 = 0 ∨ (a / 8 = (a + n - 1) / 8 ∧ !(a % 8 = 0 ∧ 8 ≤ n)) then r1
  else
    let r2 := scrSecded c (a + n - 1) 1 r1.2
    (r1.1 || r2.1, r2.2)

/-- Bytes stored to scratch by an instruction that retires through `fin` (R79, R88, R102). -/
def storeScratch (c : Nat) (w : DWord) (a : Int) (bs : Core → List Nat) (n : Nat) (poison : Core → Bool)
    (fin : Core → Core) (done : (Core → Core) → State → State) (s : State) : State :=
  coreCheck c 4 w (!scrInRange a n) s (fun s =>
    if underDrain (coreOf s c) a.toNat n then holdIssue c id s
    else
      let r := storeSecded c a.toNat n s
      if r.1 then coreFault c 14 w (modCore c (fun k => fin (scrWrite a.toNat (bs k) (poison k) k)) r.2)
      else done (fun k => fin (scrWrite a.toNat (bs k) (poison k) k)) r.2)

/-- ST (R80, R81). -/
def doSt (c : Nat) (w : DWord) (s : State) : State :=
  coreCheck c 0 w (ldStIllegal w) s (fun s =>
    let a := ldStAddr (coreOf s c) w
    if fld w 28 1 = 0 then
      storeScratch c w a (fun k => bytesOf (ldStBytes w) (xnat k (fld w 12 5))) (ldStBytes w) (fun _ => false)
        (agUse (fld w 22 3)) (retire c) s
    else ownAccess c w a (fun s =>
      retire c (agUse (fld w 22 3))
        (writePage (ownHook c) 2 (ownPage c a.toNat) a.toNat (ldStBytes w) (xnat (coreOf s c) (fld w 12 5)) s)) s)

/-- ST (R80, R81). -/
def execSt (c : CoreIx) (w : DWord) (s : State) : Host.Outcome State Fault Refusal :=
  coreCmd (wClass w == 3 && wOp w == 13) (issue false c w (doSt c w) s)

end Sys2Proof.Machine
end

