-- ==== Sys2Proof/Machine/Vector.lean ====
section
/-!
DEFINITION. The VEC instructions of a core (R105 to R111), every one heavy.
-/

namespace Sys2Proof.Machine

/-- A VEC instruction (R77, R91, R105): checked, booked, then its effect. -/
def doVec (c : Nat) (w : DWord) (bad : Bool) (go : State → State) (s : State) : State :=
  coreCheck c 0 w bad s (heavy c (wCc w) w go)

/-- VD, VA, VB, VC of a VEC word. -/
def vD (w : DWord) : Nat := fld w 12 5
def vA (w : DWord) : Nat := fld w 17 5
def vB (w : DWord) : Nat := fld w 22 5
def vC (w : DWord) : Nat := fld w 27 5
/-- FMT and RM of a VEC word. -/
def vFmt (w : DWord) : Nat := fld w 32 2
def vRm (w : DWord) : Nat := fld w 34 3

/-! ### ARITH (OP 0) -/

/-- Whether an ARITH word is illegal (R77, R105, R106, R151): FMT 3, RM 4 to 7, an unlisted FUNC, DIV or SQRT on
INT32. -/
def arithIllegal (w : DWord) : Bool :=
  !onlyFields w [(0, 11), (12, 31)] || vFmt w == 3 || decide (4 ≤ vRm w) || decide (14 ≤ fld w 37 6) ||
    (vFmt w == 2 && decide (12 ≤ fld w 37 6))

/-- Whether an ARITH function reads VB, and VC (R106). -/
def arithReadsB (func : Nat) : Bool := !(func == 6 || func == 7 || func == 13)
def arithReadsC (func : Nat) : Bool := func == 3 || func == 11

/-- ARITH: every lane of VD, poisoned where an operand read is (R104, R106). -/
def doArith (c : Nat) (w : DWord) (s : State) : State :=
  doVec c w (arithIllegal w) (retireVec c (fun k =>
    let func := fld w 37 6
    let bad := vbad k (vA w) || (arithReadsB func && vbad k (vB w)) || (arithReadsC func && vbad k (vC w))
    vset (vD w) (vecArith (vFmt w) func (vRm w) (vget k (vA w)) (vget k (vB w)) (vget k (vC w))) bad k)) s

/-- Whether a word spells an ARITH function. -/
def isArith (w : DWord) (func : Nat) : Bool := wClass w == 5 && wOp w == 0 && fld w 37 6 == func

/-- ARITH_ADD (R106). -/
def execArithAdd (c : CoreIx) (w : DWord) (s : State) : Host.Outcome State Fault Refusal :=
  coreCmd (isArith w 0) (issue false c w (doArith c w) s)

/-- ARITH_SUB (R106). -/
def execArithSub (c : CoreIx) (w : DWord) (s : State) : Host.Outcome State Fault Refusal :=
  coreCmd (isArith w 1) (issue false c w (doArith c w) s)

/-- ARITH_MUL (R106). -/
def execArithMul (c : CoreIx) (w : DWord) (s : State) : Host.Outcome State Fault Refusal :=
  coreCmd (isArith w 2) (issue false c w (doArith c w) s)

/-- FMA (R106). -/
def execFma (c : CoreIx) (w : DWord) (s : State) : Host.Outcome State Fault Refusal :=
  coreCmd (isArith w 3) (issue false c w (doArith c w) s)

/-- ARITH_MIN (R106). -/
def execArithMin (c : CoreIx) (w : DWord) (s : State) : Host.Outcome State Fault Refusal :=
  coreCmd (isArith w 4) (issue false c w (doArith c w) s)

/-- ARITH_MAX (R106). -/
def execArithMax (c : CoreIx) (w : DWord) (s : State) : Host.Outcome State Fault Refusal :=
  coreCmd (isArith w 5) (issue false c w (doArith c w) s)

/-- ABS (R106). -/
def execAbs (c : CoreIx) (w : DWord) (s : State) : Host.Outcome State Fault Refusal :=
  coreCmd (isArith w 6) (issue false c w (doArith c w) s)

/-- NEG (R106). -/
def execNeg (c : CoreIx) (w : DWord) (s : State) : Host.Outcome State Fault Refusal :=
  coreCmd (isArith w 7) (issue false c w (doArith c w) s)

/-- CMPEQ (R106). -/
def execCmpeq (c : CoreIx) (w : DWord) (s : State) : Host.Outcome State Fault Refusal :=
  coreCmd (isArith w 8) (issue false c w (doArith c w) s)

/-- CMPLT (R106). -/
def execCmplt (c : CoreIx) (w : DWord) (s : State) : Host.Outcome State Fault Refusal :=
  coreCmd (isArith w 9) (issue false c w (doArith c w) s)

/-- CMPLE (R106). -/
def execCmple (c : CoreIx) (w : DWord) (s : State) : Host.Outcome State Fault Refusal :=
  coreCmd (isArith w 10) (issue false c w (doArith c w) s)

/-- SEL (R106). -/
def execSel (c : CoreIx) (w : DWord) (s : State) : Host.Outcome State Fault Refusal :=
  coreCmd (isArith w 11) (issue false c w (doArith c w) s)

/-- DIV (R106). -/
def execDiv (c : CoreIx) (w : DWord) (s : State) : Host.Outcome State Fault Refusal :=
  coreCmd (isArith w 12) (issue false c w (doArith c w) s)

/-- SQRT (R106). -/
def execSqrt (c : CoreIx) (w : DWord) (s : State) : Host.Outcome State Fault Refusal :=
  coreCmd (isArith w 13) (issue false c w (doArith c w) s)

/-! ### TRANS (OP 1) -/

/-- Whether a TRANS word is illegal (R105 to R107, R151): INT32, RM 5 to 7, RCP with RM 4, FP32-only functions on
FP64, an unlisted FUNC. -/
def transIllegal (w : DWord) : Bool :=
  !onlyFields w [(0, 11), (12, 10), (32, 11)] || decide (2 ≤ vFmt w) || decide (5 ≤ vRm w) || decide (11 ≤ fld w 37 6) ||
    (fld w 37 6 == 0 && vRm w == 4) || (vFmt w == 1 && decide (6 ≤ fld w 37 6))

/-- TRANS: every lane of VD (R106, R107). -/
def doTrans (c : Nat) (w : DWord) (s : State) : State :=
  doVec c w (transIllegal w) (retireVec c (fun k =>
    vset (vD w) (vecTrans (vFmt w) (fld w 37 6) (vRm w) (vget k (vA w))) (vbad k (vA w)) k)) s

/-- Whether a word spells a TRANS function. -/
def isTrans (w : DWord) (func : Nat) : Bool := wClass w == 5 && wOp w == 1 && fld w 37 6 == func

/-- RCP (R106). -/
def execRcp (c : CoreIx) (w : DWord) (s : State) : Host.Outcome State Fault Refusal :=
  coreCmd (isTrans w 0) (issue false c w (doTrans c w) s)

/-- RSQRT (R106). -/
def execRsqrt (c : CoreIx) (w : DWord) (s : State) : Host.Outcome State Fault Refusal :=
  coreCmd (isTrans w 1) (issue false c w (doTrans c w) s)

/-- EXP2 (R106). -/
def execExp2 (c : CoreIx) (w : DWord) (s : State) : Host.Outcome State Fault Refusal :=
  coreCmd (isTrans w 2) (issue false c w (doTrans c w) s)

/-- LOG2 (R106). -/
def execLog2 (c : CoreIx) (w : DWord) (s : State) : Host.Outcome State Fault Refusal :=
  coreCmd (isTrans w 3) (issue false c w (doTrans c w) s)

/-- EXP (R106). -/
def execExp (c : CoreIx) (w : DWord) (s : State) : Host.Outcome State Fault Refusal :=
  coreCmd (isTrans w 4) (issue false c w (doTrans c w) s)

/-- LOG (R106). -/
def execLog (c : CoreIx) (w : DWord) (s : State) : Host.Outcome State Fault Refusal :=
  coreCmd (isTrans w 5) (issue false c w (doTrans c w) s)

/-- TANH (R106). -/
def execTanh (c : CoreIx) (w : DWord) (s : State) : Host.Outcome State Fault Refusal :=
  coreCmd (isTrans w 6) (issue false c w (doTrans c w) s)

/-- SIGMOID (R106). -/
def execSigmoid (c : CoreIx) (w : DWord) (s : State) : Host.Outcome State Fault Refusal :=
  coreCmd (isTrans w 7) (issue false c w (doTrans c w) s)

/-- ERF (R106). -/
def execErf (c : CoreIx) (w : DWord) (s : State) : Host.Outcome State Fault Refusal :=
  coreCmd (isTrans w 8) (issue false c w (doTrans c w) s)

/-- SIN (R106). -/
def execSin (c : CoreIx) (w : DWord) (s : State) : Host.Outcome State Fault Refusal :=
  coreCmd (isTrans w 9) (issue false c w (doTrans c w) s)

/-- COS (R106). -/
def execCos (c : CoreIx) (w : DWord) (s : State) : Host.Outcome State Fault Refusal :=
  coreCmd (isTrans w 10) (issue false c w (doTrans c w) s)

/-! ### REDUCE (OP 2) -/

/-- Whether a REDUCE word is illegal (R105, R106, R151). -/
def reduceIllegal (w : DWord) : Bool :=
  !onlyFields w [(0, 11), (12, 10), (32, 11)] || vFmt w == 3 || decide (4 ≤ vRm w) || decide (4 ≤ fld w 37 6)

/-- REDUCE: the root in lane 0 of VD, zero elsewhere (R108). -/
def doReduce (c : Nat) (w : DWord) (s : State) : State :=
  doVec c w (reduceIllegal w) (retireVec c (fun k =>
    vset (vD w) (vecReduce (vFmt w) (fld w 37 6) (vRm w) (vget k (vA w))) (vbad k (vA w)) k)) s

/-- Whether a word spells a REDUCE function. -/
def isReduce (w : DWord) (func : Nat) : Bool := wClass w == 5 && wOp w == 2 && fld w 37 6 == func

/-- REDUCE_SUM (R106). -/
def execReduceSum (c : CoreIx) (w : DWord) (s : State) : Host.Outcome State Fault Refusal :=
  coreCmd (isReduce w 0) (issue false c w (doReduce c w) s)

/-- REDUCE_MAX (R106). -/
def execReduceMax (c : CoreIx) (w : DWord) (s : State) : Host.Outcome State Fault Refusal :=
  coreCmd (isReduce w 1) (issue false c w (doReduce c w) s)

/-- REDUCE_MIN (R106). -/
def execReduceMin (c : CoreIx) (w : DWord) (s : State) : Host.Outcome State Fault Refusal :=
  coreCmd (isReduce w 2) (issue false c w (doReduce c w) s)

/-- REDUCE_SUMSQ (R106). -/
def execReduceSumsq (c : CoreIx) (w : DWord) (s : State) : Host.Outcome State Fault Refusal :=
  coreCmd (isReduce w 3) (issue false c w (doReduce c w) s)

/-! ### CVT, VLD, VST, VRNG, VACC, VPERM, VMOVX -/

/-- Whether a CVT word is illegal (R105, R110, R146): a reserved format or RM, OVF without E4M3. -/
def cvtIllegal (w : DWord) : Bool :=
  !onlyFields w [(0, 11), (12, 36)] || (fmtOfCode (fld w 22 6)).isNone || (fmtOfCode (fld w 28 6)).isNone ||
    decide (5 ≤ vRm w) || (fld w 37 1 == 1 && fld w 28 6 != 4)

/-- CVT (R110, R148): RM 4 draws element l's word at X[XP] + l. -/
def doCvt (c : Nat) (w : DWord) (s : State) : State :=
  doVec c w (cvtIllegal w) (fun s => retireVec c (fun k =>
    match fmtOfCode (fld w 22 6), fmtOfCode (fld w 28 6) with
    | some src, some dst =>
      let word := fun l => drawWord (coreSeed s k) (xnat k (fld w 43 5)) (coreDrawStep s k) (xnat k (fld w 38 5) + l)
      vset (vD w) (vecCvt src dst (vRm w) (fld w 37 1 == 1) (if vRm w = 4 then word else fun _ => 0) (vget k (vA w)))
        (vbad k (vA w)) k
    | _, _ => k) s) s

/-- CVT (R110). -/
def execCvt (c : CoreIx) (w : DWord) (s : State) : Host.Outcome State Fault Refusal :=
  coreCmd (wClass w == 5 && wOp w == 3) (issue false c w (doCvt c w) s)

/-- Whether a VLD or VST word is illegal (R77, R105). -/
def vldIllegal (w : DWord) : Bool := !onlyFields w [(0, 11), (12, 13)] || fld w 22 3 == 7

/-- VLD (R105): 64 bytes of scratch. -/
def doVld (c : Nat) (w : DWord) (s : State) : State :=
  doVec c w (vldIllegal w) (fun s =>
    let a := startAddr (coreOf s c) (fld w 22 3) (fld w 17 5)
    coreCheck c 4 w (!scrInRange a 64) s (fun s =>
      if underDrain (coreOf s c) a.toNat 64 then holdIssue c id s
      else
        let r := scrSecded c a.toNat 64 s
        let f := fun k => vset (vD w) (BitVec.ofNat 512 (ofBytes (scrRead k a.toNat 64)))
          (r.1 || scrPoisoned k a.toNat 64) (agUse (fld w 22 3) k)
        if r.1 then coreFault c 14 w (modCore c f r.2) else retireVec c f r.2)) s

/-- VLD (R105). -/
def execVld (c : CoreIx) (w : DWord) (s : State) : Host.Outcome State Fault Refusal :=
  coreCmd (wClass w == 5 && wOp w == 4) (issue false c w (doVld c w) s)

/-- VST (R105): 64 bytes to scratch, poisoned where the register is. -/
def doVst (c : Nat) (w : DWord) (s : State) : State :=
  doVec c w (vldIllegal w) (fun s =>
    let a := startAddr (coreOf s c) (fld w 22 3) (fld w 17 5)
    storeScratch c w a (fun k => bytesOf 64 (vget k (vD w)).toNat) 64 (fun k => vbad k (vD w)) (agUse (fld w 22 3))
      (retireVec c) s) s

/-- VST (R105). -/
def execVst (c : CoreIx) (w : DWord) (s : State) : Host.Outcome State Fault Refusal :=
  coreCmd (wClass w == 5 && wOp w == 5) (issue false c w (doVst c w) s)

/-- VRNG (R110). -/
def doVrng (c : Nat) (w : DWord) (s : State) : State :=
  doVec c w (!onlyFields w [(0, 11), (12, 5), (38, 10)]) (fun s => retireVec c (fun k =>
    vset (vD w) (vecRng (coreSeed s k) (xnat k (fld w 43 5)) (coreDrawStep s k) (xnat k (fld w 38 5))) false k) s) s

/-- VRNG (R110). -/
def execVrng (c : CoreIx) (w : DWord) (s : State) : Host.Outcome State Fault Refusal :=
  coreCmd (wClass w == 5 && wOp w == 6) (issue false c w (doVrng c w) s)

/-- VACC (R111, R139): 16 entries; an OPEN accumulator's MMAs in flight are waited for. -/
def doVacc (c : Nat) (w : DWord) (s : State) : State :=
  let i := fld w 17 1
  let e := fld w 18 12
  doVec c w (!onlyFields w [(0, 11), (12, 18)] || decide (4095 < e + 15)) (fun s =>
    let k := coreOf s c
    if (accOf k i).st = 1 ∧ inflight k i ≠ 0 then holdIssue c (fun k => { k with waitAcc := true }) s
    else
      let es := (List.range 16).map (· + e)
      let r := accSecded c i es s
      let f := fun k => vset (vD w) (packLanes 32 (es.map (fun x => accEnt (accOf k i) x)))
        (es.any (fun x => mapGet false (accOf k i).bad x)) k
      if r.1 then coreFault c 22 w (modCore c f r.2) else retireVec c f r.2) s

/-- VACC (R111). -/
def execVacc (c : CoreIx) (w : DWord) (s : State) : Host.Outcome State Fault Refusal :=
  coreCmd (wClass w == 5 && wOp w == 7) (issue false c w (doVacc c w) s)

/-- VPERM (R109). -/
def doVperm (c : Nat) (w : DWord) (s : State) : State :=
  doVec c w (!onlyFields w [(0, 11), (12, 22)] || vFmt w == 3) (retireVec c (fun k =>
    vset (vD w) (vecPerm (vFmt w) (signedOf 5 (fld w 27 5)) (vget k (vA w)) (vget k (vB w)))
      (vbad k (vA w) || vbad k (vB w)) k)) s

/-- VPERM (R109). -/
def execVperm (c : CoreIx) (w : DWord) (s : State) : Host.Outcome State Fault Refusal :=
  coreCmd (wClass w == 5 && wOp w == 8) (issue false c w (doVperm c w) s)

/-- VMOVX (R105): one lane between a V register and an X register. -/
def doVmovx (c : Nat) (w : DWord) (s : State) : State :=
  let lane := fld w 22 4
  let b := laneBits (vFmt w)
  doVec c w (!onlyFields w [(0, 11), (12, 15), (32, 2)] || vFmt w == 3 || (vFmt w == 1 && decide (8 ≤ lane)))
    (retireVec c (fun k =>
      if fld w 26 1 = 0 then vset (vD w) (putLane b (vget k (vD w)) lane (xnat k (vA w))) (vbad k (vD w)) k
      else
        let x := laneOf b (vget k (vA w)) lane
        xset (vD w) (if vFmt w = 2 then BitVec.ofInt 64 (signedOf 32 x) else BitVec.ofNat 64 x) k)) s

/-- VMOVX (R105). -/
def execVmovx (c : CoreIx) (w : DWord) (s : State) : Host.Outcome State Fault Refusal :=
  coreCmd (wClass w == 5 && wOp w == 9) (issue false c w (doVmovx c w) s)

end Sys2Proof.Machine
end

