-- ==== Sys2Proof/Machine/Array.lean ====
section
/-!
DEFINITION. The MMA class: MMA, ADRAIN, MCFG and AREL, and the events that end an MMA and an ADRAIN (R120 to R145).
-/

namespace Sys2Proof.Machine

/-- M, N and K of an MMA. -/
def mmaM (w : DWord) : Nat := fld w 12 10
def mmaN (w : DWord) : Nat := fld w 22 10
def mmaK (k : Core) (w : DWord) : Nat := xnat k (fld w 32 5)

/-- Whether an MMA word is illegal (R77, R125). -/
def mmaIllegal (w : DWord) : Bool :=
  !onlyFields w [(0, 11), (12, 37)] || decide (512 < mmaM w) || decide (512 < mmaN w) || decide (4096 < mmaM w * mmaN w) ||
    decide (6 ≤ fld w 43 3) || decide (6 ≤ fld w 46 3)

/-- The hazard of an MMA at an accumulator that is not DRAINING: the error bit, if any (R139). -/
def mmaHazard (a : Acc) (cont : Bool) (tile m n kind : Nat) : Option Nat :=
  if a.st = 0 then (if cont then some 18 else none)
  else if a.tile ≠ tile then some 16
  else if !cont then some 17
  else if a.m = m ∧ a.n = n ∧ a.kind = kind then none else some 18

/-- The poisoned offsets of a panel: words marked poisoned, or in error (R104, R143). -/
def panelMarks (k : Core) (a n : Nat) : List Nat :=
  (List.range n).filter (fun i => scrPoisoned k (a + i) 1 || mapGet 0 k.scrUpset ((a + i) / 8) == 2)

/-- Acceptance of an MMA into the queue (R122, R127, R133): its panels, configuration and registers captured, the
generators advanced, one that serves both panels once, and with CONT = 0 the tile opened (R139). -/
def mmaAccept (c : Nat) (w : DWord) (a b : Nat) (s : State) : State :=
  let k := coreOf s c
  let i := fld w 37 1
  let cont := fld w 38 1 == 1
  let pa := panelBytes k.cfg.at_ 8 (mmaM w) (mmaK k w)
  let pb := panelBytes k.cfg.bt 64 (mmaN w) (mmaK k w)
  let ra := scrSecded c a pa s
  let rb := scrSecded c b pb ra.2
  let k := coreOf rb.2 c
  let job : MmaJob := ⟨wCc w, i, fld w 39 4, cont, mmaM w, mmaN w, mmaK k w, k.cfg.at_, k.cfg.bt, k.cfg.amode,
    xnat k k.cfg.xc2, xnat k k.cfg.xp, coreSeed rb.2 k, coreDrawStep rb.2 k, ofBytes (scrRead k a pa), ofBytes (scrRead k b pb),
    panelMarks k a pa, panelMarks k b pb, w.toNat, k.seq.pc⟩
  let open_ := fun (acc : Acc) => if cont then acc else
    { acc with st := 1, kind := jobKind job, sat := false, poison := false, tile := fld w 39 4, m := mmaM w, n := mmaN w, satEnt := [] }
  let used := fun k => if fld w 43 3 = fld w 46 3 then agUse (fld w 43 3) k else agUse (fld w 46 3) (agUse (fld w 43 3) k)
  let f := fun k => used (setAcc i (open_ (accOf k i)) { k with queue := k.queue ++ [job] })
  if ra.1 || rb.1 then coreFault c 14 w (modCore c f rb.2) else advance c f rb.2

/-- The waits, hazards and range check of an MMA whose booking allows it (R123, R133, R139). -/
def mmaIssue (c : Nat) (w : DWord) (s : State) : State :=
  let k := coreOf s c
  let acc := accOf k (fld w 37 1)
  let hz := mmaHazard acc (fld w 38 1 == 1) (fld w 39 4) (mmaM w) (mmaN w) (if arrGroup k.cfg.at_ = 3 then 1 else 0)
  if acc.st = 2 then holdIssue c (fun k => { k with waitAcc := true }) s
  else coreCheck c 16 w (hz == some 16) s (fun s =>
    coreCheck c 17 w (hz == some 17) s (fun s =>
      coreCheck c 18 w (hz == some 18) s (fun s =>
        let k := coreOf s c
        let a := agAddr (agOf k (fld w 43 3))
        let b := agAddr (agOf k (fld w 46 3))
        let pa := panelBytes k.cfg.at_ 8 (mmaM w) (mmaK k w)
        let pb := panelBytes k.cfg.bt 64 (mmaN w) (mmaK k w)
        coreCheck c 4 w (!scrInRange a pa || !scrInRange b pb) s (fun s =>
          if 2 ≤ (coreOf s c).queue.length then holdIssue c (fun k => { k with waitQueue := true }) s
          else if underDrain (coreOf s c) a.toNat pa || underDrain (coreOf s c) b.toNat pb then holdIssue c id s
          else mmaAccept c w a.toNat b.toNat s))))

/-- MMA (R124 to R126): illegal forms, then the zero-dimension no-op, then the K range, the booking and issue.
DESIGN CHOICE (log 76): of several errors of one MMA the first in that order is the one reported. -/
def doMma (c : Nat) (w : DWord) (s : State) : State :=
  coreCheck c 0 w (mmaIllegal w) s (fun s =>
    let k := coreOf s c
    if mmaM w = 0 ∨ mmaN w = 0 ∨ mmaK k w = 0 then
      countCore c 0x40 1 (bump (pgArray c) R.ARRAY_MMA_COUNT 1 (retire c id s))
    else
      let g2 : Bool := arrGroup k.cfg.at_ == 2 || arrGroup k.cfg.bt == 2
      coreCheck c 19 w (decide (2 ^ 24 < mmaK k w) || (g2 && mmaK k w % 32 != 0)) s (heavy c (wCc w) w (mmaIssue c w)))

/-- MMA (R124). -/
def execMma (c : CoreIx) (w : DWord) (s : State) : Host.Outcome State Fault Refusal :=
  coreCmd (wClass w == 4 && wOp w == 0) (issue false c w (doMma c w) s)

/-- Retirement of the streaming MMA (R128, R132, R134, R135, R145): the reload of parked sums checked, its folds drained
into the accumulator, the sum registers left with the last one's sums, the counters raised, and the sampler met. `slots`
is the number of array handshakes counted for it. -/
def doMmaComplete (c : Nat) (slots : Nat) (s : State) : State :=
  match (coreOf s c).queue with
  | [] => s
  | j :: rest =>
    let r := reloadSecded c j (foldCount j) s
    let k := coreOf r.2 c
    let d := mmaFolds j (foldCount j) (startAcc k j (accOf k j.acc))
    let s1 := modCore c (fun k => foldsDone j d.1 (setAcc j.acc d.1 { k with queue := rest })) r.2
    let s2 := bumpSat (pgArray c) R.ARRAY_SAT_COUNT d.2 (bump (pgArray c) R.ARRAY_CELL_SLOTS (pairSlots j.at_ j.bt j.amode * slots)
      (bump (pgArray c) R.ARRAY_MAC_COUNT (j.m * j.n * j.k) (bump (pgArray c) R.ARRAY_MMA_COUNT 1 s1)))
    let s3 := countCore c 0x45 d.2 (countCore c 0x41 (foldCount j) (countCore c 0x40 1 (countCore c 0x01 1 s2)))
    let s4 := auditSample c j (accPlain d.1) s3
    if r.1 then coreAsyncFault c 22 (some (j.insn, j.pc)) s4 else s4

/-- MMA_COMPLETE (R134). -/
def execMmaComplete (c : CoreIx) (slots : Nat) (s : State) : Host.Outcome State Fault Refusal :=
  .next (doMmaComplete c slots s)

/-! ### ADRAIN, MCFG, AREL -/

/-- Whether an ADRAIN word is illegal (R77, R124, R142). -/
def adrainIllegal (w : DWord) : Bool :=
  !onlyFields w [(0, 11), (12, 35)] || fld w 12 3 == 7 || decide (6 ≤ fld w 21 4) || decide (5 ≤ fld w 25 3) ||
    (fld w 28 1 == 1 && fld w 21 4 != 3)

/-- Whether DTYPE does not match a tile kind (R142). -/
def drainMismatch (dtype kind : Nat) : Bool :=
  (decide (1 ≤ dtype ∧ dtype ≤ 4) && kind == 1) || (dtype == 5 && kind == 0)

/-- Start of an ADRAIN (R136, R142): the accumulator DRAINING, the drain path taken. -/
def adrainStart (c : Nat) (w : DWord) (start : Nat) (s : State) : State :=
  let k := coreOf s c
  let i := fld w 20 1
  let d : DrainJob := ⟨wCc w, i, fld w 21 4, fld w 25 3, fld w 28 1 == 1, start, fld w 29 18, xnat k k.cfg.xc2, xnat k k.cfg.xp,
    coreSeed s k, coreDrawStep s k, w.toNat, k.seq.pc⟩
  modCore c (fun k => agUse (fld w 12 3) (setAcc i { accOf k i with st := 2 } { k with drain := some d }))
    (countCore c 0x46 ((accOf k i).m * (((accOf k i).n + 15) / 16)) s)

/-- ADRAIN (R136, R139, R142): waits for MMAs in flight, a drain of its accumulator and the shared drain path; then
starts, and issue goes on. -/
def doAdrain (c : Nat) (w : DWord) (s : State) : State :=
  coreCheck c 0 w (adrainIllegal w) s (heavy c (wCc w) w (fun s =>
    let k := coreOf s c
    let i := fld w 20 1
    if (accOf k i).st = 2 ∨ inflight k i ≠ 0 ∨ k.drain.isSome then holdIssue c (fun k => { k with waitAcc := true }) s
    else coreCheck c 20 w (drainMismatch (fld w 21 4) (accOf k i).kind) s (fun s =>
      let k := coreOf s c
      let a := accOf k i
      let start := startAddr k (fld w 12 3) (fld w 15 5)
      let d0 : DrainJob := ⟨0, i, fld w 21 4, 0, false, 0, fld w 29 18, 0, 0, 0, 0, 0, 0⟩
      coreCheck c 4 w (!scrInRange start (drainSpan d0 a.m a.n)) s (fun s =>
        advance c id (adrainStart c w start.toNat s)))))

/-- ADRAIN (R124). -/
def execAdrain (c : CoreIx) (w : DWord) (s : State) : Host.Outcome State Fault Refusal :=
  coreCmd (wClass w == 4 && wOp w == 1) (issue false c w (doAdrain c w) s)

/-- The end of an ADRAIN (R136, R143): every row written, the accumulator IDLE, the drain path free. -/
def doAdrainComplete (c : Nat) (s : State) : State :=
  match (coreOf s c).drain with
  | none => s
  | some d =>
    let a := accOf (coreOf s c) d.acc
    let r := accSecded c d.acc (List.range (a.m * a.n)) s
    let s1 := modCore c (fun k =>
      let k1 := drainRows d a.m k
      setAcc d.acc { accOf k1 d.acc with st := 0 } { k1 with drain := none }) (countCore c 0x01 1 r.2)
    if r.1 then coreAsyncFault c 22 (some (d.insn, d.pc)) s1 else s1

/-- ADRAIN_COMPLETE (R136). -/
def execAdrainComplete (c : CoreIx) (s : State) : Host.Outcome State Fault Refusal := .next (doAdrainComplete c s)

/-- MCFG (R120, R124, R127). -/
def doMcfg (c : Nat) (w : DWord) (s : State) : State :=
  coreCheck c 0 w (!onlyFields w [(0, 8), (12, 19)] || !pairLegal (fld w 12 4) (fld w 16 4) (fld w 20 1)) s
    (retire c (fun k => { k with cfg := ⟨fld w 12 4, fld w 16 4, fld w 20 1, fld w 21 5, fld w 26 5⟩ }))

/-- MCFG (R124). -/
def execMcfg (c : CoreIx) (w : DWord) (s : State) : Host.Outcome State Fault Refusal :=
  coreCmd (wClass w == 4 && wOp w == 2) (issue false c w (doMcfg c w) s)

/-- AREL (R139): an OPEN accumulator with no MMA in flight becomes IDLE. -/
def doArel (c : Nat) (w : DWord) (s : State) : State :=
  coreCheck c 0 w (!onlyFields w [(0, 8), (20, 1)]) s (fun s =>
    let k := coreOf s c
    let i := fld w 20 1
    if (accOf k i).st ≠ 1 then retire c id s
    else if inflight k i ≠ 0 then holdIssue c (fun k => { k with waitAcc := true }) s
    else retire c (fun k => setAcc i { accOf k i with st := 0 } k) s)

/-- AREL (R124). -/
def execArel (c : CoreIx) (w : DWord) (s : State) : Host.Outcome State Fault Refusal :=
  coreCmd (wClass w == 4 && wOp w == 3) (issue false c w (doArel c w) s)

end Sys2Proof.Machine
end

