-- ==== Sys2Proof/Machine/CoreTally.lean ====
section
/-!
DEFINITION. The BOOK, HINT, TALLY and XFER instructions of a core and the events that end their waits (R90 to R99).
-/

namespace Sys2Proof.Machine

/-- BOOK (R90): a lowering waits for the heavy work above it and then takes effect; a raise is requested, and with
WAIT the instruction stays until it is granted. A BOOK to the present class withdraws a waiting raise. -/
def doBook (c : Nat) (w : DWord) (s : State) : State :=
  coreCheck c 0 w (!onlyFields w [(0, 8), (12, 4)]) s (fun s =>
    let k := coreOf s c
    let cls := fld w 12 3
    if cls ≤ k.g then
      if cls < k.g ∧ heavyAbove k cls then holdIssue c (fun k => { k with req := cls }) s
      else retire c (fun k => { k with req := cls }) (lowerCore c cls s)
    else
      let s1 := if k.bookPend ∧ k.req = cls then s else
        modCore c (fun k => { k with req := cls, bookPend := true }) (askSluice (regionOfCore c) false c cls s)
      if fld w 15 1 = 1 then holdIssue c (fun k => { k with waitBook := true }) s1 else retire c id s1)

/-- BOOK (R90). -/
def execBook (c : CoreIx) (w : DWord) (s : State) : Host.Outcome State Fault Refusal :=
  coreCmd (wClass w == 9 && wOp w == 0) (issue false c w (doBook c w) s)

/-- Local ticks in a microsecond (R9). -/
def ticksPerUs : Nat := 100

/-- A HEAVY hint received by a region (R92, R377): it replaces the core's earlier hint; DUR = 0 withdraws it. -/
def putHint (c cls dur lead : Nat) (s : State) : State :=
  let r := regionOfCore c
  let k := sluiceOf s r
  let rest := k.hints.filter (fun h => h.core != c)
  let h := tickOf s
  let arm := h + max lead 20 * ticksPerUs
  let new : Hint := ⟨c, cls, h + (lead - 20) * ticksPerUs, arm, arm + dur * ticksPerUs, false, false⟩
  bumpSat (pgSluice r) R.SLUICE_HINT_COUNT 1 (setSluice r { k with hints := if dur = 0 then rest else rest ++ [new] } s)

/-- HEAVY (R92): a LEAD below 20 is counted in HINT_LATE (event 0x09). -/
def doHeavy (c : Nat) (w : DWord) (s : State) : State :=
  coreCheck c 0 w (!onlyFields w [(0, 8), (12, 35)]) s (fun s =>
    let s1 := if fld w 31 16 < 20 then countCore c 0x09 1 s else s
    retire c id (putHint c (fld w 12 3) (fld w 15 16) (fld w 31 16) s1))

/-- HEAVY (R92). -/
def execHeavy (c : CoreIx) (w : DWord) (s : State) : Host.Outcome State Fault Refusal :=
  coreCmd (wClass w == 8 && wOp w == 0) (issue false c w (doHeavy c w) s)

/-! ### Tallies -/

/-- The checks of a tally address (R94): TALLY_ALIGN, then ADDR_UNMAPPED where it has no backing. -/
def tallyCheck (c : Nat) (w : DWord) (a : Nat) (s : State) (ok : State → State) : State :=
  coreCheck c 7 w (!tallyAligned a) s (fun s =>
    if backed s a 8 then coreCheck c 12 w false s ok
    else coreFault c 12 w (noteUnmapped (coreOf s c).ctx s))

/-- TADD (R93, R94): a local add, or a TALLY_ADD frame to the module that X[XM] names. -/
def doTadd (c : Nat) (w : DWord) (s : State) : State :=
  coreCheck c 0 w (!onlyFields w [(0, 8), (12, 15), (27, 33)]) s (fun s =>
    let k := coreOf s c
    let a := xnat k (fld w 12 5)
    let v := if fld w 27 1 = 1 then (imm32 w).toNat else xnat k (fld w 17 5)
    let m := xnat k (fld w 22 5) % 2 ^ 16
    if fld w 22 5 = 0 ∨ m = myId s then tallyCheck c w a s (fun s => retire c id (tallyAdd a v s))
    else coreCheck c 7 w (!tallyAligned a) s (fun s =>
      retire c id (sendTrain (mkTrain s (coreTag s (coreOf s c)) 1 0 0 m a v []) s)))

/-- TADD (R93, R94). -/
def execTadd (c : CoreIx) (w : DWord) (s : State) : Host.Outcome State Fault Refusal :=
  coreCmd (wClass w == 7 && wOp w == 0) (issue false c w (doTadd c w) s)

/-- The wait units of a die that its cores' slots hold, those of switched-out contexts among them (R95, R358). -/
def unitsUsed (s : State) (d : Nat) : Nat :=
  (s.cores ++ s.imgCores.map (fun (e : Nat × Core) => (e.1 % 8192, e.2))).foldl
    (fun (n : Nat) (e : Nat × Core) => if dieOfCore e.1 = d then n + e.2.slots.length else n) 0

/-- The wait units of a die (R354). -/
def unitsOfDie : Nat := 1024

/-- TARM (R95): the slot armed on a free wait unit of the die; it waits while none is free. -/
def doTarm (c : Nat) (w : DWord) (s : State) : State :=
  coreCheck c 0 w (!onlyFields w [(0, 8), (12, 2), (17, 10)]) s (fun s =>
    let k := coreOf s c
    let i := fld w 12 2
    coreCheck c 6 w (mapFind k.slots i).isSome s (fun s =>
      let a := xnat k (fld w 17 5)
      let thr := xnat k (fld w 22 5)
      tallyCheck c w a s (fun s =>
        if unitsUsed s (dieOfCore c) < unitsOfDie then
          retire c (fun k => { k with slots := mapPut k.slots i ⟨a, thr, decide (thr ≤ dramWord s a), false⟩ }) s
        else holdIssue c (fun k => { k with waitTally := true }) s)))

/-- TARM (R95). -/
def execTarm (c : CoreIx) (w : DWord) (s : State) : Host.Outcome State Fault Refusal :=
  coreCmd (wClass w == 7 && wOp w == 1) (issue false c w (doTarm c w) s)

/-- Whether slot `i` counts as satisfied: an unarmed slot does (R96). -/
def slotSat (k : Core) (i : Nat) : Bool := match mapFind k.slots i with | some t => t.sat | none => true

/-- The satisfied subset of a mask (R96). -/
def satSubset (k : Core) (mask : Nat) : Nat :=
  [0, 1, 2, 3].foldl (fun a i => if bitSet mask i && slotSat k i then a + 2 ^ i else a) 0

/-- Slots in a mask disarmed, their wait units freed (R96). -/
def disarm (mask : Nat) (k : Core) : Core := { k with slots := mapDrop k.slots (fun i => bitSet mask i) }

/-- TWAIT (R96). -/
def doTwait (c : Nat) (w : DWord) (s : State) : State :=
  coreCheck c 0 w (!onlyFields w [(0, 8), (12, 5), (17, 5)]) s (fun s =>
    let k := coreOf s c
    let mask := fld w 12 4
    let sub := satSubset k mask
    if mask = 0 ∨ sub = mask ∨ (fld w 16 1 = 0 ∧ sub ≠ 0) then
      retire c (fun k => xset (fld w 17 5) (BitVec.ofNat 64 sub) (disarm sub k)) s
    else holdIssue c (fun k => { k with waitTally := true }) s)

/-- TWAIT (R96). -/
def execTwait (c : CoreIx) (w : DWord) (s : State) : Host.Outcome State Fault Refusal :=
  coreCmd (wClass w == 7 && wOp w == 2) (issue false c w (doTwait c w) s)

/-- TPOLL (R96). -/
def doTpoll (c : Nat) (w : DWord) (s : State) : State :=
  coreCheck c 0 w (!onlyFields w [(0, 8), (12, 4), (17, 5)]) s
    (retire c (fun k => xset (fld w 17 5) (BitVec.ofNat 64 (satSubset k (fld w 12 4))) k))

/-- TPOLL (R96). -/
def execTpoll (c : CoreIx) (w : DWord) (s : State) : Host.Outcome State Fault Refusal :=
  coreCmd (wClass w == 7 && wOp w == 3) (issue false c w (doTpoll c w) s)

/-- TCANCEL (R96). -/
def doTcancel (c : Nat) (w : DWord) (s : State) : State :=
  coreCheck c 0 w (!onlyFields w [(0, 8), (12, 4)]) s (retire c (disarm (fld w 12 4)))

/-- TCANCEL (R96). -/
def execTcancel (c : CoreIx) (w : DWord) (s : State) : Host.Outcome State Fault Refusal :=
  coreCmd (wClass w == 7 && wOp w == 4) (issue false c w (doTcancel c w) s)

/-- A wait unit whose tally has reached its threshold satisfies its slot (R95, R354). -/
def satisfy (k : List (Nat × TSlot)) (i : Nat) : List (Nat × TSlot) :=
  match mapFind k i with
  | some t => if t.seen then mapPut k i { t with sat := true } else k
  | none => k

/-- TALLY_SATISFIED (R95, R354). -/
def execTallySatisfied (u : WaitUnit) (s : State) : Host.Outcome State Fault Refusal :=
  .next (match u with
    | .core c i => modCore c (fun k => { k with slots := satisfy k.slots i }) s
    | .fetcher n st => { s with fwait := satisfy s.fwait (n.val * 4 + st.val) })

/-! ### Barge submission and neighbour moves -/

/-- Whether an engine takes no descriptor now: its HOLD is in effect, or it is in block reset (R64). -/
def engShut (s : State) (e : Nat) : Bool := rd s (pgBarge e) R.BARGE_CTRL_HOLD == 1 || s.inReset.contains (pageKey (pgBarge e))

/-- The engine a BARGE submits to (R98): the one named, or with ANY an open engine of the die with the fewest
descriptors in flight; which of several such is open, so it is drawn. -/
def bargeEngine (s : State) (c : Nat) (w : DWord) : Nat :=
  let base := dieOfCore c * 16
  if fld w 24 1 = 0 then base + fld w 20 4
  else
    let able := ((List.range 16).map (· + base)).filter (fun e => !engShut s e)
    let least := able.foldl (fun b e => min b (engOf s e).jobs.length) 32
    let best := able.filter (fun e => (engOf s e).jobs.length == least)
    best.getD (Config.freeNat s.free % best.length) base

/-- The 32-bit words that bytes spell. -/
def wordsOfBytes : Nat → List Nat → List Nat
  | 0, _ => []
  | n + 1, bs => ofBytes (bs.take 4) :: wordsOfBytes n (bs.drop 4)

/-- BARGE (R97, R98): the descriptor is copied at issue and offered to the engine; it waits while the engine is
full. -/
def doBarge (c : Nat) (w : DWord) (s : State) : State :=
  coreCheck c 0 w (!onlyFields w [(0, 8), (12, 13)] || fld w 17 3 == 7) s (fun s =>
    let k := coreOf s c
    let a := startAddr k (fld w 17 3) (fld w 12 5)
    coreCheck c 11 w (decide (a % 64 ≠ 0)) s (fun s =>
      coreCheck c 4 w (!scrInRange a 64) s (fun s =>
        let e := bargeEngine s c w
        if engShut s e || decide (32 ≤ (engOf s e).jobs.length) then holdIssue c (fun k => { k with waitXfer := true }) s
        else if underDrain (coreOf s c) a.toNat 64 then holdIssue c id s
        else
          let r := scrSecded c a.toNat 64 s
          if r.1 then coreFault c 14 w r.2
          else
            let k := coreOf r.2 c
            let job : BargeJob :=
              ⟨wordsOfBytes 16 (scrRead k a.toNat 64), coreTag r.2 k, 0, 0, 0, scrPoisoned k a.toNat 64, [], 0, false⟩
            let s1 := setEng e { engOf r.2 e with jobs := (engOf r.2 e).jobs ++ [job] } r.2
            retire c (agUse (fld w 17 3)) { s1 with free := s1.free + 1 })))

/-- BARGE (R97, R98). -/
def execBarge (c : CoreIx) (w : DWord) (s : State) : Host.Outcome State Fault Refusal :=
  coreCmd (wClass w == 6 && wOp w == 0) (issue false c w (doBarge c w) s)

/-- The logically adjacent core in a direction, if it lies in the grid (R7, R99). -/
def neighbour (c dir : Nat) : Option Nat :=
  match dir with
  | 0 => if c / 128 = 0 then none else some (c - 128)
  | 1 => if c / 128 = 63 then none else some (c + 128)
  | 2 => if c % 128 = 0 then none else some (c - 1)
  | _ => if c % 128 = 127 then none else some (c + 1)

/-- The polder of the table in force that a core's block belongs to (R340, R341). -/
def polderOfCore (s : State) (c : Nat) : Option Nat :=
  let b := blockOfCore c
  (s.polTab.find? (fun e => bitSet (e.2.getD (1 + b / 64) 0) (b % 64))).map (fun e => e.1)

/-- NMOVE (R97, R99): checked, then started; a third move waits; a move of no bytes only adds to its tally. -/
def doNmove (c : Nat) (w : DWord) (s : State) : State :=
  coreCheck c 0 w (!onlyFields w [(0, 11), (12, 4), (16, 46)] || decide (4 ≤ fld w 12 3)) s (heavy c (wCc w) w (fun s =>
    let k := coreOf s c
    let len := xnat k (fld w 16 5)
    let peer := neighbour c (fld w 12 3)
    coreCheck c 8 w (decide (4096 < len)) s (fun s =>
      coreCheck c 9 w peer.isNone s (fun s =>
        coreCheck c 10 w (polderOfCore s c != polderOfCore s (peer.getD 0)) s (fun s =>
          coreCheck c 4 w (!scrInRange (fld w 26 18) len || !scrInRange (fld w 44 18) len) s (fun s =>
            let go (s : State) : State :=
              let t := if fld w 21 5 = 0 then none else some (xnat k (fld w 21 5))
              if len = 0 then
                retire c id (match t with | some a => tallyAdd a 1 s | none => s)
              else if 2 ≤ (coreOf s c).nmoves.length then holdIssue c (fun k => { k with waitXfer := true }) s
              else retire c (fun k => { k with nmoves := k.nmoves ++
                [⟨wCc w, fld w 15 1 == 1, peer.getD 0, len, fld w 26 18, fld w 44 18, t, w.toNat, k.seq.pc⟩] }) s
            if fld w 21 5 = 0 then go s else tallyCheck c w (xnat k (fld w 21 5)) s go))))))

/-- NMOVE (R97, R99). -/
def execNmove (c : CoreIx) (w : DWord) (s : State) : Host.Outcome State Fault Refusal :=
  coreCmd (wClass w == 6 && wOp w == 1) (issue false c w (doNmove c w) s)

/-- A neighbour move's bytes moved with their poison marks, an uncorrectable word poisoning them (R99, R104), over the
canal where the cores lie on different dies (R23). -/
def moveBytes (c : Nat) (m : NMove) (s : State) : State :=
  let src := if m.pull then m.peer else c
  let dst := if m.pull then c else m.peer
  let sa := if m.pull then m.remote else m.loc
  let da := if m.pull then m.loc else m.remote
  let r := scrSecded src sa m.len s
  let k := coreOf r.2 src
  let bad := (List.range m.len).map (fun i =>
    scrPoisoned k (sa + i) 1 || mapGet 0 k.scrUpset ((sa + i) / 8) == 2)
  let bs := scrRead k sa m.len
  let t := if dieOfCore src = dieOfCore dst then (false, r.2)
    else canalMove (dieOfCore src) (dieOfCore dst) m.len (coreOf s c).ctx (coreStep (coreOf s c)) r.2
  let bad := if t.1 then bad.zipIdx.map (fun b => b.1 || decide (b.2 < 64)) else bad
  let s1 := modCore dst (fun k => entered da bs bad (scrWriteMarked da bs bad k)) t.2
  if r.1 then coreAsyncFault src 14 (if src = c then some (m.insn, m.pc) else none) s1 else s1

/-- The last byte of a neighbour move is written and its tally added to (R99). -/
def doNmoveComplete (c : Nat) (first : Bool) (s : State) : State :=
  let k := coreOf s c
  let i := if first then 0 else 1
  match k.nmoves[i]? with
  | none => s
  | some m =>
    let s1 := modCore c (fun k => { k with nmoves := k.nmoves.eraseIdx i }) (moveBytes c m s)
    match m.tally with
    | some a => tallyAdd a 1 s1
    | none => s1

/-- NMOVE_COMPLETE (R99): `first` tells which of two moves ends. -/
def execNmoveComplete (c : CoreIx) (first : Bool) (s : State) : Host.Outcome State Fault Refusal :=
  .next (doNmoveComplete c first s)

end Sys2Proof.Machine
end

