-- ==== Sys2Proof/Machine/Crc.lean ====
section
/-!
DEFINITION. The cyclic redundancy codes the NG4 computes: CRC-64 (R199), CRC-32C (R463) and CRC-32 (R209), each
reflected, with initial value and final XOR of all ones.
-/

namespace Sys2Proof.Machine

/-- Eight shifts of a reflected CRC register. -/
def crcShift (poly : Nat) : Nat → Nat → Nat
  | 0, r => r
  | n + 1, r => crcShift poly n (if r % 2 = 1 then r / 2 ^^^ poly else r / 2)

/-- A reflected CRC of width `w` over bytes, initial value and final XOR all ones. -/
def crcOf (w poly : Nat) (bs : List Nat) : Nat :=
  bs.foldl (fun r b => crcShift poly 8 (r ^^^ (b % 256))) (2 ^ w - 1) ^^^ (2 ^ w - 1)

/-- CRC-64 with the ECMA-182 polynomial (R199). -/
def crc64 (bs : List Nat) : Nat := crcOf 64 0xC96C5795D7870F42 bs

/-- CRC-32C (R463). -/
def crc32c (bs : List Nat) : Nat := crcOf 32 0x82F63B78 bs

/-- CRC-32 (R209). -/
def crc32 (bs : List Nat) : Nat := crcOf 32 0xEDB88320 bs

end Sys2Proof.Machine
end

