-- ==== Sys2Proof/Machine/BargeMath.lean ====
section
/-!
DEFINITION. Barge descriptors: their fields and checks (R193, R194), the walk (R195), transposes (R196) and
conversions (R197).
-/

namespace Sys2Proof.Machine

/-- Whether a one-bit field of word 0 is set. -/
def bflag (ws : List Nat) (b : Nat) : Bool := bdf ws 0 b 1 == 1

/-- The fields of R193. -/
def bFence (ws : List Nat) : Bool := bflag ws 5
def bSrcRem (ws : List Nat) : Bool := bflag ws 6
def bDstRem (ws : List Nat) : Bool := bflag ws 7
def bTallyEn (ws : List Nat) : Bool := bflag ws 8
def bTallyAtDst (ws : List Nat) : Bool := bflag ws 9
def bCksum (ws : List Nat) : Bool := bflag ws 10
def bDclass (ws : List Nat) : Nat := bdf ws 0 11 2
def bTranspose (ws : List Nat) : Bool := bflag ws 13
def bTelem (ws : List Nat) : Nat := bdf ws 0 14 2
def bConvert (ws : List Nat) : Bool := bflag ws 16
def bSfmt (ws : List Nat) : Nat := bdf ws 0 17 4
def bDfmt (ws : List Nat) : Nat := bdf ws 0 21 4
def bRm (ws : List Nat) : Nat := bdf ws 0 25 3
def bOvf (ws : List Nat) : Bool := bflag ws 28
def bMxS (ws : List Nat) : Bool := bflag ws 29
def bMxD (ws : List Nat) : Bool := bflag ws 30
def bTally (ws : List Nat) : Nat := bdf ws 0 31 33 * 64
def bSrc (ws : List Nat) : Nat := bdf ws 1 0 48
def bSrcMod (ws : List Nat) : Nat := bdf ws 1 48 16
def bDst (ws : List Nat) : Nat := bdf ws 2 0 48
def bDstMod (ws : List Nat) : Nat := bdf ws 2 48 16
def bRun (ws : List Nat) : Nat := bdf ws 3 40 24
/-- r of R195: RUN, or LEN if RUN = 0. -/
def bR (ws : List Nat) : Nat := if bRun ws = 0 then bLen ws else bRun ws
def bN1 (ws : List Nat) : Nat := agCount (bdf ws 4 0 16)
def bN2 (ws : List Nat) : Nat := agCount (bdf ws 4 16 16)
def bS1Src (ws : List Nat) : Int := signedOf 32 (bdf ws 4 32 32)
def bS2Src (ws : List Nat) : Int := signedOf 32 (bdf ws 5 0 32)
def bS3Src (ws : List Nat) : Int := signedOf 32 (bdf ws 5 32 32)
def bS1Dst (ws : List Nat) : Int := signedOf 32 (bdf ws 6 0 32)
def bS2Dst (ws : List Nat) : Int := signedOf 32 (bdf ws 6 32 32)
def bS3Dst (ws : List Nat) : Int := signedOf 32 (bdf ws 7 0 32)
def bC2 (ws : List Nat) : Nat := bdf ws 6 0 32
def bPos (ws : List Nat) : Nat := bdf ws 6 32 32 + bdf ws 7 0 8 * 2 ^ 32

/-- Whether a format code is an MX element format (R197). -/
def mxElement (f : Nat) : Bool := (4 ≤ f && f ≤ 8) || f == 15

/-- Element bits of a format code. -/
def codeBits (f : Nat) : Nat := match fmtOfCode f with | some x => fmtBits x | none => 8

/-- Whether the constraints of a transpose hold (R196). -/
def transposeOk (ws : List Nat) : Bool :=
  let e := 2 ^ bTelem ws
  let nc := bR ws / e
  decide (bR ws % e = 0 ∧ 1 ≤ nc ∧ nc ≤ 64 ∧ bN1 ws ≤ 64 ∧ bLen ws % (bR ws * bN1 ws) = 0)

/-- Whether the constraints of a conversion hold (R197). -/
def convertOk (ws : List Nat) : Bool :=
  let bs := codeBits (bSfmt ws)
  bSfmt ws != 14 && bDfmt ws != 14 && decide (bLen ws * 8 % bs = 0 ∧ bR ws * 8 % bs = 0) &&
    (!bMxS ws || (mxElement (bSfmt ws) && (bRun ws == 0 || bRun ws == bLen ws))) && (!bMxD ws || mxElement (bDfmt ws))

/-- The checks of R194: whether the engine accepts a descriptor. -/
def descOk (ws : List Nat) : Bool :=
  bdf ws 0 0 2 == 1 && bDclass ws != 3 && bTelem ws != 3 && decide (bRm ws ≤ 4) && bdf ws 7 32 32 == 0 &&
  (!bConvert ws || bdf ws 7 8 24 == 0) && (bSrcRem ws || bSrcMod ws == 0) && (bDstRem ws || bDstMod ws == 0) &&
  !(bSrcRem ws && bDstRem ws) && (!bSrcRem ws || decide (bSrc ws < 0x80_0000_0000)) &&
  (!bDstRem ws || decide (bDst ws < 0x80_0000_0000)) && (bR ws == 0 || bLen ws % bR ws == 0) &&
  !(bTranspose ws && bConvert ws) && (!bCksum ws || bTallyEn ws) && (bDclass ws == 0 || decide (bDst ws < 0x80_0000_0000)) &&
  (!bTranspose ws || transposeOk ws) && (!bConvert ws || convertOk ws)

/-- Whether a side is on another module: the module's own id is served locally (R194). -/
def srcAway (s : State) (ws : List Nat) : Bool := bSrcRem ws && bSrcMod ws != myId s
def dstAway (s : State) (ws : List Nat) : Bool := bDstRem ws && bDstMod ws != myId s

/-! ### The walk (R195, R196) -/

/-- The address of walk byte `i` from a base with three strides (R195); a sum below 0 wraps to no region. -/
def walkAddr (ws : List Nat) (base : Nat) (s1 s2 s3 : Int) (i : Nat) : Nat :=
  let r := bR ws
  let z := (base : Int) + (i % r : Nat) + (i / r % bN1 ws : Nat) * s1 + (i / (r * bN1 ws) % bN2 ws : Nat) * s2 +
    (i / (r * bN1 ws * bN2 ws) : Nat) * s3
  if z < 0 then 2 ^ 48 else z.toNat

/-- src(i) of R195. -/
def srcAt (ws : List Nat) (i : Nat) : Nat := walkAddr ws (bSrc ws) (bS1Src ws) (bS2Src ws) (bS3Src ws) i

/-- The destination of source byte `i` of a copy (R195) or a transpose (R196). -/
def dstAt (ws : List Nat) (i : Nat) : Nat :=
  if bTranspose ws then
    let r := bR ws
    let e := 2 ^ bTelem ws
    let q := i % (r * bN1 ws)
    let z := (bDst ws : Int) + (i / (r * bN1 ws) % bN2 ws : Nat) * bS2Dst ws + (i / (r * bN1 ws * bN2 ws) : Nat) * bS3Dst ws +
      (q % r / e : Nat) * bS1Dst ws + (q / r * e + q % r % e : Nat)
    if z < 0 then 2 ^ 48 else z.toNat
  else walkAddr ws (bDst ws) (bS1Dst ws) (bS2Dst ws) (bS3Dst ws) i

/-- The source bytes of a barge beyond its walk: the scales of an MX source (R197). -/
def scaleSrcs (ws : List Nat) : List Nat :=
  if bConvert ws && bMxS ws then
    (List.range ((bLen ws * 8 / codeBits (bSfmt ws) + 31) / 32)).map (fun j => bSrc ws + ru64 (bLen ws) + j)
  else []

/-- Every source address of a barge, the walk first. -/
def allSrcs (ws : List Nat) : List Nat := (List.range (bLen ws)).map (srcAt ws) ++ scaleSrcs ws

/-! ### Conversion (R197) -/

/-- One source element of a conversion: its value, its spacing exponent, whether it is poisoned. -/
structure ConvElem where
  bits : Nat
  val  : Num
  sp   : Int
  bad  : Bool
deriving DecidableEq, Repr

/-- Element `u` of a conversion's source bytes, scaled by its MX block where MX_S is 1 (R155, R197). -/
def convElem (ws : List Nat) (src : Fmt) (data : List (Nat × Bool)) (u : Nat) : ConvElem :=
  let b := fmtBits src
  let win := (data.drop (u * b / 8)).take 9
  let bits := bitsOf (ofBytes (win.map (fun x => x.1))) (u * b % 8) b
  let n := (u * b % 8 + b + 7) / 8
  let bad := (win.take n).any (fun x => x.2)
  if bMxS ws then
    let sc := data.getD (bLen ws + u / 32) (0, false)
    let k : Int := (sc.1 : Int) - 127
    ⟨bits, if sc.1 = 255 then .nan else scaleNum k (decodeNum src bits), spacingOf src bits + k, bad || sc.2⟩
  else ⟨bits, decodeNum src bits, spacingOf src bits, bad⟩

/-- The random word of element `u` (R172, R197). -/
def convWord (ws : List Nat) (seed step u : Nat) : Nat :=
  if bRm ws = 4 then drawWord seed (bC2 ws) step (bPos ws + u) else 0

/-- The destination element of a conversion without MX_D, as convertNum for an unscaled source. -/
def convOne (ws : List Nat) (src dst : Fmt) (seed step u : Nat) (e : ConvElem) : Nat :=
  if bMxS ws then encodeNum dst (bRm ws) (bOvf ws) ⟨convWord ws seed step u, some e.sp⟩ e.val
  else convertNum src dst (bRm ws) (bOvf ws) (convWord ws seed step u) e.bits

/-- The quantised elements of every block of 32, with the blocks' scales and marks (R156, R197). -/
def convBlocks (ws : List Nat) (dst : Fmt) (seed step : Nat) (es : List ConvElem) : List ((Nat × Bool) × List (Nat × Bool)) :=
  (List.range ((es.length + 31) / 32)).map (fun k =>
    let blk := (es.drop (32 * k)).take 32
    let pad := 32 - blk.length
    let r := mxQuantise dst (bRm ws) ((List.range 32).map (fun i => convWord ws seed step (32 * k + i)))
      (blk.map (fun e => e.sp) ++ List.replicate pad 0) (blk.map (fun e => e.val) ++ List.replicate pad (.fin false 0 0))
    let bad := blk.any (fun e => e.bad)
    ((r.1, bad), (r.2.take blk.length).map (fun x => (x, bad))))

/-- Elements packed densely into bytes; the bits of the last byte above the last element come from `old` (R197). -/
def packElems (b : Nat) (es : List (Nat × Bool)) (old : Nat) : List (Nat × Bool) :=
  let total := es.length * b
  let n := (total + 7) / 8
  (List.range n).map (fun j =>
    let lo := j * 8 / b
    let span := (es.drop lo).take ((8 + b - 1) / b + 1)
    let v := ofBytes [] + span.zipIdx.foldl (fun a p =>
      let at_ : Int := ((lo + p.2) * b : Nat) - (j * 8 : Nat)
      a + (if 0 ≤ at_ then p.1.1 % 2 ^ b * 2 ^ at_.toNat else p.1.1 % 2 ^ b / 2 ^ (-at_).toNat)) 0
    let used := if j + 1 = n ∧ total % 8 ≠ 0 then total % 8 else 8
    let bad := span.zipIdx.any (fun p => p.1.2 && decide ((lo + p.2) * b < j * 8 + 8 ∧ j * 8 < (lo + p.2) * b + b))
    (v % 2 ^ used + (if used < 8 then old / 2 ^ used * 2 ^ used else 0), bad))

/-- The destination of a conversion: addresses with bytes and marks, elements first, then scales (R197, R199). `data`
is the walk's bytes and then the scales of an MX source; `old` the byte before the write at the last element byte. -/
def convOut (ws : List Nat) (seed step : Nat) (data : List (Nat × Bool)) (old : Nat) : List (Nat × (Nat × Bool)) :=
  match fmtOfCode (bSfmt ws), fmtOfCode (bDfmt ws) with
  | some src, some dst =>
    let ne := bLen ws * 8 / fmtBits src
    let es := (List.range ne).map (convElem ws src data)
    let bd := fmtBits dst
    let blocks := if bMxD ws then convBlocks ws dst seed step es else []
    let elems := if bMxD ws then blocks.flatMap (fun b => b.2)
      else es.zipIdx.map (fun p => (convOne ws src dst seed step p.2 p.1, p.1.bad))
    let main := packElems bd elems old
    let place := fun (base : Nat) (l : List (Nat × Bool)) => l.zipIdx.map (fun p => (base + p.2, p.1))
    place (bDst ws) main ++ place (bDst ws + ru64 main.length) (blocks.map (fun b => b.1))
  | _, _ => []

/-- The last element byte's address of a conversion, whose upper bits are kept (R197). -/
def convLast (ws : List Nat) : Nat :=
  bDst ws + (bLen ws * 8 / codeBits (bSfmt ws) * codeBits (bDfmt ws) + 7) / 8 - 1

/-- The destination of a barge: addresses with bytes and marks, in the order in which they enter the CRC (R199). -/
def bargeOut (ws : List Nat) (seed step : Nat) (data : List (Nat × Bool)) (old : Nat) : List (Nat × (Nat × Bool)) :=
  if bConvert ws then convOut ws seed step data old
  else (List.range (bLen ws)).zip data |>.map (fun p => (dstAt ws p.1, p.2))

end Sys2Proof.Machine
end

