-- ==== Sys2Proof/Machine/Barge.lean ====
section
/-!
DEFINITION. The transfer engines: acceptance, start, completion and ends of barges (R194, R198 to R204, R212).
-/

namespace Sys2Proof.Machine

/-- A descriptor leaves its engine: the booking settled and the page's boundary passed (R67, R202). -/
def bargeLeave (e i : Nat) (s : State) : State :=
  boundary (pgBarge e) (engSettle e (setEng e { engOf s e with jobs := (engOf s e).jobs.eraseIdx i } s))

/-- The record of the first errored descriptor (R212). -/
def bargeRecord (e : Nat) (j : BargeJob) (s : State) : State :=
  let p := pgBarge e
  if rd s p R.BARGE_ERR_CTX_VALID = 1 then s
  else
    let s1 := foldUpTo 16 (fun n t => wri p R.BARGE_ERR_DESC n (j.words.getD n 0) t) s
    wr p R.BARGE_ERR_CTX_CONTEXT j.tag.ctx (wr p R.BARGE_ERR_CTX_POLDER j.tag.polder
      (wr p R.BARGE_ERR_CTX_GEN j.tag.gen (wr p R.BARGE_ERR_CTX_VALID 1 s1)))

/-- A barge ends with error `bit` of its page (R198, R212): recorded, its context acted on; PEER_LOST is step-fatal, the
others context-fatal. -/
def bargeFail (e i bit : Nat) (s : State) : State :=
  match (engOf s e).jobs[i]? with
  | none => s
  | some j =>
    let s1 := recordErr (pgBarge e) bit (some j.tag.ctx) (bargeRecord e j s)
    let s2 := bargeLeave e i s1
    if bit = 6 then stepFatal j.tag.ctx (errCode .barge bit) j.tag.step s2 else ctxFatal j.tag.ctx (errCode .barge bit) s2

/-- ADDR_UNMAPPED of a barge; a device-DRAM address is recorded at MEMC 0 as well (R50). -/
def bargeUnmapped (e i a : Nat) (s : State) : State :=
  let ctx := ((engOf s e).jobs[i]?).map (fun j => j.tag.ctx)
  bargeFail e i 1 (if (regionOf a).1 = .dram ∨ a < 2 ^ 40 then noteUnmapped ctx s else s)

/-! ### Acceptance -/

/-- The oldest descriptor offered to an engine. -/
def offered (k : Engine) : Option Nat := k.jobs.findIdx? (fun j => j.phase == 0)

/-- BARGE_ACCEPT (R194): the oldest offered descriptor is checked, and accepted or refused with BARGE_DESC; under HOLD
none is accepted (R212). -/
def doBargeAccept (e : Nat) (s : State) : State :=
  match offered (engOf s e) with
  | none => s
  | some i =>
    match (engOf s e).jobs[i]? with
    | none => s
    | some j =>
      let r := checkFor (pgBarge e) 0 (!descOk j.words) s
      if rd s (pgBarge e) R.BARGE_CTRL_HOLD = 1 then s
      else if r.1 then bargeFail e i 0 r.2
      else countE (pgBarge e) 0x60 0 1 (some j.tag.ctx)
        (setEng e { engOf r.2 e with jobs := (engOf r.2 e).jobs.set i { j with phase := 1 } } r.2)


/-! ### Local accesses -/

/-- The error bit of reading an address, if any (R198, R205). -/
def srcErr (s : State) (a : Nat) : Option Nat :=
  match regionOf a with
  | (.dram, o) => if (locate s o).isSome then none else some 1
  | (.quay, _) | (.scratch, _) => none
  | (.host, o) => if s.hostHoles.contains (o / 4096) then some 5 else none
  | _ => some 1

/-- The error bit of writing an address, if any (R198, R205). -/
def dstErr (s : State) (ws : List Nat) (a : Nat) : Option Nat :=
  match regionOf a with
  | (.dram, o) =>
    if (locate s o).isNone then some 1
    else if bDclass ws ≠ 0 ∧ classOf s o + 1 ≠ bDclass ws then some 2 else none
  | (.quay, _) => some 3
  | (.scratch, _) => none
  | (.host, o) => if s.hostHoles.contains (o / 4096) then some 5 else none
  | _ => some 1

/-- Consecutive destination bytes gathered into pieces that lie in one 64-byte unit. -/
def piecesOf (out : List (Nat × (Nat × Bool))) : List (Nat × List (Nat × Bool)) :=
  out.foldr (fun p acc =>
    match acc with
    | (a, bs) :: rest => if p.1 + 1 = a ∧ a % 64 ≠ 0 then (p.1, p.2 :: bs) :: rest else (p.1, [p.2]) :: acc
    | [] => [(p.1, [p.2])]) []

/-- One piece written with its poison marks (R187). -/
def writePiece (p : Nat × List (Nat × Bool)) (s : State) : State :=
  let bs := p.2.map (fun b => b.1)
  match regionOf p.1 with
  | (.dram, o) => dramWrite o bs (p.2.any (fun b => b.2)) s
  | (.scratch, o) =>
    let bad := p.2.map (fun b => b.2)
    modCore (o / 0x40000) (fun k => entered (o % 0x40000) bs bad (scrWriteMarked (o % 0x40000) bs bad k)) s
  | (.host, o) => hostPutMarked o p.2 s
  | _ => s

/-- The destination bytes of a barge written, counted at its engine (R212, R487). -/
def writeOut (e : Nat) (ctx : Nat) (out : List (Nat × (Nat × Bool))) (s : State) : State :=
  let ps := piecesOf out
  countE (pgBarge e) 0x62 0 ps.length (some ctx) (bump (pgBarge e) R.BARGE_BYTES out.length
    (ps.foldl (fun t p => writePiece p t) s))

/-- The seed and step number with which a barge draws (R170). -/
def bargeSeed (s : State) (g : Tag) : Nat := match ctxOf s g.ctx with | some x => x.seed | none => 0
def bargeStep (s : State) (g : Tag) : Nat :=
  match ctxOf s g.ctx with | some x => if x.typ = 0 then g.step.getD 0 else 0 | none => 0

/-- Whether a local copy's source overlaps its own destination, which leaves the destination undefined (R195). -/
def overlaps (ws : List Nat) (out : List (Nat × (Nat × Bool))) : Bool :=
  out.any (fun p => (allSrcs ws).contains p.1)

/-- The destination of a barge whose source is read now (R195 to R197); `old` is the byte at its last element's place before
the write. Where a source here overlaps a destination here, every byte is free. -/
def outNow (s : State) (j : BargeJob) (data : List (Nat × Bool)) (old : Nat) : List (Nat × (Nat × Bool)) :=
  let out := bargeOut j.words (bargeSeed s j.tag) (bargeStep s j.tag) data old
  if !srcAway s j.words && !dstAway s j.words && overlaps j.words out then
    out.zipIdx.map (fun p => (p.1.1, (Config.freeNat (s.free + p.2) % 256, p.1.2.2)))
  else out

/-- The byte at the place of a barge's last element before its write, where the destination is here (R197). -/
def oldLast (s : State) (ws : List Nat) : Nat := if bConvert ws && !dstAway s ws then (devByte s (convLast ws)).1 else 0

/-! ### The canal (R23, R53) -/

/-- Bytes at addresses of this module carried between their dies and that of engine `e`, towards it or away from it, with
the checks of their flits. Answers whether a flit is poisoned. -/
def canalBytes (inward : Bool) (e : Nat) (addrs : List Nat) (g : Tag) (s : State) : Bool × State :=
  [0, 1, 2, 3].foldl (fun r d =>
    let n := (addrs.filter (fun a => dieOfAddr s a == d)).length
    let q := if inward then canalMove d (e / 16) n (some g.ctx) g.step r.2 else canalMove (e / 16) d n (some g.ctx) g.step r.2
    (r.1 || q.1, q.2)) (false, s)

/-- Destination bytes of which the first word came in a poisoned flit (log 78). -/
def flitPoison (bad : Bool) (out : List (Nat × (Nat × Bool))) : List (Nat × (Nat × Bool)) :=
  out.zipIdx.map (fun p => (p.1.1, (p.1.2.1, p.1.2.2 || (bad && decide (p.2 < 8)))))

/-- The errors of a barge's local accesses, with the address each met. -/
def accessErrs (s : State) (ws : List Nat) (srcs dsts : List Nat) : List (Nat × Nat) :=
  srcs.filterMap (fun a => (srcErr s a).map (fun b => (b, a))) ++ dsts.filterMap (fun a => (dstErr s ws a).map (fun b => (b, a)))

/-- An injected error of a barge's access (R61): ADDR_UNMAPPED, BARGE_CLASS, QUAY_RO or HOST_ABORT. -/
def bargeInjected (e : Nat) (s : State) : Option Nat × State :=
  [1, 2, 3, 5].foldl (fun r b => match r.1 with
    | some _ => r
    | none => let q := checkFor (pgBarge e) b false r.2
      (if q.1 then some b else none, q.2)) (none, s)

/-- The errors that a barge meets, with an injected one at its first address. -/
def bargeErrs (e : Nat) (ws : List Nat) (errs : List (Nat × Nat)) (s : State) : List (Nat × Nat) × State :=
  let r := bargeInjected e s
  (match r.1 with | some b => (b, bSrc ws) :: errs | none => errs, r.2)

/-- A barge that meets an access error (R198): which of its legal writes were already made is open, and so is which of
several errors ends it; both are drawn. A conversion writes nothing whose source could not be read. -/
def bargeBroken (e i : Nat) (j : BargeJob) (out : List (Nat × (Nat × Bool))) (errs : List (Nat × Nat)) (s : State) : State :=
  let ok := fun (n : Nat) (a : Nat) =>
    (dstErr s j.words a).isNone && Config.freeNat (s.free + 1 + n) % 2 == 1 &&
    (if bConvert j.words then (allSrcs j.words).all (fun x => (srcErr s x).isNone) else (srcErr s (srcAt j.words n)).isNone)
  let part := (out.zipIdx.filter (fun p => ok p.2 p.1.1)).map (fun p => p.1)
  let err := errs.getD (Config.freeNat s.free % errs.length) (1, 0)
  let s1 := { writeOut e j.tag.ctx part s with free := s.free + 1 + out.length }
  if err.1 = 1 then bargeUnmapped e i err.2 s1 else bargeFail e i err.1 s1

/-! ### Completion -/

/-- A job of an engine replaced. -/
def setJob (e i : Nat) (j : BargeJob) (s : State) : State := setEng e { engOf s e with jobs := (engOf s e).jobs.set i j } s

/-- A barge that is done is counted and leaves (R212). -/
def bargeDone (e i : Nat) (j : BargeJob) (s : State) : State :=
  bargeLeave e i (countE (pgBarge e) 0x61 0 1 (some j.tag.ctx) (bump (pgBarge e) R.BARGE_DONE 1 s))

/-- The CRC and the tally add of a barge on the module of its destination, behind the data on its path (R199, R289): the
WRITE of the CRC asks for no acknowledgement. -/
def peerTally (s : State) (j : BargeJob) (crc : Nat) : List Train :=
  let ws := j.words
  (if bCksum ws then [mkTrain s j.tag 0 0 0 (bDstMod ws) (bTally ws + 8) j.xid (framesClean (bytesOf 8 crc))] else []) ++
    [mkTrain s j.tag 1 0 0 (bDstMod ws) (bTally ws) 1 []]

/-- The end of a barge that has moved its bytes (R199, R200): the CRC and the tally add, here or on the destination's
module; then it leaves. A tally here without backing ends it with ADDR_UNMAPPED; one on another module is checked there,
and until then the barge stays (log 90). -/
def bargeFinish (e i crc : Nat) (s : State) : State :=
  match (engOf s e).jobs[i]? with
  | none => s
  | some j =>
    let ws := j.words
    let t := bTally ws
    if !bTallyEn ws then bargeDone e i j s
    else if bTallyAtDst ws && dstAway s ws then
      sendOn j.alt (peerTally s j crc) (setJob e i { j with phase := 5 } s)
    else if (locate s t).isNone || (bCksum ws && (locate s (t + 8)).isNone) then bargeUnmapped e i t s
    else bargeDone e i j (tallyAdd t 1 (if bCksum ws then dramPutWord (t + 8) crc s else s))

/-- The data of a barge whose source is another module, as it has landed, each byte with its own mark (R187). -/
def landedData (j : BargeJob) : List (Nat × Bool) :=
  (List.range (allSrcs j.words).length).map (fun i =>
    let b := (mapFind j.landed i).getD (0, false)
    (b.1, b.2 || j.poison))

/-- Completion of a barge with both sides here, or of a transform of data that has landed (R195 to R199). -/
def bargeMove (e i : Nat) (j : BargeJob) (away : Bool) (s : State) : State :=
  let srcs := if away then [] else allSrcs j.words
  let c1 := canalBytes true e srcs j.tag (fetchAll srcs (some j.tag.ctx) j.tag.step s)
  let data := if away then landedData j else (allSrcs j.words).map (fun a => let b := readByte s a; (b.1, b.2 || j.poison))
  let out0 := outNow s j data (oldLast s j.words)
  let r := bargeErrs e j.words (accessErrs s j.words srcs (out0.map (fun p => p.1))) c1.2
  if !r.1.isEmpty then bargeBroken e i j out0 r.1 r.2
  else
    let c2 := canalBytes false e (out0.map (fun p => p.1)) j.tag r.2
    let s2 := writeOut e j.tag.ctx (flitPoison (c1.1 || c2.1) out0) c2.2
    bargeFinish e i (crc64 (out0.map (fun p => p.2.1))) { s2 with free := s2.free + out0.length }

/-- Whether a remote source needs its bytes collected before they are written. -/
def collects (ws : List Nat) : Bool := bTranspose ws || bConvert ws

/-- A cancelled barge that had started stops after its current leg (R203): which legs it had done is open, so which of its
legal bytes it wrote is drawn; it adds to no tally. -/
def bargeStopped (e i : Nat) (j : BargeJob) (s : State) : State :=
  let srcs := allSrcs j.words
  let s1 := fetchAll srcs (some j.tag.ctx) j.tag.step s
  let out := outNow s j (srcs.map (fun a => let b := readByte s a; (b.1, b.2 || j.poison))) (oldLast s j.words)
  let ok := fun (n : Nat) (a : Nat) =>
    (dstErr s j.words a).isNone && Config.freeNat (s.free + n) % 2 == 1 && (srcErr s (srcAt j.words n)).isNone
  let part := (out.zipIdx.filter (fun p => ok p.2 p.1.1)).map (fun p => p.1)
  bargeLeave e i { writeOut e j.tag.ctx part s1 with free := s.free + 2 * out.length }

/-- BARGE_COMPLETE (R199, R200): barge `i` of an engine, started, ends; one that awaits a peer does not. One whose tally is
on a peer sends the add, and ends with the next BARGE_COMPLETE, before which a refusal may have come (log 90). -/
def doBargeComplete (e i : Nat) (s : State) : State :=
  match (engOf s e).jobs[i]? with
  | none => s
  | some j =>
    if j.phase = 4 then bargeStopped e i j s
    else if j.phase = 2 then
      if bLen j.words = 0 then bargeFinish e i 0 s else bargeMove e i j false s
    else if j.phase = 3 ∧ j.todo = 0 then
      if srcAway s j.words then
        (if collects j.words then bargeMove e i j true s
         else bargeFinish e i (crc64 ((List.range (bLen j.words)).map (fun n => (devByte s (dstAt j.words n)).1))) s)
      else bargeFinish e i j.crc s
    else if j.phase = 5 then bargeDone e i j s
    else s


/-! ### Start -/

/-- Runs of consecutive addresses within one 4 KiB page of the second component: (first, second, length). -/
def runsOf (l : List (Nat × Nat)) : List (Nat × Nat × Nat) :=
  l.foldr (fun p acc =>
    match acc with
    | (a, b, n) :: rest =>
      if p.1 + 1 = a ∧ p.2 + 1 = b ∧ b % 4096 ≠ 0 then (p.1, p.2, n + 1) :: rest else (p.1, p.2, 1) :: acc
    | [] => [(p.1, p.2, 1)]) []

/-- READ_REQ trains of a barge whose source is away (R204, R286): for a copy the destination field names the landing
address, for a transform the place in the engine's buffer. -/
def readReqs (s : State) (j : BargeJob) (xid : Nat) : List Train :=
  let srcs := allSrcs j.words
  let l := srcs.zipIdx.map (fun p => (p.1, if collects j.words then p.2 else dstAt j.words p.2))
  (runsOf l).map (fun r => mkTrain s j.tag 0 1 0 (bSrcMod j.words) r.1 r.2.2
    (framesClean (bytesOf 8 (r.2.1 % 2 ^ 48 + xid * 2 ^ 48))))

/-- WRITE trains of a barge whose destination is away (R204, R286), each asking for an acknowledgement. DESIGN CHOICE (log
89): a DCLASS that is not 0 stands in ARG [16:15], so that the peer can compare it (R198). -/
def writeReqs (s : State) (j : BargeJob) (xid : Nat) (out : List (Nat × (Nat × Bool))) : List Train :=
  let l := out.zipIdx.map (fun p => (p.2, p.1.1))
  (runsOf l).map (fun r => mkTrain s j.tag 0 0 0 (bDstMod j.words) r.2.1 (xid + 2 ^ 14 + bDclass j.words * 2 ^ 15)
    (framesOf (((out.drop r.1).take r.2.2).map (fun p => p.2))))

/-- The bytes of a barge whose destination is away sent (R202, R204): its last access here is made, and the booking
lowered. -/
def bargeSend (e i : Nat) (j : BargeJob) (old : Nat) (s : State) : State :=
  let srcs := allSrcs j.words
  let c := canalBytes true e srcs j.tag (fetchAll srcs (some j.tag.ctx) j.tag.step s)
  let out := flitPoison c.1 (outNow s j (srcs.map (fun a => let b := readByte s a; (b.1, b.2 || j.poison))) old)
  let r := bargeErrs e j.words (accessErrs s j.words srcs []) c.2
  match r.1 with
  | (b, a) :: _ => if b = 1 then bargeUnmapped e i a r.2 else bargeFail e i b r.2
  | [] =>
    let trains := writeReqs s j j.xid out
    let s1 := bridgeBytes (e / 16) (dieOfLink (firstHop (myId s) (bDstMod j.words))) out.length
      (bump (pgBarge e) R.BARGE_BYTES out.length r.2)
    let alt := seriesAlt s1 trains
    sendOn alt trains (engSettle e (setJob e i
      { j with phase := 3, todo := trains.length, crc := crc64 (out.map (fun p => p.2.1)), alt := alt } s1))

/-- Whether the last byte of a conversion's elements holds bits above them, which the destination keeps (R197). -/
def keepsBits (ws : List Nat) : Bool :=
  bConvert ws && decide (bLen ws * 8 / codeBits (bSfmt ws) * codeBits (bDfmt ws) % 8 ≠ 0)

/-- The start of a barge whose booking is granted (R202, R204). A peer that only a pod link reaches ends it with
ROUTE_NONE (R292). DEDUCED (log 93): the byte of another module of which a conversion keeps bits is read first. -/
def bargeGo (e i : Nat) (j : BargeJob) (s : State) : State :=
  let xid := s.nextXid % 2 ^ 14
  let peer := if srcAway s j.words then bSrcMod j.words else bDstMod j.words
  if !srcAway s j.words && !dstAway s j.words then setJob e i { j with phase := 2 } s
  else if !routeOk s peer then
    ctxFatal j.tag.ctx (errCode .link 7) (recordErr (pgLink (firstHop (myId s) peer)) 7 (some j.tag.ctx)
      (bargeLeave e i (bargeRecord e j s)))
  else if srcAway s j.words then
    sendSeries (readReqs s j xid) (setJob e i { j with phase := 3, xid := xid, todo := (allSrcs j.words).length }
      { s with nextXid := s.nextXid + 1 })
  else if keepsBits j.words then
    sendTrain (mkTrain s j.tag 0 1 0 peer (convLast j.words) 1 (framesClean (bytesOf 8 (xid * 2 ^ 48))))
      (setJob e i { j with phase := 6, xid := xid, todo := 1 } { s with nextXid := s.nextXid + 1 })
  else bargeSend e i { j with xid := xid } 0 { s with nextXid := s.nextXid + 1 }

/-- BARGE_START (R200 to R202): the FENCE wait met, the booking there or asked for. -/
def doBargeStart (e i : Nat) (s : State) : State :=
  let k := engOf s e
  match k.jobs[i]? with
  | none => s
  | some j =>
    if j.phase ≠ 1 then s
    else if bFence j.words && (k.jobs.take i).any (fun x => x.tag.ctx == j.tag.ctx) then s
    else if bLen j.words = 0 then setJob e i { j with phase := 2 } s
    else if bCc j.words ≤ k.cls then bargeGo e i j s
    else if k.ask = bCc j.words then s
    else askSluice e true e (max k.ask (bCc j.words)) (setEng e { k with ask := max k.ask (bCc j.words) } s)


/-! ### What a peer answers -/

/-- The barge that awaits a peer under a transfer id: its engine and place. -/
def bargeByXid (s : State) (xid : Nat) : Option (Nat × Nat) :=
  s.engines.findSome? (fun p =>
    (p.2.jobs.findIdx? (fun j => (j.phase == 3 || j.phase == 5 || j.phase == 6) && j.xid == xid)).map (fun i => (p.1, i)))

/-- The barge that awaits its tally add at an address of another module. -/
def bargeByTally (s : State) (m a : Nat) : Option (Nat × Nat) :=
  s.engines.findSome? (fun p =>
    (p.2.jobs.findIdx? (fun j => j.phase == 5 && bDstMod j.words == m && bTally j.words == a)).map (fun i => (p.1, i)))

/-- A WRITE_ACK for a barge (R199). -/
def bargeAck (xid : Nat) (s : State) : State :=
  match bargeByXid s xid with
  | some (e, i) => match (engOf s e).jobs[i]? with
    | some j => if j.phase = 3 then setJob e i { j with todo := j.todo - 1 } s else s
    | none => s
  | none => s

/-- A READ_RESP for a barge: its bytes land at the destination it names, or in the engine's buffer (R204). -/
def bargeData (xid dst : Nat) (data : List (Nat × Bool)) (s : State) : State :=
  match bargeByXid s xid with
  | some (e, i) => match (engOf s e).jobs[i]? with
    | some j =>
      if j.phase = 6 then bargeSend e i j ((data.headD (0, false)).1) s
      else if j.phase = 5 then s
      else if collects j.words then
        setJob e i { j with todo := j.todo - data.length,
                            landed := data.zipIdx.foldl (fun m p => mapPut m (dst + p.2) p.1) j.landed } s
      else
        let out := data.zipIdx.map (fun p => (dst + p.2, p.1))
        let errs := accessErrs s j.words [] (out.map (fun p => p.1))
        match errs with
        | (b, a) :: _ => if b = 1 then bargeUnmapped e i a s else bargeFail e i b s
        | [] => setJob e i { j with todo := j.todo - data.length } (writeOut e j.tag.ctx out s)
    | none => s
  | none => s

/-- The barge error that a DENY's code names (R198, R204). -/
def denyBit (code : Nat) : Nat := if code = codeUnmapped then 1 else if code = errCode .barge 2 then 2 else 4

/-- A DENY for a barge. -/
def bargeDenied (xid code : Nat) (s : State) : State :=
  match bargeByXid s xid with
  | some (e, i) => bargeFail e i (denyBit code) s
  | none => s

end Sys2Proof.Machine
end

