-- ==== Sys2Proof/Machine/UpdMath.lean ====
section
/-!
DEFINITION. The arithmetic of the update engines: node values and their checks (R159, R163, R238), the exact statistics
(R238), microprograms (R223 to R226), and the compute copy (R219, R222, R231).
-/

namespace Sys2Proof.Machine

/-! ### Node values -/

/-- The node of two present values of one block (R159). -/
def addBlock (a b : List Nat) : List Nat := a.zipWith add32 b

/-- Whether any element is a NaN or an infinity (R163). -/
def badBlock (a : List Nat) : Bool := a.any (nonFinite .fp32)

/-- Two squares added with one rounding, the first level of a block partial (R238). -/
def square2 (a b : Nat) : Nat :=
  let x := decodeNum .fp32 a
  let y := decodeNum .fp32 b
  encodeNum .fp32 0 false noDraw (addNum 0 (mulNum x x) (mulNum y y))

/-- The block partial of a level-LG node (R238): the pairwise tree of squares over its 1,024 elements. -/
def blockPartial (a : List Nat) : Nat := (reduceLevels add32 9 (pairUp square2 a)).headD 0

/-- The levels of the canonical tree over `b` leaves (R161). -/
def treeLevels (b : Nat) : Nat := if b ≤ 1 then 0 else (b - 1).log2 + 1

/-! ### Exact sums (R238): integers in units of 2^−320 -/

/-- A finite value in units of 2^−320; none for a NaN or an infinity. -/
def fixOf : Num → Option Int
  | .fin n m e => if 0 ≤ e + 320 then some (signedMant n (m * 2 ^ (e + 320).toNat)) else some 0
  | _ => none

/-- The exact square of an FP32 element. -/
def sqFix (a : Nat) : Option Int := let x := decodeNum .fp32 a; fixOf (mulNum x x)

/-- The exact squares of a block's finite elements summed. -/
def gradSum (a : List Nat) : Int := a.foldl (fun z x => z + (sqFix x).getD 0) 0

/-- The non-finite elements of a block. -/
def countBad (a : List Nat) : Nat := (a.filter (nonFinite .fp32)).length

/-- A job value (R238): the exact sum times 2^(−2E), rounded once to FP64; a NaN where `bad`. -/
def jobValue (z : Int) (e : Int) (bad : Bool) : Nat :=
  if bad then canonNaN .fp64 else encodeNum .fp64 0 false noDraw (.fin (decide (z < 0)) z.natAbs (-320 - 2 * e))

/-! ### Microprograms (R223 to R225) -/

/-- A micro-instruction (R224). -/
structure MicroOp where
  op  : Nat
  d   : Nat
  a   : Nat
  b   : Nat
  c   : Nat
  fmt : Nat
  rm  : Nat
deriving DecidableEq, Repr

/-- A micro-instruction from its word. -/
def microOf (w : Nat) : MicroOp :=
  ⟨bitsOf w 0 6, bitsOf w 6 7, bitsOf w 13 7, bitsOf w 20 7, bitsOf w 27 7, bitsOf w 34 2, bitsOf w 36 3⟩

/-- The operands that an operation uses. -/
def microArgs (m : MicroOp) : List Nat :=
  if m.op ∈ [4, 14] then [m.a, m.b, m.c] else if m.op ∈ [1, 2, 3, 5, 8, 9, 13] then [m.a, m.b] else [m.a]

/-- The bodies: 0 PRO, 1 A, 2 F, 3 B (R223). -/
def bodyStart (w : Nat) (body : Nat) : Nat := bitsOf w (9 * body) 9

/-- Whether a body may read a port (R225). -/
def portReads (body nmom p : Nat) : Bool :=
  match p with
  | 48 => body == 1 || body == 3
  | 49 => body == 3
  | 50 => body == 3 && decide (1 ≤ nmom)
  | 51 => body == 3 && decide (2 ≤ nmom)
  | 52 | 53 => body == 3
  | 56 | 57 => body == 2
  | 58 => decide (1 ≤ body)
  | _ => false

/-- Whether a body may write a port (R225). -/
def portWrites (body nmom p : Nat) : Bool :=
  match p with
  | 49 => body == 3
  | 50 => body == 3 && decide (1 ≤ nmom)
  | 51 => body == 3 && decide (2 ≤ nmom)
  | 54 | 55 => body == 1
  | 57 => body == 2
  | _ => false

/-- Whether an instruction of a body is legal (R224, R225). -/
def microOk (body nmom : Nat) (w : Nat) : Bool :=
  let m := microOf w
  bitsOf w 39 25 == 0 && decide (m.op ≤ 18) && decide (m.fmt ≤ 1) && decide (m.rm ≤ 3) &&
    (microArgs m).all (fun x => decide (x < 48) || decide (64 ≤ x) || portReads body nmom x) &&
    (decide (m.d < 48) || (decide (m.d < 64) && portWrites body nmom m.d) || (decide (112 ≤ m.d) && body == 0))

/-- The instructions of a body up to its END; none where END is missing or one is illegal. -/
def takeBody (body nmom : Nat) : List Nat → Option (List MicroOp)
  | [] => none
  | w :: ws =>
    if bitsOf w 0 6 = 0 then (if bitsOf w 39 25 = 0 ∧ bitsOf w 34 2 ≤ 1 ∧ bitsOf w 36 3 ≤ 3 then some [] else none)
    else if microOk body nmom w then (takeBody body nmom ws).map (microOf w :: ·) else none

/-- A body of an image; `some none` where it is absent, `none` where it is illegal. -/
def bodyOf (prog : List Nat) (body nmom : Nat) : Option (Option (List MicroOp)) :=
  let i := bodyStart (prog.headD 0) body
  if i = 0x1FF then some none else (takeBody body nmom (prog.drop i)).map some

/-- Whether an image passes the checks of R223 to R225. -/
def progOk (prog : List Nat) (nmom : Nat) (fact : Bool) : Bool :=
  bitsOf (prog.headD 0) 36 28 == 0 &&
  match bodyOf prog 0 nmom, bodyOf prog 1 nmom, bodyOf prog 2 nmom, bodyOf prog 3 nmom with
  | some _, some a, some f, some (some _) => a.isSome == fact && f.isSome == fact
  | _, _, _, _ => false

/-- The body of a legal image, empty where absent. -/
def theBody (prog : List Nat) (body nmom : Nat) : List MicroOp :=
  match bodyOf prog body nmom with
  | some (some l) => l
  | _ => []

/-- A value in a lane: its format (true: FP64) and its bits. -/
abbrev MVal := Bool × Nat

/-- The number that a lane value is. -/
def mnum (v : MVal) : Num := decodeNum (if v.1 then .fp64 else .fp32) v.2

/-- A number rounded once to a format and mode. -/
def mround (f64 : Bool) (rm : Nat) (x : Num) : MVal := (f64, encodeNum (if f64 then .fp64 else .fp32) rm false noDraw x)

/-- A value as an operation of a format takes it: unchanged in its own format, else converted in a mode. -/
def mconv (f64 : Bool) (rm : Nat) (v : MVal) : MVal := if v.1 = f64 then v else mround f64 rm (mnum v)

/-- SIGN (R224). -/
def msign (f64 : Bool) (v : MVal) : MVal :=
  match mnum v with
  | .nan => (f64, canonNaN (if f64 then .fp64 else .fp32))
  | .inf n => mround f64 0 (.fin n 1 0)
  | .fin n m e => if m = 0 then mround f64 0 (.fin n 0 e) else mround f64 0 (.fin n 1 0)

/-- One operation (R224): operands at their exact values, the result rounded once to FMT in RM. -/
def microEval (m : MicroOp) (a b c : MVal) : MVal :=
  let f := m.fmt == 1
  let r := mround f m.rm
  let x := mnum a
  let y := mnum b
  match m.op with
  | 1 => r (addNum m.rm x y)
  | 2 => r (addNum m.rm x (negNum y))
  | 3 => r (mulNum x y)
  | 4 => r (addNum m.rm (mulNum x y) (mnum c))
  | 5 => r (divNum x y)
  | 6 => r (sqrtNum x)
  | 7 => (f, transLane 1 (b2n f) m.rm (mconv f 0 a).2)
  | 8 => r (minNum x y)
  | 9 => r (maxNum x y)
  | 10 => r (absNum x)
  | 11 => r (negNum x)
  | 12 => msign f a
  | 13 => (f, if ltNum x y then 2 ^ (if f then 64 else 32) - 1 else 0)
  | 14 => mconv f m.rm (if c.2 ≠ 0 then a else b)
  | 15 => mconv f m.rm a
  | 16 => (f, transLane 4 (b2n f) m.rm (mconv f 0 a).2)
  | 17 => (f, transLane 5 (b2n f) m.rm (mconv f 0 a).2)
  | _ => r x

/-- The registers of one lane as a body runs: Y0 to Y47, Z0 to Z63, and what it has written to its ports. -/
structure Lane where
  y  : List (Nat × MVal)
  z  : List Nat
  wr : List (Nat × MVal)
deriving DecidableEq, Repr

/-- An operand's value: a Y that the body has not written is free (`free` gives it), a port reads by `port`. -/
def laneRead (free : Nat → Nat) (port : Nat → MVal) (l : Lane) (x : Nat) : MVal :=
  if x < 48 then (mapFind l.y x).getD (false, free x % 2 ^ 32)
  else if x < 64 then port x
  else (true, l.z.getD (x - 64) 0)

/-- One instruction of a body. -/
def laneStep (free : Nat → Nat) (port : Nat → MVal) (l : Lane) (m : MicroOp) : Lane :=
  let v := microEval m (laneRead free port l m.a) (laneRead free port l m.b) (laneRead free port l m.c)
  if m.d < 48 then { l with y := mapPut l.y m.d v }
  else if m.d < 64 then { l with wr := mapPut l.wr m.d (v.1, v.2) }
  else { l with z := l.z.set (m.d - 64) (mconv true m.rm v).2 }

/-- A body run on one lane. -/
def runBody (free : Nat → Nat) (port : Nat → MVal) (z : List Nat) (ms : List MicroOp) : Lane :=
  ms.foldl (laneStep free port) ⟨[], z, []⟩

/-- The mode in which a body's last write of a port rounds to the port's format. -/
def lastRm (ms : List MicroOp) (p : Nat) : Nat := (ms.filter (fun m => m.d == p)).foldl (fun _ m => m.rm) 0

/-- What a body wrote to a port, in the port's format. -/
def portOut (l : Lane) (ms : List MicroOp) (p : Nat) (f64 : Bool) : Option Nat :=
  (mapFind l.wr p).map (fun v => (mconv f64 (lastRm ms p) v).2)

/-- The scalars that PRO leaves (R226). -/
def runPro (free : Nat → Nat) (prog : List Nat) (nmom : Nat) (z : List Nat) : List Nat :=
  (runBody free (fun _ => (false, 0)) z (theBody prog 0 nmom)).z

/-- A block as the bodies see it: masters, moments, factors and gradient (R219). -/
structure Block where
  mw   : Bool
  mas  : List Nat
  mom1 : List Nat
  mom2 : List Nat
  fact : List Nat
  grad : List Nat
deriving DecidableEq, Repr

/-- A value that the spec does not state, as a fixed function of the data that it depends on, so that two runs of a job
agree (R173). -/
def unstatedOf (code : Nat) (data : List Nat) : Nat := Config.unstated code (data.foldl (fun a d => a * 2 ^ 64 + d % 2 ^ 64) 1)

/-- The free values that lane `i` of body `k` reads (R224: a Y register's initial value is not given): they depend on
the seed, the step and the element only. -/
def laneFree (base : List Nat) (k i : Nat) (x : Nat) : Nat := unstatedOf 82 (base ++ [k, i, x])

/-- The accumulators of body A: rows in 0 to 31, columns in 32 to 63, each from +0 in ascending element index (R225). -/
def runA (base : List Nat) (prog : List Nat) (nmom : Nat) (z : List Nat) (b : Block) : List (Nat × Nat) :=
  let ms := theBody prog 1 nmom
  (List.range 1024).foldl (fun acc i =>
    let port (x : Nat) : MVal := if x = 48 then (false, b.grad.getD i 0) else (false, encodeNum .fp32 0 false noDraw (.fin false i 0))
    let l := runBody (laneFree base 0 i) port z ms
    let put (a : List (Nat × Nat)) (p k : Nat) : List (Nat × Nat) :=
      match mapFind l.wr p with
      | some v => mapSet 0 a k (encodeNum .fp32 0 false noDraw (addNum 0 (decodeNum .fp32 (mapGet 0 a k)) (mnum v)))
      | none => a
    put (put acc 54 (i / 32)) 55 (32 + i % 32)) []

/-- The factors that body F leaves (R223, R225). -/
def runF (base : List Nat) (prog : List Nat) (nmom : Nat) (z : List Nat) (b : Block) (acc : List (Nat × Nat)) : List Nat :=
  let ms := theBody prog 2 nmom
  (List.range 64).map (fun i =>
    let port (x : Nat) : MVal :=
      if x = 56 then (false, mapGet 0 acc i) else if x = 57 then (false, b.fact.getD i 0)
      else (false, encodeNum .fp32 0 false noDraw (.fin false i 0))
    (portOut (runBody (laneFree base 1 i) port z ms) ms 57 false).getD (b.fact.getD i 0))

/-- One block updated (R231 step 3): A, then F, then B. A factor port with FACT = 0 reads a free value. -/
def updateBlock (base : List Nat) (prog : List Nat) (nmom : Nat) (fact : Bool) (z : List Nat) (b : Block) : Block :=
  let fs := if fact then runF base prog nmom z b (runA base prog nmom z b) else b.fact
  let ms := theBody prog 3 nmom
  let outs := (List.range 1024).map (fun i =>
    let port (x : Nat) : MVal :=
      match x with
      | 48 => (false, b.grad.getD i 0)
      | 49 => (b.mw, b.mas.getD i 0)
      | 50 => (false, b.mom1.getD i 0)
      | 51 => (false, b.mom2.getD i 0)
      | 52 => (false, if fact then fs.getD (i / 32) 0 else unstatedOf 83 (base ++ [i]) % 2 ^ 32)
      | 53 => (false, if fact then fs.getD (32 + i % 32) 0 else unstatedOf 83 (base ++ [i]) % 2 ^ 32)
      | _ => (false, encodeNum .fp32 0 false noDraw (.fin false i 0))
    let l := runBody (laneFree base 2 i) port z ms
    ((portOut l ms 49 b.mw).getD (b.mas.getD i 0), (portOut l ms 50 false).getD (b.mom1.getD i 0),
      (portOut l ms 51 false).getD (b.mom2.getD i 0)))
  { b with mas := outs.map (fun o => o.1), mom1 := outs.map (fun o => o.2.1), mom2 := outs.map (fun o => o.2.2), fact := fs }

/-- The exact square of an element's change rounded to FP32 (R238); none where it is not finite. -/
def deltaSq (mw : Bool) (old new : Nat) : Option Int :=
  let f := if mw then Fmt.fp64 else .fp32
  sqFix (encodeNum .fp32 0 false noDraw (addNum 0 (decodeNum f new) (negNum (decodeNum f old))))

/-! ### The compute copy (R219, R222, R231) -/

/-- The element format of a CFMT and whether it is an MX format (R222). -/
def cfmtOf (c : Nat) : Fmt × Bool :=
  match c with
  | 0 => (.bf16, false) | 1 => (.fp16, false) | 2 => (.e4m3, false) | 3 => (.e5m2, false)
  | 4 => (.e4m3, true) | 5 => (.e5m2, true) | 6 => (.e3m2, true) | 7 => (.e2m3, true) | _ => (.e2m1, true)

/-- The copy bytes of a block (R300). -/
def copyBytes (c : Nat) : Nat :=
  let f := cfmtOf c
  if f.2 then ru64 (128 * fmtBits f.1) + 32 else 128 * fmtBits f.1

/-- The compute copy of a block's masters, element 0 at global index `p0` (R231). -/
def copyOf (mw : Bool) (cfmt seed tid step p0 : Nat) (mas : List Nat) : List Nat :=
  let src := if mw then Fmt.fp64 else .fp32
  let d := cfmtOf cfmt
  let word (i : Nat) : Nat := drawWord seed (tid * 256 + 1) step (p0 + i)
  if d.2 then
    let blocks := (List.range 32).map (fun k =>
      let vs := (mas.drop (32 * k)).take 32
      mxQuantise d.1 4 ((List.range 32).map (fun i => word (32 * k + i))) (vs.map (spacingOf src)) (vs.map (decodeNum src)))
    let els := (packElems (fmtBits d.1) (blocks.flatMap (fun b => b.2.map (fun x => (x, false)))) 0).map (fun x => x.1)
    els ++ List.replicate (ru64 els.length - els.length) 0 ++ blocks.map (fun b => b.1)
  else
    (packElems (fmtBits d.1) (mas.zipIdx.map (fun m => (convertNum src d.1 4 false (word m.2) m.1, false))) 0).map (fun x => x.1)

end Sys2Proof.Machine
end

