-- ==== Sys2Proof/Machine/Upd.lean ====
section
/-!
DEFINITION. The update engines' bindings: records, shard parts and generation words (R217 to R221), binding (R222),
restore holds (R235), mirror and migration streams (R236, R313), the update pass and its commit (R231, R232, R239).
-/

namespace Sys2Proof.Machine

/-! ### Bindings -/

/-- A binding, by stack × 4 + binding. -/
def bindAt (s : State) (i : Nat) : Option Binding := mapFind s.binds i

/-- Replace a binding. -/
def putBind (i : Nat) (b : Binding) (s : State) : State := { s with binds := mapPut s.binds i b }

/-- Change a binding, if it is bound. -/
def modBind (i : Nat) (f : Binding → Binding) (s : State) : State :=
  match bindAt s i with
  | some b => putBind i (f b) s
  | none => s

/-- A register of a binding, read and set. -/
def urd (s : State) (f : RegField) (i : Nat) : Nat := rdi s (pgUpd (i / 4)) f (i % 4)
def uwr (f : RegField) (i v : Nat) (s : State) : State := wri (pgUpd (i / 4)) f (i % 4) v s

/-- A binding's phase, with STATE.PHASE (R243). -/
def setPhase (i p : Nat) (s : State) : State := uwr R.UPD_BIND_STATE_PHASE i p (modBind i (fun b => { b with phase := p }) s)

/-- POOL_FREE of a binding brought up to date. -/
def showPool (i : Nat) (s : State) : State :=
  match bindAt s i with
  | some b => uwr R.UPD_BIND_POOL_FREE i (b.desc.slots - b.nodes.length) s
  | none => s

/-- The binding of a context on a stack. -/
def bindOn (s : State) (n stack : Nat) : Option Nat :=
  (s.binds.find? (fun e => e.2.desc.ctx == n && e.1 / 4 == stack)).map (fun e => e.1)

/-! ### Groups, shards and records (R217 to R221) -/

/-- A group table entry. -/
def groupAt (d : BindDesc) (u : Nat) : Group := d.groups.getD u ⟨0, 0, false, 0⟩

/-- The first block after a group. -/
def groupEnd (d : BindDesc) (u : Nat) : Nat := match d.groups[u + 1]? with | some g => g.base | none => d.total

/-- The local blocks of a shard part (R218): the first, and the one after the last. -/
def partLo (d : BindDesc) (v u : Nat) : Nat := ((groupAt d u).base + 65535 - v) / 65536
def partHi (d : BindDesc) (v u : Nat) : Nat := (groupEnd d u + 65535 - v) / 65536

/-- The local blocks of a shard part in ascending order. -/
def partBlocks (d : BindDesc) (v u : Nat) : List Nat := (List.range (partHi d v u - partLo d v u)).map (· + partLo d v u)

/-- A shard's table entry. -/
def shardOf (d : BindDesc) (v : Nat) : Option Shard := d.shards.find? (fun h => h.v == v)

/-- The binding of a context that serves shard `v`: on stack v mod 8 (R217), the one whose shard table holds it, else the
first. -/
def bindFor (s : State) (n v : Nat) : Option Nat :=
  match s.binds.find? (fun e => e.2.desc.ctx == n && e.1 / 4 == v % 8 && (shardOf e.2.desc v).isSome) with
  | some e => some e.1
  | none => bindOn s n (v % 8)

/-- Whether one more binding on a stack keeps a polder within its UPD_MAX (R341, R343). -/
def updMaxLets (s : State) (polder stack : Nat) : Bool :=
  let held := (s.binds.filter (fun e => e.1 / 4 == stack && (match ctxOf s e.2.desc.ctx with
    | some x => x.polder == polder
    | none => false))).length
  match mapFind s.polTab polder with
  | some ws => decide (held < wf ws 12 0 3)
  | none => false

/-- Offsets within a record (R219). -/
def offMom (d : BindDesc) : Nat := if d.mw then 8192 else 4096
def offFact (d : BindDesc) : Nat := offMom d + d.nmom * 4096
def offGrad (d : BindDesc) : Nat := offFact d + (if d.fact then 256 else 0)
def offCopy (d : BindDesc) (k : Nat) : Nat := offGrad d + 4096 + k * 2048

/-- The record of a local block of a shard. -/
def recAt (d : BindDesc) (h : Shard) (j : Nat) : Nat := h.base + j * recStride d

/-- The generation word of a shard part (R221). -/
def genAt (h : Shard) (u : Nat) : Nat := h.gen + 8 * u
def genWord (s : State) (h : Shard) (u : Nat) : Nat := dramWord s (genAt h u)
def gwGen (w : Nat) : Nat := bitsOf w 0 32
def gwBuf (w : Nat) : Nat := bitOf w 32
def gwSkip (w : Nat) : Bool := bitSet w 33
def gwUpd (w : Nat) : Bool := bitSet w 34
def gwMake (gen buf : Nat) (skip upd : Bool) : Nat := gen % 2 ^ 32 + buf * 2 ^ 32 + b2n skip * 2 ^ 33 + b2n upd * 2 ^ 34

/-- Whether this module owns a shard under the version that governs step `t` (R298). -/
def ownsAt (s : State) (x : Ctx) (t v : Nat) : Bool :=
  match placeFor x t with
  | some p => memberIdx s p == some (ownerOf p v)
  | none => true

/-- The shard parts of a binding that take part in step `t`: groups ascending, in each the owned shards ascending that
are not LOADING (R220, R231, R312). -/
def partsAt (s : State) (x : Ctx) (b : Binding) (t : Nat) : List (Nat × Nat) :=
  (List.range b.desc.groups.length).flatMap (fun u =>
    (b.desc.shards.filter (fun h => !h.loading && ownsAt s x t h.v)).map (fun h => (h.v, u)))

/-- The step that a shard part reduces or updates next: GEN + 1 (R229). -/
def partStep (s : State) (b : Binding) (v u : Nat) : Nat :=
  match shardOf b.desc v with
  | some h => stepNext (gwGen (genWord s h u))
  | none => 0

/-- The tag of a context's work in a step (R204). -/
def ctxTag (s : State) (n : Nat) (step : Option Nat) : Tag :=
  match ctxOf s n with
  | some x => ⟨n, x.polder, rd s (pgCtx n) R.CTX_STATUS_GEN, x.job, step⟩
  | none => ⟨n, 0, 0, 0, step⟩

/-! ### The binding descriptor (R222) -/

/-- Whether `n` bytes from `a` lie in sections of stack `k`'s own mode 3 sets of class correct (R215). -/
def ownSects (s : State) (k a n : Nat) : Bool :=
  n == 0 || (List.range ((a + n - 1) / 2 ^ 30 - a / 2 ^ 30 + 1)).all (fun i =>
    let e := sectOf s (a / 2 ^ 30 + i)
    decide (a / 2 ^ 30 + i < 512) && e.mode == 3 && e.set == k && e.cls == 0)

/-- The shard table as it stands in memory. -/
def readShards (s : State) (a n : Nat) : List Shard :=
  let ws := dramWords s a (4 * n)
  (List.range n).map (fun i => ⟨wf ws (4 * i) 0 16, wf ws (4 * i) 16 24, wf ws (4 * i) 40 1 == 1, wf ws (4 * i + 1) 0 48,
    wf ws (4 * i + 2) 0 48⟩)

/-- Whether a shard table is in order for stack `k`: reserved fields 0, V ascending and of the stack, places legal. -/
def shardsOk (s : State) (k a n ng stride : Nat) : Bool :=
  let ws := dramWords s a (4 * n)
  let hs := readShards s a n
  (List.range n).all (fun i => wf ws (4 * i) 41 23 == 0 && wf ws (4 * i + 1) 48 16 == 0 && wf ws (4 * i + 2) 48 16 == 0 &&
    wd ws (4 * i + 3) == 0) &&
  (hs.zip (hs.drop 1)).all (fun p => decide (p.1.v < p.2.v)) &&
  hs.all (fun h => h.v % 8 == k && ownSects s k h.base (h.nb * stride) && ownSects s k h.gen (8 * ng))

/-- A binding descriptor as it stands in memory. -/
def readDesc (s : State) (a : Nat) : BindDesc :=
  let h := dramWords s a 8
  let ng := wf h 0 12 9
  let g := dramWords s (a + 64) (2 * (ng + 1))
  { ctx := wf h 0 0 6, mw := wf h 0 8 1 == 1, nmom := wf h 0 9 2, fact := wf h 0 11 1 == 1,
    groups := (List.range ng).map (fun u => ⟨wf g (2 * u) 0 40, wf g (2 * u) 40 8, wf g (2 * u) 48 1 == 1, wf g (2 * u + 1) 0 24⟩),
    total := wf g (2 * ng) 0 40, prog := dramWords s (wf h 1 0 48) (wf h 1 48 16), hyper := wf h 2 0 48,
    table := wf h 3 0 48, shards := readShards s (wf h 3 0 48) (wf h 3 48 16), pool := wf h 4 0 48, slots := wf h 4 48 16,
    mod := wf h 5 0 16, mirror := wf h 6 0 48 }

/-- The bytes of the mirror area of a binding: two slots for every shard part (R236). -/
def mirrorArea (d : BindDesc) : Nat := 2 * d.shards.foldl (fun a h => a + h.nb) 0 * mirBytes d

/-- Whether a binding descriptor, its group table and its shard table pass R215 and R222 on stack `k`. A mirror area on
this very module is one of its slots and stands under R215; one on another module is checked there as it is written. -/
def descGood (s : State) (k a : Nat) : Bool :=
  let h := dramWords s a 8
  let ng := wf h 0 12 9
  let g := dramWords s (a + 64) (2 * (ng + 1))
  let d := readDesc s a
  decide (1 ≤ ng ∧ ng ≤ 256) && wf h 0 6 2 == 0 && wf h 0 21 43 == 0 && decide (d.nmom ≤ 2) &&
    decide (1 ≤ wf h 1 48 16 ∧ wf h 1 48 16 ≤ 512) && wf h 2 48 16 == 0 && decide (wf h 3 48 16 ≤ 8192) && decide (1 ≤ d.slots) &&
    wf h 5 16 48 == 0 && wf h 6 48 16 == 0 && wd h 7 == 0 &&
    (List.range (ng + 1)).all (fun u => decide (wf g (2 * u) 40 8 ≤ 8) && wf g (2 * u) 49 15 == 0 && wf g (2 * u + 1) 24 40 == 0) &&
    (List.range ng).all (fun u => decide (wf g (2 * u) 0 40 < wf g (2 * u + 2) 0 40)) &&
    (ctxOf s d.ctx).isSome && ownSects s k d.pool (4096 * d.slots) &&
    (d.mod != myId s || ownSects s k d.mirror (mirrorArea d)) &&
    shardsOk s k (wf h 3 0 48) (wf h 3 48 16) ng (recStride d)

/-! ### Trains of the engines -/

/-- Bytes cut into pieces of at most `n`, with the offset of each; `fuel` bounds the pieces. -/
def chunks (n : Nat) : Nat → Nat → List (Nat × Bool) → List (Nat × List (Nat × Bool))
  | 0, _, _ => []
  | fuel + 1, o, bs => if bs.isEmpty then [] else (o, bs.take n) :: chunks n fuel (o + n) (bs.drop n)

/-- The trains that carry bytes to an address of an operation (R285, R289). -/
def dataTrains (s : State) (g : Tag) (op vc dst addr arg : Nat) (bs : List (Nat × Bool)) : List Train :=
  (chunks 16100 (bs.length / 16100 + 1) 0 bs).map (fun c => mkTrain s g 0 op vc dst (addr + c.1) arg (framesOf c.2))

/-- V, U and GEN as ARG of MIRROR and RESTORE_REQ trains (R286). -/
def vug (v u gen : Nat) : Nat := v % 65536 + u % 256 * 2 ^ 16 + gen % 2 ^ 32 * 2 ^ 24

/-- The bytes of a record's mirrored parts with their poison marks. -/
def mirrorBytes (s : State) (d : BindDesc) (h : Shard) (j : Nat) : List (Nat × Bool) :=
  let a := recAt d h j
  (dramBulk s a (mirBytes d)).map (fun b => (b, dramPoisoned s a (mirBytes d)))

/-! ### Restore (R235, R240, R241) -/

/-- A shard part held for restore and its restore requested of the mirror partner's engine (R235). -/
def restoreHold (i v u : Nat) (s : State) : State :=
  match bindAt s i with
  | none => s
  | some b =>
    match shardOf b.desc v with
    | none => s
    | some h =>
      if b.restore.contains (v, u) then s
      else
        let n := b.desc.ctx
        let g := ctxTag s n none
        sendTrain (mkTrain s g 0 16 0 b.desc.mod 0 (vug v u (gwGen (genWord s h u))) [])
          (putBind i { b with restore := b.restore ++ [(v, u)] } s)

/-- The parts whose IN_UPD is set when a binding is made valid (R241). -/
def interrupted (s : State) (d : BindDesc) : List (Nat × Nat) :=
  (List.range d.groups.length).flatMap (fun u =>
    (d.shards.filter (fun h => !h.loading && gwUpd (genWord s h u))).map (fun h => (h.v, u)))

/-! ### The node pool (R228) -/

/-- The lowest free slot of a binding's pool. -/
def poolSlot (b : Binding) : Nat :=
  ((List.range (b.nodes.length + 1)).find? (fun i => b.nodes.all (fun x => x.slot != i))).getD 0

/-- A node partial written to a free 4 KiB slot of the pool and kept there. -/
def poolPut (i : Nat) (nd : Node) (s : State) : State :=
  match bindAt s i with
  | none => s
  | some b =>
    let k := poolSlot b
    dramWrite (b.desc.pool + 4096 * k) (nd.vals.flatMap (bytesOf 4)) false
      (putBind i { b with nodes := b.nodes ++ [{ nd with slot := k }] } s)

/-- A node partial of the pool as its slot gives it back: values that the memory returns poisoned are not finite (R163,
R187). -/
def slotNode (s : State) (b : Binding) (nd : Node) : Node :=
  let a := b.desc.pool + 4096 * nd.slot
  let bs := dramBulk s a (4 * nd.vals.length)
  { nd with vals := (List.range nd.vals.length).map (fun i => ofBytes ((bs.drop (4 * i)).take 4)),
            bad := nd.bad || dramPoisoned s a (4 * nd.vals.length) }

/-- A node partial read from its slot and taken out of the pool. -/
def poolTake (i : Nat) (nd : Node) (s : State) : Node × State :=
  match bindAt s i with
  | none => (nd, s)
  | some b =>
    (slotNode s b nd, dramFetch (b.desc.pool + 4096 * nd.slot) (4 * nd.vals.length) (some b.desc.ctx) (some b.sums.step)
      (putBind i { b with nodes := b.nodes.filter (fun x => x != nd), freed := b.freed || !b.stalled.isEmpty } s))

/-! ### Binding (R222) -/

/-- A binding that is made anew. -/
def newBinding (s : State) (x : Ctx) (d : BindDesc) : Binding :=
  { desc := d, phase := 1, nodes := [], series := [], got := [], heldN := [], heldG := [], restore := [], mirWait := [],
    roots := [], sums := .zero (lowestOpen s x), up := false, todo := [], updStep := stepPrev (lowestOpen s x),
    zs := [], since := 0, updSq := 0, crcs := [], passed := stepPrev (lowestOpen s x), hasPassed := true, mirLost := false,
    migOut := [], migSent := [], migIn := [], ckptWait := [], spare := false,
    fastStep := none, fastOff := [], stalled := [], freed := false }

/-- The bits of STATUS.BOUND of a stack. -/
def showBound (k : Nat) (s : State) : State :=
  wr (pgUpd k) R.UPD_STATUS_BOUND ((s.binds.filter (fun e => e.1 / 4 == k)).foldl (fun a e => a + 2 ^ (e.1 % 4)) 0) s

/-- A binding refused (R222): its VALID reads 0 again, the error is context-fatal for the context it names. -/
def bindRefuse (i bit : Nat) (ctx : Nat) (s : State) : State :=
  let n := if (ctxOf s ctx).isSome then some ctx else none
  let s1 := recordErr (pgUpd (i / 4)) bit n (if (bindAt s i).isSome then s else uwr R.UPD_BIND_CTRL_VALID i 0 s)
  workFatal n (errCode .upd bit) s1

/-- Whether a rewritten descriptor may name another mirror partner now (R312): at step boundary T − 1 only. -/
def partnerMay (s : State) (b : Binding) (d : BindDesc) : Bool :=
  d.mod == b.desc.mod || b.mirLost ||
  match ctxOf s d.ctx with
  | some x => [x.placeNext, x.place].any (fun p => match p with | some q => stepNext b.passed == q.eff | none => false)
  | none => false

/-- The whole current generation of every part streamed to a new mirror partner (R237, R317), each awaited. -/
def mirrorTrains (s : State) (b : Binding) (v u : Nat) : List Train :=
  match shardOf b.desc v with
  | none => []
  | some h =>
    let d := b.desc
    let w := genWord s h u
    let g := ctxTag s d.ctx (some (gwGen w))
    let before := (d.shards.takeWhile (fun x => x.v != v)).foldl (fun a x => a + x.nb) 0
    let inner := (List.range u).foldl (fun a y => a + (partHi d v y - partLo d v y)) 0
    let slot := d.mirror + (2 * (before + inner) + gwGen w % 2 * (partHi d v u - partLo d v u)) * mirBytes d
    ((partBlocks d v u).zipIdx).flatMap (fun j =>
      dataTrains s g 8 6 d.mod (slot + j.2 * mirBytes d) (vug v u (gwGen w)) (mirrorBytes s d h j.1)) ++
    [mkTrain s g 0 9 6 d.mod 0 (vug v u (gwGen w)) (framesClean (bytesOf 8 w))]

/-- The reads of the records of a part by its engine, outside an update: an uncorrectable error is noted (R235). -/
def readPart (b : Binding) (v u n : Nat) (s : State) : State :=
  match shardOf b.desc v with
  | none => s
  | some h => (partBlocks b.desc v u).foldl (fun t j =>
      dramFetch (recAt b.desc h j) n (some b.desc.ctx) (some (gwGen (genWord s h u))) t) s

/-- A part's mirror stream sent and its acknowledgement awaited (R236). -/
def mirrorPart (i v u : Nat) (s : State) : State :=
  match bindAt s i with
  | none => s
  | some b =>
    if b.mirLost then s
    else sendSeries (mirrorTrains s b v u) (readPart b v u (mirBytes b.desc)
      (putBind i { b with mirWait := b.mirWait.filter (· != (v, u)) ++ [(v, u)] } s))

/-- Every part of a binding that this module keeps for the step after its last boundary streamed to the mirror partner
(R237, R317). -/
def mirrorAll (i : Nat) (s : State) : State :=
  match bindAt s i with
  | none => s
  | some b => match ctxOf s b.desc.ctx with
    | none => s
    | some x => (partsAt s x b (stepNext b.passed)).foldl (fun t p => mirrorPart i p.1 p.2 t) s

/-- A descriptor of a valid binding replaced (R312): what the engine holds stays. -/
def rebind (i : Nat) (b : Binding) (d : BindDesc) (s : State) : State :=
  let s1 := putBind i { b with desc := d, mirLost := false, migIn := [] } s
  if d.mod ≠ b.desc.mod then mirrorAll i s1 else s1

/-- What a binding's registers show at the start of a job (R226, R270): where its context has made no step yet, no committed
step and no checksum. A binding that is made again within a job goes on from what they hold. -/
def freshCounts (s0 : State) (i : Nat) (x : Ctx) (s : State) : State :=
  if lowestOpen s0 x = startStep s0 x then uwr R.UPD_BIND_OPT_COUNT i 0 (uwr R.UPD_BIND_SHARD_CRC i 0 s) else s

/-- BIND.VALID applied (R222, R241): the descriptor and image are checked, the generation words scanned. -/
def doBind (i : Nat) (s : State) : State :=
  let a := urd s R.UPD_BIND_DESC i % 2 ^ 48
  let d := readDesc s a
  let s0 := dramFetch a (80 + 16 * d.groups.length) (some d.ctx) none s
  let p := pgUpd (i / 4)
  checked p 0 (!descGood s (i / 4) a) (bindRefuse i 0 d.ctx) (checked p 1 (!progOk d.prog d.nmom d.fact) (bindRefuse i 1 d.ctx)
    (fun s0 => match bindAt s i, ctxOf s d.ctx with
      | some b, _ => if d.ctx = b.desc.ctx ∧ partnerMay s b d then rebind i b d s0 else bindRefuse i 0 d.ctx s0
      | none, some x =>
        if !updMaxLets s x.polder (i / 4) then bindRefuse i 0 d.ctx s0
        else
          let parts := interrupted s d
          let s1 := freshCounts s i x (showPool i (setPhase i 1 (showBound (i / 4) (putBind i (newBinding s x d) s0))))
          let s2 := uwr R.UPD_BIND_STEP i (lowestOpen s x) (uwr R.UPD_BIND_STATE_RESTORE i (min parts.length 65535) s1)
          parts.foldl (fun t p => restoreHold i p.1 p.2 t) s2
      | none, none => bindRefuse i 0 d.ctx s0)) s0

/-- A binding ends (R242): its pool, held contributions and held gathers are discarded, VALID is cleared. -/
def unbind (i : Nat) (s : State) : State :=
  match bindAt s i with
  | none => s
  | some b =>
    let s1 := (b.heldN ++ b.heldG ++ b.stalled).foldl (fun t h => freeTrain h.1 h.2 t) { s with binds := mapDel s.binds i }
    showBound (i / 4) (uwr R.UPD_BIND_CTRL_VALID i 0 (uwr R.UPD_BIND_STATE_PHASE i 0 s1))

/-! ### The update of a step (R231, R232) -/

/-- Whether a shard part may be updated now (R231 step 2): it is the next in order, its mirror of the step before is
acknowledged, checkpoint writes are done, and neither a restore nor HOLD nor a held context keeps it. -/
def mayUpdate (s : State) (i : Nat) (b : Binding) (v u : Nat) : Bool :=
  (b.phase == 4 || b.phase == 3) && b.todo.head? == some (v, u) && (b.mirLost || !b.mirWait.contains (v, u)) &&
    !b.ckptWait.contains (v, u) && !b.restore.contains (v, u) && rd s (pgUpd (i / 4)) R.UPD_CTRL_HOLD == 0 &&
    !isHeld s b.desc.ctx && !(b.crcs.any (fun c => c.1 == (v, u)))

/-- A block's state as the bodies see it. -/
def readBlock (s : State) (d : BindDesc) (h : Shard) (j : Nat) : Block :=
  let a := recAt d h j
  let els (o n w : Nat) : List Nat :=
    let bs := dramBulk s (a + o) (n * w)
    (List.range n).map (fun i => ofBytes ((bs.drop (w * i)).take w))
  { mw := d.mw, mas := els 0 1024 (if d.mw then 8 else 4),
    mom1 := if 1 ≤ d.nmom then els (offMom d) 1024 4 else [], mom2 := if 2 ≤ d.nmom then els (offMom d + 4096) 1024 4 else [],
    fact := if d.fact then els (offFact d) 64 4 else [], grad := els (offGrad d) 1024 4 }

/-- The bytes of a block's mirrored parts (R219, R239). -/
def blockBytes (b : Block) : List Nat :=
  b.mas.flatMap (bytesOf (if b.mw then 8 else 4)) ++ b.mom1.flatMap (bytesOf 4) ++ b.mom2.flatMap (bytesOf 4) ++
    b.fact.flatMap (bytesOf 4)

/-- One block's update written (R231 steps 3 and 4), with the bytes that its CRC takes and its UPD_SQ. -/
def passBlock (d : BindDesc) (h : Shard) (zs : List Nat) (seed t u buf j : Nat) (s : State) :
    (List Nat × Int) × State :=
  let old := readBlock s d h j
  let p0 := (h.v + j * 65536) * 1024
  let new := updateBlock [seed, t, p0] d.prog d.nmom d.fact zs old
  let dz := ((old.mas.zip new.mas)).foldl (fun z m =>
    z + (deltaSq d.mw m.1 m.2).getD (unstatedOf 81 [m.1, m.2])) 0
  let cp := copyOf d.mw (groupAt d u).cfmt seed (groupAt d u).tid t p0 new.mas
  let bytes := blockBytes { new with mom1 := if 1 ≤ d.nmom then new.mom1 else [], mom2 := if 2 ≤ d.nmom then new.mom2 else [],
                                     fact := if d.fact then new.fact else [] }
  let s1 := dramWrite (recAt d h j + offCopy d buf) cp false
    (dramWrite (recAt d h j) bytes false (dramFetch (recAt d h j) (offGrad d + 4096) (some d.ctx) (some t) s))
  ((bytes, dz), s1)

/-- The blocks of a part updated in turn; it stops at the first whose record cannot be read (R240). Answers whether it
got to the end. -/
def passBlocks (d : BindDesc) (h : Shard) (zs : List Nat) (seed t u buf : Nat) :
    List Nat → (List Nat × Int) → State → (Bool × (List Nat × Int)) × State
  | [], acc, s => ((true, acc), s)
  | j :: js, acc, s =>
    if dramPoisoned s (recAt d h j) (offGrad d + 4096) then
      ((false, acc), dramFetch (recAt d h j) (offGrad d + 4096) (some d.ctx) (some t) s)
    else
      let r := passBlock d h zs seed t u buf j s
      passBlocks d h zs seed t u buf js (acc.1 ++ r.1.1, acc.2 + r.1.2) r.2

/-- The update pass of a shard part (R231 steps 2 to 4, R240). A frozen group writes no data. -/
def updatePass (i v u : Nat) (s : State) : State :=
  match bindAt s i with
  | none => s
  | some b =>
    match shardOf b.desc v, ctxOf s b.desc.ctx with
    | some h, some x =>
      if !mayUpdate s i b v u then s
      else
        let d := b.desc
        let w := genWord s h u
        let t := b.updStep
        let s1 := countE (pgPerf (i / 8)) 0xD0 (i / 4 % 2) 1 (some d.ctx)
          (setPhase i 4 (dramPutWord (genAt h u) (gwMake (gwGen w) (gwBuf w) (gwSkip w) true) s))
        if (groupAt d u).frozen then
          let bytes := (partBlocks d v u).flatMap (fun j => dramBulk s (recAt d h j) (mirBytes d))
          modBind i (fun b => { b with crcs := b.crcs ++ [((v, u), crc64 bytes)] }) s1
        else
          let r := passBlocks d h b.zs x.seed t u (1 - gwBuf w) (partBlocks d v u) ([], 0) s1
          if r.1.1 then
            modBind i (fun b => { b with crcs := b.crcs ++ [((v, u), crc64 r.1.2.1)], updSq := b.updSq + r.1.2.2 }) r.2
          else restoreHold i v u (setPhase i 6 r.2)
    | _, _ => s

/-! ### Commit (R231 steps 5 and 6, R239) -/

/-- Whether a step is a checkpoint step of a context (R429). -/
def ckptStep (s : State) (n t : Nat) : Bool :=
  let c := rdi s pgEmb R.EMB_CKPT_C n
  match ctxOf s n with
  | some x => decide (0 < c) && (t + 2 ^ 32 - startStep s x) % 2 ^ 32 % c == c - 1
  | none => false

/-- The outer link of a context's checkpoints (R429). -/
def ckptLink (s : State) (n : Nat) : Nat := 28 + rdi s pgEmb R.EMB_CKPT_LINK n

/-- Whether a FROZEN group's parts are written with this checkpoint (R430): the context's first, as LAST_STEP shows. -/
def firstCkpt (s : State) (n : Nat) : Bool := rdi s pgEmb R.EMB_CKPT_LAST_STEP n == 0

/-- A committed part's checkpoint writes posted (R430). -/
def postCkpt (i v u t : Nat) (s : State) : State :=
  match bindAt s i with
  | none => s
  | some b =>
    let n := b.desc.ctx
    if !ckptStep s n t then s
    else if (groupAt b.desc u).frozen && !firstCkpt s n then s
    else
      putBind i { b with ckptWait := b.ckptWait ++ [(v, u)] }
        { wri pgEmb R.EMB_CKPT_PENDING n t s with
          ckpts := s.ckpts ++ [⟨ckptLink s n, rdi s pgEmb R.EMB_CKPT_QP n, n, i, some (v, u), t, []⟩] }

/-- The XOR of the CRCs of a step's parts (R239). -/
def xorCrcs (l : List ((Nat × Nat) × Nat)) : Nat := l.foldl (fun a c => a ^^^ c.2) 0

/-- The shard table with LOADING as memory has it now (R234). -/
def reload (s : State) (b : Binding) : List Shard :=
  let now := readShards s b.desc.table b.desc.shards.length
  b.desc.shards.map (fun h => match now.find? (fun y => y.v == h.v) with
    | some y => { h with loading := y.loading }
    | none => h)

/-- Whether every binding of a stack stands at a step boundary (R243): it has decided the step that it updated last and the
next one is still being reduced. -/
def bindsRest (s : State) (k : Nat) : Bool :=
  (s.binds.filter (fun e => e.1 / 4 == k)).all (fun e => e.2.phase == 5 || e.2.phase == 1)

/-- A binding passes its step boundary (R263): its WB fields and the page's CTRL apply, LOADING is read anew (R234). -/
def bindBoundary (i t : Nat) (s : State) : State :=
  let p := pgUpd (i / 4)
  let n := i % 4
  let mine (o : Nat) : Bool := (o == 0x10 && bindsRest s (i / 4)) || decide (0x100 + n * 0x80 ≤ o ∧ o < 0x180 + n * 0x80)
  let s1 := modBind i (fun b =>
    let hs := reload s b
    { b with passed := t, hasPassed := true, desc := { b.desc with shards := hs },
             migIn := b.migIn.filter (fun p => hs.any (fun h => h.v == p.1 && h.loading)) }) s
  if (pendOffs s1 p).any (fun e => mine e.1) then
    let was := urd s1 R.UPD_BIND_CTRL_VALID i
    let desc := (pendAt s1 p (0x100 + n * 0x80)).isSome
    let s2 := bump p R.HEADER_BOUNDARY_CNT_COUNT 1 (applySel p mine s1)
    let s3 := if urd s2 R.UPD_BIND_CTRL_SHARE i = 0 then uwr R.UPD_BIND_CTRL_SHARE i 1 s2 else s2
    if urd s3 R.UPD_BIND_CTRL_VALID i = 0 then unbind i s3
    else if was = 0 ∨ desc then doBind i s3 else s3
  else s1

/-- E of a context (R166, R247); with LS_EN = 0 it stays 0 (R165). -/
def lossE (s : State) (x : Ctx) : Int := if x.lsEn = 0 then 0 else signedOf 8 (bitsOf (blockWord s x 10) 0 8)

/-- E of the context of a binding. -/
def bindLoss (s : State) (b : Binding) : Int := match ctxOf s b.desc.ctx with | some x => lossE s x | none => 0

/-- A binding that has decided every part of its step (R231, R232, R263). -/
def bindDone (i : Nat) (skipped : Bool) (s : State) : State :=
  match bindAt s i with
  | none => s
  | some b =>
    let t := b.updStep
    let s1 := if skipped then s else
      uwr R.UPD_BIND_UPD_SQ i (jobValue b.updSq (bindLoss s b) false) (uwr R.UPD_BIND_UPD_TICKS i (tickOf s - b.since)
        (uwr R.UPD_BIND_SHARD_CRC i (xorCrcs b.crcs) (uwr R.UPD_BIND_OPT_COUNT i (urd s R.UPD_BIND_OPT_COUNT i + 1) s)))
    bindBoundary i t (setPhase i 5 s1)

/-- SHARD_COMMIT (R231 steps 5 and 6): the part whose blocks are written is committed and its mirror streamed. -/
def shardCommit (i v u : Nat) (s : State) : State :=
  match bindAt s i with
  | none => s
  | some b =>
    match shardOf b.desc v with
    | none => s
    | some h =>
      if b.todo.head? ≠ some (v, u) ∨ !(b.crcs.any (fun c => c.1 == (v, u))) ∨ b.phase ≠ 4 then s
      else
        let w := genWord s h u
        let frozen := (groupAt b.desc u).frozen
        let w' := if frozen then gwMake b.updStep (gwBuf w) true false else gwMake b.updStep (1 - gwBuf w) false false
        let s1 := putBind i { b with todo := b.todo.drop 1, roots := b.roots.filter (fun r => r.1 != v + 65536 * u),
                                     got := b.got.filter (fun g => g.1 % 2 ^ 24 != v + 65536 * u) }
          (dramPutWord (genAt h u) w' s)
        let s2 := postCkpt i v u b.updStep (mirrorPart i v u s1)
        match bindAt s2 i with
        | some c => if c.todo.isEmpty then bindDone i false s2
          else match c.todo.head? with
            | some q => if c.mirWait.contains q && !c.mirLost then setPhase i 3 s2 else s2
            | none => s2
        | none => s2

/-- A step skipped by a binding (R232). -/
def bindSkip (i : Nat) (parts : List (Nat × Nat)) (s : State) : State :=
  let s1 := parts.foldl (fun t p =>
    match bindAt t i with
    | some b => match shardOf b.desc p.1 with
      | some h =>
        let w := genWord t h p.2
        let t1 := dramPutWord (genAt h p.2) (gwMake b.updStep (gwBuf w) true (gwUpd w)) t
        let g := ctxTag t b.desc.ctx (some b.updStep)
        if b.mirLost then t1
        else sendTrain (mkTrain t g 0 10 6 b.desc.mod 0 (vug p.1 p.2 b.updStep) [])
          (putBind i { b with mirWait := b.mirWait.filter (· != p) ++ [p] } t1)
      | none => t
    | none => t) s
  bindDone i true (modBind i (fun b => { b with todo := [], roots := [], got := [], updSq := 0 }) s1)

end Sys2Proof.Machine
end

