-- ==== Sys2Proof/Machine/UpdNet.lean ====
section
/-!
DEFINITION. What the update engines do with trains: contributions (R228 to R230), gathers (R233, R301, R315), scatters
(R234, R314), mirror streams and restores (R235, R236), and the migration of shards (R313, R318).
-/

namespace Sys2Proof.Machine

/-! ### Contributions (R228, R229) -/

/-- The fields of a NODE train (R286). -/
def nV (t : Train) : Nat := bitsOf t.arg 0 16
def nU (t : Train) : Nat := bitsOf t.arg 16 8
def nLevel (t : Train) : Nat := bitsOf t.arg 24 5
def nFast (t : Train) : Bool := bitSet t.arg 29
def nGp (t : Train) : Bool := bitSet t.arg 30
def nA (t : Train) : Nat := bitsOf t.arg 32 20
def nE (t : Train) : Nat := bitsOf t.addr 24 10 + bitsOf t.arg 52 12 * 1024
def nJ (t : Train) : Nat := bitsOf t.addr 0 24
def nXid (t : Train) : Nat := bitsOf t.addr 34 14

/-- LG of a context (R247). -/
def lgOf (s : State) (x : Ctx) : Nat := bitsOf (blockWord s x 0) 6 4

/-- The permit for fast unordered reduction in force for a context (R177). -/
def fastPermit (s : State) (n : Nat) : Bool := takenRd s pgRng s.rngTaken n R.RNG_CTRL_FAST_UNORDERED_PERMIT == 1

/-- The number under which a shard part, and a block of it, is filed. -/
def partKey (v u : Nat) : Nat := v + 65536 * u
def blockKey (v u j : Nat) : Nat := partKey v u + 2 ^ 24 * j

/-- The number under which a node is filed. -/
def nodeKey (level a : Nat) : Nat := level * 2 ^ 21 + a

/-- One group's partial added to GROUP_SQ where all its leaves are present (R238); one that is not finite adds a
value that the spec does not state (log 37). -/
def addGroup (i b lg g p : Nat) (s : State) : State :=
  if b < (g + 1) * 2 ^ lg then s
  else match fixOf (decodeNum .fp32 p) with
    | some z => modBind i (fun k => { k with sums := { k.sums with groupSq := k.sums.groupSq + z } }) s
    | none => modBind i (fun k => { k with sums := { k.sums with groupSq := k.sums.groupSq + unstatedOf 80 [p] } }) s

/-- A node of level LG formed here or received gives its block partial (R238). -/
def groupNode (i b lg : Nat) (nd : Node) (s : State) : State :=
  if nd.level = lg then addGroup i b lg (nd.a / 2 ^ lg) (blockPartial nd.vals) s else s

/-- A block's root is formed (R230): it stays in the pool until its shard part is complete. -/
def rootFormed (i : Nat) (nd : Node) (s : State) : State :=
  modBind i (fun k => { k with
    roots := k.roots ++ [(partKey nd.v nd.u, nd.j)],
    sums := { k.sums with overflow := k.sums.overflow || nd.bad } }) (poolPut i { nd with level := 64 } s)

/-- The sibling of a node in the pool. -/
def siblingOf (k : Binding) (nd : Node) : Option Node :=
  let a := if nd.a / 2 ^ nd.level % 2 = 0 then nd.a + 2 ^ nd.level else nd.a - 2 ^ nd.level
  k.nodes.find? (fun x => x.v == nd.v && x.u == nd.u && x.j == nd.j && x.level == nd.level && x.a == a)

/-- Whether the sibling of a node lies beyond the `b` leaves of the step, so that the node passes up (R161). -/
def aloneIn (b : Nat) (nd : Node) : Bool := nd.a / 2 ^ nd.level % 2 == 0 && decide (b ≤ nd.a + 2 ^ nd.level)

/-- Whether a node value takes one more slot of the pool (R228): it becomes the root, or waits for its sibling. -/
def needsSlot (k : Binding) (b : Nat) : Nat → Node → Bool
  | 0, _ => false
  | n + 1, nd =>
    if nd.level = treeLevels b then true
    else if aloneIn b nd then needsSlot k b n { nd with level := nd.level + 1 }
    else (siblingOf k nd).isNone

/-- A node value placed in the tree of a step of `b` leaves (R159, R161, R228): it is the root, or passes up where its
sibling is absent, or combines with its sibling, or waits in the pool; `n` bounds the levels. -/
def placeNode (i b lg : Nat) : Nat → Node → State → State
  | 0, _, s => s
  | n + 1, nd, s =>
    match bindAt s i with
    | none => s
    | some k =>
      if nd.level = treeLevels b then rootFormed i nd s
      else if aloneIn b nd then placeNode i b lg n { nd with level := nd.level + 1 } s
      else match siblingOf k nd with
        | none => poolPut i nd s
        | some sb =>
          let q := poolTake i sb s
          let l := if nd.a < sb.a then nd else q.1
          let r := if nd.a < sb.a then q.1 else nd
          let vals := addBlock l.vals r.vals
          let up : Node := { nd with level := nd.level + 1, a := l.a, vals := vals, bad := l.bad || r.bad || badBlock vals }
          placeNode i b lg n up (groupNode i b lg up q.2)

/-- The running sum of a block whose contributions are added in arrival order. -/
def fastSum (k : Binding) (nd : Node) : Option Node :=
  k.nodes.find? (fun x => x.v == nd.v && x.u == nd.u && x.j == nd.j && x.level == 63)

/-- A contribution marked fast unordered, added in arrival order (R176, R304); level 63 marks the running sum, whose `a`
counts the leaves that it covers. -/
def placeFast (i b lg : Nat) (nd : Node) (s : State) : State :=
  match bindAt s i with
  | none => s
  | some k =>
    let covers := min (2 ^ nd.level) (b - nd.a)
    let r : Node × State := match fastSum k nd with
      | some o =>
        let q := poolTake i o s
        let vals := addBlock q.1.vals nd.vals
        ({ q.1 with a := o.a + covers, vals := vals, bad := q.1.bad || nd.bad || badBlock vals }, q.2)
      | none => ({ nd with level := 63, a := covers }, s)
    let s1 := modBind i (fun k => { k with fastStep := some k.sums.step }) r.2
    if b ≤ r.1.a then rootFormed i r.1 s1 else poolPut i r.1 (groupNode i b lg nd s1)

/-- Whether every block of a shard part has its root (R230). -/
def partRooted (b : Binding) (v u : Nat) : Bool :=
  decide ((b.roots.filter (fun r => r.1 == partKey v u)).length = partHi b.desc v u - partLo b.desc v u)

/-- The elements of a block read from `a` that are not finite: those that come back poisoned count among them (R163,
R187, R238). -/
def badAt (s : State) (a : Nat) (vals : List Nat) : Nat :=
  (vals.zipIdx.filter (fun p => nonFinite .fp32 p.1 || dramPoisoned s (a + 4 * p.2) 4)).length

/-- A block's root read from its slot of the pool and written to its record, with its statistics (R230, R238). -/
def writeRoot (i : Nat) (h : Shard) (nd : Node) (s : State) : State :=
  match bindAt s i with
  | none => s
  | some b =>
    let a := b.desc.pool + 4096 * nd.slot
    let q := poolTake i nd s
    modBind i (fun k => { k with sums := { k.sums with
      gradSq := k.sums.gradSq + gradSum q.1.vals, nonfinite := k.sums.nonfinite + badAt s a q.1.vals,
      overflow := k.sums.overflow || q.1.bad } })
      (dramWrite (recAt b.desc h nd.j + offGrad b.desc) (q.1.vals.flatMap (bytesOf 4)) (dramPoisoned s a 4096) q.2)

/-- The roots of a complete shard part written to its records (R230). -/
def writeRoots (i v u : Nat) (s : State) : State :=
  match bindAt s i with
  | none => s
  | some b =>
    match shardOf b.desc v with
    | none => s
    | some h =>
      let mine := b.nodes.filter (fun x => x.level == 64 && x.v == v && x.u == u)
      showPool i (mine.foldl (fun t nd => writeRoot i h nd t) s)

/-- The words of a train's body as FP32 values. -/
def bodyWords (t : Train) : List Nat :=
  let bs := bodyNats t
  (List.range (bs.length / 4)).map (fun i => ofBytes ((bs.drop (4 * i)).take 4))

/-- The elements of a NODE train's body that came in poisoned frames (R291), in records of `len` words: the level-LG
partials behind the 1,024 values of a record are no elements. -/
def poisonWords (len : Nat) (t : Train) : Nat :=
  (t.bodies.foldl (fun (p : Nat × Nat) b =>
    let n := b.bytes.length / 4
    (p.1 + n, if b.poison then p.2 + ((List.range n).filter (fun i => decide ((p.1 + i) % len < 1024))).length else p.2))
    (nE t, 0)).2

/-- The words of a block's record in a NODE series (R303). -/
def nodeWords (lg : Nat) (t : Train) : Nat := 1024 + (if nGp t && decide (lg ≤ nLevel t) then 2 ^ (nLevel t - lg) else 0)

/-- Whether a complete block of a contribution finds no slot in the pool (R228); a second value of a node needs none. -/
def poolFull (i b : Nat) (t : Train) (j : Nat) (fast : Bool) (s : State) : Bool :=
  match bindAt s i with
  | none => false
  | some k =>
    let nd : Node := ⟨nV t, nU t, j, nLevel t, nA t, [], false, 0⟩
    decide (k.desc.slots ≤ k.nodes.length) && !k.got.contains (blockKey (nV t) (nU t) j, nodeKey (nLevel t) (nA t)) &&
      (if fast then (fastSum k nd).isNone else needsSlot k b 40 nd)

/-- One complete block of a contribution (R228, R229): a second value for a node is UPD_NODE_DUP. Answers whether it was
taken. -/
def nodeBlock (i b lg : Nat) (t : Train) (j : Nat) (ws : List Nat) (bad fast : Bool) (s : State) : Bool × State :=
  let v := nV t
  let u := nU t
  match bindAt s i with
  | none => (false, s)
  | some k =>
    let key := (blockKey v u j, nodeKey (nLevel t) (nA t))
    let r := checkFor (pgUpd (i / 4)) 2 (k.got.contains key) s
    if r.1 then (false, stepFatal k.desc.ctx (errCode .upd 2) (some t.step) (recordErr (pgUpd (i / 4)) 2 (some k.desc.ctx) r.2))
    else
      let vals := ws.take 1024
      let nd : Node := ⟨v, u, j, nLevel t, nA t, vals, bad || badBlock vals, 0⟩
      let s1 := modBind i (fun k => { k with got := k.got ++ [key] }) r.2
      let s2 := if 1024 < ws.length then
          ((ws.drop 1024).zipIdx).foldl (fun w p => addGroup i b lg (nA t / 2 ^ lg + p.2) p.1 w) s1
        else groupNode i b lg nd s1
      (true, if fast then placeFast i b lg nd s2 else placeNode i b lg 40 nd s2)

/-- The complete blocks at the front of a series taken in turn, until one finds no slot in the pool; `n` bounds them.
Answers the next block, the words that are left and whether the pool is full; none after UPD_NODE_DUP. -/
def nodeBlocks (i b lg : Nat) (t : Train) (len : Nat) (bad fast : Bool) :
    Nat → Nat → List Nat → State → (Option (Nat × List Nat × Bool)) × State
  | 0, j, ws, s => (some (j, ws, false), s)
  | n + 1, j, ws, s =>
    if ws.length < len then (some (j, ws, false), s)
    else if poolFull i b t j fast s then (some (j, ws, true), s)
    else
      let r := nodeBlock i b lg t j (ws.take len) bad fast s
      if r.1 then nodeBlocks i b lg t len bad fast n (j + 1) (ws.drop len) r.2 else (none, r.2)

/-- A WRITE_ACK to the sender of a series or write (R204, R229). -/
def ackTrain (n : Nat) (t : Train) (xid : Nat) (s : State) : State :=
  sendTrain (mkTrain s (ctxTag s n (if t.stepValid then some t.step else none)) 0 3 1 t.src 0 (xid % 2 ^ 14) []) s

/-- The DENY that answers a request, and that DENY sent (R204, R286). -/
def denialOf (s : State) (n : Option Nat) (t : Train) (xid code : Nat) : Train :=
  let g : Tag := match n with | some c => ctxTag s c none | none => ⟨0, 0, 0, t.job, none⟩
  mkTrain s g 0 15 1 t.src 0 (xid % 2 ^ 14 + code % 2 ^ 16 * 2 ^ 16) []
def denyTrain (n : Option Nat) (t : Train) (xid code : Nat) (s : State) : State := sendTrain (denialOf s n t xid code) s

/-- Whether the last word of a series for a shard part lies in a train. -/
def seriesEnds (b : Binding) (t : Train) (len : Nat) : Bool :=
  decide ((partHi b.desc (nV t) (nU t) - nJ t) * len ≤ nE t + (bodyNats t).length / 4)

/-- A binding's statistics partials as its registers show them (R243). -/
def showSums (i : Nat) (e : Int) (m : Sums) (s : State) : State :=
  uwr R.UPD_BIND_GRAD_SQ i (jobValue m.gradSq e (decide (0 < m.nonfinite)))
    (uwr R.UPD_BIND_UPD_SQ i (jobValue m.updSq e false)
      (uwr R.UPD_BIND_GROUP_SQ i (jobValue m.groupSq e (decide (0 < m.nonfinite))) (uwr R.UPD_BIND_NONFINITE i m.nonfinite s)))


/-- Whether a binding has everything of step `t` that goes up (R230): the step is planned, and every owned part stands at
GEN = t − 1 with all its roots, or has no block; no owned shard is LOADING. -/
def bindComplete (s : State) (x : Ctx) (b : Binding) : Bool :=
  let t := b.sums.step
  !b.up && (planOf x t).isSome &&
    (partsAt s x b t).all (fun p => partStep s b p.1 p.2 == t && partRooted b p.1 p.2 && !b.restore.contains p) &&
    b.desc.shards.all (fun h => !(h.loading && ownsAt s x t h.v))

/-- A complete binding's sums as they go up (R230, R238, R305). -/
def bindSums (s : State) (x : Ctx) (i : Nat) (b : Binding) : Sums :=
  let t := b.sums.step
  let n := match planOf x t with | some p => p.b / 2 ^ lgOf s x | none => 0
  { b.sums with noncanon := b.fastStep == some t, groupN := if (partsAt s x b t).isEmpty then 0 else n, updSq := b.updSq, crc := urd s R.UPD_BIND_SHARD_CRC i }

/-- ROOTS_FORMED (R230): a binding that is complete hands its verdict and sums to the context. -/
def rootsUp (i : Nat) (s : State) : State :=
  match bindAt s i with
  | none => s
  | some b =>
    match ctxOf s b.desc.ctx with
    | none => s
    | some x =>
      if !bindComplete s x b then s
      else
        let m := bindSums s x i b
        let s1 := showSums i (lossE s x) m (putBind i { b with up := true } s)
        let s2 := if b.phase = 1 ∨ b.phase = 5 then setPhase i 2 s1 else s1
        modCtx b.desc.ctx (fun x => { x with ups := x.ups.filter (fun e => e.1 != 65536 + i / 4) ++ [(65536 + i / 4, m)] }) s2

/-- A contribution marked fast unordered that runs in canonical order because the permit is 0 (R176): the reduction of
its shard part is counted once in a step. -/
def fastRefused (i n : Nat) (t : Train) (s : State) : State :=
  match bindAt s i with
  | some k =>
    let p := partKey (nV t) (nU t)
    if nFast t && !fastPermit s n && !k.fastOff.contains p then
      bumpSat pgRng R.RNG_NONCANON_CNT 1 (putBind i { k with fastOff := p :: k.fastOff } s)
    else s
  | none => s

/-- Whether a train is one of a series that a binding has begun to take. -/
def sameSeries (t : Train) (x : Series) : Bool :=
  x.src == t.src && x.v == nV t && x.u == nU t && x.level == nLevel t && x.a == nA t

/-- Whether two NODE trains are of one series. -/
def seriesMate (a b : Train) : Bool :=
  a.src == b.src && nV a == nV b && nU a == nU b && nLevel a == nLevel b && nA a == nA b

/-- A NODE train that came on link `c` reduced (R228 to R230). One whose next block finds no slot in the pool is held at
the credits with what it has left, and tried again (`fresh` false) once slots are free. -/
def nodeTake (i n b lg c : Nat) (fresh : Bool) (t : Train) (sa : State) : State :=
  let s := if fresh then fastRefused i n t sa else sa
  match bindAt s i with
  | none => s
  | some k =>
    let len := nodeWords lg t
    let old := k.series.find? (sameSeries t)
    let s0 := putBind i { k with series := k.series.filter (fun x => !sameSeries t x),
                                 sums := { k.sums with
                                   nonfinite := k.sums.nonfinite + if fresh then poisonWords len t else 0 } } s
    let words := (match old with | some o => o.words | none => []) ++ if fresh then bodyWords t else []
    let bad := (match old with | some o => o.bad | none => false) || trainBad t
    let j0 := match old with | some o => o.j | none => nJ t
    let r := nodeBlocks i b lg t len bad (nFast t && fastPermit s n) (words.length / len + 1) j0 words s0
    match r.1 with
    | none => showPool i r.2
    | some (j, rest, full) =>
      let s1 := if rest.isEmpty then r.2
        else modBind i (fun k => { k with series := k.series ++ [⟨t.src, nV t, nU t, nLevel t, nA t, j, rest, bad⟩] }) r.2
      let s2 := if full then modBind i (fun k => { k with stalled := k.stalled ++ [(c, t)] }) (holdTrain c t s1)
        else if partHi k.desc (nV t) (nU t) ≤ j ∧ rest.isEmpty then ackTrain n t (nXid t) s1 else s1
      let s3 := match bindAt s2 i with
        | some b => if partRooted b (nV t) (nU t) then writeRoots i (nV t) (nU t) s2 else s2
        | none => s2
      let s4 := if fresh then countE (pgPerf (i / 8)) 0xD1 (i / 4 % 2) 1 (some n) s3 else s3
      rootsUp i (showPool i (uwr R.UPD_BIND_STEP i t.step s4))

/-- A contribution held at the credits (R228, R229). -/
def holdNode (i k : Nat) (t : Train) (s : State) : State :=
  modBind i (fun b => { b with heldN := b.heldN ++ [(k, t)] }) (holdTrain k t s)

/-- Whether reductions of a binding wait (R235, R243, R263). -/
def reduceWaits (s : State) (i n : Nat) (b : Binding) (h : Shard) (u : Nat) : Bool :=
  h.loading || b.restore.contains (h.v, u) || rd s (pgUpd (i / 4)) R.UPD_CTRL_HOLD == 1 || isHeld s n

/-- NODE (R228, R229): a contribution that arrived on link `k` is reduced, held or discarded by its step tag; a held context
holds every one (R263). A contribution to a shard of no binding here is discarded. -/
def nodeIn (k : Nat) (t : Train) (s : State) : State :=
  match (ctxOfJob s t.job).bind (fun n => (bindFor s n (nV t)).map (fun i => (n, i))) with
  | none => s
  | some (n, i) =>
    match bindAt s i, ctxOf s n with
    | some b, some x =>
      match shardOf b.desc (nV t) with
      | none => s
      | some h =>
        let gen := gwGen (genWord s h (nU t))
        if isHeld s n then holdNode i k t s
        else if stepLe t.step gen && !h.loading then
          let s1 := uwr R.UPD_BIND_LATE_DROP i (min (urd s R.UPD_BIND_LATE_DROP i + 1) (2 ^ 32 - 1)) s
          if seriesEnds b t (nodeWords (lgOf s x) t) then ackTrain n t (nXid t) s1 else s1
        else match planOf x t.step with
          | none => holdNode i k t s
          | some p =>
            if t.step ≠ stepNext gen ∨ reduceWaits s i n b h (nU t) ∨ b.stalled.any (fun e => seriesMate e.2 t) then
              holdNode i k t s
            else nodeTake i n p.b (lgOf s x) k true t s
    | _, _ => s

/-- A contribution that was taken in part tried again (R228). -/
def nodeAgain (i k : Nat) (t : Train) (s : State) : State :=
  match bindAt s i with
  | none => s
  | some b =>
    match shardOf b.desc (nV t), (ctxOf s b.desc.ctx).bind (fun x => (planOf x t.step).map (fun p => (x, p))) with
    | some h, some (x, p) =>
      if reduceWaits s i b.desc.ctx b h (nU t) then putBind i { b with stalled := b.stalled ++ [(k, t)] } (holdTrain k t s)
      else nodeTake i b.desc.ctx p.b (lgOf s x) k false t s
    | _, _ => s

/-! ### Gathers (R233, R301, R315) -/

/-- GEN and MCAST of a gather. -/
def gGen (t : Train) : Nat := bitsOf t.arg 24 32
def gMcast (t : Train) : Bool := bitSet t.arg 56

/-- The walk that a gather request carries, as a descriptor's 32-bit words. -/
def gWalk (t : Train) : List Nat :=
  let bs := (bodyNats t).drop 8
  (List.range 16).map (fun i => ofBytes ((bs.drop (4 * i)).take 4))

/-- J_FIRST, K and the completion tally of a gather request. -/
def gJ (t : Train) : Nat := bitsOf (bodyWord t 0) 0 24
def gK (t : Train) : Nat := bitsOf (bodyWord t 9) 0 24
def gTally (t : Train) : Nat := bitsOf (bodyWord t 10) 0 48

/-- The modules next to this member in the broadcast tree (R301). -/
def treeModules (s : State) (p : Place) : List Nat :=
  match memberIdx s p with
  | some i =>
    let up := match memberAt p i with | some m => if m.parent = i then [] else [moduleOf p m.parent] | none => []
    up ++ (childrenOf p i).map (moduleOf p)
  | none => []

/-- Whether this module takes micro-batches of a job (R301). -/
def isDp (s : State) (p : Place) : Bool :=
  match (memberIdx s p).bind (memberAt p) with
  | some m => m.dp
  | none => false

/-- The trains that serve one block of a gather (R301): its bytes by contiguous destination run, then the tally. -/
def gatherTrains (s : State) (g : Tag) (t : Train) (bs : List (Nat × Bool)) (dst : Nat) : List Train :=
  let ws := gWalk t
  let l := (bs.zipIdx).map (fun p => (p.2, dstAt ws (gK t * bs.length + p.2)))
  (runsOf l).map (fun r => mkTrain s g 0 5 3 dst r.2.1 t.arg (framesOf ((bs.drop r.1).take r.2.2))) ++
    [mkTrain s g 1 0 3 dst (gTally t) 1 []]

/-- A gather of one block served from a copy buffer (R233): to the requester; for a multicast into the tree, or, of a
forwarded request, to the module that owns the shard now. -/
def gatherServe (i n buf : Nat) (fwd : Bool) (t : Train) (s : State) : State :=
  match bindAt s i, ctxOf s n with
  | some b, some x =>
    match shardOf b.desc (nV t) with
    | none => s
    | some h =>
      let cb := copyBytes (groupAt b.desc (nU t)).cfmt
      let a := recAt b.desc h (gJ t) + offCopy b.desc buf
      let bs := (dramBulk s a cb).map (fun y => (y, dramPoisoned s a cb))
      let g := ctxTag s n (if t.stepValid then some t.step else none)
      let s1 := countE (pgPerf (i / 8)) 0xD2 (i / 4 % 2) 1 (some n)
        (uwr R.UPD_BIND_GATHERS i (urd s R.UPD_BIND_GATHERS i + 1) (dramFetch a cb (some n) g.step s))
      let dsts : List Nat :=
        if !gMcast t then [t.src]
        else match placeFor x (stepNext (gGen t)) with
          | some p => if fwd then [moduleOf p (ownerOf p (nV t))]
              else (if isDp s p || t.src == myId s then [myId s] else []) ++ treeModules s p
          | none => [t.src]
      dsts.foldl (fun w m => sendSeries (gatherTrains s g t bs m) w) s1
  | _, _ => s

/-- A gather held at the credits (R233). -/
def holdGather (i k : Nat) (t : Train) (s : State) : State :=
  modBind i (fun b => { b with heldG := b.heldG ++ [(k, t)] }) (holdTrain k t s)

/-- A gather refused with GATHER_STALE (R233). -/
def gatherStale (i n : Nat) (t : Train) (s : State) : State :=
  denyTrain (some n) t 0 (errCode .upd 3) (recordErr (pgUpd (i / 4)) 3 (some n) s)

/-- A gather of a LOADING shard (R315): sent on to the owner before, held, or refused. -/
def gatherLoading (i n k : Nat) (fwd : Bool) (t : Train) (s : State) : State :=
  match ctxOf s n, bindAt s i with
  | some x, some b =>
    let here := if b.spare then none else (movePair s x).filter (fun e => ownsIn s e.1 (nV t))
    match here with
    | some (q, p) =>
      if gGen t = stepPrev q.eff ∧ !fwd then
        sendTrain { t with op := 6, dst := moduleOf p (ownerOf p (nV t)) } s
      else if stepLt (gGen t) (stepPrev q.eff) then gatherStale i n t s
      else holdGather i k t s
    | none => holdGather i k t s
  | _, _ => s

/-- GATHER_REQ and GATHER_FWD (R233, R315): served, held, forwarded or refused by the generation of the shard part. A
request for a shard that no binding here holds is denied. -/
def gatherIn (k : Nat) (fwd : Bool) (t : Train) (s : State) : State :=
  match ctxOfJob s t.job with
  | none => s
  | some n =>
    match (bindFor s n (nV t)).bind (fun i => (bindAt s i).bind (fun b => (shardOf b.desc (nV t)).map (fun h => (i, b, h)))) with
    | none => denyTrain (some n) t 0 (errCode .barge 4) s
    | some (i, b, h) =>
      let w := genWord s h (nU t)
      let gen := gwGen w
      if isHeld s n then holdGather i k t s
      else if h.loading then gatherLoading i n k fwd t s
      else if b.restore.contains (h.v, nU t) ∨ stepLt gen (gGen t) then holdGather i k t s
      else
        let r := checkFor (pgUpd (i / 4)) 3 (!(gGen t == gen || (gGen t == stepPrev gen && !gwUpd w))) s
        if r.1 then gatherStale i n t r.2
        else if gGen t = gen ∨ gwSkip w then gatherServe i n (gwBuf w) fwd t r.2
        else gatherServe i n (1 - gwBuf w) fwd t r.2

/-- What a binding holds is tried again: its contributions, those taken in part first, and gathers in order of arrival. -/
def releaseHeld (i : Nat) (s : State) : State :=
  match bindAt s i with
  | none => s
  | some b =>
    let s0 := putBind i { b with heldN := [], heldG := [], stalled := [], freed := false } s
    let s1 := b.heldG.foldl (fun t h => gatherIn h.1 (h.2.op == 6) h.2 (freeTrain h.1 h.2 t)) s0
    let s2 := b.stalled.foldl (fun t h => nodeAgain i h.1 h.2 (freeTrain h.1 h.2 t)) s1
    b.heldN.foldl (fun t h => nodeIn h.1 h.2 (freeTrain h.1 h.2 t)) s2

/-- The bindings of a context try again what they hold. -/
def releaseCtx (n : Nat) (s : State) : State := (bindsOf s n).foldl (fun t e => releaseHeld e.1 t) s

/-- Whether a binding has freed slots for which contributions wait, and such bindings tried again (R228). -/
def slotsFreed (s : State) : Bool := s.binds.any (fun e => e.2.freed)
def freedRetry (s : State) : State := s.binds.foldl (fun t e => if e.2.freed then releaseHeld e.1 t else t) s

/-- Whether a binding holds contributions to a LOADING shard that came on link `k` and VC `vc` (R316). -/
def loadingHolds (b : Binding) (k vc : Nat) : Bool :=
  b.heldN.any (fun e => e.1 == k && frameVc e.2 == vc &&
    (match shardOf b.desc (nV e.2) with | some h => h.loading | none => false))

/-- Whether a train that comes on link `k` waits behind a contribution to a LOADING shard on the same VC (R316). -/
def waitsBehind (s : State) (k : Nat) (t : Train) : Bool :=
  decide (k < 32) && (s.behind.any (fun e => e.1 == k && frameVc e.2 == frameVc t) ||
    s.binds.any (fun e => loadingHolds e.2 k (frameVc t)))

/-! ### Mirror slots kept for a partner (R236) -/

/-- A job's shard part among the mirror slots kept. -/
def mirrorOf (s : State) (job v u : Nat) : Option MirrorPart :=
  s.mirrors.find? (fun m => m.job == job && m.v == v && m.u == u)

/-- Replace a mirror part. -/
def putMirror (m : MirrorPart) (s : State) : State :=
  { s with mirrors := s.mirrors.filter (fun x => !(x.job == m.job && x.v == m.v && x.u == m.u)) ++ [m] }

/-- The mirror part of a train, new where none is kept. -/
def mirrorFor (s : State) (t : Train) : MirrorPart :=
  (mirrorOf s t.job (nV t) (nU t)).getD ⟨t.job, nV t, nU t, none, none, 0, [], []⟩

/-- Bytes of a train written from a device-DRAM address, each frame's with its own mark (R187, R291). -/
def landDram (a : Nat) : List FrameBody → State → State
  | [], s => s
  | b :: bs, s => landDram (a + b.bytes.length) bs (dramWrite a (b.bytes.map (fun x => x.toNat)) b.poison s)

/-- MIRROR (R236): state written to the slot of its generation. A stream of a new generation empties that slot first. -/
def mirrorIn (t : Train) (s : State) : State :=
  let m := mirrorFor s t
  let g := gGen t
  let m1 := if m.wgen = some g then m
    else if g % 2 = 0 then { m with wgen := some g, slot0 := [], cur := if m.cur = some 0 then none else m.cur }
    else { m with wgen := some g, slot1 := [], cur := if m.cur = some 1 then none else m.cur }
  let p := (t.addr, (bodyNats t).length)
  let m2 := if g % 2 = 0 then { m1 with slot0 := m1.slot0 ++ [p] } else { m1 with slot1 := m1.slot1 ++ [p] }
  putMirror m2 (landDram t.addr t.bodies s)

/-- MIRROR_ACK to the owner (R236, R314). -/
def mirrorAckTo (t : Train) (gen : Nat) (s : State) : State :=
  match ctxOfJob s t.job with
  | some n => sendTrain (mkTrain s (ctxTag s n (some t.step)) 0 11 1 t.src 0 (vug (nV t) (nU t) gen) []) s
  | none => s

/-- MIRROR_END (R236): the slot is marked current and acknowledged. -/
def mirrorEndIn (t : Train) (s : State) : State :=
  let m := mirrorFor s t
  mirrorAckTo t (gGen t) (putMirror { m with cur := some (gGen t % 2), wgen := none, genW := bodyWord t 0 } s)

/-- MIRROR_SKIP (R236): the skipped generation recorded against the current slot and acknowledged. -/
def mirrorSkipIn (t : Train) (s : State) : State :=
  let m := mirrorFor s t
  mirrorAckTo t (gGen t) (putMirror { m with genW := gwMake (gGen t) (gwBuf m.genW) true false } s)

/-- The SCATTER trains of a shard part whose state is given block by block, and then its generation word (R313, R235). -/
def scatterTrains (s : State) (g : Tag) (d : BindDesc) (dst v u w : Nat) (blocks : List (Nat × List (List (Nat × Bool) × Nat))) :
    List Train :=
  let vu := v % 65536 + u % 256 * 2 ^ 16
  blocks.flatMap (fun b => b.2.flatMap (fun p => dataTrains s g 7 0 dst (b.1 * recStride d + p.2) vu p.1)) ++
    [mkTrain s g 0 7 0 dst (2 ^ 47 + 8 * u) vu (framesClean (bytesOf 8 w))]

/-- A kept part streamed to an owner as its mirror's current slot (R235, R422); none where no slot is complete. -/
def mirrorRestore (s : State) (n dst v u job : Nat) : Option (List Train) :=
  match mirrorOf s job v u, (bindFor s n v).bind (bindAt s) with
  | some m, some b =>
    match m.cur with
    | some c =>
      let ps := if c = 0 then m.slot0 else m.slot1
      let bs := ps.flatMap (fun p => (dramBulk s p.1 p.2).map (fun x => (x, dramPoisoned s p.1 p.2)))
      let mb := mirBytes b.desc
      let js := partBlocks b.desc v u
      if bs.length = js.length * mb then
        some (scatterTrains s (ctxTag s n none) b.desc dst v u (gwMake (gwGen m.genW) (gwBuf m.genW) (gwSkip m.genW) false)
          ((js.zipIdx).map (fun j => (j.1, [((bs.drop (j.2 * mb)).take mb, 0)]))))
      else none
    | none => none
  | _, _ => none

/-- RESTORE_REQ (R235): the partner's engine streams its current slot, or denies. -/
def restoreIn (t : Train) (s : State) : State :=
  match ctxOfJob s t.job with
  | none => s
  | some n =>
    match mirrorRestore s n t.src (nV t) (nU t) t.job with
    | some ts => sendSeries ts s
    | none => denyTrain (some n) t 0 (errCode .barge 4) s

/-! ### Scatters (R234, R314) -/

/-- Whether `n` bytes from `a` lie in the sections of a polder (R290). -/
def inSections (s : State) (p a n : Nat) : Bool :=
  decide (a + n ≤ 512 * 2 ^ 30) && (n == 0 || (List.range ((a + n - 1) / 2 ^ 30 - a / 2 ^ 30 + 1)).all (fun i => polderSect s p (a / 2 ^ 30 + i)))

/-- The step with which the compute copies of CUR_BUF of a part were drawn: that of its generation word, or after a skip
the last step that updated. DESIGN CHOICE (log 91): where no verdict held here names that step, and for a frozen group,
whose copies no update draws, the step is one that the spec does not state. -/
def drawnStep (x : Ctx) (frozen : Bool) (w v u : Nat) : Nat :=
  if frozen then unstatedOf 84 [v, u]
  else if !gwSkip w then gwGen w
  else match (x.verds.filter (fun o => !o.overflow && stepLe o.step (gwGen w))).getLast? with
    | some o => o.step
    | none => unstatedOf 84 [v, u]

/-- The compute copies of a part with generation word `w` recomputed from its masters (R418, R422). -/
def rebuildCopies (i v u w : Nat) (s : State) : State :=
  match bindAt s i with
  | none => s
  | some b =>
    match shardOf b.desc v, ctxOf s b.desc.ctx with
    | some h, some x =>
      let d := b.desc
      let step := drawnStep x (groupAt d u).frozen w v u
      (partBlocks d v u).foldl (fun t j =>
        let k := readBlock t d h j
        dramWrite (recAt d h j + offCopy d (gwBuf w))
          (copyOf d.mw (groupAt d u).cfmt x.seed (groupAt d u).tid step ((v + j * 65536) * 1024) k.mas) false t) s
    | _, _ => s

/-- LOADING of a shard cleared by its engine (R314): in the table in memory and at once in the binding; its parts are
mirrored to the partner (R317). -/
def clearLoading (i v : Nat) (s : State) : State :=
  match bindAt s i with
  | none => s
  | some b =>
    let n := (b.desc.shards.takeWhile (fun h => h.v != v)).length
    let a := b.desc.table + 32 * n
    let s1 := dramPutWord a (putBits (dramWord s a) 40 1 0) s
    let s2 := putBind i { b with desc := { b.desc with
      shards := b.desc.shards.map (fun h => if h.v = v then { h with loading := false } else h) } } s1
    (List.range b.desc.groups.length).foldl (fun t u => mirrorPart i v u t) s2

/-- Whether the engine of a binding ends the LOADING of a shard itself (R314, R422): it comes by a migration or a
substitution. DEDUCED (log 92): where the context holds no pair of versions the stream alone says so. -/
def loadsItself (s : State) (b : Binding) (v : Nat) : Bool :=
  b.spare || match ctxOf s b.desc.ctx with
    | some x => (movePair s x).isNone || incomingIn s x v
    | none => false

/-- Every group of a shard has landed (R314): LOADING ends, and with the last incoming shard of the binding
MIGRATE_IN_DONE is raised (R318). -/
def shardLanded (i v : Nat) (s : State) : State :=
  match bindAt s i with
  | none => s
  | some b =>
    if !loadsItself s b v then s
    else
      let s1 := clearLoading i v (putBind i { b with migIn := b.migIn.filter (fun p => p.1 != v) } s)
      if (match bindAt s1 i with | some k => k.desc.shards.any (fun h => h.loading && loadsItself s1 k h.v) | none => true) then s1
      else hostEvent evMigrateInDone (pgUpd (i / 4)) (some b.desc.ctx) 0 s1

/-- The generation word of a loading or held part lands (R235, R314). -/
def genLands (i v u w : Nat) (t : Train) (s : State) : State :=
  match bindAt s i with
  | none => s
  | some b =>
    match shardOf b.desc v with
    | none => s
    | some h =>
      let w' := gwMake (gwGen w) (gwBuf w) (gwSkip w) false
      let s1 := dramPutWord (genAt h u) w' s
      if b.restore.contains (v, u) then
        let left := b.restore.filter (· != (v, u))
        let s2 := putBind i { b with restore := left } s1
        let s3 := uwr R.UPD_BIND_STATE_RESTORE i (urd s R.UPD_BIND_STATE_RESTORE i - 1) s2
        rootsUp i (if b.phase = 6 then setPhase i 4 s3 else s3)
      else
        let s2 := if b.spare then rebuildCopies i v u w s1 else s1
        let s3 := mirrorAckTo t (gwGen w) s2
        let landed := b.migIn.filter (· != (v, u)) ++ [(v, u)]
        let s4 := modBind i (fun k => { k with migIn := landed }) s3
        rootsUp i (if (List.range b.desc.groups.length).all (fun g => landed.contains (v, g)) then shardLanded i v s4 else s4)

/-- SCATTER (R234, R314): one outside the polder's sections is denied (R290); a record part or generation word of a loading
or held shard part is written; any other is refused with SCATTER_STATE. -/
def scatterIn (t : Train) (s : State) : State :=
  match ctxOfJob s t.job with
  | none => s
  | some n =>
    match (bindFor s n (nV t)).bind (fun i => (bindAt s i).bind (fun b => (shardOf b.desc (nV t)).map (fun h => (i, b, h)))) with
    | none => denyTrain (some n) t 0 (errCode .barge 4) s
    | some (i, b, h) =>
      let gen := bitSet t.addr 47
      let u := if gen then t.addr % 2 ^ 47 / 8 else nU t
      let a := if gen then h.gen + t.addr % 2 ^ 47 else h.base + t.addr
      let bs := bodyNats t
      if (match ctxOf s n with | some x => !inSections s x.polder a bs.length | none => true) then
        denyTrain (some n) t 0 (errCode .barge 4) s
      else
        let r := checkFor (pgUpd (i / 4)) 4 (!h.loading && !b.restore.contains (h.v, u)) s
        if r.1 then denyTrain (some n) t 0 (errCode .upd 4) (recordErr (pgUpd (i / 4)) 4 (some n) r.2)
        else if gen then releaseHeld i (genLands i h.v u (bodyWord t 0) t r.2)
        else landDram a t.bodies r.2

/-! ### Migration (R313, R318) -/

/-- MIGRATION_START (R313): an outgoing part that has decided step T − 1 is streamed to its new owner. -/
def migrationStart (i v u : Nat) (s : State) : State :=
  match bindAt s i with
  | none => s
  | some b =>
    match shardOf b.desc v, ctxOf s b.desc.ctx with
    | some h, some x =>
      let q := match x.placeNext with | some q => some q | none => x.place
      match q with
      | none => s
      | some q =>
        let w := genWord s h u
        if !b.migOut.contains (v, u) ∨ b.migSent.contains (v, u) ∨ gwUpd w ∨ !stepLe (stepPrev q.eff) (gwGen w) then s
        else
          let d := b.desc
          let mb := mirBytes d
          let bad (a n : Nat) : Bool := dramPoisoned s a n
          let blocks := (partBlocks d v u).map (fun j =>
            let a := recAt d h j
            (j, [((dramBulk s a mb).map (fun y => (y, bad a mb)), 0),
                 ((dramBulk s (a + offCopy d (gwBuf w)) 2048).map (fun y => (y, bad (a + offCopy d (gwBuf w)) 2048)), offCopy d (gwBuf w))]))
          let dst := moduleOf q (ownerOf q v)
          sendSeries (scatterTrains s (ctxTag s d.ctx (some (gwGen w))) d dst v u w blocks)
            (readPart b v u mb (putBind i { b with migSent := b.migSent ++ [(v, u)] } s))
    | _, _ => s

/-! ### Errors in records met outside an update (R235) -/

/-- The shard part whose master, moment or factor part of a bound record holds an address, with its binding (R219). -/
def partAtAddr (s : State) (a : Nat) : Option (Nat × Nat × Nat) :=
  s.binds.findSome? (fun e =>
    let d := e.2.desc
    let st := recStride d
    (d.shards.find? (fun h => !h.loading && decide (h.base ≤ a ∧ a < h.base + h.nb * st ∧ (a - h.base) % st < offGrad d))).bind
      (fun h =>
        let j := (a - h.base) / st
        ((List.range d.groups.length).find? (fun u => (partBlocks d h.v u).contains j)).map (fun u => (e.1, h.v, u))))

/-- The parts whose records hold blocks that a read has found uncorrectable are held for restore (R235). -/
def holdUes (s : State) : State :=
  s.metUe.foldl (fun t a => match partAtAddr t a with
    | some (i, v, u) => restoreHold i v u t
    | none => t) { s with metUe := [] }

/-- MIRROR_ACK (R236, R318): the owner's wait ends; a migration's part is acknowledged. -/
def mirrorAckIn (t : Train) (s : State) : State :=
  match (ctxOfJob s t.job).bind (fun n => bindFor s n (nV t)) with
  | none => s
  | some i =>
    match bindAt s i with
    | none => s
    | some b =>
      let p := (nV t, nU t)
      if b.migSent.contains p ∧ t.src ≠ b.desc.mod ∨ (b.migSent.contains p ∧ !b.mirWait.contains p) then
        let left := b.migOut.filter (· != p)
        let s1 := putBind i { b with migOut := left, migSent := b.migSent.filter (· != p) } s
        if left.isEmpty then hostEvent evMigrateOutDone (pgUpd (i / 4)) (some b.desc.ctx) 0 s1 else s1
      else
        let gen := match shardOf b.desc p.1 with | some h => gwGen (genWord s h p.2) | none => 0
        if gGen t ≠ gen then s
        else
          let s1 := putBind i { b with mirWait := b.mirWait.filter (· != p) } s
          if b.phase = 3 ∧ b.todo.head? = some p then setPhase i 4 s1 else s1

end Sys2Proof.Machine
end

