-- ==== Sys2Proof/Machine/Verdict.lean ====
section
/-!
DEFINITION. Verdicts (R164, R305), the step report with its loss-scale, noise and steering rules (R166, R261, R265 to
R270), and what the engines do on a verdict (R226, R231, R232).
-/

namespace Sys2Proof.Machine

/-! ### FP64 as the step sequencer computes it: each operation rounds once to nearest-even (R265) -/

/-- A number as FP64. -/
def enc64 (x : Num) : Nat := encodeNum .fp64 0 false noDraw x
def add64 (a b : Nat) : Nat := enc64 (addNum 0 (decodeNum .fp64 a) (decodeNum .fp64 b))
def sub64 (a b : Nat) : Nat := enc64 (addNum 0 (decodeNum .fp64 a) (negNum (decodeNum .fp64 b)))
def mul64 (a b : Nat) : Nat := enc64 (mulNum (decodeNum .fp64 a) (decodeNum .fp64 b))
def div64 (a b : Nat) : Nat := enc64 (divNum (decodeNum .fp64 a) (decodeNum .fp64 b))
def lt64 (a b : Nat) : Bool := ltNum (decodeNum .fp64 a) (decodeNum .fp64 b)
def nan64 (a : Nat) : Bool := decodeNum .fp64 a == .nan
def nat64 (n : Nat) : Nat := enc64 (.fin false n 0)
/-- 2^k. -/
def pow64 (k : Int) : Nat := enc64 (.fin false 1 k)

/-! ### The loss scale (R166) -/

/-- The state words of the loss scale after a verdict: E, CNT, SKP (R166); with LS_EN = 0, E stays 0 (R165). -/
def lossNext (x : Ctx) (overflow : Bool) (e : Int) (cnt skp : Nat) : Int × Nat × Nat :=
  if overflow then
    (if x.lsEn = 1 then max (e - x.lsS) (signedOf 8 x.lsEmin) else 0, 0, min (skp + 1) 255)
  else if x.lsG = 0 ∨ cnt + 1 < x.lsG then (e, min (cnt + 1) (2 ^ 24 - 1), 0)
  else (if x.lsEn = 1 then min (e + 1) (signedOf 8 x.lsEmax) else 0, 0, 0)

/-! ### The noise estimate (R265, R266) -/

/-- An estimate: whether it is valid, tr and g2 in FP64. -/
structure Estimate where
  valid : Bool
  tr    : Nat
  g2    : Nat
deriving DecidableEq, Repr

/-- R265 for a step of `b` micro-batches in groups of 2^lg. -/
def estimate (v : Verdict) (b lg : Nat) : Estimate :=
  let bb := nat64 (2 ^ lg)
  let fb := nat64 b
  if v.overflow ∨ v.groupN = 0 ∨ b ≤ 2 ^ lg then ⟨false, canonNaN .fp64, canonNaN .fp64⟩
  else
    let sBig := div64 v.gradSq (mul64 fb fb)
    let sSmall := div64 v.groupSq (mul64 (nat64 v.groupN) (mul64 bb bb))
    let g2 := div64 (sub64 (mul64 fb sBig) (mul64 bb sSmall)) (sub64 fb bb)
    let tr := div64 (mul64 (sub64 sSmall sBig) (mul64 bb fb)) (sub64 fb bb)
    ⟨lt64 0 g2 && !nan64 tr && !lt64 tr 0, tr, g2⟩

/-- The smoothed values after an estimate (R266): EMA_TR, EMA_G2, EMA_VALID. -/
def smooth (q : Estimate) (w tr g2 : Nat) (ok : Bool) : Nat × Nat × Bool :=
  if !q.valid then (tr, g2, ok)
  else if !ok then (q.tr, q.g2, true)
  else
    let al := pow64 (-(w : Int))
    (add64 tr (mul64 al (sub64 q.tr tr)), add64 g2 (mul64 al (sub64 q.g2 g2)), true)

/-- bn_smooth (R266). -/
def bnSmooth (tr g2 : Nat) (ok : Bool) : Nat := if ok then div64 tr g2 else canonNaN .fp64

/-- Whether bn_smooth lies outside the advise bounds (R267); a NaN does not. -/
def outside (s : State) (x : Ctx) (bn : Nat) : Bool := !nan64 bn && (lt64 bn (blockWord s x 2) || lt64 (blockWord s x 3) bn)

/-- R268: the new B_NEXT2 and HOLD_CNT. -/
def steer (s : State) (x : Ctx) (valid : Bool) (bn b1 hold : Nat) : Nat × Nat :=
  let h := bitsOf (blockWord s x 0) 10 10
  if !valid then (b1, hold)
  else if 0 < hold then (b1, hold - 1)
  else if !nan64 bn && !lt64 bn (nat64 (2 * b1)) && decide (2 * b1 ≤ bitsOf (blockWord s x 1) 21 21) then (2 * b1, h)
  else if !nan64 bn && !lt64 (div64 (nat64 b1) (nat64 2)) bn && decide (b1 % 2 = 0 ∧ bitsOf (blockWord s x 1) 0 21 ≤ b1 / 2) then (b1 / 2, h)
  else (b1, hold)

/-! ### The step report (R261, R269, R270) -/

/-- Whether a feature of R176 was used by the job in the step of a verdict: any owner's arrival-order reduction counts
(R271; log 83). -/
def nonCanon (x : Ctx) (v : Verdict) : Bool := x.noncanon || v.noncanon

/-- What the report of a step holds beyond its plan half (R270). -/
structure Report where
  eUsed    : Int
  eNext    : Int
  cnt      : Nat
  skp      : Nat
  bnRaw    : Nat
  bn       : Nat
  bNext2   : Nat
  steered  : Bool
  advised  : Bool
deriving DecidableEq, Repr

/-- The end half of report entry `t` (R269, R270): words 2 to 15, then word 0. -/
def writeEndHalf (n : Nat) (x : Ctx) (v : Verdict) (r : Report) (s : State) : State :=
  let t := v.step
  let a := reportAddr s x t
  let start := startStep s x
  let ws : List Nat :=
    [wrapInt 8 r.eUsed + wrapInt 8 r.eNext * 2 ^ 8 + r.cnt % 2 ^ 24 * 2 ^ 16 + r.skp * 2 ^ 40 + lgOf s x * 2 ^ 48,
     v.gradSq, v.groupSq, v.groupN % 2 ^ 32 + min v.nonfinite (2 ^ 32 - 1) * 2 ^ 32,
     (if t = start then canonNaN .fp64 else v.updSq), v.crc, r.bnRaw, r.bn, r.bNext2 % 2 ^ 21, dramWord s (a + 88),
     (tickOf s - x.reportAt) % 2 ^ 64, x.peerBound, x.slotFull,
     (rd s (pgCtx n) R.CTX_ENERGY_MJ + 2 ^ 64 - x.reportMj) % 2 ^ 64]
  let s1 := dramWrite (a + 16) (ws.flatMap (bytesOf 8)) false s
  dramPutWord a (t + 2 ^ 32 + 2 ^ 33 + (if v.overflow then 2 else 1) * 2 ^ 34 + b2n (nonCanon x v) * 2 ^ 36 +
    b2n r.steered * 2 ^ 37 + b2n r.advised * 2 ^ 38) s1

/-- The step sequencer on a job verdict (R261): the loss scale, the noise estimate and steering, the step block, the end
half of the report, VERDICT_TALLY; with the events of R166, R267 and R268. -/
def stepReport (n : Nat) (v : Verdict) (s : State) : State :=
  match ctxOf s n with
  | none => s
  | some x =>
    let t := v.step
    if t ≠ lowestOpen s x then s
    else
      let w10 := blockWord s x 10
      let e0 := lossE s x
      let ls := lossNext x v.overflow e0 (bitsOf w10 8 24) (bitsOf w10 32 8)
      let b := match planOf x t with | some p => p.b | none => 1
      let q := estimate v b (lgOf s x)
      let w13 := blockWord s x 13
      let ok0 := bitSet w13 10
      let old := bnSmooth (blockWord s x 11) (blockWord s x 12) ok0
      let m := smooth q (bitsOf (blockWord s x 0) 2 4) (blockWord s x 11) (blockWord s x 12) ok0
      let bn := bnSmooth m.1 m.2.1 m.2.2
      let mode := steerMode s x
      let b1 := bitsOf (blockWord s x 9) 0 21
      let st := if mode = 2 then steer s x q.valid bn b1 (bitsOf w13 0 10) else (0, bitsOf w13 0 10)
      let adv := mode == 1 && outside s x bn && (t == startStep s x || !(outside s x old))
      let r : Report := ⟨e0, ls.1, ls.2.1, ls.2.2, (if q.valid then div64 q.tr q.g2 else canonNaN .fp64), bn,
        (if mode = 2 then st.1 else 0), mode == 2 && st.1 != b1, adv⟩
      let put (i w : Nat) (u : State) : State := dramPutWord (x.stepBlock + 8 * i) w u
      let s1 := put 10 (wrapInt 8 ls.1 + ls.2.1 % 2 ^ 24 * 2 ^ 8 + ls.2.2 * 2 ^ 32) s
      let s2 := put 8 (putBits (blockWord s x 8) 32 21 (if mode = 2 then b1 else 0)) (put 9 (if mode = 2 then st.1 else 0) s1)
      let s3 := put 13 (st.2 % 2 ^ 10 + b2n m.2.2 * 2 ^ 10 + t * 2 ^ 11) (put 12 m.2.1 (put 11 m.1 s2))
      let s4 := tallyAdd (bitsOf (blockWord s3 x 5) 0 48) 1 (writeEndHalf n x v r s3)
      let s5 := modCtx n (fun x => { x with reportAt := tickOf s, reportMj := rd s (pgCtx n) R.CTX_ENERGY_MJ, slotFull := 0,
                                            peerBound := 0 }) s4
      let p := pgCtx n
      let s6 := if v.overflow ∧ e0 = signedOf 8 x.lsEmin then hostEvent evLossScaleFloor p (some n) 0 s5 else s5
      let s7 := if v.overflow ∧ x.lsNskip ≠ 0 ∧ ls.2.2 = x.lsNskip then hostEvent evSkipRun p (some n) 0 s6 else s6
      let s8 := if r.advised then hostEvent evBnoiseAdvise p (some n) 0 s7 else s7
      if r.steered then hostEvent evBSteered p (some n) 0 s8 else s8

/-! ### The engines on a verdict (R226, R231, R232) -/

/-- The registers Z0 to Z63 as PRO finds them (R226). -/
def proScalars (s : State) (v : Verdict) (count : Nat) (d : BindDesc) : List Nat :=
  [nat64 v.step, nat64 (count + 1), pow64 (-(signedOf 8 v.e)), nat64 v.b, v.bn, v.gradSq, nat64 1] ++ List.replicate 9 0 ++
    dramWords s d.hyper 32 ++ List.replicate 16 0

/-- A binding acts on the job verdict of a step (R231, R232): it skips, or runs PRO and begins the update. -/
def bindVerdict (i : Nat) (v : Verdict) (count : Nat) (s : State) : State :=
  match bindAt s i with
  | none => s
  | some b =>
    match ctxOf s b.desc.ctx with
    | none => s
    | some x =>
      if b.sums.step ≠ v.step then s
      else
        let parts := (partsAt s x b v.step).filter (fun p => partStep s b p.1 p.2 == v.step)
        let b1 := { b with sums := .zero (stepNext v.step), up := false, updStep := v.step, todo := parts, since := tickOf s,
                           fastOff := [] }
        let s1 := uwr R.UPD_BIND_STEP i v.step (putBind i b1 s)
        if v.overflow then bindSkip i parts s1
        else
          let zs := runPro (laneFree [x.seed, v.step] 0 0) b.desc.prog b.desc.nmom (proScalars s v count b.desc)
          let s2 := putBind i { b1 with zs := zs, updSq := 0, crcs := [] } s1
          match parts with
          | [] => bindDone i false s2
          | p :: _ => setPhase i (if b.mirWait.contains p && !b.mirLost then 3 else 4) s2

/-! ### Verdict trains (R305) -/

/-- The body of VERDICT_UP (R305): the OR, with the non-canonical mark beside it (log 83), the sums of 80 bytes, the counts and the checksum. -/
def sumsBytes (m : Sums) : List Nat :=
  bytesOf 8 (b2n m.overflow + 2 * b2n m.noncanon) ++ bytesOf 80 (wrapInt 640 m.gradSq) ++ bytesOf 80 (wrapInt 640 m.groupSq) ++
    bytesOf 80 (wrapInt 640 m.updSq) ++ bytesOf 8 (m.groupN % 2 ^ 64) ++ bytesOf 8 (m.nonfinite % 2 ^ 64) ++ bytesOf 8 (m.crc % 2 ^ 64)

/-- The sums that a VERDICT_UP body spells. -/
def sumsOf (t : Nat) (bs : List Nat) : Sums :=
  let at_ (o n : Nat) : Nat := ofBytes ((bs.drop o).take n)
  ⟨t, bitSet (at_ 0 8) 0, signedOf 640 (at_ 8 80), signedOf 640 (at_ 88 80), signedOf 640 (at_ 168 80), at_ 248 8, at_ 256 8, at_ 264 8,
    bitSet (at_ 0 8) 1⟩

/-- Two members' sums combined (R238, R305): the node counts of one job agree wherever a part has blocks. -/
def sumsJoin (a b : Sums) : Sums :=
  ⟨a.step, a.overflow || b.overflow, a.gradSq + b.gradSq, a.groupSq + b.groupSq, a.updSq + b.updSq, max a.groupN b.groupN,
    a.nonfinite + b.nonfinite, a.crc ^^^ b.crc, a.noncanon || b.noncanon⟩

/-- The body of VERDICT_DOWN (R305). -/
def verdictBytes (v : Verdict) : List Nat :=
  [v.gradSq, v.groupSq, v.updSq, v.groupN, v.nonfinite, v.crc].flatMap (fun w => bytesOf 8 (w % 2 ^ 64))

/-- A verdict with the values that the update of its step reads: E, B, and the noise published before it (R226). -/
def verdictWith (s : State) (x : Ctx) (v : Verdict) : Verdict :=
  { v with e := wrapInt 8 (lossE s x), b := (match planOf x v.step with | some p => p.b | none => 1),
           bn := if v.step = startStep s x then canonNaN .fp64
                 else bnSmooth (blockWord s x 11) (blockWord s x 12) (bitSet (blockWord s x 13) 10) }

/-- The job verdict of a step reaches this module (R164, R261, R305): passed to the children, then acted on by the
sequencer and the engines. A verdict already held is not acted on again. -/
def verdictAct (n : Nat) (v0 : Verdict) (s : State) : State :=
  match ctxOf s n with
  | none => s
  | some x =>
    if v0.step ≠ lowestOpen s x then s
    else
      let v := verdictWith s x v0
      let kids := match placeFor x v.step with
        | some p => (match memberIdx s p with | some i => (childrenOf p i).map (moduleOf p) | none => [])
        | none => []
      let g := ctxTag s n (some v.step)
      let s1 := kids.foldl (fun w m => sendTrain (mkTrain s g 0 13 5 m 0 (b2n v.overflow + 2 * b2n v.noncanon) (framesClean (verdictBytes v))) w) s
      let s2 := modCtx n (fun x => { x with
        verds := (x.verds.filter (fun o => o.step != v.step)).drop (x.verds.length - 3) ++ [v],
        ups := x.ups.filter (fun u => !stepLe u.2.step v.step) }) s1
      let s3 := stepReport n v s2
      let s4 := (bindsOf s3 n).foldl (fun w e => bindVerdict e.1 v (urd w R.UPD_BIND_OPT_COUNT e.1) w) s3
      releaseCtx n s4

/-- The sums of a step that this member passes up, once its eight bindings and every child have passed theirs (R305). -/
def sumsReady (s : State) (x : Ctx) (t : Nat) : Option Sums :=
  match placeFor x t with
  | none => none
  | some p =>
    match memberIdx s p with
    | none => none
    | some i =>
      let keys : List Nat := (List.range 8).map (65536 + ·) ++ childrenOf p i
      let got : List Sums := keys.filterMap (fun k => (x.ups.find? (fun u => u.1 == k && u.2.step == t)).map (fun u => u.2))
      if got.length = keys.length then some (got.foldl sumsJoin (.zero t)) else none

/-- VERDICT_UP sent to the parent, or at the root the job verdict formed (R238, R305). -/
def passUp (n : Nat) (s : State) : State :=
  match ctxOf s n with
  | none => s
  | some x =>
    let t := lowestOpen s x
    match sumsReady s x t, placeFor x t with
    | some m, some p =>
      match memberIdx s p with
      | none => s
      | some i =>
        if rootOf p = i then
          let e := lossE s x
          let bad := decide (0 < m.nonfinite)
          verdictAct n ⟨t, m.overflow, jobValue m.gradSq e bad, jobValue m.groupSq e bad, jobValue m.updSq e false, m.groupN,
            m.nonfinite, m.crc, 0, 0, 0, m.noncanon⟩ s
        else
          let parent := match memberAt p i with | some y => y.parent | none => i
          sendTrain (mkTrain s (ctxTag s n (some t)) 0 12 5 (moduleOf p parent) 0 (b2n m.overflow)
            (framesClean (sumsBytes m)))
            (modCtx n (fun x => { x with ups := x.ups.filter (fun u => u.2.step != t) }) s)
    | _, _ => s

/-- A catch-up step that a binding completes acts with the verdict that REPLAY carried (R424). -/
def catchUpAct (i : Nat) (s : State) : State :=
  match bindAt s i with
  | none => s
  | some b =>
    match ctxOf s b.desc.ctx with
    | none => s
    | some x =>
      match mapFind x.catchUp b.sums.step with
      | some c =>
        if bindComplete s x b then
          let v : Verdict := ⟨b.sums.step, c.getD 6 0 != 0, c.getD 0 0, c.getD 1 0, c.getD 2 0, c.getD 3 0, c.getD 4 0, c.getD 5 0,
            c.getD 7 0, c.getD 8 0, c.getD 9 0, false⟩
          releaseHeld i (bindVerdict i v (c.getD 10 0) s)
        else s
      | none => s

/-- The bindings and verdicts of every context moved on as far as they go now (R230, R305, R424). -/
def pokeCtx (n : Nat) (s : State) : State :=
  match ctxOf s n with
  | none => s
  | some x =>
    let s1 := (bindsOf s n).foldl (fun w e =>
      if (mapFind x.catchUp e.2.sums.step).isSome then catchUpAct e.1 w else rootsUp e.1 w) s
    passUp n s1

/-- VERDICT_UP from a child (R305). -/
def verdictUpIn (t : Train) (s : State) : State :=
  match ctxOfJob s t.job with
  | none => s
  | some n =>
    match ctxOf s n with
    | none => s
    | some x =>
      match (placeFor x t.step).bind (fun p => (memberIdx s p).bind (fun i =>
          (childrenOf p i).find? (fun c => moduleOf p c == t.src))) with
      | some c =>
        pokeCtx n (setCtx n { x with ups := x.ups.filter (fun u => u.1 != c) ++ [(c, sumsOf t.step (bodyNats t))] } s)
      | none => s

/-- VERDICT_DOWN from the parent (R164, R305). -/
def verdictDownIn (t : Train) (s : State) : State :=
  match ctxOfJob s t.job with
  | none => s
  | some n =>
    verdictAct n ⟨t.step, bitSet t.arg 0, bodyWord t 0, bodyWord t 1, bodyWord t 2, bodyWord t 3, bodyWord t 4, bodyWord t 5, 0, 0, 0,
      bitSet t.arg 1⟩ s

/-- STEP_PLAN (R248, R309, R311): the plan, and what waited for it. -/
def planAndMove (n : Nat) (s : State) : State := releaseCtx n (stepPlan n s)

end Sys2Proof.Machine
end

