-- ==== Sys2Proof/Machine/Coll.lean ====
section
/-!
DEFINITION. Collective offload (R300 to R303, R514): taking and checking ring entries, the NODE series and gather
requests that they send, and their ends.
-/

namespace Sys2Proof.Machine

/-- Bits and words of an entry that its kind leaves reserved are 0 (R300). -/
def collReserved (ws : List Nat) : Bool :=
  wf ws 0 4 4 == 0 && wf ws 0 48 16 == 0 && wf ws 4 48 16 == 0 && wd ws 5 == 0 && wd ws 6 == 0 && wd ws 7 == 0 &&
  (if wf ws 0 0 2 = 0 then
    wf ws 0 2 1 == 0 && wf ws 1 25 39 == 0 && wf ws 2 48 16 == 0 && wf ws 3 48 16 == 0 &&
      (List.range 8).all (fun i => wd ws (8 + i) == 0)
   else wf ws 0 3 1 == 0 && wd ws 2 == 0 && wd ws 3 == 0)

/-- The WALK of an entry as a descriptor's 32-bit words. -/
def collWalk (ws : List Nat) : List Nat :=
  (List.range 8).flatMap (fun i => [wd ws (8 + i) % 2 ^ 32, wd ws (8 + i) / 2 ^ 32])

/-- Whether a WALK sets only the fields that R300 admits. -/
def walkFields (w : List Nat) : Bool :=
  bdf w 0 5 8 == 0 && bdf w 0 16 15 == 0 && bTally w == 0 && bdf w 1 0 64 == 0 && bDstMod w == 0 && bS1Src w == 0 &&
    bS2Src w == 0 && bS3Src w == 0

/-- Whether a GATHER's WALK is in order for `nblk` blocks of `cb` bytes (R300). -/
def walkOk (w : List Nat) (nblk cb : Nat) : Bool :=
  walkFields w && descOk w && decide (bLen w = nblk * cb) && (!bTranspose w || decide (cb % (bR w * bN1 w) = 0))

/-- The group table of a context: that of its first binding's descriptor. -/
def collDesc (s : State) (n : Nat) : Option BindDesc := ((bindsOf s n).head?).map (fun e => e.2.desc)

/-- The checks of R300 on an entry. -/
def collOk (s : State) (n : Nat) (x : Ctx) (ws : List Nat) : Bool :=
  let u := wf ws 0 8 8
  match collDesc s n with
  | none => false
  | some d =>
    decide (wf ws 0 0 2 ≤ 1 ∧ u < d.groups.length) && collReserved ws &&
    (if wf ws 0 0 2 = 0 then
      x.typ == 0 && (match planOf x (wf ws 0 16 32) with
        | some p => nodeOk p true (wf ws 1 0 20) (wf ws 1 20 5)
        | none => false)
     else
      let b := wf ws 1 0 40
      let k := wf ws 1 40 24
      decide ((groupAt d u).base ≤ b ∧ b + k ≤ groupEnd d u) && walkOk (collWalk ws) k (copyBytes (groupAt d u).cfmt))

/-- The step tag of an entry's work: the step of its node, or the step after the generation it gathers. -/
def collStep (x : Ctx) (ws : List Nat) : Option Nat :=
  if x.typ ≠ 0 then none
  else if wf ws 0 0 2 = 0 then some (wf ws 0 16 32) else some (stepNext (wf ws 0 16 32))

/-- An error that ends an entry, on its context's CTX page (R300): PEER_LOST and GATHER_STALE are step-fatal. -/
def collError (n bit : Nat) (step : Option Nat) (s : State) : State :=
  let s1 := recordErr (pgCtx n) bit (some n) s
  if bit = 9 ∨ bit = 10 then stepFatal n (errCode .ctx bit) step s1 else ctxFatal n (errCode .ctx bit) s1

/-- An entry in progress ends with an error: it adds nothing to its tally. -/
def collEnd (c : CollEntry) (bit : Nat) (s : State) : State :=
  collError c.ctx bit c.step (collSettle { s with colls := s.colls.filter (fun e => e != c) })

/-- The next entry of a ring for the engine of die `d`, which takes the entries n with n mod 4 = d (R514). -/
def collNextOf (x : Ctx) (d : Nat) : Nat := (mapFind x.collNext d).getD d

/-- The entry of a ring that is taken next (R514): the earliest that the tail tally shows and whose die's engine has room,
16 entries being at work there at most. -/
def collDue (s : State) (x : Ctx) : Option Nat :=
  ((List.range 4).filter (fun d => decide (collNextOf x d < dramWord s x.coll.tail ∧ (collsOfDie s d).length < 16))).foldl
    (fun m d => match m with
      | some i => some (min i (collNextOf x d))
      | none => some (collNextOf x d)) none

/-- COLL_ENTRY_TAKE (R514): the next entry of the ring that the tail tally shows, by the engine of die n mod 4; a malformed
one ends with COLL_DESC (R300). -/
def collTake (n : Nat) (s : State) : State :=
  match ctxOf s n with
  | none => s
  | some x =>
    if ctxState s n ≠ stResident ∨ x.coll.log2n = 0 then s
    else match collDue s x with
      | none => s
      | some i =>
        let a := x.coll.base + i % 2 ^ x.coll.log2n * 128
        let ws := dramWords s a 16
        let step := collStep x ws
        let s1 := setCtx n { x with collNext := mapPut x.collNext (i % 4) (i + 4) } (fetchCtx n a 128 s)
        checked (pgCtx n) 7 (!collOk s n x ws) (collError n 7 step)
          (fun u => { u with colls := u.colls ++ [⟨n, i, ws, step, false, [], []⟩] }) s1

/-- COLL_ENTRY_TAKE (R514). -/
def execCollEntryTake (n : CtxIx) (s : State) : Host.Outcome State Fault Refusal := .next (collTake n s)

/-- The oldest entry of a kind that a context has taken and whose frames have not been issued. -/
def collWaiting (s : State) (n kind : Nat) : Option CollEntry :=
  s.colls.find? (fun c => c.ctx == n && !c.issued && wf c.words 0 0 2 == kind)

/-- An entry replaced. -/
def putColl (c d : CollEntry) (s : State) : State := { s with colls := s.colls.map (fun e => if e = c then d else e) }

/-! ### REDUCE_SEND (R303) -/

/-- The bytes of an entry's record of one block, with their poison marks: the values, then its level-LG partials. -/
def sendBytes (s : State) (ws : List Nat) (base lg b : Nat) : List (Nat × Bool) :=
  let level := wf ws 1 20 5
  let a := wf ws 2 0 48 + (b - base) * 4096
  let np := if lg ≤ level then 2 ^ (level - lg) else 0
  let g := wf ws 3 0 48 + (b - base) * 4 * np
  (dramBulk s a 4096).zipIdx.map (fun y => (y.1, dramPoisoned s (a + y.2) 1)) ++
    (dramBulk s g (4 * np)).zipIdx.map (fun y => (y.1, dramPoisoned s (g + y.2) 1))

/-- The shards that hold blocks of a group. -/
def groupShards (d : BindDesc) (u : Nat) : List Nat :=
  let base := (groupAt d u).base
  (List.range (min 65536 (groupEnd d u - base))).map (fun i => (base + i) % 65536)

/-- The series of NODE trains for shard `v` (R303, R304). -/
def sendSeriesOf (s : State) (g : Tag) (d : BindDesc) (lg : Nat) (ws : List Nat) (v dst xid : Nat) : List Train :=
  let u := wf ws 0 8 8
  let level := wf ws 1 20 5
  let gp := decide (lg ≤ level)
  let len := 1024 + (if gp then 2 ^ (level - lg) else 0)
  let bs := (partBlocks d v u).flatMap (fun j => sendBytes s ws (groupAt d u).base lg (v + 65536 * j))
  let cs := chunks 16100 (bs.length / 16100 + 1) 0 bs
  cs.map (fun c =>
    let w := c.1 / 4
    let e := w % len
    let last := decide (bs.length ≤ c.1 + 16100)
    mkTrain s g 6 0 4 dst ((partLo d v u + w / len) % 2 ^ 24 + e % 1024 * 2 ^ 24 + (if last then xid else 0) * 2 ^ 34)
      (v + u * 2 ^ 16 + level * 2 ^ 24 + wf ws 0 3 1 * 2 ^ 29 + b2n gp * 2 ^ 30 + wf ws 1 0 20 * 2 ^ 32 + e / 1024 * 2 ^ 52)
      (framesOf c.2))

/-- An entry whose last acknowledgement or block has come adds to its tally and ends (R301, R303); a tally without
backing ends it with ADDR_UNMAPPED. -/
def collFinish (c : CollEntry) (s : State) : State :=
  let t := wf c.words 4 0 48
  let s1 := collSettle { s with colls := s.colls.filter (fun e => e != c) }
  if wf c.words 0 0 2 ≠ 0 then s1
  else if (locate s t).isSome then tallyAdd t 1 s1 else collError c.ctx 11 c.step (noteUnmapped (some c.ctx) s1)

/-- The reads of an entry's source, counted for its context. -/
def sendReads (c : CollEntry) (d : BindDesc) (lg : Nat) (s : State) : State :=
  let u := wf c.words 0 8 8
  let level := wf c.words 1 20 5
  let nb := groupEnd d u - (groupAt d u).base
  let np := if lg ≤ level then 2 ^ (level - lg) else 0
  fetchCtx c.ctx (wf c.words 3 0 48) (4 * np * nb) (fetchCtx c.ctx (wf c.words 2 0 48) (4096 * nb) s)

/-- Whether an entry's source is backed throughout. -/
def sendBacked (s : State) (c : CollEntry) (d : BindDesc) (lg : Nat) : Bool :=
  let u := wf c.words 0 8 8
  let level := wf c.words 1 20 5
  let nb := groupEnd d u - (groupAt d u).base
  let np := if lg ≤ level then 2 ^ (level - lg) else 0
  let ok (a n : Nat) : Bool := (granulesOf a n).all (fun g => (locate s g.1).isSome)
  ok (wf c.words 2 0 48) (4096 * nb) && ok (wf c.words 3 0 48) (4 * np * nb)

/-- REDUCE_SEND (R303): the frames of the oldest entry of KIND 0 that waits are issued. -/
def reduceSend (n : Nat) (s : State) : State :=
  match collWaiting s n 0, ctxOf s n, collDesc s n with
  | some c, some x, some d =>
    let t := wf c.words 0 16 32
    match placeFor x t with
    | none => collEnd c 7 s
    | some p =>
      if !sendBacked s c d (lgOf s x) then collEnd c 11 (noteUnmapped (some n) s)
      else
        let g := ctxTag s n (some t)
        let vs := groupShards d (wf c.words 0 8 8)
        let x0 := s.nextXid
        let xs := vs.zipIdx.map (fun v => ((x0 + v.2) % 2 ^ 14, moduleOf p (ownerOf p v.1)))
        let c2 := { c with issued := true, xids := xs }
        let s1 := sendReads c d (lgOf s x) (putColl c c2 { s with nextXid := s.nextXid + vs.length })
        if vs.isEmpty then collFinish c2 s1
        else vs.zipIdx.foldl (fun w v =>
          sendSeries (sendSeriesOf s g d (lgOf s x) c.words v.1 (moduleOf p (ownerOf p v.1)) ((x0 + v.2) % 2 ^ 14)) w) s1
  | _, _, _ => s

/-! ### GATHER (R301) -/

/-- The body of a GATHER_REQ for one block: J_FIRST and a count of 1, the WALK, K, and the completion tally, whose
place in the body the model fixes. -/
def gatherBody (ws : List Nat) (b : Nat) : List Nat :=
  bytesOf 8 (b / 65536 % 2 ^ 24 + 2 ^ 24) ++ (List.range 8).flatMap (fun i => bytesOf 8 (wd ws (8 + i))) ++
    bytesOf 8 ((b - wf ws 1 0 40) % 2 ^ 24) ++ bytesOf 8 (wf ws 4 0 48)

/-- The ARG of an entry's gather of block `b`. -/
def gatherArg (ws : List Nat) (b : Nat) : Nat :=
  b % 65536 + wf ws 0 8 8 * 2 ^ 16 + wf ws 0 16 32 * 2 ^ 24 + wf ws 0 2 1 * 2 ^ 56

/-- GATHER (R301): the requests of the oldest entry of KIND 1 that waits are issued, one for each block, once its
engine books its CC (R300). Its end is seen by the tally adds that follow its blocks' data, which pass this member too where
a multicast lands nothing here. -/
def gatherIssue (n : Nat) (s : State) : State :=
  match collWaiting s n 1, ctxOf s n with
  | some c, some x =>
    match placeFor x (stepNext (wf c.words 0 16 32)) with
    | none => s
    | some p =>
      let d := c.idx % 4
      let k := engOf s (collEng d)
      if k.cls < collCc c then
        (if collCc c ≤ k.ask then s
         else askSluice (collRegion d) true (collEng d) (collCc c) (setEng (collEng d) { k with ask := collCc c } s))
      else
      let g := ctxTag s n c.step
      let bs := (List.range (wf c.words 1 40 24)).map (· + wf c.words 1 0 40)
      let owner (b : Nat) : Nat := moduleOf p (ownerOf p (b % 65536))
      let c2 := { c with issued := true, blocks := bs.foldl (fun m b => mapPut m (owner b) ((mapFind m (owner b)).getD 0 + 1)) [] }
      let s1 := putColl c c2 s
      let s2 := if bs.isEmpty then collFinish c2 s1 else s1
      bs.foldl (fun w b =>
        sendTrain (mkTrain s g 0 4 2 (owner b) 0 (gatherArg c.words b) (framesClean (gatherBody c.words b))) w) s2
  | _, _ => s

/-- GATHER (R301): the placement for the step after the generation wanted is loaded where it is not held, and the oldest
waiting entry issued under it. -/
def gatherSend (n : Nat) (s : State) : State :=
  match collWaiting s n 1 with
  | none => s
  | some c =>
    let r := needPlace n (stepNext (wf c.words 0 16 32)) s
    if r.1 then gatherIssue n r.2 else placeBad n r.2

/-! ### Answers -/

/-- A WRITE_ACK from a module for a NODE series (R303): the entry that waits for it is acknowledged. -/
def collAck (xid src : Nat) (s : State) : State :=
  match s.colls.find? (fun c => c.xids.contains (xid, src)) with
  | none => s
  | some c =>
    let d := { c with xids := c.xids.erase (xid, src) }
    if d.xids.isEmpty then collFinish d (putColl c d s) else putColl c d s

/-- Whether an entry awaits blocks of a gather. -/
def gathers (c : CollEntry) : Bool := c.issued && wf c.words 0 0 2 == 1

/-- The gather of a context with a tally. -/
def gatherOf (s : State) (n a : Nat) : Option CollEntry :=
  s.colls.find? (fun c => gathers c && c.ctx == n && wf c.words 4 0 48 == a)

/-- A tally add of a gather's data reached this module (R301): one block of the entry with that tally has landed. -/
def collLanded (n src a : Nat) (s : State) : State :=
  match gatherOf s n a with
  | none => s
  | some c =>
    let k := if (mapFind c.blocks src).isSome then src else ((c.blocks.head?).map (fun e => e.1)).getD 0
    let d := { c with blocks := mapSet 0 c.blocks k ((mapFind c.blocks k).getD 1 - 1) }
    if d.blocks.isEmpty then collFinish d (putColl c d s) else putColl c d s

/-- Whether a request of a gather may have been sent on to module `m` as the owner before the version that it was issued
under (R315, R320). -/
def maySentOn (s : State) (n m : Nat) (c : CollEntry) : Bool :=
  match (ctxOf s n).bind (movePair s) with
  | some (q, p) => wf c.words 0 16 32 == stepPrev q.eff &&
      (List.range (wf c.words 1 40 24)).any (fun i => moduleOf p (ownerOf p ((wf c.words 1 0 40 + i) % 65536)) == m)
  | none => false

/-- The gather of a context that has a request outstanding at a module, the oldest first; else one whose request has been
sent on there. -/
def gatherAt (s : State) (n m : Nat) : Option CollEntry :=
  match s.colls.find? (fun c => gathers c && c.ctx == n && (mapFind c.blocks m).isSome) with
  | some c => some c
  | none => s.colls.find? (fun c => gathers c && c.ctx == n && maySentOn s n m c)

/-- A DENY of a NODE series (R303). -/
def collDenied (xid src : Nat) (s : State) : State :=
  match s.colls.find? (fun c => c.xids.contains (xid, src)) with
  | some c => collEnd c 8 s
  | none => s

/-- Whether an entry awaits something of a module. -/
def collAwaits (m : Nat) (c : CollEntry) : Bool := c.xids.any (fun x => x.2 == m) || (mapFind c.blocks m).isSome

/-- The entries that await a module which is lost end with PEER_LOST (R300, R303). -/
def collsLost (m : Nat) (s : State) : State :=
  (s.colls.filter (collAwaits m)).foldl (fun t c => if t.colls.contains c then collEnd c 9 t else t) s

/-- Whether an entry is the one that sent a train of a NODE series (R303). -/
def ownsSeries (t : Train) (c : CollEntry) : Bool :=
  wf c.words 0 0 2 == 0 && wf c.words 0 8 8 == nU t && wf c.words 0 16 32 == t.step && wf c.words 1 0 20 == nA t &&
    wf c.words 1 20 5 == nLevel t && c.xids.any (fun x => x.2 == t.dst)

/-- Whether an entry is the one that sent a gather request (R301). -/
def ownsRequest (t : Train) (c : CollEntry) : Bool :=
  let b := gJ t * 65536 + nV t
  gathers c && wf c.words 0 8 8 == nU t && wf c.words 0 16 32 == gGen t && wf c.words 4 0 48 == gTally t &&
    decide (wf c.words 1 0 40 ≤ b ∧ b < wf c.words 1 0 40 + wf c.words 1 40 24)

/-- The entry of a context that owned a lost train ends with PEER_LOST (R277). -/
def collLost (n : Nat) (owns : CollEntry → Bool) (s : State) : State :=
  match s.colls.find? (fun c => c.ctx == n && owns c) with
  | some c => collEnd c 9 s
  | none => s

end Sys2Proof.Machine
end

