-- ==== Sys2Proof/Machine/Emb.lean ====
section
/-!
DEFINITION. The embankment protocol (R410 to R426, R433): joins, wardens, losses, and the recovery of a job.
-/

namespace Sys2Proof.Machine

/-- The protocol's state changed. -/
def modEmb (f : EmbSt → EmbSt) (s : State) : State := { s with emb := f s.emb }

/-- Whether this module takes part (R410). -/
def embOn (s : State) : Bool := rd s pgEmb R.EMB_STATUS_ID_SET == 1

/-- Whether this module is the warden of its cell. -/
def isWarden (s : State) : Bool := rd s pgEmb R.EMB_STATUS_WARDEN == 1

/-- The cell link to the module of index `c` in this module's cell (R273). -/
def cellLink (s : State) (c : Nat) : Nat := (c + 16 - idC (myId s) - 1) % 16

/-- The id of the module of index `c` in the cell of module `m`. -/
def cellMate (m c : Nat) : Nat := m / 16 * 16 + c % 16

/-- The partner module of a link, from its capability word where it has one (R274), else from the table of R273. -/
def partnerOf (s : State) (k : Nat) : Option Nat :=
  let c := rd s (pgLink k) R.LINK_PARTNER_CAPS
  if c ≠ 0 then some (bitsOf c 16 16) else (linkPartner (myId s) k).map (fun p => p.1)

/-- An EMB message to every module of the cell over its own cell link. -/
def toCell (op subject aux arg : Nat) (s : State) : State :=
  (List.range 15).foldl (fun t k =>
    match partnerOf t k with
    | some m => sendEmbOn k (embMsg t op m 0 0 subject aux arg []) t
    | none => t) s

/-! ### Joins (R279, R410) -/

/-- Whether the partner that a link's capability word names is the one of the link's role (R274). -/
def partnerFits (s : State) (k : Nat) : Bool :=
  let c := rd s (pgLink k) R.LINK_PARTNER_CAPS
  match linkPartner (myId s) k with
  | some (m, l) => bitsOf c 16 16 == m && bitsOf c 32 5 == l
  | none => false

/-- A FENCED link that has joined, whose partner is that of its role and whose FENCE is 0 comes UP; what waited for it goes out (R279, R295). -/
def tryUp (k : Nat) (s : State) : State :=
  if linkState s k = 3 ∧ (linkOf s k).joined ∧ partnerFits s k ∧ rd s (pgLink k) R.LINK_CTRL_FENCE = 0 ∧
      rd s pgPwr R.PWR_STATUS_STATE = 0 then
    retryPinned (pump k (wr (pgLink k) R.LINK_STATUS_STATE 4 s))
  else s

/-- An UP link returns to FENCED (R279): transfers with frames waiting for it end with PEER_LOST. -/
def fenceLink (k : Nat) (s : State) : State :=
  if linkUp s k then wr (pgLink k) R.LINK_STATUS_STATE 3 (spillLink k false s) else s

/-- The HELLO of a link from FENCED on (R410). -/
def helloSend (k : Nat) (s : State) : State :=
  if !embOn s || (linkState s k != 3 && linkState s k != 4) then s
  else
    let m := (partnerOf s k).getD 0
    sendEmbOn k (embMsg s 0 m 0 0 (rd s pgEmb R.EMB_WARDEN_ID)
      (b2n (linkOf s k).heard + rd s pgEmb R.EMB_CTRL_WARDEN_OK * 2) 0 []) s

/-! ### Elections (R412, R413) -/

/-- Whether this module is eligible: it takes part, its WARDEN_OK is 1, and a cell link of it has joined. -/
def eligible (s : State) : Bool :=
  embOn s && rd s pgEmb R.EMB_CTRL_WARDEN_OK == 1 && (List.range 15).any (fun k => (linkOf s k).joined)

/-- An eligible module enters an election (R412 point 1). -/
def startElection (s : State) : State :=
  if !eligible s || s.emb.contend.isSome then s
  else
    let e := max s.emb.seen (rd s pgEmb R.EMB_EPOCH) + 1
    let s1 := modEmb (fun x => { x with contend := some e, seen := max x.seen e }) s
    (List.range 15).foldl (fun t k =>
      match partnerOf t k with
      | some m => sendEmbOn k { embMsg t 1 m 0 0 (myId t) 0 0 [] with epoch := e } t
      | none => t) s1

/-- Whether a HELLO that has come on link `k` begins an election here (R412): the link is this module's first to join,
and it knows no warden yet; or the warden itself says that it is no longer eligible. -/
def helloElects (k : Nat) (e : EmbMsg) (s s1 : State) : Bool :=
  (decide (k < 15) && (linkOf s1 k).joined && !(linkOf s k).joined && rd s pgEmb R.EMB_EPOCH == 0) ||
    (rd s pgEmb R.EMB_EPOCH != 0 && e.src == rd s pgEmb R.EMB_WARDEN_ID && e.src != myId s && e.src / 16 == myId s / 16 && !bitSet e.aux 1)

/-- HELLO (R410): the partner's warden is learnt; one with ACK completes the join. -/
def helloIn (k : Nat) (e : EmbMsg) (s : State) : State :=
  let s1 := modLink k (fun l => { l with heard := true, warden := e.subject, joined := l.joined || bitSet e.aux 0 })
    (modEmb (fun x => { x with seen := max x.seen e.epoch }) s)
  let s2 := if (linkOf s1 k).joined then
      tryUp k (wr pgEmb R.EMB_LINKS_LOST (putBits (rd s1 pgEmb R.EMB_LINKS_LOST) k 1 0) s1)
    else s1
  if helloElects k e s s1 then startElection s2 else s2

/-- A contender withdraws when it hears of a lower module at an epoch no lower than its own (R412 point 2). -/
def withdraw (e : EmbMsg) (s : State) : State :=
  let own := s.emb.contend.getD (rd s pgEmb R.EMB_EPOCH)
  modEmb (fun x => { x with seen := max x.seen e.epoch,
                            contend := if e.src < myId s ∧ own ≤ e.epoch then none else x.contend }) s

/-- ELECT (R412): withdraw before a lower id; an eligible module below the sender contends as well. -/
def electIn (e : EmbMsg) (s : State) : State :=
  let s1 := withdraw e s
  if myId s < e.src ∧ rd s pgEmb R.EMB_EPOCH < e.epoch then startElection s1 else s1

/-- REGISTER sent to the warden for a context's job (R413): its coordinator is the root of the broadcast tree, its
alternate the lowest-indexed other member that is not SPARE. -/
def registerJob (n : Nat) (s : State) : State :=
  match ctxOf s n with
  | none => s
  | some x => match x.place with
    | none => s
    | some p => match memberIdx s p with
      | none => s
      | some i =>
        let alt := ((p.members.zipIdx).find? (fun m => !m.1.spare && m.2 != rootOf p)).map (fun m => m.1.module) |>.getD 0
        sendEmb (embMsg s 7 (rd s pgEmb R.EMB_WARDEN_ID) x.job 0 (moduleOf p (rootOf p)) i alt []) s

/-- REGISTER for every job that this module runs. -/
def registerAll (s : State) : State := s.ctxs.foldl (fun t e => registerJob e.1 t) s

/-- Loss reports held for a new warden are passed to it (R414). -/
def passHeld (s : State) : State :=
  let held := s.emb.losses.filter (fun l => l.held)
  let s1 := modEmb (fun x => { x with losses := x.losses.filter (fun l => !l.held) }) s
  held.foldl (fun t l => (l.by_.zip l.links).foldl (fun u b =>
    forwardTrain 32 { embTrain (embMsg u 3 (rd u pgEmb R.EMB_WARDEN_ID) 0 0 l.suspect b.2 0 []) with src := b.1 } u) t) s1

/-- A warden taken on (R412 point 4): its id and epoch are recorded, WARDEN_CHANGE raised, jobs registered with it. -/
def takeWarden (w epoch : Nat) (s : State) : State :=
  let s1 := wr pgEmb R.EMB_WARDEN_ID w (wr pgEmb R.EMB_EPOCH epoch (wr pgEmb R.EMB_STATUS_WARDEN (b2n (w == myId s)) s))
  let s2 := modEmb (fun x => { x with contend := none, seen := max x.seen epoch,
                                      lost := if rd s pgEmb R.EMB_EPOCH < epoch then [] else x.lost,
                                      regs := if w = myId s then x.regs else [] }) s1
  passHeld (registerAll (hostEvent evWardenChange pgEmb none w s2))

/-- WARDEN (R412): accepted at a higher epoch, or at the same epoch from a lower id. -/
def wardenIn (e : EmbMsg) (s : State) : State :=
  let s1 := withdraw e s
  let ep := rd s pgEmb R.EMB_EPOCH
  if ep < e.epoch ∨ (e.epoch = ep ∧ e.src < rd s pgEmb R.EMB_WARDEN_ID) then takeWarden e.src e.epoch s1 else s1

/-- A contender that heard no lower module takes the role and says so (R412 point 3). -/
def electionTimeout (s : State) : State :=
  match s.emb.contend with
  | none => s
  | some ep =>
    let s1 := takeWarden (myId s) ep s
    toCell 2 (myId s) 0 0 s1

/-- REGISTER at the warden (R413). -/
def registerIn (e : EmbMsg) (s : State) : State :=
  if !isWarden s then s
  else modEmb (fun x => { x with regs := x.regs.filter (fun r => !(r.module == e.src && r.job == e.job)) ++
    [⟨e.src, e.job, e.aux, e.subject, bitsOf e.arg 0 16⟩] }) s

/-! ### Losses (R411, R414) -/

/-- The cell links over which a warden relays a probe: those joined to the lowest modules of the cell that are neither
itself nor the suspect. -/
def relayLinks (s : State) (suspect n : Nat) : List Nat :=
  ((List.range 16).filter (fun c =>
    let k := cellLink s c
    c != idC (myId s) && cellMate (myId s) c != suspect && linkEmb s k && (linkOf s k).joined)).take n |>.map (cellLink s)

/-- The two probes of a suspect (R414): its own cell link and a relay, or two relays. -/
def probe (suspect nonce : Nat) (s : State) : State :=
  let k := cellLink s (idC suspect)
  let own := linkEmb s k && bitOf (rd s pgEmb R.EMB_LINKS_LOST) k == 0
  let ks := if own then k :: relayLinks s suspect 1 else relayLinks s suspect 2
  ks.foldl (fun t k => sendEmbOn k (embMsg t 4 suspect 0 0 suspect 0 nonce []) t) s

/-- A report of a loss (R414): the warden opens a case and probes, or adds the reporter to an open one, or answers for a
module already declared lost; another module holds it for the next warden. -/
def lossIn (e : EmbMsg) (s : State) : State :=
  let sus := e.subject
  if isWarden s && s.emb.lost.contains sus then sendEmb (embMsg s 6 e.src 0 0 sus 0 0 []) s
  else match s.emb.losses.find? (fun l => l.suspect == sus) with
    | some l =>
      modEmb (fun x => { x with losses := x.losses.map (fun y =>
        if y = l then { y with by_ := y.by_ ++ [e.src], links := y.links ++ [e.aux] } else y) }) s
    | none =>
      let nonce := s.emb.nonce
      let held := !isWarden s
      let s1 := modEmb (fun x => { x with losses := x.losses ++ [⟨sus, [e.src], nonce, held, [e.aux]⟩], nonce := x.nonce + 1 }) s
      if held then s1 else probe sus nonce s1

/-- PROBE at the suspect: answered to the warden that sent it. -/
def probeIn (e : EmbMsg) (s : State) : State := sendEmb (embMsg s 5 e.src 0 0 (myId s) 0 e.arg []) s

/-- PROBE_ACK (R414): the loss is a link loss only. -/
def probeAckIn (e : EmbMsg) (s : State) : State :=
  modEmb (fun x => { x with losses := x.losses.filter (fun l => !(l.suspect == e.subject && l.nonce == e.arg && !l.held)) }) s

/-- MODULE_LOST (R414): a probe without an answer decides the loss; LOST goes to the cell, the reporters and the
coordinators of the jobs registered for the suspect, and RECOVER to each such job's coordinator, or to its alternate
where the coordinator is the lost module. -/
def moduleLost (sus : Nat) (s : State) : State :=
  match s.emb.losses.find? (fun l => l.suspect == sus && !l.held) with
  | none => s
  | some l =>
    let s1 := recordEmb 1 none (bumpSat pgEmb R.EMB_DECISIONS 1
      (modEmb (fun x => { x with losses := x.losses.filter (fun y => y != l) }) s))
    let jobs := s.emb.regs.filter (fun r => r.module == sus)
    let cell := ((List.range 16).map (cellMate (myId s))).filter (fun m => m != sus)
    let roots := jobs.map (fun r => if r.root = sus then r.alt else r.root)
    let s2 := ((cell ++ l.by_ ++ roots).eraseDups).foldl (fun t m => sendEmb (embMsg t 6 m 0 0 sus 0 0 []) t) s1
    jobs.foldl (fun t r => sendEmb (embMsg t 8 (if r.root = sus then r.alt else r.root) r.job 0 sus 0 0 []) t) s2

/-- The barges that await a module end with PEER_LOST (R204); `n` bounds them. -/
def bargesLost (m : Nat) : Nat → State → State
  | 0, s => s
  | n + 1, s =>
    let hit := s.engines.findSome? (fun p => (p.2.jobs.findIdx? (fun j => (j.phase == 3 || j.phase == 5 || j.phase == 6) &&
      (if srcAway s j.words then bSrcMod j.words else bDstMod j.words) == m)).map (fun i => (p.1, i)))
    match hit with
    | some (e, i) => bargesLost m n (bargeFail e i 6 s)
    | none => s

/-- The mirror partner of a binding is lost (R237): MIRROR_LOST, and its waits end. At a spare whose shards are still
coming it is the second loss of a mirror pair (R425). -/
def mirrorLost (i m : Nat) (s : State) : State :=
  match bindAt s i with
  | none => s
  | some b =>
    if b.desc.mod ≠ m ∨ b.mirLost then s
    else
      let s1 := recordErr (pgUpd (i / 4)) 5 (some b.desc.ctx) (putBind i { b with mirLost := true, mirWait := [] } s)
      let s2 := if b.phase = 3 then setPhase i 4 s1 else s1
      let twice := b.spare && b.desc.shards.any (fun h => h.loading)
      -- a restore pending at the partner has no other copy (R235)
      if twice || !b.restore.isEmpty then
        (match ctxOf s2 b.desc.ctx with
         | some x => askRollback b.desc.ctx (lowestOpen s2 x) (if twice then recordEmb 7 (some b.desc.ctx) s2 else s2)
         | none => s2)
      else s2

/-- The coordinator and the alternate of a version are both lost (R421). -/
def headsLost (s : State) (p : Place) : Bool :=
  let alt := (p.members.zipIdx).find? (fun m => !m.1.spare && m.2 != rootOf p)
  s.emb.lost.contains (moduleOf p (rootOf p)) && (match alt with | some m => s.emb.lost.contains m.1.module | none => true)

/-- What the decision that a module is lost does here (R401, R414, R237): links to it are kept FENCED, transfers to it
end, bindings lose their mirror partner, and a job without coordinator and alternate halts. -/
def noteLost (m : Nat) (s : State) : State :=
  let s1 := modEmb (fun x => { x with lost := if x.lost.contains m then x.lost else x.lost ++ [m] }) s
  let s2 := foldUpTo 32 (fun k t =>
    if partnerOf t k = some m then
      modLink k (fun l => { l with joined := false, heard := false })
        (fenceLink k (wr pgEmb R.EMB_LINKS_LOST (putBits (rd t pgEmb R.EMB_LINKS_LOST) k 1 1) t))
    else t) s1
  let s3 := collsLost m (bargesLost m 2048 s2)
  let s4 := s3.binds.foldl (fun t e => mirrorLost e.1 m t) s3
  let s5 := s4.ctxs.foldl (fun t e => match e.2.place with
    | some p => if headsLost t p && !e.2.halted then jobHalted e.1 (errCode .emb 1) t else t
    | none => t) s4
  if m = rd s5 pgEmb R.EMB_WARDEN_ID ∧ m ≠ myId s5 ∧ m / 16 = myId s5 / 16 then startElection s5 else s5

/-- LOST (R414). -/
def lostIn (e : EmbMsg) (s : State) : State := noteLost e.subject s

/-- Whether a module has lost every cell link and every torus link (R411). -/
def isolated (s : State) : Bool := (List.range 27).all (fun k => !linkEmb s k)

/-- LIVE_TIMEOUT (R411, R414): a link that has joined goes DOWN and the loss is reported to the suspect's warden; an
isolated module halts its jobs instead. A partner that runs version 1 is a link loss only. -/
def liveTimeout (k : Nat) (s : State) : State :=
  let l := linkOf s k
  if !l.joined || !linkEmb s k then s
  else
    let v1 := linkV1 s k
    let sus := (partnerOf s k).getD 0
    let s1 := wr pgEmb R.EMB_LINKS_LOST (putBits (rd s pgEmb R.EMB_LINKS_LOST) k 1 1) (recordEmb 0 none s)
    let s2 := dropLink k s1
    if isolated s2 then s2.ctxs.foldl (fun t e => jobHalted e.1 (errCode .emb 0) t) s2
    else if v1 ∨ 31 ≤ k then s2
    else
      let dst := if l.warden = sus then cellMate sus (idC sus ^^^ 1) else l.warden
      let s3 := sendEmb (embMsg s2 3 dst 0 0 sus k 0 []) (bumpSat pgEmb R.EMB_LOSSES 1 s2)
      if sus = rd s pgEmb R.EMB_WARDEN_ID ∧ sus / 16 = myId s / 16 then startElection s3 else s3

/-! ### Replay, halt, rollback (R417, R426, R433) -/

/-- The context of a message's job here. -/
def embCtx (s : State) (e : EmbMsg) : Option (Nat × Ctx) :=
  (ctxOfJob s e.job).bind (fun n => (ctxOf s n).map (fun x => (n, x)))

/-- Whether a replay of step `t` has been broadcast and no work of it has started again here (R417). -/
def replayFresh (x : Ctx) (t : Nat) : Bool :=
  x.replayStep == t && x.replayCnt != 0 && !x.started.any (fun e => e.stepValid && stepLe t e.step)

/-- REPLAY_REQ at the coordinator (R417): one for a step whose replay has just been broadcast is the same request. -/
def replayReqIn (e : EmbMsg) (s : State) : State :=
  match embCtx s e with
  | some (n, x) => if !isRoot s x || replayFresh x e.step || x.halted then s else rootReplay n e.step s
  | none => s

/-- HALT (R426): the coordinator broadcasts a member's; every member halts its context of the job. -/
def haltIn (e : EmbMsg) (s : State) : State :=
  match embCtx s e with
  | some (n, x) =>
    if isRoot s x && x.halted then s
    else jobHalted n e.aux (toChildren x 13 0 e.subject e.aux 0 [] s)
  | none => s

/-- The coordinator broadcasts ROLLBACK with the least LIMIT it has received for the job (R433). -/
def rollbackReqIn (e : EmbMsg) (s : State) : State :=
  match embCtx s e with
  | some (n, x) =>
    if !isRoot s x then s
    else
      let limit := match mapFind s.emb.limits e.job with | some l => if stepLe l e.arg then l else e.arg | none => e.arg
      rootRollback n (limit % 2 ^ 32) (modEmb (fun y => { y with limits := mapPut y.limits e.job limit }) s)
  | none => s

/-- ROLLBACK (R433): passed down the tree; the member holds at its next step boundary. -/
def rollbackIn (e : EmbMsg) (s : State) : State :=
  match embCtx s e with
  | some (n, x) => modCtx n (fun x => { x with prep := false })
      (holdForRollback n (toChildren x 14 0 0 0 e.arg [] s))
  | none => s

/-! ### Recovery (R421 to R425) -/

/-- A member of a version by its module. -/
def memberOfModule (p : Place) (m : Nat) : Option Nat := p.members.findIdx? (fun x => x.module == m)

/-- The spare of a version: the lowest-indexed SPARE member not declared lost in the present epoch (R421). -/
def spareOf (s : State) (p : Place) (lost : Nat) : Option Nat :=
  (p.members.find? (fun m => m.spare && m.module != lost && !s.emb.lost.contains m.module)).map (fun m => m.module)

/-- A version with the MODULE, POLDER and GEN of the lost member's and the spare's entries exchanged (R421). -/
def exchange (p : Place) (lost spare : Nat) : Place :=
  match p.members.find? (fun m => m.module == lost), p.members.find? (fun m => m.module == spare) with
  | some a, some b => { p with members := p.members.map (fun m =>
      if m.module = lost then { m with module := b.module, polder := b.polder, gen := b.gen }
      else if m.module = spare then { m with module := a.module, polder := a.polder, gen := a.gen } else m) }
  | _, _ => p

/-- The recovery of a job under way here. -/
def recovOf (s : State) (job : Nat) : Option Recovery := s.emb.recov.find? (fun r => r.job == job)

/-- A recovery recorded. -/
def putRecov (r : Recovery) (s : State) : State :=
  modEmb (fun x => { x with recov := x.recov.filter (fun y => y.job != r.job) ++ [r] }) s

/-- A recovery ended. -/
def dropRecov (job : Nat) (s : State) : State := modEmb (fun x => { x with recov := x.recov.filter (fun y => y.job != job) }) s

/-- The later of two steps. -/
def stepMax (a b : Nat) : Nat := if stepLe a b then b else a

/-- The highest step whose job verdict a member holds (R423); the one before its first step where it holds none. -/
def highVerdict (s : State) (x : Ctx) : Nat := x.verds.foldl (fun a v => stepMax a v.step) (lastReport s x)

/-- The highest GEN among a member's shard parts (R423); the step before its first where it has none. -/
def highGen (s : State) (n : Nat) (x : Ctx) : Nat :=
  (bindsOf s n).foldl (fun a e => (e.2.desc.shards.filter (fun h => !h.loading)).foldl (fun a h =>
    (List.range e.2.desc.groups.length).foldl (fun a u => stepMax a (gwGen (genWord s h u))) a) a) (stepPrev (startStep s x))

/-- DURABLE (R423): none where the mirror holds nothing, which is reported as a step before the job's first, so that the
shard set counts as lost; else the least generation in the current slots of the parts mirrored here for a job. -/
def leastMirror (s : State) (job : Nat) : Option Nat :=
  (s.mirrors.filter (fun m => m.job == job && m.cur.isSome)).foldl (fun a m =>
    some (match a with | some g => if stepLe g (gwGen m.genW) then g else gwGen m.genW | none => gwGen m.genW)) none

/-- The words of a catch-up step that REPLAY carries (R424): its verdict, E and B, the noise before it, and the optimiser
count that its update reads. -/
def catchWords (s : State) (n : Nat) (x : Ctx) (t : Nat) : List Nat :=
  match x.verds.find? (fun v => v.step == t) with
  | none => []
  | some v =>
    let count := match (bindsOf s n).head? with
      | some e =>
        let last := if e.2.phase = 5 then e.2.updStep else stepPrev e.2.updStep
        urd s R.UPD_BIND_OPT_COUNT e.1 - (x.verds.filter (fun w => stepLe t w.step && stepLe w.step last && !w.overflow)).length
      | none => 0
    [t, v.gradSq, v.groupSq, v.updSq, v.groupN, v.nonfinite, v.crc, b2n v.overflow, v.e, v.b, v.bn, count]

/-- The records of an incoming shard laid out from a template entry (R422). -/
def laidShards (b : BindDesc) (vs : List Nat) (base gen : Nat) : List Shard :=
  let nbOf (v : Nat) : Nat := partHi b v (b.groups.length - 1) - partLo b v 0
  (vs.foldl (fun (a : List Shard × Nat × Nat) v =>
    (a.1 ++ [⟨v, nbOf v, true, a.2.1, a.2.2⟩], a.2.1 + nbOf v * recStride b, a.2.2 + 8 * b.groups.length))
    (([] : List Shard), base, gen)).1

/-- The words of a shard table (R220). -/
def tableWords (hs : List Shard) : List Nat :=
  hs.flatMap (fun h => [h.v + h.nb * 2 ^ 16 + b2n h.loading * 2 ^ 40, h.base, h.gen, 0])

/-- A spare's binding takes the incoming shards of the member whose place it takes (R422). -/
def spareBind (i idx r : Nat) (p : Place) (s : State) : State :=
  match bindAt s i with
  | none => s
  | some b =>
    let tmpl := b.desc.shards.headD ⟨0, 0, true, 0, 0⟩
    let vs := (List.range 8192).map (fun j => j * 8 + i / 4) |>.filter (fun v => ownerOf p v == idx)
    let hs := laidShards b.desc vs tmpl.base tmpl.gen
    let d := { b.desc with shards := hs }
    let s1 := dramWrite b.desc.table ((tableWords hs).flatMap (bytesOf 8)) false s
    putBind i { b with desc := d, migIn := [], spare := true, sums := .zero r, up := false } s1

/-- A member's copy of the version in force after a substitution (R421), in memory too; a version linked behind it is
dropped. -/
def substitute (n lost spare : Nat) (s : State) : State :=
  match ctxOf s n with
  | none => s
  | some x => match x.place with
    | none => s
    | some p =>
      let q := exchange p lost spare
      let next := wf (dramWords s p.addr 8) 4 0 48
      let q2 := { q with version := p.version + 1, next := 0 }
      let ms := q.members.flatMap (fun m => [m.module + m.polder * 2 ^ 16 + m.gen * 2 ^ 24 + b2n m.dp * 2 ^ 40 + b2n m.spare * 2 ^ 41,
        m.mirror + m.parent * 2 ^ 16])
      let w0 := dramWord s p.addr
      let s1 := dramWrite (wf (dramWords s p.addr 8) 2 0 48) (ms.flatMap (bytesOf 8)) false s
      let s2 := dramPutWord (p.addr + 32) 0 (dramPutWord p.addr (putBits w0 16 32 (p.version + 1)) s1)
      let s3 := setCtx n { x with place := some q2, placeNext := none } s2
      let s4 := if next ≠ 0 ∨ x.placeNext.isSome then hostEvent evVersionDropped pgEmb (some n) 0 s3 else s3
      registerJob n s4

/-- The mirror partner of a lost member streams its current slots to the spare (R422). -/
def streamMirrors (n job spare : Nat) (s : State) : State :=
  (s.mirrors.filter (fun m => m.job == job)).foldl (fun t m =>
    match mirrorRestore t n spare m.v m.u job with
    | some ts => sendSeries ts t
    | none => t) s

/-- What a substitution does to this member's engines (R422, R237). -/
def substEngines (n lost spare idx r : Nat) (s : State) : State :=
  match ctxOf s n with
  | none => s
  | some x => match x.place with
    | none => s
    | some p =>
      let s1 := if spare = myId s then (bindsOf s n).foldl (fun t e => spareBind e.1 idx r p t) s else s
      let s2 := (bindsOf s1 n).foldl (fun t e =>
        if e.2.desc.mod = lost ∧ spare ≠ myId s then
          mirrorAll e.1 (modBind e.1 (fun b => { b with desc := { b.desc with mod := spare }, mirLost := false, mirWait := [] }) t)
        else t) s1
      match memberAt p idx with
      | some m => if moduleOf p m.mirror = myId s ∧ spare ≠ myId s then streamMirrors n x.job spare s2 else s2
      | none => s2

/-- The catch-up steps that a REPLAY carries. -/
def catchUps : Nat → List Nat → List (Nat × List Nat)
  | 0, _ => []
  | k + 1, ws => if ws.length < 12 then [] else (ws.headD 0, (ws.drop 1).take 11) :: catchUps k (ws.drop 12)

/-- REPLAY (R419, R424): passed down the tree and acted on; one with a substitution carries in its body the lost module,
the resume step and the catch-up steps, in an order that the model fixes. -/
def replayIn (e : EmbMsg) (s : State) : State :=
  match embCtx s e with
  | none => s
  | some (n, x) =>
    match e.extra with
    | lost :: r :: rest =>
      let idx := (x.place.bind (fun p => memberOfModule p lost)).getD 0
      let s1 := substitute n lost e.subject s
      let s2 := match ctxOf s1 n with
        | some y => toChildren y 11 e.step e.subject 0 e.arg e.extra s1
        | none => s1
      let s3 := substEngines n lost e.subject idx r s2
      let s4 := modCtx n (fun y => { y with catchUp := catchUps 8 rest }) (doReplay n r (dropRecov e.job s3))
      retryPinned (hostEvent evJobRecovered pgEmb (some n) e.subject (modCtx n (fun y => { y with prep := false }) s4))
    | _ => doReplay n e.step (toChildren x 11 e.step e.subject 0 e.arg [] s)

/-- The job halted by its coordinator (R426). -/
def rootHalt (n code : Nat) (s : State) : State :=
  match ctxOf s n with
  | some x => jobHalted n code (toChildren x 13 0 (myId s) code 0 [] s)
  | none => s

/-- The coordinator's decision once every answer and DURABLE have come (R423, R424): REPLAY with the substitution, or
SHARD_LOST and a rollback. -/
def recoverDecide (n : Nat) (r : Recovery) (s : State) : State :=
  match ctxOf s n, r.durable with
  | some x, some d =>
    if !r.wait.isEmpty then s
    else
      let t := stepNext r.verd
      let res := stepNext d
      if stepLe r.gen res then
        let steps := (List.range ((t + 2 ^ 32 - res) % 2 ^ 32 % 8)).map (fun i => (res + i) % 2 ^ 32)
        let extra := r.lost :: res :: steps.flatMap (catchWords s n x)
        replayIn (embMsg s 11 (myId s) r.job t r.spare 0 t extra) s
      else
        rootRollback n (lowestOpen s x) (modCtx n (fun y => { y with prep := false }) (recordEmb 7 (some n) (dropRecov r.job s)))
  | _, _ => s

/-- The version under which a recovery's messages travel: that with the spare in the lost member's place. -/
def recovPlace (x : Ctx) (r : Recovery) : Option Place := x.place.map (fun p => exchange p r.lost r.spare)

/-- A member's answer goes up once every child has answered (R423), or at the coordinator is decided on. -/
def answerUp (n : Nat) (r : Recovery) (s : State) : State :=
  match ctxOf s n with
  | none => s
  | some x => match recovPlace x r with
    | none => s
    | some q =>
      if !r.wait.isEmpty then putRecov r s
      else match memberIdx s q with
        | none => s
        | some i =>
          if i = rootOf q then recoverDecide n r (putRecov r s)
          else match memberAt q i with
            | some m => sendEmb (embMsg s 10 (moduleOf q m.parent) r.job 0 0 0 (r.verd % 2 ^ 32 + r.gen % 2 ^ 32 * 2 ^ 32) []) (putRecov r s)
            | none => s

/-- A member prepares for REPLAY (R423): it starts no segment of the job, passes REPLAY_PREP on, and answers; the lost
member's mirror partner sends DURABLE. -/
def prepare (n lost : Nat) (s : State) : State :=
  match ctxOf s n with
  | none => s
  | some x => match x.place with
    | none => s
    | some p => match spareOf s p lost, memberOfModule p lost with
      | some spare, some li =>
        let q := exchange p lost spare
        match memberIdx s q with
        | none => s
        | some i =>
          let r : Recovery := ⟨x.job, lost, spare, childrenOf q i, highVerdict s x, highGen s n x, none⟩
          let s1 := modCtx n (fun y => { y with prep := true }) s
          let s2 := (childrenOf q i).foldl (fun t c => sendEmb (embMsg t 9 (moduleOf q c) x.job 0 lost 0 0 []) t) s1
          let partner := match memberAt q li with | some m => moduleOf q m.mirror | none => 0
          let s3 := if partner = myId s then
              (match leastMirror s x.job with
               | some g => sendEmb (embMsg s2 15 (moduleOf q (rootOf q)) x.job 0 lost 0 g []) s2
               | none => sendEmb (embMsg s2 15 (moduleOf q (rootOf q)) x.job 0 lost 0 ((startStep s x + 2 ^ 32 - 3) % 2 ^ 32) []) s2)
            else s2
          answerUp n r s3
      | _, _ => s

/-- RECOVER (R421): the coordinator, or the alternate for it, selects the spare and sends REPLAY_PREP down the tree; with
no spare the job halts. -/
def recoverIn (e : EmbMsg) (s : State) : State :=
  match embCtx s e with
  | none => s
  | some (n, x) => match x.place with
    | none => s
    | some p =>
      let s0 := modEmb (fun y => { y with lost := if y.lost.contains e.subject then y.lost else y.lost ++ [e.subject] }) s
      if (memberOfModule p e.subject).isNone ∨ (recovOf s e.job).any (fun r => r.lost == e.subject) then s0
      else match spareOf s0 p e.subject with
        | none => rootHalt n (errCode .emb 9) (recordEmb 9 (some n) s0)
        | some spare =>
          let q := exchange p e.subject spare
          if memberIdx s0 q = some (rootOf q) then prepare n e.subject s0
          else sendEmb (embMsg s0 9 (moduleOf q (rootOf q)) e.job 0 e.subject 0 0 []) s0

/-- REPLAY_PREP (R423). -/
def replayPrepIn (e : EmbMsg) (s : State) : State :=
  match embCtx s e with
  | some (n, _) => prepare n e.subject (modEmb (fun y => { y with lost := if y.lost.contains e.subject then y.lost else y.lost ++ [e.subject] }) s)
  | none => s

/-- PREP_ANSWER (R423): a child's maxima are combined with the member's own. -/
def prepAnswerIn (e : EmbMsg) (s : State) : State :=
  match embCtx s e, recovOf s e.job with
  | some (n, x), some r => match recovPlace x r with
    | some q =>
      let c := r.wait.find? (fun i => moduleOf q i == e.src)
      match c with
      | some c => answerUp n { r with wait := r.wait.erase c, verd := stepMax r.verd (bitsOf e.arg 0 32),
                                      gen := stepMax r.gen (bitsOf e.arg 32 32) } s
      | none => s
    | none => s
  | _, _ => s

/-- DURABLE at the coordinator (R423). -/
def durableIn (e : EmbMsg) (s : State) : State :=
  match embCtx s e, recovOf s e.job with
  | some (n, _), some r => if r.lost = e.subject then
      (let r2 := { r with durable := some (e.arg % 2 ^ 32) }
       recoverDecide n r2 (putRecov r2 s)) else s
  | _, _ => s

/-! ### Messages -/

/-- The EMB message that a train carries (R415). -/
def embOf (t : Train) : EmbMsg :=
  let w := bodyWord t 0
  ⟨t.op, t.src, t.dst, t.job, t.step, bitsOf w 0 32, bitsOf w 32 16, bitsOf w 48 16, bodyWord t 1,
    (List.range ((bodyNats t).length / 8 - 2)).map (fun i => bodyWord t (i + 2))⟩

/-- An EMB message addressed to this module, on the link it came on (32: from this module). -/
def embIn (k : Nat) (e : EmbMsg) (s : State) : State :=
  if !embOn s then s
  else match e.op with
    | 0 => if k < 32 then helloIn k e s else s
    | 1 => electIn e s
    | 2 => wardenIn e s
    | 3 => lossIn e s
    | 4 => probeIn e s
    | 5 => probeAckIn e s
    | 6 => lostIn e s
    | 7 => registerIn e s
    | 8 => recoverIn e s
    | 9 => replayPrepIn e s
    | 10 => prepAnswerIn e s
    | 11 => replayIn e s
    | 12 => replayReqIn e s
    | 13 => haltIn e s
    | 14 => rollbackIn e s
    | 15 => durableIn e s
    | 16 => rollbackReqIn e s
    | _ => s

end Sys2Proof.Machine
end

