-- ==== Sys2Proof/Machine/Deliver.lean ====
section
/-!
DEFINITION. Trains at their destination: the consumer of each operation (R204, R286, R301, R364), what a lost transfer
ends (R277, R279), and the settling of everything that a command sets in motion on this module.
-/

namespace Sys2Proof.Machine

/-- The context that serves a train, by its job. -/
def trainCtx (s : State) (t : Train) : Option Nat := ctxOfJob s t.job

/-- Whether all of `n` bytes from `a` have backing, by granule. -/
def granBacked (s : State) (a n : Nat) : Bool := (granulesOf a n).all (fun g => (locate s g.1).isSome)

/-- The sections that `n` bytes from a device-DRAM address lie in. -/
def sectsOf (a n : Nat) : List Nat :=
  if n = 0 then [] else (List.range ((a + n - 1) / 2 ^ 30 - a / 2 ^ 30 + 1)).map (· + a / 2 ^ 30)

/-- WRITE served (R204, R290 point 3): outside the polder's sections it is denied; an unbacked place is an error of the
barge, and so is a section of another class than the one that a barge expects (R198; log 89). A write that asks for no
acknowledgement is a barge's CRC: where the tally before it has no backing either, both are discarded (R199). -/
def writeIn (t : Train) (s : State) : State :=
  match trainCtx s t with
  | none => s
  | some n =>
    let len := (bodyNats t).length
    let xid := t.arg % 2 ^ 14
    let cls := bitsOf t.arg 15 2
    let ofCrc := !bitSet t.arg 14 && len == 8
    let refuse (code : Nat) (u : State) : State :=
      denyTrain (some n) t xid code (if ofCrc then { u with crcDenied := u.crcDenied ++ [(t.src, t.addr - 8)] } else u)
    if (match ctxOf s n with | some x => !inSections s x.polder t.addr len | none => true) then refuse (errCode .barge 4) s
    else if !granBacked s t.addr len || (ofCrc && !granBacked s (t.addr - 8) 8) then
      refuse codeUnmapped (noteUnmapped (some n) s)
    else if cls != 0 && (sectsOf t.addr len).any (fun i => (sectOf s i).cls + 1 != cls) then refuse (errCode .barge 2) s
    else
      let s1 := landDram t.addr t.bodies s
      if bitSet t.arg 14 then ackTrain n t xid s1 else s1

/-- READ_REQ served (R204): the bytes return as READ_RESP trains. -/
def readReqIn (t : Train) (s : State) : State :=
  match trainCtx s t with
  | none => s
  | some n =>
    let len := t.arg % 2 ^ 40
    let dst := bitsOf (bodyWord t 0) 0 48
    let xid := bitsOf (bodyWord t 0) 48 14
    if (match ctxOf s n with | some x => !inSections s x.polder t.addr len | none => true) then
      denyTrain (some n) t xid (errCode .barge 4) s
    else if !granBacked s t.addr len then denyTrain (some n) t xid codeUnmapped (noteUnmapped (some n) s)
    else
      let step := if t.stepValid then some t.step else none
      let s1 := dramFetch t.addr len (some n) step s
      let bs := (dramBulk s t.addr len).zipIdx.map (fun b => (b.1, dramPoisoned s (t.addr + b.2) 1))
      sendSeries (dataTrains s (ctxTag s n step) 2 1 t.src dst xid bs) s1

/-- The module that serves or writes to a waiting barge. -/
def bargePeer (s : State) (xid : Nat) : Option Nat :=
  (bargeByXid s xid).bind (fun p => ((engOf s p.1).jobs[p.2]?).map (fun j =>
    if srcAway s j.words then bSrcMod j.words else bDstMod j.words))

/-- WRITE_ACK: of a barge's write, or of a NODE series (R199, R303). -/
def writeAckIn (t : Train) (s : State) : State :=
  let xid := t.arg % 2 ^ 14
  if bargePeer s xid = some t.src then bargeAck xid s else collAck xid t.src s

/-- A binding that awaits a restore of its mirror partner. -/
def restoring (s : State) (n m : Nat) : Bool := (bindsOf s n).any (fun e => e.2.desc.mod == m && !e.2.restore.isEmpty)

/-- DENY (R204, R235, R286, R303): by its code and transfer id it ends a gather, a scatter's context, a barge, a
collective entry, or a restore that the partner cannot give. One that refuses a TALLY_ADD, which has no transfer id, names
the tally's address (log 90). -/
def denyIn (t : Train) (s : State) : State :=
  let xid := t.arg % 2 ^ 14
  let code := bitsOf t.arg 16 16
  match trainCtx s t with
  | none => s
  | some n =>
    if code = errCode .upd 3 then
      (match gatherAt s n t.src with | some c => collEnd c 10 s | none => s)
    else if code = errCode .upd 4 then ctxFatal n code s
    else if code = codeUnmapped ∧ (bargeByTally s t.src t.addr).isSome then
      (match bargeByTally s t.src t.addr with | some (e, i) => bargeFail e i 1 s | none => s)
    else if bargePeer s xid = some t.src then bargeDenied xid code s
    else if s.colls.any (fun c => c.xids.contains (xid, t.src)) then collDenied xid t.src s
    else if restoring s n t.src then
      (match ctxOf s n with | some x => askRollback n (lowestOpen s x) s | none => s)
    else match gatherAt s n t.src with
      | some c => collEnd c 8 s
      | none => s

/-! ### Gather data (R301) -/

/-- The members that gather data goes on to from here: every tree neighbour but the one it came from; data that the
former owner sent to the shard's owner here goes into the whole tree (R315). -/
def mcastOn (s : State) (p : Place) (inject : Bool) (src : Nat) : List Nat :=
  (treeModules s p).filter (fun m => inject || m != src)

/-- A train passed on to the members of a list, as this module's own (R290, R301). -/
def passOn (n : Nat) (t : Train) (ms : List Nat) (s : State) : State :=
  let g := ctxTag s n none
  ms.foldl (fun u m => sendTrain { t with src := myId s, dst := m, polder := g.polder, gen := g.gen } u) s

/-- The error that writing an address raises in a collective entry, if any. -/
def landErr (s : State) (a : Nat) : Bool := (dstErr s [] a).isSome

/-- Gather bytes written frame by frame at their destination. -/
def landAll (a : Nat) : List FrameBody → State → State
  | [], s => s
  | b :: bs, s => landAll (a + b.bytes.length) bs (devWrite a (b.bytes.map (fun x => x.toNat)) b.poison s)

/-- GATHER_DATA (R301): written where this member takes it, passed on where it is multicast. A destination that cannot be
written ends the entry with ADDR_UNMAPPED. -/
def gatherDataIn (k : Nat) (t : Train) (s : State) : State :=
  match trainCtx s t with
  | none => s
  | some n =>
    match ctxOf s n with
    | none => s
    | some x =>
      let place := placeFor x (stepNext (gGen t))
      let land (u : State) : State :=
        if (bodyNats t).isEmpty then u
        else if landErr u t.addr then
          (match gatherAt u n t.src with | some c => collEnd c 11 (noteUnmapped (some n) u) | none => noteUnmapped (some n) u)
        else landAll t.addr t.bodies u
      if !gMcast t then land { s with mcast := s.mcast.filter (fun m => m.1 != t.src) }
      else match place with
        | none => s
        | some p =>
          let inject := memberIdx s p == some (ownerOf p (nV t)) && t.src != myId s
          let s1 : State := { s with mcast := s.mcast.filter (fun m => m.1 != t.src) ++ [(t.src, inject, stepNext (gGen t))] }
          let s2 := if k = 32 then s1 else passOn n t (mcastOn s p inject t.src) s1
          if isDp s p then land s2 else s2

/-- The TALLY_ADD behind a block of gather data that landed here (R301): a tally without backing ends its entry with
ADDR_UNMAPPED (R300). -/
def blockLanded (n : Nat) (t : Train) (s : State) : State :=
  if (locate s t.addr).isSome then collLanded n t.src t.addr (tallyAdd t.addr t.arg s)
  else match gatherOf s n t.addr with
    | some c => collEnd c 11 (noteUnmapped (some n) s)
    | none => noteUnmapped (some n) s

/-- TALLY_ADD from a train (R354): the add; after gather data it counts a landed block, and follows a multicast in the tree
that its data took (R301). A barge's add to a tally without backing, or behind a CRC that was refused, is discarded
(R199). -/
def tallyIn (k : Nat) (t : Train) (s : State) : State :=
  match trainCtx s t with
  | none => s
  | some n =>
    match ctxOf s n with
    | none => s
    | some x =>
      let add (u : State) : State :=
        if (locate u t.addr).isSome then tallyAdd t.addr t.arg u else noteUnmapped (some n) u
      if t.vc ≠ 3 then
        (if s.crcDenied.contains (t.src, t.addr) then { s with crcDenied := s.crcDenied.erase (t.src, t.addr) }
         else if (locate s t.addr).isSome || t.vc != 0 then add s
         else sendTrain { denialOf s (some n) t 0 codeUnmapped with addr := t.addr } (noteUnmapped (some n) s))
      else match s.mcast.find? (fun m => m.1 == t.src) with
        | some m =>
          (match placeFor x m.2.2 with
           | some p =>
             let s1 := if k = 32 then s else passOn n t (mcastOn s p m.2.1 t.src) s
             if isDp s p then blockLanded n t s1 else collLanded n t.src t.addr s1
           | none => s)
        | none => blockLanded n t s

/-- MIRROR with the check of its place (R290 point 3), which lies in the stack's own sections of class correct (R215). -/
def mirrorTake (t : Train) (s : State) : State :=
  match (trainCtx s t).bind (fun n => (ctxOf s n).map (fun x => (n, x))) with
  | none => s
  | some (n, x) =>
    let len := (bodyNats t).length
    if inSections s x.polder t.addr len && ownSects s (nV t % 8) t.addr len then mirrorIn t s
    else denyTrain (some n) t 0 (errCode .barge 4) s

/-! ### Consumers -/

/-- A whole train at its consumer, on the link it came on (32: from this module). -/
def deliver (k : Nat) (t : Train) (s : State) : State :=
  match t.type, t.op with
  | 4, _ => embIn k (embOf t) s
  | 6, 0 => nodeIn k t s
  | 1, 0 => tallyIn k t s
  | 0, 0 => writeIn t s
  | 0, 1 => readReqIn t s
  | 0, 2 => bargeData (t.arg % 2 ^ 14) t.addr (bodyBytes t) s
  | 0, 3 => writeAckIn t s
  | 0, 4 => gatherIn k false t s
  | 0, 5 => gatherDataIn k t s
  | 0, 6 => gatherIn k true t s
  | 0, 7 => scatterIn t s
  | 0, 8 => mirrorTake t s
  | 0, 9 => mirrorEndIn t s
  | 0, 10 => mirrorSkipIn t s
  | 0, 11 => mirrorAckIn t s
  | 0, 12 => verdictUpIn t s
  | 0, 13 => verdictDownIn t s
  | 0, 15 => denyIn t s
  | 0, 16 => restoreIn t s
  | _, _ => s

/-- Whether a train's job here is being torn down (R364). -/
def tearing (s : State) (n : Nat) : Bool := ctxState s n == stTearing

/-- Whether a train is a SCATTER, which a torn-down job drops under STALE_DROP (R320). -/
def isScatter (t : Train) : Bool := t.type == 0 && t.op == 7

/-- Whether a train of TYPE 0, 1 or 6 is one that a refusal answers with DENY (R290, R364). -/
def denies (t : Train) : Bool := t.vc == 0 || t.vc == 2

/-- The transfer id that a request carries. -/
def reqXid (t : Train) : Nat := if t.type = 0 ∧ t.op = 1 then bitsOf (bodyWord t 0) 48 14 else if t.type = 0 ∧ t.op = 0 then t.arg % 2 ^ 14 else 0

/-- A train of this module's own that is served here: a torn-down job refuses it (R364). -/
def deliverOwn (t : Train) (s : State) : State :=
  if t.type = 4 then deliver 32 t s
  else match trainCtx s t with
    | none => if denies t then denyTrain none t (reqXid t) (errCode .barge 4) s else s
    | some n =>
      if tearing s n then
        (if denies t && !isScatter t then denyTrain (some n) t (reqXid t) (errCode .barge 4) s else s)
      else deliver 32 t s

/-! ### Checks of arriving trains (R290, R364) -/

/-- The frames of a train. -/
def frameCount (t : Train) : Nat := max 1 t.bodies.length

/-- Whether a placement records a member's generation. -/
def placeGen (p : Option Place) (t : Train) : Bool :=
  match p with
  | some q => q.members.any (fun m => m.module == t.src && m.polder == t.polder && m.gen == t.gen)
  | none => false

/-- Whether a train's generation is one that a version held here records for its member (R290 point 2, R311). -/
def genKnown (x : Ctx) (t : Train) : Bool :=
  (x.place.isNone && x.placeNext.isNone) || placeGen x.place t || placeGen x.placeNext t || placeGen x.placeOld t

/-- STALE_DROP (R290): the train is discarded and counted, its credits return with CUM_STALE. -/
def staleDrop (k : Nat) (t : Train) (s : State) : State :=
  let n := frameCount t
  let vc := frameVc t
  countE (pgLink k) 0x85 0 n none (bumpSat (pgLink k) R.LINK_STALE_DROPS 1
    (modLink k (fun l => { l with stale := mapSet 0 l.stale vc (mapGet 0 l.stale vc + n) }) s))

/-- A train from a polder checked in the order of R290, or of R364 where its context is being torn down, then
consumed. -/
def checkedTrain (k : Nat) (t : Train) (s : State) : State :=
  match ctxOfJob s t.job with
  | none =>
    if denies t then denyTrain none t (reqXid t) (errCode .barge 4) s
    else bumpSat (pgLink k) R.LINK_BAD_FRAMES (frameCount t) s
  | some n =>
    let s1 := countLink false t.type t.job (t.bodies.foldl (fun a b => a + b.bytes.length) 0) s
    if tearing s n then
      (if denies t && !isScatter t then denyTrain (some n) t (reqXid t) (errCode .barge 4) s1
       else bumpSat (pgCtx n) R.CTX_TD_DROPPED 1 (staleDrop k t s1))
    else match ctxOf s n with
      | some x => if genKnown x t then deliver k t s1 else staleDrop k t s1
      | none => s1

/-- The fields that a tag extension carries put back, and the body without it (R282). -/
def unext (t : Train) : Train :=
  let ext := (bodyNats t).take 16
  let w1 := ofBytes (ext.take 8)
  { t with polder := bitsOf w1 0 8, gen := bitsOf w1 8 16, step := bitsOf w1 24 32, arg := ofBytes (ext.drop 8),
           bodies := t.bodies.map (fun b => { b with len := b.len - 16, bytes := b.bytes.drop 16 }) }

/-- A whole train that has reached this module on a link: forwarded, whose frames keep their buffers until they are sent
on, or checked and consumed (R287, R290, R293); or held behind a contribution to a LOADING shard (R316). -/
def arrive (k : Nat) (t : Train) (s : State) : State :=
  if waitsBehind s k t then { holdTrain k t s with behind := s.behind ++ [(k, t)] }
  else if t.dst ≠ myId s then forwardTrain k t (holdTrain k t s)
  else if t.type = 4 then deliver k t s
  else checkedTrain k t s

/-! ### Lost transfers (R204, R277, R279) -/

/-- A transfer of this module whose train is lost ends with PEER_LOST: a barge, a collective entry, a verdict's step; a
migration stream is to be sent anew (R320); a restore that was asked for can not come (R235); a mirror partner is lost
(R237). Data served to another module is a transfer of that module, which learns of the loss itself. -/
def lostTrain (t : Train) (s : State) : State :=
  if t.src ≠ myId s then s
  else
    let barge (xid : Nat) : State := match bargeByXid s xid with | some (e, i) => bargeFail e i 6 s | none => s
    match t.type, t.op with
    | 0, 0 => barge (t.arg % 2 ^ 14)
    | 0, 1 => barge (bitsOf (bodyWord t 0) 48 14)
    | 1, _ => (match bargeByTally s t.dst t.addr with
        | some (e, i) => if t.vc = 0 then bargeFail e i 6 s else s
        | none => s)
    | 0, 4 => (match trainCtx s t with | some n => collLost n (ownsRequest t) s | none => s)
    | 6, _ => (match trainCtx s t with | some n => collLost n (ownsSeries t) s | none => s)
    | 0, 7 => (match trainCtx s t with
        | some n => (bindsOf s n).foldl (fun u e => modBind e.1 (fun b =>
            { b with migSent := b.migSent.filter (· != (nV t, if bitSet t.addr 47 then t.addr % 2 ^ 47 / 8 else nU t)) }) u) s
        | none => s)
    | 0, 12 | 0, 13 => (match trainCtx s t with
        | some n => collError n 9 (if t.stepValid then some t.step else none) s
        | none => s)
    | 0, 16 => (match (trainCtx s t).bind (fun n => (ctxOf s n).map (fun x => (n, x))) with
        | some (n, x) => askRollback n (lowestOpen s x) s
        | none => s)
    | 0, 8 | 0, 9 | 0, 10 => (match trainCtx s t with
        | some n => (bindsOf s n).foldl (fun u e => mirrorLost e.1 t.dst u) s
        | none => s)
    | _, _ => s

/-! ### Settling -/

/-- The verdicts and bindings of every context moved on. -/
def pokeAll (s : State) : State := s.ctxs.foldl (fun t e => pokeCtx e.1 t) s

/-- Whether a train that waits behind a contribution to a LOADING shard waits no more; and those trains taken in again
(R316). -/
def behindFree (s : State) : Bool :=
  s.behind.any (fun e => !s.binds.any (fun b => loadingHolds b.2 e.1 (frameVc e.2)))
def behindRetry (s : State) : State :=
  if behindFree s then s.behind.foldl (fun t e => arrive e.1 e.2 (freeTrain e.1 e.2 t)) { s with behind := [] } else s

/-- Whether nothing is left that trains or errors have set in motion here. -/
def atRest (s : State) : Bool :=
  s.inbox.isEmpty && s.lostQ.isEmpty && s.metUe.isEmpty && !slotsFreed s && !behindFree s

/-- Everything that a command has set in motion here carried to its end: trains of this module to itself delivered, lost
transfers ended, parts with errors held, waiting trains tried again, verdicts formed. The count bounds the rounds; a round
whose work makes no more ends it. -/
def settle : Nat → State → State
  | 0, s => s
  | n + 1, s =>
    if atRest s then
      let s1 := pokeAll s
      if atRest s1 then s1 else settle n s1
    else
      let s0 := behindRetry (freedRetry (holdUes s))
      let s1 := s0.inbox.foldl (fun t x => deliverOwn x t) { s0 with inbox := [], lostQ := [] }
      settle n (s0.lostQ.foldl (fun t x => lostTrain x t) s1)

/-- Settling as the commands use it. -/
def settled (s : State) : State := settle 64 s

end Sys2Proof.Machine
end

