-- ==== Sys2Proof/Machine/LinkRx.lean ====
section
/-!
DEFINITION. Frames on the native links: what a receiver checks (R276, R283, R284, R290), trains in and through
(R282, R293), credits, acknowledgements and replay (R276, R277, R288).
-/

namespace Sys2Proof.Machine

/-! ### Counting control frames -/

/-- A control frame sent or received on a link, counted (R308, R487). -/
def ctlSent (k n : Nat) (s : State) : State :=
  countE (pgLink k) 0x80 0 1 none (bump (pgLink k) R.LINK_TX_FRAMES 1 (bump (pgLink k) R.LINK_TX_BYTES n s))
def ctlGot (k n : Nat) (s : State) : State :=
  countE (pgLink k) 0x81 0 1 none (bump (pgLink k) R.LINK_RX_FRAMES 1 (bump (pgLink k) R.LINK_RX_BYTES n s))

/-! ### Checks -/

/-- Whether an OP is reserved within its TYPE (R286, R415). -/
def opReserved (t : Train) : Bool :=
  match t.type with
  | 0 | 4 => decide (16 < t.op)
  | 1 | 6 => decide (0 < t.op)
  | _ => false

/-- Whether the bodies of a train are as R284 has them: every frame but the last full, none above its maximum; on a
version-1 link the first one's body holds the tag extension as well (R282). -/
def bodiesOk (v1 : Bool) (t : Train) : Bool :=
  (t.bodies.zipIdx).all (fun b =>
    let most := if b.2 ≠ 0 then 252 else if v1 then 240 else 224
    b.1.len == b.1.bytes.length && decide (b.1.len ≤ most) && (b.1.len == most || decide (b.2 + 1 = t.bodies.length)))

/-- Whether a train is malformed (R284): CONT frames with no open train, a reserved OP, too many frames, a body above its
maximum or one before the last that is not full. -/
def malformed (v1 : Bool) (t : Train) : Bool :=
  t.type == 7 || opReserved t || decide (64 < t.bodies.length) || !t.closed || !bodiesOk v1 t

/-- The SEQs of a train's frames: consecutive but for the frames of other trains between them (R276, R284). -/
def trainSeqs (t : Train) : List Nat :=
  (List.range (frameCount t)).map (fun i => (t.seq + i + (t.gaps.take (i + 1)).foldl (· + ·) 0) % 4096)

/-- How far a SEQ lies past the one expected next. -/
def seqPast (l : LinkSt) (q : Nat) : Nat := (q + 4096 - l.rxSeq % 4096) % 4096

/-- Whether a frame may be taken (R276): new, within the partner's replay buffer, and before the first lost SEQ for which a
replay is still to be requested. -/
def seqFresh (l : LinkSt) (q : Nat) : Bool :=
  decide (seqPast l q < 512) && !l.rxGot.contains q &&
    (match l.nak with | some m => decide (seqPast l q < seqPast l m) | none => true)

/-- The SEQ expected next moved past what has been received; `n` bounds it. -/
def seqOn : Nat → LinkSt → LinkSt
  | 0, l => l
  | n + 1, l => if l.rxGot.contains l.rxSeq then
      seqOn n { l with rxGot := l.rxGot.filter (· != l.rxSeq), rxSeq := (l.rxSeq + 1) % 4096 } else l

/-- The SEQs of a train received. -/
def seqTake (t : Train) (l : LinkSt) : LinkSt := seqOn 576 { l with rxGot := l.rxGot ++ trainSeqs t }

/-- A train that arrives on a link taken in by the link engine (R276, R284, R288): its frames carry SEQs not received yet;
they are counted and freed. A malformed one is discarded whole with FRAME_BAD. Answers whether it goes on. -/
def takeTrain (k : Nat) (t : Train) (s : State) : Bool × State :=
  let l := linkOf s k
  if !carries s t k || !(trainSeqs t).all (seqFresh l) then (false, s)
  else
    let n := frameCount t
    let len := t.bodies.foldl (fun a b => a + b.bytes.length) 0
    let s1 := modLink k (seqTake t) (freeTrain k t s)
    let r := checkFor (pgLink k) 5 (malformed (linkV1 s k) t) s1
    if r.1 then (false, recordErr (pgLink k) 5 none (bumpSat (pgLink k) R.LINK_BAD_FRAMES n r.2))
    else
      let s2 := bump (pgLink k) R.LINK_RX_FRAMES n (bump (pgLink k) R.LINK_RX_BYTES len r.2)
      (true, countE (pgLink k) 0x81 0 n (ctxOfJob s t.job) s2)

/-- A train on a link that a row of the table names. A malformed train is discarded whatever its row; a well-formed one
that is not the row's operation names no event. -/
def trainRow (k : Nat) (t : Train) (row : Bool) (s : State) : State :=
  if !row && !malformed (linkV1 s k) t then s
  else
    let r := takeTrain k t s
    if r.1 then settled (arrive k (if linkV1 s k && t.type == 0 then unext t else t) r.2) else r.2

/-- Whether a train is operation `op` of TYPE `ty`. -/
def isOp (t : Train) (ty op : Nat) : Bool := t.type == ty && t.op == op

/-! ### The rows of trains -/

/-- WRITE (R204). -/
def execWrite (k : LinkIx) (t : Train) (s : State) : Host.Outcome State Fault Refusal := .next (trainRow k t (isOp t 0 0) s)

/-- READ_REQ (R204). -/
def execReadReq (k : LinkIx) (t : Train) (s : State) : Host.Outcome State Fault Refusal := .next (trainRow k t (isOp t 0 1) s)

/-- READ_RESP (R286). -/
def execReadResp (k : LinkIx) (t : Train) (s : State) : Host.Outcome State Fault Refusal := .next (trainRow k t (isOp t 0 2) s)

/-- WRITE_ACK (R303). -/
def execWriteAck (k : LinkIx) (t : Train) (s : State) : Host.Outcome State Fault Refusal := .next (trainRow k t (isOp t 0 3) s)

/-- GATHER_REQ (R233). -/
def execGatherReq (k : LinkIx) (t : Train) (s : State) : Host.Outcome State Fault Refusal := .next (trainRow k t (isOp t 0 4) s)

/-- GATHER_DATA (R301). -/
def execGatherData (k : LinkIx) (t : Train) (s : State) : Host.Outcome State Fault Refusal := .next (trainRow k t (isOp t 0 5) s)

/-- GATHER_FWD (R315). -/
def execGatherFwd (k : LinkIx) (t : Train) (s : State) : Host.Outcome State Fault Refusal := .next (trainRow k t (isOp t 0 6) s)

/-- SCATTER (R234). -/
def execScatter (k : LinkIx) (t : Train) (s : State) : Host.Outcome State Fault Refusal := .next (trainRow k t (isOp t 0 7) s)

/-- MIRROR (R236). -/
def execMirror (k : LinkIx) (t : Train) (s : State) : Host.Outcome State Fault Refusal := .next (trainRow k t (isOp t 0 8) s)

/-- MIRROR_END (R236). -/
def execMirrorEnd (k : LinkIx) (t : Train) (s : State) : Host.Outcome State Fault Refusal := .next (trainRow k t (isOp t 0 9) s)

/-- MIRROR_SKIP (R236). -/
def execMirrorSkip (k : LinkIx) (t : Train) (s : State) : Host.Outcome State Fault Refusal := .next (trainRow k t (isOp t 0 10) s)

/-- MIRROR_ACK (R236). -/
def execMirrorAck (k : LinkIx) (t : Train) (s : State) : Host.Outcome State Fault Refusal := .next (trainRow k t (isOp t 0 11) s)

/-- VERDICT_UP (R305). -/
def execVerdictUp (k : LinkIx) (t : Train) (s : State) : Host.Outcome State Fault Refusal := .next (trainRow k t (isOp t 0 12) s)

/-- VERDICT_DOWN (R164). -/
def execVerdictDown (k : LinkIx) (t : Train) (s : State) : Host.Outcome State Fault Refusal := .next (trainRow k t (isOp t 0 13) s)

/-- DENY (R286). -/
def execDeny (k : LinkIx) (t : Train) (s : State) : Host.Outcome State Fault Refusal := .next (trainRow k t (isOp t 0 15) s)

/-- RESTORE_REQ (R235). -/
def execRestoreReq (k : LinkIx) (t : Train) (s : State) : Host.Outcome State Fault Refusal := .next (trainRow k t (isOp t 0 16) s)

/-- NODE (R228). -/
def execNode (k : LinkIx) (t : Train) (s : State) : Host.Outcome State Fault Refusal := .next (trainRow k t (isOp t 6 0) s)

/-- FRAME_FORWARD (R293): a train for another module. -/
def execFrameForward (k : LinkIx) (t : Train) (s : State) : Host.Outcome State Fault Refusal :=
  .next (trainRow k t (t.dst != myId s) s)

/-- A TALLY_ADD from the host: a write to a tally is an add made by the stack controller (R354). -/
def hostTally (a : Nat) (v : DWord) (s : State) : State :=
  if !pathUp .host s then s
  else if (locate s a).isSome && tallyAligned a then { tallyAdd a v.toNat s with reply := ⟨0, 0, false⟩ }
  else { noteUnmapped none s with reply := ⟨0, codeUnmapped, false⟩ }

/-- TALLY_ADD (R354): by the host, or by a train. -/
def execTallyAdd (o : TallyOrigin) (s : State) : Host.Outcome State Fault Refusal :=
  .next (match o with
    | .host a v => hostTally a v s
    | .frame k t => trainRow k t (isOp t 1 0) s)

/-! ### Version 1 (R282) -/

/-- The place of a version-1 frame in its train and whether it is the last, from its tag extension. -/
def extPlace (b : FrameBody) : Nat × Bool :=
  let w := ofBytes ((b.bytes.take 8).map (fun x => x.toNat))
  (bitsOf w 56 6, bitSet w 62)

/-- The ARG that a version-1 frame carries. -/
def extArg (b : FrameBody) : Nat := ofBytes (((b.bytes.drop 8).take 8).map (fun x => x.toNat))

/-- The POLDER, GEN and STEP that a version-1 frame carries. -/
def extTag (b : FrameBody) : Nat × Nat × Nat :=
  let w := ofBytes ((b.bytes.take 8).map (fun x => x.toNat))
  (bitsOf w 0 8, bitsOf w 8 16, bitsOf w 24 32)

/-- Whether two encapsulated frames belong to one train. -/
def sameEncap (a b : Frame) : Bool :=
  a.hdr.src == b.hdr.src && a.hdr.vc == b.hdr.vc && a.hdr.dst == b.hdr.dst && a.hdr.job == b.hdr.job && extTag a.body == extTag b.body &&
    a.hdr.addr == b.hdr.addr && a.hdr.arg == b.hdr.arg && extArg a.body == extArg b.body

/-- The frame at a place of a train. -/
def encapAt (fs : List Frame) (i : Nat) : Option Frame := fs.find? (fun f => f.idx == i)

/-- The train restored from its encapsulated frames once every one of them has come (R282). -/
def restored (fs : List Frame) : Option Train :=
  match fs.find? (fun f => f.last) with
  | none => none
  | some f =>
    let got := (List.range (f.idx + 1)).filterMap (encapAt fs)
    if got.length = f.idx + 1 then
      let bs := got.flatMap (fun g => (g.body.bytes.drop 16).map (fun x => (x.toNat, g.body.poison)))
      let g := extTag f.body
      some { f.hdr with type := f.hdr.arg % 8, op := 0, arg := extArg f.body, polder := g.1, gen := g.2.1, step := g.2.2,
                        bodies := framesOf bs, closed := true }
    else none

/-- ENCAP (R282): a frame held until its train is whole; the train is then delivered or sent on. -/
def encapIn (k : Nat) (t : Train) (s : State) : State :=
  let fs := t.bodies.map (fun b => (⟨{ t with bodies := [], gaps := [] }, (extPlace b).1, b, (extPlace b).2, 0, 32⟩ : Frame))
  let held := (linkOf s k).encap ++ fs
  let mine := held.filter (fun f => match fs with | g :: _ => sameEncap f g | [] => false)
  match restored mine with
  | some w =>
    let s1 := modLink k (fun l => { l with encap := held.filter (fun f => !mine.contains f) }) s
    if w.dst ≠ myId s then forwardTrain 32 w s1 else arrive k w s1
  | none => modLink k (fun l => { l with encap := held }) s

/-- ENCAP (R282). -/
def execEncap (k : LinkIx) (t : Train) (s : State) : Host.Outcome State Fault Refusal :=
  .next (if !isOp t 0 14 && !malformed (linkV1 s k) t then s
    else
      let r := takeTrain k t s
      if r.1 then settled (encapIn k t r.2) else r.2)

/-! ### Retraining (R277) -/

/-- A link that was UP begins to train again; what its replay buffer holds is kept. -/
def beginRetrain (k st : Nat) (s : State) : State :=
  modLink k (fun l => { l with phase := if st = 1 then 1 else 0, retrain := true, tries224 := 0, tries112 := 0, replays := [], again := [],
                               chosen := if rd s (pgLink k) R.LINK_STATUS_RATE_224 = 1 then 0 else 1 })
    (wr (pgLink k) R.LINK_STATUS_RETRYING 1 (wr (pgLink k) R.LINK_STATUS_STATE st s))

/-- The retrain of R277, counted. -/
def linkRetrain (k st : Nat) (s : State) : State :=
  beginRetrain k st (recordErr (pgLink k) 2 none (bumpSat (pgLink k) R.LINK_RETRAINS 1 s))

/-! ### Credits (R276, R288) -/

/-- One VC's credits returned; none where it grants more than are outstanding. -/
def creditVc (k vc cum : Nat) (l : LinkSt) : Option LinkSt :=
  let was := mapGet 0 l.seen vc
  let o0 := mapGet 0 l.out0 vc
  let o1 := mapGet 0 l.out1 vc
  let seen := mapSet 0 l.seen vc (cum % 2 ^ 16)
  if classed k then
    let d0 := (cum % 256 + 256 - was % 256) % 256
    let d1 := (cum / 256 % 256 + 256 - was / 256) % 256
    if o0 < d0 ∨ o1 < d1 then none
    else some { l with seen := seen, out0 := mapSet 0 l.out0 vc (o0 - d0), out1 := mapSet 0 l.out1 vc (o1 - d1) }
  else
    let d := (cum % 2 ^ 16 + 2 ^ 16 - was) % 2 ^ 16
    if o0 + o1 < d then none
    else some { l with seen := seen, out0 := mapSet 0 l.out0 vc (o0 - min d o0), out1 := mapSet 0 l.out1 vc (o1 - (d - min d o0)) }

/-- The credits of every VC returned. -/
def creditAll (k : Nat) (b : CreditBody) (l : LinkSt) : Option LinkSt :=
  (List.range 8).foldl (fun a vc => a.bind (creditVc k vc (b.cum.getD vc 0))) (some l)

/-- The replay buffer without the frames that an acknowledgement covers. -/
def acked (seq : Nat) (l : List (Nat × Frame)) : List (Nat × Frame) :=
  match l.findIdx? (fun e => e.1 == seq) with
  | some i => l.drop (i + 1)
  | none => l

/-- A replay requested from a SEQ (R276, R277): counted; too many of them make the link retrain. -/
def replayFrom (k q : Nat) (s : State) : State :=
  let l := linkOf s k
  let now := tickOf s
  let gone := (l.replay.dropWhile (fun e => e.1 != q)).map (fun e => e.1)
  let again := gone.foldl (fun m x => mapSet 0 m x (mapGet 0 m x + 1)) l.again
  let recent := l.replays.filter (fun t => decide (now ≤ t + 100000)) ++ [now]
  let s1 := countE (pgLink k) 0x82 0 1 none (bumpSat (pgLink k) R.LINK_REPLAYS 1
    (wr (pgLink k) R.LINK_STATUS_RETRYING 1 (setLink k { l with again := again, replays := recent } s)))
  if linkUp s k ∧ (16 ≤ recent.length ∨ gone.any (fun x => decide (8 ≤ mapGet 0 again x))) then linkRetrain k 1 s1 else s1

/-- CREDIT (R276, R288, R290): credits, the acknowledgement, stale notices, and the replay that it may request. -/
def creditIn (k : Nat) (b : CreditBody) (s : State) : State :=
  if !linkEmb s k then s
  else
    let r := checkFor (pgLink k) 4 (creditAll k b (linkOf s k)).isNone (ctlGot k 36 s)
    let s0 := r.2
    match (if r.1 then none else creditAll k b (linkOf s0 k)) with
    | none => dropLink k (recordErr (pgLink k) 4 none s0)
    | some l =>
      let rose := (List.range 8).any (fun vc => mapGet 0 l.staleIn vc != b.stale.getD vc 0 % 2 ^ 16)
      let l1 := { l with replay := acked b.ackSeq l.replay,
                         again := l.again.filter (fun e => (acked b.ackSeq l.replay).any (fun r => r.1 == e.1)),
                         staleIn := (List.range 8).foldl (fun m vc => mapSet 0 m vc (b.stale.getD vc 0 % 2 ^ 16)) [] }
      let s1 := setLink k l1 s0
      let s2 := if rose then bumpSat (pgLink k) R.LINK_STALE_NOTICES 1 s1 else s1
      let s3 := match b.nak with
        | some q => replayFrom k q s2
        | none => wr (pgLink k) R.LINK_STATUS_RETRYING (b2n l1.retrain) s2
      pump k s3

/-- CREDIT (R288). -/
def execCredit (k : LinkIx) (b : CreditBody) (s : State) : Host.Outcome State Fault Refusal := .next (settled (creditIn k b s))

/-- The CREDIT body that a link's state spells (R288). -/
def creditBody (k : Nat) (l : LinkSt) : CreditBody :=
  { cum := (List.range 8).map (fun vc =>
      if classed k then mapGet 0 l.free0 vc % 256 + mapGet 0 l.free1 vc % 256 * 256
      else (mapGet 0 l.free0 vc + mapGet 0 l.free1 vc) % 2 ^ 16),
    ackSeq := (l.rxSeq + 4095) % 4096, nak := l.nak,
    stale := (List.range 8).map (fun vc => mapGet 0 l.stale vc % 2 ^ 16) }

/-- CREDIT_SEND (R288): while something is unreturned. -/
def creditSend (k : Nat) (s : State) : State :=
  let l := linkOf s k
  if !linkEmb s k || (l.unsent == 0 && l.nak.isNone) then s
  else ctlSent k 36 (setLink k { l with unsent := 0, nak := none, credOut := some (creditBody k l) } s)

/-- CREDIT_SEND (R288). -/
def execCreditSend (k : LinkIx) (s : State) : Host.Outcome State Fault Refusal := .next (creditSend k s)

/-- Whether the frames that a codeword loses begin at one that the receiver still misses. -/
def seqLost (l : LinkSt) (seq : Nat) : Bool :=
  decide (seqPast l seq < 512) && !l.rxGot.contains (seq % 4096) &&
    (match l.nak with | some m => decide (seqPast l seq < seqPast l m) | none => true)

/-- FEC_UE (R275, R276): a codeword that the decoder cannot correct loses frames from SEQ `seq` on; the receiver asks for
them from the first lost SEQ. The symbols that the decoder corrected meanwhile are counted. -/
def fecUe (k seq : Nat) (n : FecLoss) (s : State) : State :=
  let st := linkState s k
  if st < 2 ∨ 5 < st then s
  else
    let s0 := bump (pgLink k) R.LINK_FEC_CE_SYM n.sym s
    let s1 := recordErr (pgLink k) 3 none (bumpSat (pgLink k) R.LINK_FEC_UE_CW 1 s0)
    if linkEmb s k ∧ 0 < n.frames ∧ seqLost (linkOf s k) seq then modLink k (fun l => { l with nak := some (seq % 4096) }) s1 else s1

/-- FEC_UE (R276). -/
def execFecUe (k : LinkIx) (seq : Nat) (n : FecLoss) (s : State) : Host.Outcome State Fault Refusal := .next (fecUe k seq n s)

end Sys2Proof.Machine
end

