-- ==== Sys2Proof/Machine/BargeRows.lean ====
section
/-!
DEFINITION. The rows of the transfer engines, of the engine's own steps (R231, R313) and of the stack controllers' reads,
with what they set in motion carried to its end.
-/

namespace Sys2Proof.Machine

/-- BARGE_ACCEPT (R194). -/
def execBargeAccept (e : EngIx) (s : State) : Host.Outcome State Fault Refusal := .next (settled (doBargeAccept e s))

/-- BARGE_START (R202). -/
def execBargeStart (e : EngIx) (i : Nat) (s : State) : Host.Outcome State Fault Refusal := .next (settled (doBargeStart e i s))

/-- BARGE_COMPLETE (R199). -/
def execBargeComplete (e : EngIx) (i : Nat) (s : State) : Host.Outcome State Fault Refusal :=
  .next (settled (doBargeComplete e i s))

/-- UPDATE_PASS (R231). -/
def execUpdatePass (k : StackIx) (b : BindIx) (v u : Nat) (s : State) : Host.Outcome State Fault Refusal :=
  .next (settled (updatePass (k * 4 + b) v u s))

/-- SHARD_COMMIT (R231): the part's commit, and what it releases (R229, R233). -/
def execShardCommit (k : StackIx) (b : BindIx) (v u : Nat) (s : State) : Host.Outcome State Fault Refusal :=
  .next (settled (releaseHeld (k * 4 + b) (shardCommit (k * 4 + b) v u s)))

/-- MIGRATION_START (R313). -/
def execMigrationStart (k : StackIx) (b : BindIx) (v u : Nat) (s : State) : Host.Outcome State Fault Refusal :=
  .next (settled (migrationStart (k * 4 + b) v u s))

/-- STEP_PLAN (R248): a version that comes into force is registered with the warden (R413). -/
def execStepPlan (n : CtxIx) (s : State) : Host.Outcome State Fault Refusal :=
  let ver (t : State) : Option Nat := (ctxOf t n).bind (fun x => x.place.map (fun p => p.version))
  let s1 := planAndMove n s
  .next (settled (if ver s1 ≠ ver s ∧ embOn s1 then registerJob n s1 else s1))

/-- A read of a block of a bound record's state outside its update that meets an uncorrectable error: its part is held
for restore (R235). -/
def holdAtAddr (a symbols : Nat) (s : State) : State :=
  let bad := (decide (5 ≤ symbols ∧ symbols ≤ 8)) || (match locate s a with | some q => mapGet 0 s.dramSyms (q / 64) != 0 | none => false)
  if !bad || classOf s a != 0 then s
  else match partAtAddr s a with
    | some (i, v, u) => restoreHold i v u s
    | none => s

/-- DRAM_READ (R186, R235). -/
def execDramRead (a symbols : Nat) (o : WorkTag) (s : State) : Host.Outcome State Fault Refusal :=
  .next (settled (holdAtAddr (a / 64 * 64) symbols (doDramRead a symbols o s)))

/-! ### The rows of the embankment protocol -/

/-- A message on link `k` that is operation `op` of R415, in the frame that carries the SEQ expected next: addressed to
this module it is acted on, else it goes on towards its destination. -/
def embRow (op k : Nat) (e : EmbMsg) (s : State) : State :=
  if e.op ≠ op ∨ !linkEmb s k then s
  else
    let t := { embTrain e with seq := (linkOf s k).rxSeq }
    let r := takeTrain k t s
    if !r.1 then r.2
    else if e.dst = myId s then settled (embIn k e r.2)
    else settled (forwardTrain k t (holdTrain k t r.2))

/-- HELLO (R410). -/
def execHello (k : LinkIx) (e : EmbMsg) (s : State) : Host.Outcome State Fault Refusal := .next (embRow 0 k e s)

/-- ELECT (R412). -/
def execElect (k : LinkIx) (e : EmbMsg) (s : State) : Host.Outcome State Fault Refusal := .next (embRow 1 k e s)

/-- WARDEN (R412). -/
def execWarden (k : LinkIx) (e : EmbMsg) (s : State) : Host.Outcome State Fault Refusal := .next (embRow 2 k e s)

/-- LOSS (R414). -/
def execLoss (k : LinkIx) (e : EmbMsg) (s : State) : Host.Outcome State Fault Refusal := .next (embRow 3 k e s)

/-- PROBE (R415). -/
def execProbe (k : LinkIx) (e : EmbMsg) (s : State) : Host.Outcome State Fault Refusal := .next (embRow 4 k e s)

/-- PROBE_ACK (R414). -/
def execProbeAck (k : LinkIx) (e : EmbMsg) (s : State) : Host.Outcome State Fault Refusal := .next (embRow 5 k e s)

/-- LOST (R414). -/
def execLost (k : LinkIx) (e : EmbMsg) (s : State) : Host.Outcome State Fault Refusal := .next (embRow 6 k e s)

/-- REGISTER (R413). -/
def execRegister (k : LinkIx) (e : EmbMsg) (s : State) : Host.Outcome State Fault Refusal := .next (embRow 7 k e s)

/-- RECOVER (R421). -/
def execRecover (k : LinkIx) (e : EmbMsg) (s : State) : Host.Outcome State Fault Refusal := .next (embRow 8 k e s)

/-- REPLAY_PREP (R423). -/
def execReplayPrep (k : LinkIx) (e : EmbMsg) (s : State) : Host.Outcome State Fault Refusal := .next (embRow 9 k e s)

/-- PREP_ANSWER (R423). -/
def execPrepAnswer (k : LinkIx) (e : EmbMsg) (s : State) : Host.Outcome State Fault Refusal := .next (embRow 10 k e s)

/-- REPLAY (R424). -/
def execReplay (k : LinkIx) (e : EmbMsg) (s : State) : Host.Outcome State Fault Refusal := .next (embRow 11 k e s)

/-- REPLAY_REQ (R417). -/
def execReplayReq (k : LinkIx) (e : EmbMsg) (s : State) : Host.Outcome State Fault Refusal := .next (embRow 12 k e s)

/-- HALT (R426). -/
def execHalt (k : LinkIx) (e : EmbMsg) (s : State) : Host.Outcome State Fault Refusal := .next (embRow 13 k e s)

/-- ROLLBACK (R433). -/
def execRollback (k : LinkIx) (e : EmbMsg) (s : State) : Host.Outcome State Fault Refusal := .next (embRow 14 k e s)

/-- DURABLE (R423). -/
def execDurable (k : LinkIx) (e : EmbMsg) (s : State) : Host.Outcome State Fault Refusal := .next (embRow 15 k e s)

/-- ROLLBACK_REQ (R433). -/
def execRollbackReq (k : LinkIx) (e : EmbMsg) (s : State) : Host.Outcome State Fault Refusal := .next (embRow 16 k e s)

/-- ELECTION_TIMEOUT (R412). -/
def execElectionTimeout (s : State) : Host.Outcome State Fault Refusal := .next (settled (electionTimeout s))

/-- MODULE_LOST (R414). -/
def execModuleLost (suspect : Nat) (s : State) : Host.Outcome State Fault Refusal := .next (settled (moduleLost suspect s))

end Sys2Proof.Machine
end

