-- ==== Sys2Proof/Machine/Trust.lean ====
section
/-!
DEFINITION. Signed objects (R469, R470): the fields of an object's bytes and the checks that the security engine makes;
the fuse fields that they use (R464) and the anti-rollback counts (R473, R475).
-/

namespace Sys2Proof.Machine

/-- The little-endian number in `n` bytes of an object from offset `off`. -/
def oNum (o : List Nat) (off n : Nat) : Nat := ofBytes ((o.drop off).take n)

/-- The big-endian number in `n` bytes of an object from offset `off`. -/
def oNumBe (o : List Nat) (off n : Nat) : Nat := ((o.drop off).take n).foldl (fun a b => a * 256 + b) 0

/-- The bytes of an object from offset `off`. -/
def oBytes (o : List Nat) (off n : Nat) : List Nat := (o.drop off).take n

/-- The header fields of an object (R469). -/
def oFormat (o : List Nat) : Nat := oNum o 0 4
def oType (o : List Nat) : Nat := oNum o 4 4
def oImage (o : List Nat) : Nat := oNum o 8 4
def oVersion (o : List Nat) : Nat := oNum o 12 4
def oSvn (o : List Nat) : Nat := oNum o 16 4
def oSlot (o : List Nat) : Nat := oNum o 20 4
def oBodyLen (o : List Nat) : Nat := oNum o 24 8

/-- The body of an object. -/
def oBody (o : List Nat) : List Nat := oBytes o 8192 (oBodyLen o)

/-- The bytes of an object given as bytes. -/
def objNats (o : List Byte) : List Nat := o.map (fun b => b.toNat)

/-- The 96 bytes of a key slot: the hash of the ECDSA key, then that of the HSS key (R464). -/
def slotKey (s : State) (k : Nat) : List Nat :=
  (List.range 24).flatMap (fun i => bytesOf 4 (mapGet 0 s.factory.keys (k * 24 + i)))

/-- Whether a key slot may be used: programmed, and not revoked (R464, R470). -/
def slotLive (s : State) (k : Nat) : Bool :=
  decide (k < 4) && !bitSet (rd s pgFuse R.FUSE_CFG_REVOKED) k && (decide (k < 2) || bitSet (rd s pgFuse R.FUSE_CFG_OWNER_SET) (k - 2))

/-- Whether an LMS public key names LMS_SHA256_M32_H20 with LMOTS_SHA256_N32_W4; the type codes, 8 and 3, are those of
RFC 8554. -/
def lmsKind (o : List Nat) (off : Nat) : Bool := oNumBe o off 4 == 8 && oNumBe o (off + 4) 4 == 3

/-- Checks 1 to 5 of R470 on an object of the type expected. -/
def objOk (s : State) (ty : Nat) (o : List Nat) : Bool :=
  let key := slotKey s (oSlot o)
  let d := Config.sha384 (oBytes o 0 256)
  oFormat o == 1 && oType o == ty && (oBytes o 236 20).all (· == 0) && slotLive s (oSlot o) && decide (oSvn o ≤ 64) &&
    decide (8192 + oBodyLen o ≤ o.length) &&
    Config.sha384 (oBytes o 80 96) == key.take 48 && Config.sha384 (oBytes o 176 60) == key.drop 48 &&
    oNumBe o 176 4 == 2 && lmsKind o 180 && oNumBe o 352 4 == 1 && lmsKind o (352 + 4 + 2828) &&
    Config.sigValid 0 0 (oBytes o 80 96 ++ d ++ oBytes o 256 96) &&
    Config.sigValid 1 0 (oBytes o 176 60 ++ d ++ oBytes o 352 5716) &&
    Config.sha384 (oBody o) == oBytes o 32 48

/-- The floors that the SVN thermometers give (R464). -/
def svnFw (s : State) : Nat := popCount 64 (rd s pgFuse R.FUSE_SVN_FW)
def svnImg (s : State) : Nat := popCount 64 (rd s pgFuse R.FUSE_SVN_IMG)

/-- Whether a firmware image passes R470, R471 and R473: a Mornel slot, and an SVN at the floor or above. -/
def fwOk (s : State) (o : List Nat) : Bool := objOk s 1 o && decide (oSlot o < 2) && decide (svnFw s ≤ oSvn o)

/-- An error of the SEC page. -/
def secError (bit : Nat) (s : State) : State := recordErr pgSec bit none s

/-- The thermometer with `n` ones. -/
def thermo (n : Nat) : Nat := 2 ^ n - 1

end Sys2Proof.Machine
end

