-- ==== Sys2Proof/Machine/MemRows.lean ====
section
/-!
DEFINITION. The rows of map-out (R189 to R192) and of the quay store (R206 to R209, R474, R475).
-/

namespace Sys2Proof.Machine

/-! ### Map-out -/

/-- MAPOUT_REQ (R189): the host driver names a channel. -/
def execMapoutReq (p : Path) (k : StackIx) (ch : Fin 32) (s : State) : Host.Outcome State Fault Refusal :=
  .next (access p (pgMemc k) (degrade (k * 32 + ch)) s)

/-- The channels of a stack that are DEGRADED and that no accepted GO has taken. -/
def openChans (s : State) (k : Nat) : List Nat :=
  ((List.range 32).map (fun c => k * 32 + c)).filter (fun c => chState s c == 1 && !s.mapQ.any (fun j => j.chans.contains c))

/-- A GO accepted (R191): for every DEGRADED channel of the stack, behind the map-outs accepted before. -/
def mapoutGo (k : Nat) (s : State) : State :=
  let cs := openChans s k
  if cs.isEmpty then s
  else wr (pgMemc k) R.MEMC_STATUS_MAPOUT_PENDING 1 { s with mapQ := s.mapQ ++ [⟨k, cs, 0⟩] }

/-- MAPOUT_GO (R191). -/
def execMapoutGo (p : Path) (k : StackIx) (s : State) : Host.Outcome State Fault Refusal :=
  .next (access p (pgMemc k) (mapoutGo k) s)

/-- The members of a set that are failed once `gone` are mapped out too. -/
def failedWith (s : State) (e : Sect) (gone : List Nat) : List Nat :=
  (List.range (modeK e.mode)).filter (fun i => chState s (memberOf e.mode e.set i) == 2 || gone.contains (memberOf e.mode e.set i))

/-- Where a granule of a section lives with the members in `failed` mapped out: channel × 2^19 + granule in the
channel. -/
def granAt (e : Sect) (failed : List Nat) (g : Nat) : Option Nat :=
  (remapGranule (modeK e.mode) failed g).map (fun h => placeOf e h 0 / 4096)

/-- The section and the base granule that a physical granule belongs to: the one for which R182 locates it there. -/
def baseGran (s : State) (q : Nat) : Option (Nat × Nat) :=
  let ch := q / 2 ^ 19
  let i := q % 2 ^ 19
  (List.range 512).findSome? (fun n =>
    let e := sectOf s n
    let lo := e.piece * 1024
    if chIn e ch && decide (lo ≤ i ∧ i < lo + modePieces e.mode * 1024) then
      let m := if e.mode = 2 then ch % 64 else if e.mode = 3 then ch % 32 else ch
      some (n, (i - lo) * modeK e.mode + m)
    else none)

/-- The granule of a section whose data lives where base granule `h` is, with the members in `failed` mapped out: the
inverse of R190. -/
def ownerGran (k : Nat) (failed : List Nat) (h : Nat) : Option Nat :=
  let f := failed.length
  let top := 262144 - f * (262144 / k)
  if failed.contains (h % k) ∨ f = 0 ∧ 262144 ≤ h then none
  else if h < top then some h
  else
    let rank := ((List.range (h % k)).filter (fun i => !failed.contains i)).length
    let j := (h - top) / k * (k - f) + rank
    let g := j / f * k + failed.getD (j % f) 0
    if g < top then some g else none

/-- Where the data of a physical granule goes when the channels in `gone` are mapped out as well: none where it is lost,
or where no section holds it. -/
def newGran (s : State) (gone : List Nat) (q : Nat) : Option Nat :=
  match baseGran s q with
  | none => some q
  | some (n, h) =>
    let e := sectOf s n
    match ownerGran (modeK e.mode) (failedMembers s e) h with
    | none => none
    | some g => granAt e (failedWith s e gone) g

/-- Whether a physical granule is the new place of a granule that moves. -/
def takesGran (s : State) (gone : List Nat) (q : Nat) : Bool :=
  match baseGran s q with
  | none => false
  | some (n, h) =>
    let e := sectOf s n
    match ownerGran (modeK e.mode) (failedWith s e gone) h with
    | some g => granAt e (failedMembers s e) g != some q
    | none => false

/-- The entries of a map over places of `per` to a granule, moved with their granules; the new places of moved granules
first lose what they held. -/
def moveEntries {β : Type} (per : Nat) (s : State) (gone : List Nat) (m : List (Nat × β)) : List (Nat × β) :=
  let kept := mapDrop m (fun k => takesGran s gone (k / per))
  m.foldl (fun a e => match newGran s gone (e.1 / per) with
    | some q => if q = e.1 / per then a else mapPut a (q * per + e.1 % per) e.2
    | none => a) kept

/-- The address of a 64-byte physical block that moves when the channels in `gone` are mapped out, and its new place. -/
def movedBlock (s : State) (gone : List Nat) (b : Nat) : Option (Nat × Nat) :=
  match newGran s gone (b / 64), baseGran s (b / 64) with
  | some q, some (n, h) =>
    let e := sectOf s n
    if q = b / 64 then none
    else some (n * 2 ^ 30 + (ownerGran (modeK e.mode) (failedMembers s e) h).getD 0 * 4096 + b % 64 * 64, q * 64 + b % 64)
  | _, _ => none

/-- The blocks of the channels whose data is lost that move, each with its address and new place (R180). -/
def lostBlocks (s : State) (gone : List Nat) : List (Nat × (Nat × Nat)) :=
  (gone.filter (fun ch => mapGet false s.chDead ch)).flatMap (fun ch =>
    (List.range (2 ^ 25)).filterMap (fun i => (movedBlock s gone (ch * 2 ^ 25 + i)).map (fun m => (ch * 2 ^ 25 + i, m))))

/-- The moving blocks that the copy cannot correct: those of lost channels, and those with too many symbols in error. -/
def lostInCopy (s : State) (gone : List Nat) : List (Nat × (Nat × Nat)) :=
  (s.dramSyms.filterMap (fun e => (movedBlock s gone e.1).bind (fun m =>
    if symsBad s m.1 (e.1 * 64) && !mapGet false s.chDead (chOf (e.1 * 64)) then some (e.1, m) else none))) ++ lostBlocks s gone

/-- The errors that the copy meets are counted and recorded, and a correctable block is corrected; nothing replays for them
(R186, R192). -/
def noteCopy (gone : List Nat) (s : State) : State :=
  let s1 := s.dramSyms.foldl (fun t e => match movedBlock s gone e.1 with
    | some m => if symsBad s m.1 (e.1 * 64) || mapGet false s.chDead (chOf (e.1 * 64)) then t else dramCe (e.1 * 64) none t
    | none => t) s
  (lostInCopy s gone).foldl (fun t m => dramBadNote (m.1 * 64) m.2.1 (classOf s m.2.1) none t) s1

/-- Step 6 of R191: every granule that changes location is copied, a block that cannot be read as a poisoned one. -/
def relocate (gone : List Nat) (s : State) : State :=
  let poison := moveEntries 64 s gone s.dramPoison
  let s1 := noteCopy gone s
  { s1 with
    dram := moveEntries 4096 s gone s.dram, dramAny := moveEntries 64 s gone s.dramAny,
    dramPoison := (lostInCopy s gone).foldl (fun m b => mapSet false m b.2.2 true) poison,
    dramSyms := mapDrop s1.dramSyms (fun b => takesGran s gone (b / 64)) }

/-- The contexts that the map-out holds are held (R191 step 5). -/
def mapHeld (s : State) (j : MapJob) : Bool := (mapCtxs s j.chans).all (isHeld s)

/-- Step 6 begins for the running map-out once its contexts are held. -/
def mapoutRelocate (s : State) : State :=
  match s.mapQ with
  | j :: js =>
    if j.phase = 1 ∧ mapHeld s j then
      relocate j.chans (wr (pgMemc j.stack) R.MEMC_STATUS_RELOCATING 1 { s with mapQ := { j with phase := 2 } :: js })
    else s
  | [] => s

/-- MAPOUT_RELOCATE (R191). -/
def execMapoutRelocate (s : State) : Host.Outcome State Fault Refusal := .next (mapoutRelocate s)

/-- Backed device DRAM in MiB (R190, R211). -/
def backedMib (s : State) : Nat := 524288 - 2048 * s.factory.mapped.length

/-- Step 7 of R191: recorded in the factory region, the remap in force, what lies in the channels lost, the contexts
released; then step 5 of the next held GO. -/
def mapoutComplete (s : State) : State :=
  match s.mapQ with
  | j :: js =>
    if j.phase ≠ 2 then s
    else
      let gone (k : Nat) : Bool := j.chans.contains (k / 2 ^ 31)
      let s1 := j.chans.foldl (fun t c => setChState c 2 t) s
      let s2 := { s1 with
        mapQ := js, factory := { s1.factory with mapped := s1.factory.mapped ++ j.chans },
        dram := mapDrop s1.dram gone, dramAny := mapDrop s1.dramAny (fun b => gone (b * 64)), dramPoison := mapDrop s1.dramPoison (fun b => gone (b * 64)),
        dramSyms := mapDrop s1.dramSyms (fun b => gone (b * 64)), chDead := mapDrop s1.chDead (fun c => j.chans.contains c),
        ctxs := s1.ctxs.map (fun e => (e.1, { e.2 with mapHold := none })) }
      let p := pgMemc j.stack
      let left := (List.range 32).any (fun c => chState s2 (j.stack * 32 + c) == 1)
      beginMap (wr (pgMemc 0) R.MEMC_BACKED_MIB (backedMib s2) (wr p R.MEMC_STATUS_RELOCATING 0
        (wr p R.MEMC_STATUS_MAPOUT_PENDING (b2n left) s2)))
  | [] => s

/-- MAPOUT_COMPLETE (R191). -/
def execMapoutComplete (s : State) : Host.Outcome State Fault Refusal := .next (mapoutComplete s)

/-! ### The quay store -/

/-- The quay controller serves a read within one 4 KiB page (R206 to R208): the bytes and what the page's LDPC decoder
found. A read waits while the directory is not loaded. -/
def quayRead (a len : Nat) (r : PageResult) (o : WorkTag) (s : State) : State :=
  if rd s pgQuay R.QUAY_STATUS_READY = 0 ∨ 2 ^ 40 ≤ a then s
  else
    let n := min len (4096 - a % 4096)
    let ctx := o.ctx.map (fun x => x.val)
    let s1 := countE (pgPerf 4) 0xF3 0 1 ctx (bump pgQuay R.QUAY_RD_BYTES n s)
    let bytes := ofBytes ((List.range n).map (fun i => (mapGet 0#8 s.quay (a + i)).toNat))
    let u := checkFor pgQuay 1 (r == .bad) s1
    if u.1 then
      let s2 := recordErr pgQuay 1 ctx (bumpSat pgQuay R.QUAY_UE_COUNT 1 { u.2 with quayBad := mapSet false u.2.quayBad (a / 4096) true })
      { workStepFatal ctx o.step (errCode .quay 1) s2 with reply := ⟨0, errCode .quay 1, true⟩ }
    else
      let c := checkFor pgQuay 0 (r == .corrected) u.2
      { (if c.1 then recordErr pgQuay 0 ctx (bumpSat pgQuay R.QUAY_CE_COUNT 1 c.2) else c.2) with reply := ⟨bytes, 0, false⟩ }

/-- QUAY_READ (R207). -/
def execQuayRead (a len : Nat) (_streamed : Bool) (r : PageResult) (o : WorkTag) (s : State) : Host.Outcome State Fault Refusal :=
  .next (quayRead a len r o s)

/-- Whether the quay policy accepts an image signed with a slot's keys (R474). -/
def policyAdmits (s : State) (slot : Nat) : Bool :=
  let q := rd s pgFuse R.FUSE_CFG_QP
  !bitSet q 2 && (if slot < 2 then !bitSet q 1 else bitSet q 0)

/-- Bytes rounded up to whole quay pages. -/
def quaySpan (n : Nat) : Nat := (n + 4095) / 4096 * 4096

/-- Whether `n` bytes from `base` are free pages of the user region. -/
def quayFree (s : State) (base n : Nat) : Bool :=
  decide (base % 4096 = 0 ∧ base + quaySpan n ≤ 2 ^ 40) &&
    s.quayDir.all (fun e => decide (base + quaySpan n ≤ e.2.base ∨ e.2.base + quaySpan e.2.len ≤ base))

/-- IMAGES and FREE_BYTES as the directory in force gives them (R213). -/
def quayCounts (s : State) : State :=
  wr pgQuay R.QUAY_IMAGES s.quayDir.length
    (wr pgQuay R.QUAY_FREE_BYTES (2 ^ 40 - s.quayDir.foldl (fun a e => a + quaySpan e.2.len) 0) s)

/-- The directory entry that an image takes: that of the same IMAGE_ID, else the lowest unused. -/
def quaySlot (s : State) (id : Nat) : Option Nat :=
  match s.quayDir.find? (fun e => e.2.id == id) with
  | some e => some e.1
  | none => (List.range 64).find? (fun i => (mapFind s.quayDir i).isNone)

/-- Bytes written to quay pages. -/
def quayPut (o : Nat) : List Nat → State → State
  | [], s => s
  | b :: bs, s => quayPut (o + 1) bs { s with quay := mapSet 0#8 s.quay o (BitVec.ofNat 8 b) }

/-- The commit of R209: the image in its pages, the new directory in the other copy with the sequence raised, the commit
word in the slot that the last commit did not take; the pages of a replaced image are freed after it. -/
def quayCommit (i base : Nat) (o : List Nat) (s : State) : State :=
  let old := mapFind s.quayDir i
  let freed (k : Nat) : Bool := match old with | some e => decide (e.base ≤ k ∧ k < e.base + quaySpan e.len) | none => false
  let clean := mapDrop s.quay (fun k => freed k || decide (base ≤ k ∧ k < base + quaySpan o.length))
  let s1 := quayPut base o { s with
    quay := clean, quayBad := mapDrop s.quayBad (fun p => freed (p * 4096) || decide (base ≤ p * 4096 ∧ p * 4096 < base + quaySpan o.length)),
    quayOther := s.quayDir, quayDir := mapPut s.quayDir i ⟨oImage o, oVersion o, base, o.length, oSvn o, false⟩,
    quaySeq := s.quaySeq + 1, quayCopy := 1 - s.quayCopy,
    quayWord0 := if s.quaySeq % 2 = 1 then (s.quaySeq + 1, 1 - s.quayCopy) else s.quayWord0,
    quayWord1 := if s.quaySeq % 2 = 1 then s.quayWord1 else (s.quaySeq + 1, 1 - s.quayCopy) }
  quayCounts (wr pgQuay R.QUAY_STATUS_DIR_COPY s1.quayCopy s1)

/-- The spare blocks left after a write (R208). -/
def quaySpare (pct : Nat) (s : State) : State :=
  let now := min pct (rd s pgQuay R.QUAY_SPARE_PCT)
  let s1 := wr pgQuay R.QUAY_SPARE_PCT now s
  if 10 < rd s pgQuay R.QUAY_SPARE_PCT ∧ now ≤ 10 then recordErr pgQuay 4 none s1 else s1

/-- An installation by the running firmware (R209, R474, R475): refused by the policy before anything is written; then
written, verified and committed. -/
def quayInstall (q : InstallReq) (s : State) : State :=
  let o := objNats q.obj
  if rd s pgMgmt R.MGMT_STATUS_FW_RUNNING = 0 ∨ rd s pgQuay R.QUAY_STATUS_READY = 0 then s
  else if !policyAdmits s (oSlot o) then secError 2 s
  else if !quayFree s q.base o.length then s
  else
    let s1 := quaySpare q.spare (bump pgQuay R.QUAY_WR_BYTES o.length s)
    if !objOk s 2 o then secError 0 s1
    else if oSvn o < svnImg s ∨ s.quayDir.any (fun e => e.2.id == oImage o && decide (oVersion o < e.2.ver)) then secError 1 s1
    else match quaySlot s (oImage o) with
      | some i => quayCommit i q.base o s1
      | none => s1

/-- QUAY_INSTALL (R209). -/
def execQuayInstall (q : InstallReq) (s : State) : Host.Outcome State Fault Refusal := .next (quayInstall q s)

end Sys2Proof.Machine
end

