-- ==== Sys2Proof/Machine/Wlock.lean ====
section
/-!
DEFINITION. The weight locks (R328 to R338): binding, chambers, the gate, admission from the ring, replacement in place.
-/

namespace Sys2Proof.Machine

/-- A field of weight lock `l`. -/
def wl (s : State) (f : RegField) (l : Nat) : Nat := rdi s pgWlock f l

/-- A field of weight lock `l` set. -/
def wlSet (f : RegField) (l v : Nat) (s : State) : State := wri pgWlock f l v s

/-- An error of a weight lock (R339): recorded with the lock where it is the record of ERR_FIRST; all but WL_STATE are
context-fatal for the lock's context. -/
def wlError (l bit : Nat) (s : State) : State :=
  let n := wl s R.WLOCK_LOCK_CTRL_CONTEXT l
  let s1 := recordErr pgWlock bit (some n) s
  let s2 := if rd s pgWlock R.HEADER_ERR_FIRST_VALID = 0 ∧ rd s1 pgWlock R.HEADER_ERR_FIRST_VALID = 1 then
      wr pgWlock R.WLOCK_ERR_LOCK_LOCK l (wr pgWlock R.WLOCK_ERR_LOCK_VALID 1 s1) else s1
  if bit = 0 then s2 else ctxFatal n (errCode .wlock bit) s2

/-- Whether `n` bytes from `a` lie wholly in correct sections of a polder. -/
def inCorrect (s : State) (polder a n : Nat) : Bool :=
  decide (a + n ≤ 0x80_0000_0000) && (List.range ((a + n - 1) / 2 ^ 30 + 1 - a / 2 ^ 30)).all (fun i =>
    let k := a / 2 ^ 30 + i
    polderSect s polder k && (sectOf s k).mode != 0 && (sectOf s k).cls == 0)

/-- The checks of R328 on a lock's configuration, and those of R339 on its fields. -/
def lockCfgOk (s : State) (l : Nat) : Bool :=
  let mode := wl s R.WLOCK_LOCK_CTRL_MODE l
  let len := wl s R.WLOCK_LOCK_CH_LEN l
  match ctxOf s (wl s R.WLOCK_LOCK_CTRL_CONTEXT l) with
  | none => false
  | some x =>
    inCorrect s x.polder (wl s R.WLOCK_LOCK_CH_A_BASE l) len &&
      inCorrect s x.polder (wl s R.WLOCK_LOCK_CH_B_BASE l) len &&
      [R.WLOCK_LOCK_TAIL_TALLY, R.WLOCK_LOCK_RET_A_TALLY, R.WLOCK_LOCK_RET_B_TALLY, R.WLOCK_LOCK_PASS_BASE,
        R.WLOCK_LOCK_REWRITE_TALLY, R.WLOCK_LOCK_DONE_TALLY].all (fun f => tallyAligned (wl s f l)) &&
      wl s R.WLOCK_LOCK_RING_BASE l % 64 == 0 && decide (1 ≤ wl s R.WLOCK_LOCK_RING_LOG2N l ∧ wl s R.WLOCK_LOCK_RING_LOG2N l ≤ 12) &&
      (mode == 0 || decide (1 ≤ wl s R.WLOCK_LOCK_IP_LAYERS l))

/-- VALID applies as 1 on an unbound lock (R328): bound with both chambers FREE and the gate closed, or refused. -/
def bindLock (l : Nat) (s : State) : State :=
  checked pgWlock 0 (!lockCfgOk s l) (fun u => wlSet R.WLOCK_LOCK_CTRL_VALID l 0 (wlError l 0 u)) (fun u =>
    let s1 := [R.WLOCK_LOCK_STATUS_STATE_A, R.WLOCK_LOCK_STATUS_STATE_B, R.WLOCK_LOCK_STATUS_ACTIVE,
      R.WLOCK_LOCK_STATUS_BARRIER, R.WLOCK_LOCK_STATUS_HELD, R.WLOCK_LOCK_GEN, R.WLOCK_LOCK_ADMITTED_A,
      R.WLOCK_LOCK_ADMITTED_B, R.WLOCK_LOCK_SWAPS, R.WLOCK_LOCK_IP_NEXT].foldl (fun t f => wlSet f l 0 t) u
    wr pgWlock R.WLOCK_STATUS_BOUND (putBits (rd s1 pgWlock R.WLOCK_STATUS_BOUND) l 1 1) s1) s

/-- The state of a chamber: 0 A, 1 B (R329). -/
def chamber (s : State) (l ch : Nat) : Nat :=
  if ch = 0 then wl s R.WLOCK_LOCK_STATUS_STATE_A l else wl s R.WLOCK_LOCK_STATUS_STATE_B l

/-- The state of a chamber set. -/
def setChamber (l ch v : Nat) (s : State) : State :=
  if ch = 0 then wlSet R.WLOCK_LOCK_STATUS_STATE_A l v s else wlSet R.WLOCK_LOCK_STATUS_STATE_B l v s

/-- A host event of a weight lock. -/
def wlEvent (code l : Nat) (s : State) : State := hostEvent code pgWlock (some (wl s R.WLOCK_LOCK_CTRL_CONTEXT l)) 0 s

/-- The value of ACTIVE_REQ takes effect on the gate (R331). -/
def gateApply (l : Nat) (s : State) : State :=
  let req := wl s R.WLOCK_LOCK_CTRL_ACTIVE_REQ l
  let now := wl s R.WLOCK_LOCK_STATUS_ACTIVE l
  let refuse (t : State) : State := wlSet R.WLOCK_LOCK_CTRL_ACTIVE_REQ l now t
  if req = now then s
  else if req = 3 then refuse s
  else if !lockBound s l then refuse (wlError l 0 s)
  else if wl s R.WLOCK_LOCK_STATUS_BARRIER l = 1 then refuse (wlError l 0 s)
  else if req = 0 then wlSet R.WLOCK_LOCK_STATUS_ACTIVE l 0 (setChamber l (now - 1) 4 s)
  else if chamber s l (req - 1) = 2 ∧ !(req = 2 ∧ wl s R.WLOCK_LOCK_CTRL_MODE l = 1) then
    let s1 := if now = 0 then s else setChamber l (now - 1) 4 s
    wlEvent evGateSwitched l (wlSet R.WLOCK_LOCK_GEN l (wl s R.WLOCK_LOCK_GEN l + 1)
      (wlSet R.WLOCK_LOCK_STATUS_ACTIVE l req (setChamber l (req - 1) 3 s1)))
  else refuse (wlError l 0 s)

/-- The offset of a lock's registers on the page, and whether an offset is one of them (R339). -/
def lockBase (l : Nat) : Nat := 0x100 + l * 0x80
def lockOff (l o : Nat) : Bool := decide (lockBase l ≤ o ∧ o < lockBase l + 0x80)

/-- The pending values that R339 discards with WL_STATE: a chamber base while that chamber is not FREE, a length while
either is not. -/
def lockDiscards (s : State) (l : Nat) (o : Nat) : Bool :=
  let a := chamber s l 0 != 0
  let b := chamber s l 1 != 0
  (a && o == lockBase l + 0x10) || (b && o == lockBase l + 0x18) || ((a || b) && o == lockBase l + 0x20)

/-- The lock's boundary (R67, R333): its pending values apply together; then VALID and ACTIVE_REQ act. -/
def applyLock (l : Nat) (s : State) : State :=
  let mine := (pendOffs s pgWlock).filter (fun e => lockOff l e.1)
  if mine.isEmpty then s
  else
    let bad := mine.any (fun e => lockDiscards s l e.1)
    let s1 := dropSel pgWlock (lockDiscards s l) s
    let s2 := bump pgWlock R.HEADER_BOUNDARY_CNT_COUNT 1 (applySel pgWlock (lockOff l) (if bad then wlError l 0 s1 else s1))
    let v := wl s2 R.WLOCK_LOCK_CTRL_VALID l
    let s3 := if v = 1 ∧ !lockBound s l then bindLock l s2
      else if v = 0 ∧ lockBound s l then unbindLock l s2 else s2
    gateApply l s3

/-- WLOCK_BIND (R328). -/
def execWlockBind (l : LockIx) (s : State) : Host.Outcome State Fault Refusal := .next (applyLock l s)

/-- GATE_APPLY (R331). -/
def execGateApply (l : LockIx) (s : State) : Host.Outcome State Fault Refusal := .next (applyLock l s)

/-! ### Commands (R330) -/

/-- A command of R330 accepted or refused. -/
def wlCmd (l op ch : Nat) (s : State) : State :=
  let st := chamber s l ch
  let mine : Bool := lockBound s l && !(ch == 1 && wl s R.WLOCK_LOCK_CTRL_MODE l == 1)
  match op with
  | 0 => s
  | 1 => if mine ∧ st = 0 then setChamber l ch 1 s else wlError l 0 s
  | 2 => if mine ∧ st = 1 then setChamber l ch 2 s else wlError l 0 s
  | 3 => if mine ∧ (st = 1 ∨ st = 2) then setChamber l ch 0 s else wlError l 0 s
  | 4 =>
    if lockBound s l ∧ wl s R.WLOCK_LOCK_CTRL_MODE l = 1 ∧ chamber s l 0 = 3 ∧ wl s R.WLOCK_LOCK_STATUS_BARRIER l = 0 then
      wlSet R.WLOCK_LOCK_IP_NEXT l 0 (wlSet R.WLOCK_LOCK_STATUS_BARRIER l 1 s)
    else wlError l 0 s
  | _ => wlError l 0 s

/-- FILL (R330). -/
def execFill (p : Path) (l : LockIx) (ch : Fin 2) (s : State) : Host.Outcome State Fault Refusal :=
  .next (access p pgWlock (wlCmd l 1 ch) s)

/-- READY (R330). -/
def execReady (p : Path) (l : LockIx) (ch : Fin 2) (s : State) : Host.Outcome State Fault Refusal :=
  .next (access p pgWlock (wlCmd l 2 ch) s)

/-- ABANDON (R330). -/
def execAbandon (p : Path) (l : LockIx) (ch : Fin 2) (s : State) : Host.Outcome State Fault Refusal :=
  .next (access p pgWlock (wlCmd l 3 ch) s)

/-- IP_START (R337). -/
def execIpStart (p : Path) (l : LockIx) (s : State) : Host.Outcome State Fault Refusal :=
  .next (access p pgWlock (wlCmd l 4 0) s)

/-! ### The poll (R333, R336, R337) -/

/-- Batches admitted so far. -/
def admitted (s : State) (l : Nat) : Nat := wl s R.WLOCK_LOCK_ADMITTED_A l + wl s R.WLOCK_LOCK_ADMITTED_B l

/-- The words of admission entry `k`. -/
def admitWords (s : State) (l k : Nat) : List Nat :=
  dramWords s (wl s R.WLOCK_LOCK_RING_BASE l + k % 2 ^ wl s R.WLOCK_LOCK_RING_LOG2N l * 64) 8

/-- Whether an admission entry is well formed (R332, R333). -/
def admitOk (ws : List Nat) : Bool :=
  wf ws 1 48 16 == 0 && wf ws 2 34 30 == 0 && wf ws 3 48 16 == 0 && (List.range 4).all (fun i => wd ws (4 + i) == 0) &&
    tallyAligned (wf ws 1 0 48)

/-- Admission stops (R333): WL_RING. -/
def stopLock (l : Nat) (s : State) : State := wlError l 1 { s with wlStop := l :: s.wlStop }

/-- One entry admitted to the chamber that the gate is open on. -/
def admitOne (l : Nat) (ws : List Nat) (s : State) : State :=
  let c := wl s R.WLOCK_LOCK_STATUS_ACTIVE l
  let a := wl s R.WLOCK_LOCK_RING_BASE l + admitted s l % 2 ^ wl s R.WLOCK_LOCK_RING_LOG2N l * 64
  let base := if c = 1 then wl s R.WLOCK_LOCK_CH_A_BASE l else wl s R.WLOCK_LOCK_CH_B_BASE l
  let s1 := dramPutWord (a + 24) base (dramPutWord (a + 16) (wl s R.WLOCK_LOCK_GEN l + c * 2 ^ 32) s)
  let s2 := if c = 1 then wlSet R.WLOCK_LOCK_ADMITTED_A l (wl s R.WLOCK_LOCK_ADMITTED_A l + 1) s1
    else wlSet R.WLOCK_LOCK_ADMITTED_B l (wl s R.WLOCK_LOCK_ADMITTED_B l + 1) s1
  tallyAdd (wf ws 1 0 48) 1 s2

/-- The admission loop of R333 for at most `n` entries; an entry waits with HELD where the gate is closed or the barrier
stands. -/
def admitLoop (l tail : Nat) : Nat → State → State
  | 0, s => s
  | n + 1, s =>
    if tail ≤ admitted s l then s
    else
      let s1 := applyLock l s
      if !lockBound s1 l then s1
      else if wl s1 R.WLOCK_LOCK_STATUS_ACTIVE l = 0 ∨ wl s1 R.WLOCK_LOCK_STATUS_BARRIER l = 1 then
        wlSet R.WLOCK_LOCK_STATUS_HELD l 1 s1
      else
        let ws := admitWords s1 l (admitted s1 l)
        if !admitOk ws then stopLock l s1 else admitLoop l tail n (admitOne l ws s1)

/-- Admission at a read of TAIL_TALLY. -/
def admitPoll (l : Nat) (s : State) : State :=
  if s.wlStop.contains l then s
  else
    let tail := dramWord s (wl s R.WLOCK_LOCK_TAIL_TALLY l)
    checked pgWlock 1 (decide (tail < admitted s l)) (stopLock l)
      (fun u => admitLoop l tail (tail - admitted s l) (wlSet R.WLOCK_LOCK_STATUS_HELD l 0 u)) s

/-- A chamber's retire tally read (R333): above its admissions an error; a drained chamber becomes FREE. -/
def retirePoll (l ch : Nat) (s : State) : State :=
  let r := dramWord s (if ch = 0 then wl s R.WLOCK_LOCK_RET_A_TALLY l else wl s R.WLOCK_LOCK_RET_B_TALLY l)
  let a := if ch = 0 then wl s R.WLOCK_LOCK_ADMITTED_A l else wl s R.WLOCK_LOCK_ADMITTED_B l
  checked pgWlock 2 (decide (a < r)) (wlError l 2) (fun u =>
    if chamber s l ch = 4 ∧ r = a then wlEvent evChamberFree l (setChamber l ch 0 u) else u) s

/-- The pass tally of a layer (R336). -/
def passOf (s : State) (l i : Nat) : Nat := dramWord s (wl s R.WLOCK_LOCK_PASS_BASE l + i * 8)

/-- Layers granted in place, at most `n` (R337 step 2). -/
def grantLoop (l : Nat) : Nat → State → State
  | 0, s => s
  | n + 1, s =>
    let i := wl s R.WLOCK_LOCK_IP_NEXT l
    if wl s R.WLOCK_LOCK_STATUS_BARRIER l = 1 ∧ i < wl s R.WLOCK_LOCK_IP_LAYERS l ∧ wl s R.WLOCK_LOCK_ADMITTED_A l ≤ passOf s l i then
      grantLoop l n (wlSet R.WLOCK_LOCK_IP_NEXT l (i + 1) (tallyAdd (wl s R.WLOCK_LOCK_REWRITE_TALLY l) 1 s))
    else s

/-- The replacement in place at a poll (R336, R337). -/
def inPlacePoll (l : Nat) (s : State) : State :=
  let n := wl s R.WLOCK_LOCK_IP_LAYERS l
  if wl s R.WLOCK_LOCK_CTRL_MODE l = 0 then s
  else checked pgWlock 3 ((List.range n).any (fun i => decide (wl s R.WLOCK_LOCK_ADMITTED_A l < passOf s l i))) (wlError l 3)
    (fun u =>
      let s1 := grantLoop l n u
      let k := wl s1 R.WLOCK_LOCK_SWAPS l
      if wl s1 R.WLOCK_LOCK_STATUS_BARRIER l = 1 ∧ (k + 1) * n ≤ dramWord s1 (wl s1 R.WLOCK_LOCK_DONE_TALLY l) then
        wlEvent evWlSwapped l (wlSet R.WLOCK_LOCK_STATUS_BARRIER l 0 (wlSet R.WLOCK_LOCK_SWAPS l (k + 1)
          (wlSet R.WLOCK_LOCK_GEN l (wl s1 R.WLOCK_LOCK_GEN l + 1) s1)))
      else s1) s

/-- TAIL_TALLY_READ (R333): the poll of a bound lock. -/
def lockPoll (l : Nat) (s : State) : State :=
  if !lockBound s l then s
  else admitPoll l (retirePoll l 1 (retirePoll l 0 (inPlacePoll l s)))

/-- TAIL_TALLY_READ (R333). -/
def execTailTallyRead (l : LockIx) (s : State) : Host.Outcome State Fault Refusal := .next (lockPoll l s)

end Sys2Proof.Machine
end

