-- ==== Sys2Proof/Machine/Sched.lean ====
section
/-!
DEFINITION. Polders, contexts and the cyclic schedule (R340 to R366): the polder table, creation, switches with their save
and restore, residency and swaps, teardown.
-/

namespace Sys2Proof.Machine

/-! ### The polder table (R341, R342) -/

/-- The withdrawn core blocks of the module (R31, R52), by block index. -/
def withdrawn (s : State) (b : Nat) : Bool :=
  let by_ := b / 16
  let bx := b % 16
  bitSet (rd s (pgDie (by_ / 4 * 2 + bx / 8)) R.DIE_WITHDRAWN) (by_ % 4 * 8 + bx % 8)

/-- The 16 words of an entry of the polder table at `a`. -/
def polderWords (s : State) (a p : Nat) : List Nat := dramWords s (a + 128 * p) 16

/-- Whether an entry's reserved fields and UPD_MAX are in order. -/
def polderShape (ws : List Nat) : Bool :=
  decide (wd ws 0 ≤ 1) && decide (wd ws 12 ≤ 4) && wd ws 13 == 0 && wd ws 14 == 0 && wd ws 15 == 0

/-- Whether two valid entries share a block or a section. -/
def poldersMeet (a b : List Nat) : Bool :=
  (List.range 2).any (fun i => (wd a (1 + i) &&& wd b (1 + i)) != 0) || (List.range 8).any (fun i => (wd a (3 + i) &&& wd b (3 + i)) != 0)

/-- Whether no two valid entries of a list meet. -/
def poldersApart : List (Nat × List Nat) → Bool
  | [] => true
  | e :: es => es.all (fun f => !poldersMeet e.2 f.2) && poldersApart es

/-- Whether a valid entry names a block, none withdrawn, and assigned sections only. -/
def polderParts (s : State) (ws : List Nat) : Bool :=
  (wd ws 1 != 0 || wd ws 2 != 0) && (List.range 128).all (fun b => !(bitSet (wd ws (1 + b / 64)) (b % 64) && withdrawn s b)) &&
    (List.range 512).all (fun i => !(bitSet (wd ws (3 + i / 64)) (i % 64) && (sectOf s i).mode == 0))

/-- The polder table read and checked (R342): in force as a whole, or refused. -/
def loadPolders (s : State) : State :=
  let a := rd s pgSched R.SCHED_POLDER_BASE
  let s1 := dramFetch a 16384 none none s
  let all := (List.range 128).map (fun p => (p, polderWords s a p))
  let valid := all.filter (fun e => bitSet (wd e.2 0) 0)
  let known (p : Nat) : Bool := s.ctxs.any (fun e => e.2.polder == p)
  if backed s a 16384 && !dramPoisoned s a 16384 && all.all (fun e => polderShape e.2) && poldersApart valid &&
      valid.all (fun e => polderParts s e.2) && all.all (fun e => !known e.1 || mapFind valid e.1 == mapFind s.polTab e.1) then
    checked pgSched 1 false (recordErr pgSched 1 none) (fun t => { t with polTab := valid }) s1
  else recordErr pgSched 1 none s1

/-- POLDER_TABLE_LOAD (R342): after the schedule-cycle boundary at which a written POLDER_BASE applied, the table is
read. -/
def doPolderLoad (s : State) : State := if s.polDue then loadPolders { s with polDue := false } else s

/-- POLDER_TABLE_LOAD (R342). -/
def execPolderTableLoad (s : State) : Host.Outcome State Fault Refusal := .next (doPolderLoad s)

/-- The cores of a polder in ascending order. -/
def polderCores (s : State) (p : Nat) : List Nat :=
  match mapFind s.polTab p with
  | some ws => (List.range 8192).filter (fun c => bitSet (wd ws (1 + blockOfCore c / 64)) (blockOfCore c % 64))
  | none => []

/-! ### Creation (R345, R347, R348) -/

/-- STATUS.KNOWN and STATUS.RESIDENT of the SCHED page (R344, R367). -/
def countCtxs (s : State) : State :=
  let held := (s.ctxs.filter (fun e => ctxState s e.1 == stResident || ctxState s e.1 == stSwapping || ctxState s e.1 == stTearing)).length
  wr pgSched R.SCHED_STATUS_RESIDENT held (wr pgSched R.SCHED_STATUS_KNOWN s.ctxs.length s)

/-- A section mask of 512 bits from its 8 words. -/
def maskOf (ws : List Nat) : Nat := (ws.zipIdx).foldl (fun a e => a + e.1 * 2 ^ (64 * e.2)) 0

/-- Whether `n` bytes from `a` lie wholly in correct sections of a mask. -/
def inMask (s : State) (mask a n : Nat) : Bool :=
  decide (a + n ≤ 0x80_0000_0000) && (List.range ((a + n - 1) / 2 ^ 30 + 1 - a / 2 ^ 30)).all (fun i =>
    let k := a / 2 ^ 30 + i
    bitSet mask k && (sectOf s k).mode != 0 && (sectOf s k).cls == 0)

/-- The context that a descriptor describes. -/
def ctxFrom (ws : List Nat) (mask gen : Nat) : Ctx :=
  { job := wf ws 0 0 16, polder := wf ws 0 16 7, typ := wf ws 0 24 2, noncanon := wf ws 0 26 1 == 1, seed := wd ws 1,
    stepBlock := wf ws 2 0 48, placeBase := wf ws 3 0 48, coll := ⟨wf ws 4 0 48, wf ws 4 48 4, wf ws 5 0 48⟩, lsEn := wf ws 6 0 1,
    lsS := wf ws 6 1 3, lsE0 := wf ws 6 8 8, lsEmin := wf ws 6 16 8, lsEmax := wf ws 6 24 8, lsG := wf ws 6 32 24,
    lsNskip := wf ws 6 56 8, saveBase := wf ws 7 0 48, sects := mask, progressUs := wf ws 9 0 32,
    rings := (List.range 4).map (fun n => ⟨wf ws (10 + 2 * n) 0 48, wf ws (10 + 2 * n) 48 4, wf ws (11 + 2 * n) 0 48⟩),
    gen := gen, tails := [], nextE := [], started := [], slots := [], plans := [], admitStep := none, admitIdx := 0,
    hold := none, swapOut := false, tearReq := false, swapFor := none, halted := false, haltCode := 0, prep := false,
    slotFull := 0, peerBound := 0, reportAt := 0, reportMj := 0, replayStep := 0, replayCnt := 0, marks := [],
    boundary := none, mapHold := none, swapReq := false, waitTick := 0, blockTicks := 0, blockCycle := false, catchUp := [],
    drain := false, place := none, placeNext := none, placeOld := none, verds := [], ups := [], collNext := [] }

/-- Whether the reserved fields of a descriptor are 0 (R347). -/
def ctxReserved (ws : List Nat) : Bool :=
  wf ws 0 23 1 == 0 && wf ws 0 27 37 == 0 && wf ws 2 48 16 == 0 && wf ws 3 48 16 == 0 && wf ws 4 52 12 == 0 &&
    wf ws 5 48 16 == 0 && wf ws 6 4 4 == 0 && wf ws 7 48 16 == 0 && wf ws 8 48 16 == 0 && wf ws 9 32 32 == 0 &&
    (List.range 4).all (fun n => wf ws (10 + 2 * n) 52 12 == 0 && wf ws (11 + 2 * n) 48 16 == 0) &&
    (List.range 14).all (fun i => wd ws (18 + i) == 0)

/-- The bytes of a save image (R358): the header and one record for each core of the polder. -/
def imageBytes (s : State) (p : Nat) : Nat := 8192 + 311296 * (polderCores s p).length

/-- The checks of R348 on a descriptor's words and its section mask. -/
def ctxDescOk (s : State) (ws : List Nat) (mask : Nat) : Bool :=
  let x := ctxFrom ws mask 0
  let e0 := signedOf 8 x.lsE0
  let lo := signedOf 8 x.lsEmin
  let hi := signedOf 8 x.lsEmax
  ctxReserved ws && x.typ != 3 && decide (1 ≤ x.lsS ∧ x.lsS ≤ 4) && decide (-126 ≤ e0 ∧ -126 ≤ lo ∧ lo ≤ hi) &&
    decide (1 ≤ x.coll.log2n) &&
    (match mapFind s.polTab x.polder with
     | some ps => (List.range 512).all (fun i => !bitSet mask i || bitSet (wd ps (3 + i / 64)) (i % 64))
     | none => false) &&
    s.ctxs.all (fun e => (e.2.sects &&& mask) == 0) &&
    inMask s mask x.saveBase (imageBytes s x.polder) && inMask s mask x.coll.base (128 * 2 ^ x.coll.log2n) &&
    inMask s mask x.placeBase 64 &&
    x.rings.all (fun r => r.log2n == 0 || (inMask s mask r.base (64 * 2 ^ r.log2n) && inMask s mask r.tail 16)) &&
    (x.typ != 0 || (x.stepBlock != 0 && (x.rings.getD 3 ⟨0, 0, 0⟩).log2n != 0))

/-- The outcome of a creation (R345, R367). -/
def createEnd (code : Nat) (s : State) : State := wr pgSched R.SCHED_CREATE_RESULT_CODE code s

/-- A context created at number `n` (R345). -/
def createAt (n a : Nat) (ws : List Nat) (mask : Nat) (s : State) : State :=
  let p := wf ws 0 16 7
  let g := (rdi s pgSched R.SCHED_POLDER_GEN p + 1) % 2 ^ 16
  let key := pageKey (pgCtx n)
  let s1 := dropPending (· == key)
    { s with regs := mapDrop s.regs (fun k => keyPage k == key), power := { s.power with rem := mapDel s.power.rem n } }
  let s2 := wr (pgCtx n) R.CTX_DESC a (wr (pgCtx n) R.CTX_STATUS_GEN g (wr (pgCtx n) R.CTX_STATUS_POLDER p
    (wr (pgCtx n) R.CTX_STATUS_STATE stSwapped s1)))
  let s3 := setCtx n (ctxFrom ws mask g) (wri pgSched R.SCHED_POLDER_GEN p g s2)
  countCtxs (createEnd 1 (wr pgSched R.SCHED_CREATE_RESULT_NUM n s3))

/-- CREATE_GO (R345): the lowest EMPTY number is taken, or the creation is refused. -/
def createGo (s : State) : State :=
  let a := rd s pgSched R.SCHED_CREATE_DESC
  let free := (List.range 64).find? (fun n => (ctxOf s n).isNone)
  checked pgSched 2 free.isNone (fun t => createEnd 2 (recordErr pgSched 2 none t)) (fun t =>
    let ws := dramWords s a 32
    let m := wf ws 8 0 48
    let s1 := dramFetch m 64 none none (dramFetch a 256 none none t)
    let mask := maskOf (dramWords s m 8)
    checked pgSched 3 (!(decide (a % 64 = 0) && backed s a 256 && !dramPoisoned s a 256 && backed s m 64 &&
        !dramPoisoned s m 64 && ctxDescOk s ws mask))
      (fun u => createEnd 3 (recordErr pgSched 3 none u)) (createAt (free.getD 0) a ws mask) s1) s

/-- CREATE_GO (R345). -/
def execCreateGo (p : Path) (s : State) : Host.Outcome State Fault Refusal := .next (access p pgSched createGo s)

/-! ### Save and restore (R84, R141, R358) -/

/-- The live scratch set of a core's last switch point: its first byte and length (R84). -/
def liveLo (k : Core) : Nat := k.liveBase * 1024
def liveLen (k : Core) : Nat := k.liveKib * 1024

/-- The record of core `c` in a context's save image. -/
def recordAt (s : State) (x : Ctx) (c : Nat) : Nat :=
  x.saveBase + 8192 + 311296 * ((polderCores s x.polder).filter (fun i => decide (i < c))).length

/-- The entries of an accumulator as a save image holds them. -/
def accBytes (a : Acc) : List Nat := (List.range 4096).flatMap (fun e => bytesOf 4 (accEnt a e))

/-- A live accumulator written to the image, its poisoned entries as poisoned blocks. -/
def saveAcc (base : Nat) (a : Acc) (s : State) : State :=
  foldUpTo 256 (fun i t => dramWrite (base + 64 * i) (((accBytes a).drop (64 * i)).take 64)
    ((List.range 16).any (fun j => mapGet false a.bad (16 * i + j))) t) s

/-- The reads of a switch checked (R104, R143): the SECDED of the live set and of each declared accumulator, an
uncorrectable word stopping the core as any read of it does. -/
def saveChecks (c : Nat) (s : State) : State :=
  let k := coreOf s c
  let r := if liveLen k = 0 then (false, s) else scrSecded c (liveLo k) (liveLen k) s
  let s1 := if r.1 then coreAsyncFault c 14 none r.2 else r.2
  [0, 1].foldl (fun t i =>
    if bitSet k.accLive i then
      let q := accSecded c i ((accOf (coreOf t c) i).upset.map (fun e => e.1)) t
      if q.1 then coreAsyncFault c 22 none q.2 else q.2
    else t) s1

/-- The declared live set and accumulators of a core written to the context's image; the private record beside them. -/
def saveImage (x : Ctx) (c : Nat) (s : State) : State :=
  let s0 := saveChecks c s
  let k := coreOf s0 c
  let r := recordAt s0 x c
  let bad (a : Nat) : Bool := scrPoisoned k a 64 || (wordsOf a 64).any (fun w => mapGet 0 k.scrUpset w == 2)
  let s1 := foldUpTo (liveLen k / 64) (fun i t =>
    dramWrite (r + liveLo k + 64 * i) (scrRead k (liveLo k + 64 * i) 64) (bad (liveLo k + 64 * i)) t) s0
  let s2 := if bitSet k.accLive 0 then saveAcc (r + 0x40000) k.acc0 s1 else s1
  let s3 := if bitSet k.accLive 1 then saveAcc (r + 0x44000) k.acc1 s2 else s2
  dramScramble (r + 0x48000) 256 s3

/-- What a core's private record keeps (R358): sequencer, vector registers, tally slots, booking, resident segments. The
booking asked for stands for the one held, and a slot whose unit has seen its threshold is satisfied. Instruction memory
is none of it (R76). -/
def privateOf (k : Core) : Core :=
  { k with scr := [], scrAny := none, scrPoison := [], scrUpset := [], g := if k.bookPend then k.req else k.g, bookPend := false,
           imem := [], imemUpset := [], work := [], shadow := [], lastFold := none,
           slots := k.slots.map (fun e => (e.1, { e.2 with sat := e.2.sat || e.2.seen })),
           acc0 := if bitSet k.accLive 0 then { k.acc0 with ent := [], any := none, bad := [], upset := [] } else .zero,
           acc1 := if bitSet k.accLive 1 then { k.acc1 with ent := [], any := none, bad := [], upset := [] } else .zero }

/-- A core that no context is switched to: nothing resident; its memories as they are. -/
def emptyCore (k : Core) : Core :=
  { Core.zero with imem := k.imem, imemUpset := k.imemUpset, scr := k.scr, scrAny := k.scrAny, scrPoison := k.scrPoison,
                   scrUpset := k.scrUpset, v := k.v, vAny := k.vAny, vPoison := k.vPoison, acc0 := k.acc0, acc1 := k.acc1,
                   ran := k.ran }

/-- An accumulator whose entries are not preserved: IDLE, with free values. -/
def freeAcc (i : Nat) : Acc := { Acc.zero with any := some i }

/-- A core after a context was switched away from it: no byte, register or entry is preserved (R84, R141). -/
def leftCore (i : Nat) (k : Core) : Core :=
  { emptyCore k with scr := [], scrAny := some i, scrPoison := [], scrUpset := [], v := [], vAny := some (i + 1), vPoison := [],
                     acc0 := freeAcc (i + 2), acc1 := freeAcc (i + 3) }

/-- One core switched away from context `n`: saved, its booking released (R83). -/
def switchOut (n : Nat) (x : Ctx) (c : Nat) (s : State) : State :=
  let s1 := saveImage x c s
  let s2 := { s1 with imgCores := mapPut s1.imgCores (n * 8192 + c) (privateOf (coreOf s1 c)) }
  let s3 := bump (pgCtx n) R.CTX_DRAM_BYTES (liveLen (coreOf s c) + 16384 * popCount 2 (coreOf s c).accLive) s2
  modCore c (leftCore s3.free) (lowerCore c 0 { s3 with free := s3.free + 4 })

/-- An accumulator read back from the image. -/
def loadAcc (s : State) (base : Nat) (a : Acc) : Acc :=
  { a with
    ent := (List.range 4096).foldl (fun m e => mapSet 0 m e (ofBytes (dramRead s (base + 4 * e) 4))) [], any := none,
    bad := (List.range 4096).foldl (fun m e => mapSet false m e (dramPoisoned s (base + 4 * e) 4)) [] }

/-- One core switched to context `n`: what it declared at its last switch here is restored, its booking asked for again,
and the rest is not preserved (R84, R141). A context that was never switched away from this core restores nothing. -/
def switchIn (n : Nat) (x : Ctx) (c : Nat) (s : State) : State :=
  let gen := rd s (pgCtx n) R.CTX_STATUS_GEN
  let k := coreOf s c
  match imgCore s n c with
  | none => modCore c (fun k => { emptyCore k with ctx := some n, polder := x.polder, gen := gen }) s
  | some k0 =>
    let i := s.free
    let r := recordAt s x c
    let lo := liveLo k0
    let s1 := dramFetch (r + lo) (liveLen k0) (some n) none { s with free := s.free + 3 }
    let base := { k0 with scr := [], scrAny := some i, ctx := some n, polder := x.polder, gen := gen, atSwitch := false,
                          stopIssue := false, g := 0, req := k0.g, bookPend := decide (k0.g ≠ 0), ran := k.ran,
                          imem := k.imem, imemUpset := k.imemUpset }
    let bad := (List.range (liveLen k0)).map (fun a => dramPoisoned s1 (r + lo + a) 1)
    let k1 := scrWriteMarked lo (dramRead s1 (r + lo) (liveLen k0)) bad base
    let k2 := { k1 with acc0 := if bitSet k0.accLive 0 then loadAcc s1 (r + 0x40000) k0.acc0 else freeAcc (i + 1),
                        acc1 := if bitSet k0.accLive 1 then loadAcc s1 (r + 0x44000) k0.acc1 else freeAcc (i + 2) }
    let s2 := setCore c k2 { s1 with imgCores := mapDel s1.imgCores (n * 8192 + c) }
    let s3 := bump (pgCtx n) R.CTX_DRAM_BYTES (liveLen k0 + 16384 * popCount 2 k0.accLive) s2
    if k0.g = 0 then s3 else askSluice (regionOfCore c) false c k0.g s3

/-! ### Switches (R357, R358) -/

/-- A switch of a polder begins: to context `n`, or away from its present one to none. -/
def beginSwitch (p : Nat) (n : Option Nat) (s : State) : State :=
  let k := polOf s p
  if k.phase = 2 then s
  else if n = k.cur then
    (if k.phase = 1 then mapCores (fun _ c => c.ctx == n && c.atSwitch) (fun c => { c with atSwitch := false, stopIssue := false })
        (setPol p { k with next := none, phase := 0 } s) else s)
  else setPol p { k with next := n, phase := 1, nomAt := if k.phase = 1 then k.nomAt else tickOf s } s

/-- Whether a core of the outgoing context has reached where it can be switched: a switch point, a segment end, or a
stop behind a dike, with nothing in flight. -/
def coreParked (k : Core) : Bool :=
  (k.atSwitch || k.cur.isNone || k.faulted || k.stopIssue) && k.queue.isEmpty && k.drain.isNone && k.nmoves.isEmpty

/-- SWITCH_POINT_REACHED (R358): the last core is there; the lag is counted, and the outgoing context is saved. -/
def switchReached (p : Nat) (s : State) : State :=
  let k := polOf s p
  if k.phase ≠ 1 then s
  else match k.cur with
    | none => setPol p { k with phase := 2 } s
    | some n =>
      if !s.cores.all (fun e => e.2.ctx != some n || coreParked e.2) then s
      else
        let lag := (tickOf s + 2 ^ 64 - k.nomAt) % 2 ^ 64
        let s1 := bump (pgCtx n) R.CTX_SWITCH_LAG_TICKS lag s
        let s2 := if rd s pgSched R.SCHED_OVERRUN_TICKS < lag then ctxError n 5 0 s1 else s1
        let mine := s2.cores.filter (fun e => e.2.ctx == some n)
        let s3 := match ctxOf s2 n with
          | some x => if ctxState s2 n = stTearing ∨ ctxState s2 n = stScrubbing then s2
              else mine.foldl (fun t e => switchOut n x e.1 t) s2
          | none => s2
        setPol p { k with phase := 2 } s3

/-- SWITCH_POINT_REACHED (R358). -/
def execSwitchPointReached (pd : PolderIx) (s : State) : Host.Outcome State Fault Refusal := .next (switchReached pd s)

/-- The context that a polder's present slot names, where the slot is valid (R355). -/
def slotCtx (s : State) (p : Nat) : Option Nat :=
  let i := (polOf s p).slot
  if i < 256 ∧ rdi s pgSched R.SCHED_SLOT_VALID i = 1 ∧ rdi s pgSched R.SCHED_SLOT_POLDER i = p then
    some (rdi s pgSched R.SCHED_SLOT_CONTEXT i) else none

/-- SWITCH_COMPLETE (R359): the incoming context is restored on every core and issues again, and the slots freed meanwhile
are free (R253); the checks of R247 follow with its binding to the polder's cores (R348). -/
def switchComplete (p : Nat) (s : State) : State :=
  let k := polOf s p
  if k.phase ≠ 2 then s
  else
    let s1 := countE (pgPerf 4) 0xF1 0 1 k.cur s
    match k.next with
    | none => setPol p { k with cur := none, phase := 0 } s1
    | some n => match ctxOf s1 n with
      | none => setPol p { k with cur := none, next := none, phase := 0 } s1
      | some x =>
        if ctxState s1 n ≠ stResident then setPol p { k with cur := none, next := none, phase := 0 } s1
        else bindCheck n (modCtx n (fun x => { x with slots := slotsBound x.slots })
          (setPol p { k with cur := some n, next := none, phase := 0 } ((polderCores s1 p).foldl (fun t c => switchIn n x c t) s1)))

/-- A slot that named another context while a switch was under way takes its turn now (R355). -/
def slotAgain (p : Nat) (s : State) : State :=
  match slotCtx s p with
  | some n => if ctxState s n = stResident ∧ rd s pgSched R.SCHED_STATUS_RUNNING = 1 then beginSwitch p (some n) s else s
  | none => s

/-- SWITCH_COMPLETE (R359). -/
def execSwitchComplete (pd : PolderIx) (s : State) : Host.Outcome State Fault Refusal :=
  .next (if (polOf s pd).phase = 2 then slotAgain pd (switchComplete pd s) else s)

/-! ### Residency and swaps (R346, R360, R361) -/

/-- A swap-in begins (R359). -/
def swapIn (n : Nat) (s : State) : State :=
  countCtxs (wr (pgCtx n) R.CTX_STATUS_STATE stSwapping (wr (pgCtx n) R.CTX_STATUS_RUNNABLE_WAIT 0
    (modCtx n (fun x => { x with swapOut := false }) s)))

/-- A swap-out begins: where its polder is switched to the context, the polder is first switched away. `next` is the
context that takes its place. -/
def swapOut (n : Nat) (next : Option Nat) (s : State) : State :=
  match ctxOf s n with
  | none => s
  | some x =>
    let s1 := wr (pgCtx n) R.CTX_STATUS_STATE stSwapping (setCtx n { x with swapOut := true, swapReq := false, swapFor := next } s)
    if (polOf s1 x.polder).cur = some n then beginSwitch x.polder none s1 else s1

/-- Contexts that hold a resident place (R344). -/
def placesHeld (s : State) : Nat :=
  (s.ctxs.filter (fun e => ctxState s e.1 == stResident || ctxState s e.1 == stSwapping || ctxState s e.1 == stTearing)).length

/-- Whether a context is pinned (R368). -/
def pinned (s : State) (n : Nat) : Bool := rd s (pgCtx n) R.CTX_CTRL_PIN == 1

/-- Whether a context waits for a place: SWAPPED, runnable, and no swap already makes room for it. -/
def waitsPlace (s : State) (n : Nat) : Bool :=
  ctxState s n == stSwapped && rd s (pgCtx n) R.CTX_CTRL_RUN == 1 && !s.ctxs.any (fun e => e.2.swapFor == some n)

/-- Whether context `a` is taken before `b` (R346): pinned first, then the longer wait, then the lower number. -/
def takenFirst (s : State) (a b : Nat × Ctx) : Bool :=
  if pinned s a.1 ≠ pinned s b.1 then pinned s a.1
  else if a.2.waitTick ≠ b.2.waitTick then decide (a.2.waitTick < b.2.waitTick) else decide (a.1 < b.1)

/-- A list's first element by an order. -/
def firstBy {α : Type} (lt : α → α → Bool) : List α → Option α
  | [] => none
  | a :: as => match firstBy lt as with | some b => some (if lt b a then b else a) | none => some a

/-- The candidate for a place. -/
def candidate (s : State) : Option Nat := (firstBy (takenFirst s) (s.ctxs.filter (fun e => waitsPlace s e.1))).map (fun e => e.1)

/-- The victim of R361: unpinned and resident, of the most BLOCKED_CYCLES, then blocked longest; the lowest number on a
tie that R361 leaves. -/
def victim (s : State) : Option Nat :=
  (firstBy (fun (a b : Nat × Ctx) =>
    let ca := rd s (pgCtx a.1) R.CTX_BLOCKED_CYCLES
    let cb := rd s (pgCtx b.1) R.CTX_BLOCKED_CYCLES
    if ca ≠ cb then decide (cb < ca) else if a.2.blockTicks ≠ b.2.blockTicks then decide (b.2.blockTicks < a.2.blockTicks)
    else decide (a.1 < b.1))
    (s.ctxs.filter (fun e => ctxState s e.1 == stResident && !pinned s e.1))).map (fun e => e.1)

/-- Whether the response of SWAP_POLICY to blocked contexts is due: at a cycle boundary (policy 1), or at any slot start
(policy 2). -/
def swapDue (s : State) (atCycle : Bool) : Bool :=
  let res := s.ctxs.filter (fun e => ctxState s e.1 == stResident)
  let pol := rd s pgSched R.SCHED_CTRL_SWAP_POLICY
  (atCycle && pol == 1 && res.all (fun e => decide (max 1 (rd s pgSched R.SCHED_CTRL_SWAP_N) ≤ rd s (pgCtx e.1) R.CTX_BLOCKED_CYCLES))) ||
    (pol == 2 && res.all (fun e => blockedNow s e.1))

/-- Places given at a cycle boundary, for at most `n` candidates (R346, R361). -/
def fillPlaces : Nat → State → State
  | 0, s => s
  | n + 1, s =>
    match candidate s with
    | none => s
    | some c =>
      if placesHeld s < 16 then fillPlaces n (swapIn c s)
      else if pinned s c || swapDue s true then
        (match victim s with
         | some v => fillPlaces n (swapOut v (some c) s)
         | none => s)
      else s

/-- RUNNABLE_WAIT of every context (R346). -/
def markWaits (s : State) : State :=
  s.ctxs.foldl (fun t e => wr (pgCtx e.1) R.CTX_STATUS_RUNNABLE_WAIT (b2n (waitsPlace s e.1)) t) s

/-- The swaps of a cycle boundary: the host's requests, then places (R346, R361). -/
def cycleSwaps (s : State) : State :=
  let asked := (s.ctxs.filter (fun e => e.2.swapReq && ctxState s e.1 == stResident && !pinned s e.1)).map (fun e => e.1)
  let s1 := asked.foldl (fun t n => swapOut n none t) s
  markWaits (fillPlaces 64 { s1 with ctxs := s1.ctxs.map (fun e => (e.1, { e.2 with swapReq := false })) })

/-- The swap of policy 2 at a slot start (R361). -/
def slotSwap (s : State) : State :=
  if rd s pgSched R.SCHED_CTRL_SWAP_POLICY = 2 ∧ 16 ≤ placesHeld s ∧ swapDue s false then
    match candidate s, victim s with
    | some c, some v => markWaits (swapOut v (some c) s)
    | _, _ => s
  else s

/-- SWAP_OUT (R361): taken note of, unless the context is pinned. -/
def swapAsk (n : Nat) (s : State) : State :=
  if pinned s n then s else modCtx n (fun x => { x with swapReq := true }) s

/-- SWAP_OUT (R361). -/
def execSwapOut (p : Path) (n : CtxIx) (s : State) : Host.Outcome State Fault Refusal := .next (access p (pgCtx n) (swapAsk n) s)

/-! ### Teardown (R363, R364) -/

/-- The cores of a context at teardown (R363 step 2): issue stops, bookings are released, tally slots cancelled. -/
def tearCores (n : Nat) (s : State) : State :=
  (s.cores.filter (fun e => e.2.ctx == some n)).foldl (fun t e =>
    modCore e.1 (fun k => { k with stopIssue := true, slots := [], queue := [], drain := none }) (lowerCore e.1 0 t)) s

/-- The engines and weight locks of a context at teardown (R363 step 5). -/
def tearUnits (n : Nat) (s : State) : State :=
  let s1 := (bindsOf s n).foldl (fun t e => unbind e.1 t) s
  foldUpTo 8 (fun l t => if rdi t pgWlock R.WLOCK_LOCK_CTRL_CONTEXT l = n then unbindLock l t else t) s1

/-- Teardown begins (R363 steps 1 to 5). -/
def tearDown (n : Nat) (s : State) : State :=
  match ctxOf s n with
  | none => s
  | some x =>
    let gone := bargesOf s n + (s.colls.filter (fun e => e.ctx == n)).length
    let s1 := wr (pgCtx n) R.CTX_STATUS_STATE stTearing (dikeCtx n 0 s)
    let s2 := tearCores n { s1 with
      colls := s1.colls.filter (fun e => e.ctx != n), imgCores := mapDrop s1.imgCores (fun k => k / 8192 == n),
      fwait := mapDrop s1.fwait (fun k => k / 4 == n), ckpts := s1.ckpts.filter (fun c => c.ctx != n) }
    let s3 := bumpi pgSched R.SCHED_POLDER_GEN x.polder 1 (bumpSat (pgCtx n) R.CTX_TD_CANCELLED gone s2)
    countCtxs (collSettle (tearUnits n s3))

/-- TEARDOWN (R363): ignored in EMPTY, TEARING and SCRUBBING; a swap completes first. -/
def tearAsk (n : Nat) (s : State) : State :=
  let st := ctxState s n
  if st = stEmpty ∨ st = stTearing ∨ st = stScrubbing then s
  else if st = stSwapping then modCtx n (fun x => { x with tearReq := true }) s
  else tearDown n s

/-- TEARDOWN (R363). -/
def execTeardown (p : Path) (n : CtxIx) (s : State) : Host.Outcome State Fault Refusal :=
  .next (settled (access p (pgCtx n) (tearAsk n) s))

/-- A core that leaves a torn context: scratch, accumulators and registers zeroed. -/
def zeroCore (k : Core) : Core := { Core.zero with imem := k.imem, imemUpset := k.imemUpset, ran := k.ran }

/-- Local drain is done (R363 step 6): TEARDOWN_DONE is raised and the context is SCRUBBING. -/
def tearDone (n : Nat) (s : State) : State :=
  let idle : Bool := s.cores.all (fun e => e.2.ctx != some n || e.2.nmoves.isEmpty) && s.engines.all (fun e => e.2.jobs.all (fun j => j.tag.ctx != n))
  match ctxOf s n with
  | none => s
  | some x =>
    if ctxState s n ≠ stTearing ∨ !idle then s
    else
      let s1 := mapCores (fun _ k => k.ctx == some n) zeroCore s
      let k := polOf s1 x.polder
      let s2 := if k.cur = some n then setPol x.polder { k with cur := none } s1 else s1
      let arg := rd s (pgCtx n) R.CTX_TD_CANCELLED + rd s (pgCtx n) R.CTX_TD_DROPPED * 2 ^ 32
      countCtxs (wr (pgCtx n) R.CTX_STATUS_STATE stScrubbing (hostEvent evTeardownDone (pgCtx n) (some n) arg s2))

/-- TEARDOWN_DONE (R363). -/
def execTeardownDone (n : CtxIx) (s : State) : Host.Outcome State Fault Refusal := .next (tearDone n s)

/-- Whether every known context has taken the pending values of a page that each takes for itself (R177, R445). -/
def takenAll (s : State) (p : Page) (taken : List (Nat × List (Nat × Nat))) : Bool :=
  s.ctxs.all (fun e => mapFind taken e.1 == some (pendOffs s p))

/-- Pending values that every known context has taken are in force for all (R177, R445). -/
def settleTaken (s : State) : State :=
  let s1 := if !s.rngTaken.isEmpty ∧ takenAll s pgRng s.rngTaken then { boundary pgRng s with rngTaken := [] } else s
  if !s1.auditTaken.isEmpty ∧ takenAll s1 pgAudit s1.auditTaken then { boundary pgAudit s1 with auditTaken := [] } else s1

/-- A context takes the pending values of the RNG and AUDIT pages; one written after this waits for its next boundary
(R66). -/
def takeWb (n : Nat) (s : State) : State :=
  let s1 := if (pendOffs s pgRng).isEmpty then s else { s with rngTaken := mapPut s.rngTaken n (pendOffs s pgRng) }
  let s2 := if (pendOffs s1 pgAudit).isEmpty then s1 else { s1 with auditTaken := mapPut s1.auditTaken n (pendOffs s1 pgAudit) }
  settleTaken s2

/-- The sections of a mask zeroed, with their poison marks (R363 step 7). -/
def zeroSects (mask : Nat) (s : State) : State :=
  let hit (q : Nat) : Bool := match baseGran s q with | some (n, _) => bitSet mask n | none => false
  { s with dram := mapDrop s.dram (fun a => hit (a / 4096)), dramAny := mapDrop s.dramAny (fun b => hit (b / 64)),
           dramPoison := mapDrop s.dramPoison (fun b => hit (b / 64)),
           dramSyms := mapDrop s.dramSyms (fun b => hit (b / 64)) }

/-- The scrub is done (R363 step 7): the number becomes EMPTY. -/
def scrubDone (n : Nat) (s : State) : State :=
  match ctxOf s n with
  | none => s
  | some x =>
    if ctxState s n ≠ stScrubbing then s
    else
      let s1 := zeroSects x.sects s
      let s2 := hostEvent evScrubDone (pgCtx n) (some n) 0 s1
      settleTaken (countCtxs (wr (pgCtx n) R.CTX_STATUS_STATE stEmpty { s2 with
        ctxs := mapDel s2.ctxs n, rngTaken := mapDel s2.rngTaken n, auditTaken := mapDel s2.auditTaken n }))

/-- SCRUB_DONE (R363). -/
def execScrubDone (n : CtxIx) (s : State) : Host.Outcome State Fault Refusal := .next (scrubDone n s)

/-- A swap ends (R359, R361): a swap-out once no polder is switched to the context, and then the context that waits for
its place comes in; a swap-in makes the context RESIDENT. A teardown that was asked for follows. -/
def swapComplete (n : Nat) (s : State) : State :=
  match ctxOf s n with
  | none => s
  | some x =>
    if ctxState s n ≠ stSwapping ∨ (x.swapOut ∧ (polOf s x.polder).cur = some n) then s
    else
      let s1 := setCtx n { x with swapOut := false, swapFor := none, tearReq := false, blockCycle := false, blockTicks := 0,
                                  waitTick := if x.swapOut then tickOf s else x.waitTick } s
      let s2 := if x.swapOut then
          let h := dramScramble x.saveBase 128 s1
          let t := countE (pgPerf 4) 0xF2 0 1 (some n) (bumpSat pgSched R.SCHED_SWAPS 1 (wr (pgCtx n) R.CTX_STATUS_STATE stSwapped h))
          let u := hostEvent evSwapOut (pgCtx n) (some n) n (bump (pgCtx n) R.CTX_DRAM_BYTES 8192 t)
          (match x.swapFor with
           | some c => if ctxState u c = stSwapped then swapIn c u else u
           | none => u)
        else
          hostEvent evSwapIn (pgCtx n) (some n) n (wr (pgCtx n) R.CTX_BLOCKED_CYCLES 0 (bump (pgCtx n) R.CTX_DRAM_BYTES 8192
            (wr (pgCtx n) R.CTX_STATUS_STATE stResident s1)))
      countCtxs (if x.tearReq then tearDown n s2 else s2)

/-- SWAP_COMPLETE (R359). -/
def execSwapComplete (n : CtxIx) (s : State) : Host.Outcome State Fault Refusal := .next (settled (swapComplete n s))

/-! ### Slots (R355, R357) -/

/-- The valid slots of a polder in ascending order. -/
def slotsOf (s : State) (p : Nat) : List Nat :=
  (List.range 256).filter (fun i => rdi s pgSched R.SCHED_SLOT_VALID i == 1 && rdi s pgSched R.SCHED_SLOT_POLDER i == p)

/-- Whether a context has something to run in a slot (R357): segments that run or are suspended, an entry that can
start, a step to plan or a pair to be admitted. -/
def hasWork (s : State) (n : Nat) : Bool :=
  match ctxOf s n with
  | none => false
  | some x => hasSegments s n || [0, 1, 2].any (startable s n x) ||
      (x.typ == 0 && !x.halted && (decide (nextOf x 3 < tailOf x 3) || ((nextPair x).isSome && (freeSlot s x).isSome)))

/-- The tail words of a context read at the start of its slot (R350). -/
def slotTails (n : Nat) (s : State) : State :=
  match ctxOf s n with
  | some x => if x.halted then s else foldUpTo 4 (tailRead n) s
  | none => s

/-- The next slots of a polder taken in turn (R357): a skipped slot's time goes to the one after it. -/
def takeSlot (p : Nat) : List Nat → State → State
  | [], s => s
  | i :: is, s =>
    let n := rdi s pgSched R.SCHED_SLOT_CONTEXT i
    let g := rdi s pgSched R.SCHED_SLOT_GUARANTEED i == 1
    let s1 := setPol p { polOf s p with slot := i } (slotSwap s)
    let res := ctxState s1 n == stResident
    let s2 := if res then slotTails n s1 else s1
    if res && (g || hasWork s2 n) then beginSwitch p (some n) s2
    else
      let s3 := if g && !res && (ctxOf s2 n).isSome then ctxError n 6 0 s2 else s2
      takeSlot p is s3

/-- SLOT_START (R357): the time of a polder's next slot has come. -/
def slotStart (p : Nat) (s : State) : State :=
  if rd s pgSched R.SCHED_STATUS_RUNNING = 0 ∨ s.stopAll then s
  else
    let now := (polOf s p).slot
    takeSlot p ((slotsOf s p).filter (fun i => decide (now = 256 ∨ now < i))) s

/-- SLOT_START (R357). -/
def execSlotStart (pd : PolderIx) (s : State) : Host.Outcome State Fault Refusal := .next (slotStart pd s)

/-! ### The cycle boundary (R355, R356, R360) -/

/-- A slot as its pending values would make it: polder, valid, context, guaranteed, duration. -/
def slotPending (s : State) (i : Nat) : Nat × Bool × Nat × Bool × Nat :=
  (pendingRd s pgSched R.SCHED_SLOT_POLDER i, pendingRd s pgSched R.SCHED_SLOT_VALID i == 1,
    pendingRd s pgSched R.SCHED_SLOT_CONTEXT i, pendingRd s pgSched R.SCHED_SLOT_GUARANTEED i == 1,
    pendingRd s pgSched R.SCHED_SLOT_DURATION i)

/-- Whether an offset of the SCHED page holds part of the schedule table. -/
def slotOff (o : Nat) : Bool := decide (0x800 ≤ o ∧ o < 0x1000)

/-- The checks of R356 on the table that would apply. -/
def schedOk (s : State) : Bool :=
  let t := ((List.range 256).map (slotPending s)).filter (fun e => e.2.1)
  t.all (fun e => decide (1000 ≤ e.2.2.2.2) &&
      (match ctxOf s e.2.2.1 with | some x => x.polder == e.1 | none => false) &&
      (!e.2.2.2.1 || pinned s e.2.2.1)) &&
    (List.range 128).all (fun p =>
      decide ((t.filter (fun e => e.1 == p)).foldl (fun a e => a + e.2.2.2.2) 0 ≤ pendingRd s pgSched R.SCHED_CYCLE_TICKS 0))

/-- Values of the SCHED page that do not apply are dropped (R356, R360, R367). -/
def schedScreen (s : State) : State :=
  let s1 := match pendAt s pgSched 0x100 with
    | some v => checked pgSched 0 (decide (v % 2 ^ 24 < 10000 ∨ 10000000 < v % 2 ^ 24))
        (fun t => recordErr pgSched 0 none (dropSel pgSched (fun o => o == 0x100) t)) id s
    | none => s
  let s2 := match pendAt s1 pgSched 0x10 with
    | some v => if bitsOf v 1 2 = 3 then
        { s1 with pend := mapPut s1.pend (wordKey pgSched 0x10) (putBits v 1 2 (rd s1 pgSched R.SCHED_CTRL_SWAP_POLICY)) } else s1
    | none => s1
  if (pendOffs s2 pgSched).any (fun e => slotOff e.1 || e.1 == 0x100) then
    checked pgSched 0 (!schedOk s2) (fun t => recordErr pgSched 0 none (dropSel pgSched (fun o => slotOff o || o == 0x100) t)) id s2
  else s2

/-- The known contexts that are pinned. -/
def pinCount (s : State) : Nat := (s.ctxs.filter (fun e => pinned s e.1)).length

/-- The boundary of one CTX page (R368): a PIN too many is not applied; RUN starts a wait; HOLD holds or releases. -/
def ctxBoundary (n : Nat) (s : State) : State :=
  let old := rd s (pgCtx n) R.CTX_CTRL_RUN
  let oldPin := pinned s n
  let oldHold := rd s (pgCtx n) R.CTX_CTRL_HOLD
  let s1 := boundary (pgCtx n) s
  let s2 := if pinned s1 n && !oldPin && decide (16 < pinCount s1) then recordErr pgSched 0 none (wr (pgCtx n) R.CTX_CTRL_PIN 0 s1) else s1
  let s3 := if rd s2 (pgCtx n) R.CTX_CTRL_RUN = 1 ∧ old = 0 then modCtx n (fun x => { x with waitTick := tickOf s }) s2 else s2
  let h := rd s3 (pgCtx n) R.CTX_CTRL_HOLD
  if h = oldHold then s3
  else modCtx n (fun x => { x with hold := if h = 1 then some (x.hold.getD (lowestOpen s3 x)) else none }) s3

/-- BLOCKED_CYCLES of every resident context over the cycle that ends (R360). -/
def countBlocked (s : State) : State :=
  let s1 := s.ctxs.foldl (fun t e =>
    if ctxState s e.1 ≠ stResident then t
    else
      let ran : Bool := s.cores.any (fun c => c.2.ctx == some e.1 && c.2.ran) || s.imgCores.any (fun c => c.1 / 8192 == e.1 && c.2.ran)
      let whole := e.2.blockCycle && !ran && blockedNow s e.1
      modCtx e.1 (fun x => { x with blockCycle := true })
        (if whole then bumpSat (pgCtx e.1) R.CTX_BLOCKED_CYCLES 1 t else wr (pgCtx e.1) R.CTX_BLOCKED_CYCLES 0 t)) s
  { s1 with cores := s1.cores.map (fun e => (e.1, { e.2 with ran := false })),
            imgCores := s1.imgCores.map (fun e => (e.1, { e.2 with ran := false })) }

/-- The schedule starts or stops as CTRL.RUN says (R350, R355). -/
def schedRun (s : State) : State :=
  let run := rd s pgSched R.SCHED_CTRL_RUN
  let s1 := wr pgSched R.SCHED_STATUS_RUNNING run s
  if run = 1 then { s1 with power := { s1.power with ran := true } } else s1

/-- SCHEDULE_CYCLE (R355): counts, the WB values of CANAL, CTX and SCHED, the schedule table, the values that contexts
without steps take, swaps; every polder is before its first slot. A POLDER_BASE that applies leaves the polder table to be
read (R342). -/
def scheduleCycle (s : State) : State :=
  let ran := rd s pgSched R.SCHED_STATUS_RUNNING = 1
  let s1 := if ran then countBlocked (bump pgSched R.SCHED_CYCLES 1 s) else s
  let s2 := foldUpTo 4 (fun d t => boundary (pgCanal d) t) s1
  let s3 := foldUpTo 64 ctxBoundary s2
  let due := (pendAt s3 pgSched 0x108).isSome
  let s4 := boundary pgSched (schedScreen { s3 with polDue := s3.polDue || due })
  let s5 := (s4.ctxs.filter (fun e => e.2.typ != 0)).foldl (fun t e => takeWb e.1 t) s4
  let s6 := schedRun s5
  let s7 := { s6 with pols := s6.pols.map (fun e => (e.1, { e.2 with slot := 256 })) }
  if rd s7 pgSched R.SCHED_STATUS_RUNNING = 1 then cycleSwaps s7 else s7

/-- SCHEDULE_CYCLE (R355). -/
def execScheduleCycle (s : State) : Host.Outcome State Fault Refusal := .next (settled (scheduleCycle s))

end Sys2Proof.Machine
end

