-- ==== Sys2Proof/Machine/Power.lean ====
section
/-!
DEFINITION. Current, power and cooling (R369 to R393): grants and releases at the sluices, hints, the cap loop and its
window, the estimate, throttle reasons, energy, junction and coolant limits, voltage floors.
-/

namespace Sys2Proof.Machine

/-! ### Grants and releases (R373 to R375) -/

/-- The ledger has a core or an engine at a class. -/
def ledgerSet (r : Nat) (q : BookReq) (s : State) : State :=
  let k := sluiceOf s r
  setSluice r (if q.eng then { k with engCls := mapSet 0 k.engCls q.who q.cls }
    else { k with coreCls := mapSet 0 k.coreCls q.who q.cls }) s

/-- The oldest release on its way to a sluice arrives: B is lowered (R374). -/
def bookRelease (r : Nat) (s : State) : State :=
  match (sluiceOf s r).releases with
  | [] => s
  | q :: qs => ledgerSet r q (setSluice r { sluiceOf s r with releases := qs } s)

/-- BOOK_RELEASE (R374). -/
def execBookRelease (r : RegionIx) (s : State) : Host.Outcome State Fault Refusal := .next (bookRelease r s)

/-- The releases of a requester that set out before its request have arrived before it. -/
def releasesOf (r : Nat) (q : BookReq) (s : State) : State :=
  let k := sluiceOf s r
  let own (b : BookReq) : Bool := b.eng == q.eng && b.who == q.who
  (k.releases.filter own).foldl (fun t b => ledgerSet r b t) (setSluice r { k with releases := k.releases.filter (fun b => !own b) } s)

/-- A requester sees its grant (R90, R202). -/
def seeGrant (q : BookReq) (s : State) : State :=
  if q.eng then setEng q.who { engOf s q.who with cls := q.cls, ask := 0 } s
  else modCore q.who (fun k => { k with g := q.cls, bookPend := false }) s

/-- The context whose work asked for a booking. -/
def askerCtx (s : State) (q : BookReq) : Option Nat :=
  if q.eng ∧ 64 ≤ q.who then
    ((collsOfDie s (q.who - 64)).find? (fun c => !c.issued && collCc c == q.cls)).map (fun c => c.ctx)
  else if q.eng then ((engOf s q.who).jobs.find? (fun j => j.phase == 1 && bCc j.words == q.cls)).map (fun j => j.tag.ctx) else (coreOf s q.who).ctx

/-- SLUICE_GRANT (R373, R374): the request at the head is granted where both tests hold; nothing above class 0 while
issue is stopped (R390, R408, R440, R442). -/
def sluiceGrant (r : Nat) (s : State) : State :=
  match (sluiceOf s r).waiting with
  | [] => s
  | q :: qs =>
    let s1 := releasesOf r q s
    if s.stopAll ∨ !budgetFits s1 r (kOf s1 r) q ∨ !rampFits s1 r q then s
    else
      let k := sluiceOf s1 r
      let spent := if hinted s1 r q then 0 else deltaUa s1 r q
      countE (pgPerf (r / 16)) 0xC0 (r % 16) 1 (askerCtx s q)
        (seeGrant q (ledgerSet r q (setSluice r { k with waiting := qs, bucket := k.bucket - spent } s1)))

/-- SLUICE_GRANT (R373). -/
def execSluiceGrant (r : RegionIx) (s : State) : Host.Outcome State Fault Refusal := .next (sluiceGrant r s)

/-! ### Hints (R377) -/

/-- A hint's instants: its core's hint arms, or expires. -/
def hintArm (c : Nat) (s : State) : State :=
  let k := sluiceOf s (regionOfCore c)
  setSluice (regionOfCore c) { k with hints := k.hints.map (fun h => if h.core = c then { h with armed := true } else h) } s

def hintExpire (c : Nat) (s : State) : State :=
  let k := sluiceOf s (regionOfCore c)
  setSluice (regionOfCore c) { k with hints := k.hints.filter (fun h => !(h.core == c && h.armed)) } s

/-- HINT_ARMING (R377). -/
def execHintArming (c : CoreIx) (s : State) : Host.Outcome State Fault Refusal := .next (hintArm c s)

/-- HINT_EXPIRY (R377). -/
def execHintExpiry (c : CoreIx) (s : State) : Host.Outcome State Fault Refusal := .next (hintExpire c s)

/-! ### Limits as they apply (R379, R389, R397) -/

def capW (s : State) : Nat := clampNat 600 2400 (rd s pgPwr R.PWR_CAP_W)
def hostCapW (s : State) : Nat := clampNat 600 2400 (rd s pgPwr R.PWR_HOST_CAP_W)
def vCeil (s : State) : Nat := clampNat 650 900 (rd s pgPwr R.PWR_V_CEIL)
def admitMin (s : State) : Nat := clampNat 10 100 (rd s pgPwr R.PWR_ADMIT_MIN)
def slowAdmit (s : State) : Nat := clampNat 10 100 (rd s pgPwr R.PWR_SLOW_ADMIT)
def hystW (s : State) : Nat := clampNat 5 200 (rd s pgPwr R.PWR_HYST_W)
def throttleC (s : State) (d : Nat) : Int := clampNat 70 95 (rd s (pgTherm d) R.THERM_CTRL_THROTTLE_C) * 8

/-- The inlet cap in W, above 45 °C (R389): CAP_W × (55 − T_in) / 10. -/
def inletCap (s : State) : Option Frac :=
  let t := signedOf 16 (rd s pgPwr R.PWR_INLET_T)
  if 360 < t then some ⟨capW s * (440 - t), 80⟩ else none

/-- The effective cap (R379). -/
def capEff (s : State) : Frac :=
  let a := (Frac.ofInt (capW s)).min (.ofInt (hostCapW s))
  match inletCap s with
  | some i => a.min i
  | none => a

/-- The regions of a die. -/
def regionsOf (d : Nat) : List Nat := (List.range 16).map (d * 16 + ·)

/-- A region's effective floor, and a die's vmin, thermal ceiling and vmax (R379, R388, R391). -/
def floorOf (s : State) (r : Nat) : Nat := rd s (pgSluice r) R.SLUICE_FLOOR_EFFECTIVE
def vminOf (s : State) (d : Nat) : Nat := (regionsOf d).foldl (fun a r => max a (floorOf s r)) 650
def ceilOf (s : State) (d : Nat) : Nat := mapGet 900 s.power.ceil d
def vmaxOf (s : State) (d : Nat) : Nat := min (vCeil s) (ceilOf s d)

/-- A die's set-point, and admission, set. -/
def setV (d v : Nat) (s : State) : State := wri pgPwr R.PWR_VSET d v s
def admitOf (s : State) (r : Nat) : Nat := rd s (pgSluice r) R.SLUICE_STATUS_ADMIT
def setAdmit (r a : Nat) (s : State) : State := wr (pgSluice r) R.SLUICE_STATUS_ADMIT a s
def modPower (f : PowerSt → PowerSt) (s : State) : State := { s with power := f s.power }

/-- A die set to vmin and its regions' ADMIT to ADMIT_MIN (R381, R388). -/
def limitDie (d : Nat) (s : State) : State :=
  (regionsOf d).foldl (fun t r => setAdmit r (admitMin s) t) (setV d (vminOf s d) s)

/-- Whether the power controller works: no reset of MODULE reach or wider holds the module, and it is not in SLEEP. -/
def powerOn (s : State) : Bool := !(s.rst.held && decide (2 ≤ s.rst.pend)) && rd s pgPwr R.PWR_STATUS_STATE != 3

/-- Whether the set-points are the controller's: in ACTIVE, outside safe mode (R394, R442). -/
def railsFree (s : State) : Bool := rd s pgPwr R.PWR_STATUS_STATE == 0 && rd s pgEmb R.EMB_STATUS_SAFE == 0

/-- Whether the loop of R379 runs: the schedule has run, and no come-out is under way. -/
def loopOn (s : State) : Bool := railsFree s && s.power.ran && rd s pgRst R.RST_STATUS_COMEOUT == 0

/-- Whether SLOWDOWN_N acts (R382): it is ignored until come-out step 7 completes (R457). -/
def slowOn (s : State) : Bool :=
  s.pins.slowdown && railsFree s && (rd s pgRst R.RST_STATUS_COMEOUT == 0 || decide (7 ≤ rd s pgRst R.RST_STATUS_STEP))

/-- The hold of SLOWDOWN_N (R382). -/
def slowHold (s : State) : State :=
  foldUpTo 64 (fun r t => setAdmit r (min (admitOf t r) (slowAdmit s)) t) (foldUpTo 4 (fun d t => setV d (vminOf s d) t) s)

/-- SLOWDOWN_N (R382): asserted, it holds; released, the loop restores. -/
def doSlowdown (on : Bool) (s : State) : State :=
  let s1 := { s with pins := { s.pins with slowdown := on } }
  if slowOn s1 then slowHold s1 else s1

/-- SLOWDOWN_N (R382). -/
def execSlowdownN (asserted : Bool) (s : State) : Host.Outcome State Fault Refusal := .next (doSlowdown asserted s)

/-! ### Voltage floors (R391, R392) -/

/-- A step of a region's TRIM; the 13th is AGEING_LIMIT, and the floor holds. -/
def trimStep (r : Nat) (s : State) : State :=
  let p := pgSluice r
  let t := rd s p R.SLUICE_FLOOR_TRIM
  if 12 ≤ t then recordErr p 1 none s
  else wr p R.SLUICE_FLOOR_EFFECTIVE (max 650 (rd s p R.SLUICE_FLOOR_BASE + 5 * (t + 1))) (wr p R.SLUICE_FLOOR_TRIM (t + 1) s)

/-- MARGIN_REQ (R392). -/
def execMarginReq (p : Path) (r : RegionIx) (s : State) : Host.Outcome State Fault Refusal :=
  .next (access p (pgSluice r) (trimStep r) s)

/-- The margin governor at a window's end (R391). -/
def governor (slack : List Nat) (s : State) : State :=
  foldUpTo 64 (fun r t =>
    let low := slack.getD r 255
    let t1 := wr (pgSluice r) R.SLUICE_SLACK_LOW (min low 255) t
    let n := if low < clampNat 4 20 (rd t (pgSluice r) R.SLUICE_SLACK_MIN) then mapGet 0 t.power.slack r + 1 else 0
    let put (v : Nat) (u : State) : State := modPower (fun p => { p with slack := mapSet 0 p.slack r v }) u
    if 1000 ≤ n then trimStep r (put 0 t1) else put n t1) s

/-! ### Telemetry, estimate and prediction (R370, R383) -/

/-- A rail's mean power over the window's samples, in 0.1 W; with none, the latest report. -/
def railMean (s : State) (n : Nat) : Frac :=
  if s.power.count = 0 then .ofInt (rdi s pgPwr R.PWR_RAIL_P n) else ⟨((mapGet 0 s.power.sums n : Nat) : Int), s.power.count⟩

/-- A die's core-rail current ΣB in mA with the calibrated current `extra` added per region, were its set-point `v`. -/
def dieAmps (s : State) (d v : Nat) (extra : Nat → Nat) : Frac :=
  (regionsOf d).foldl (fun (a : Frac) r => a.add (ampsAt (kOf s r) v (ledgerCal s r + extra r))) (.ofInt 0)

/-- V × traffic term of a die, in µW: its bytes of the window at the fused energy per byte, over 50 µs (R372). -/
def trafficUw (s : State) (d : Nat) : Frac := ⟨((mapGet 0 s.power.traffic d * Config.trafficEnergy d : Nat) : Int), 50⟩

/-- A die's core-rail estimate in µW at set-point `v` (R383). -/
def dieEst (s : State) (d v : Nat) (extra : Nat → Nat) : Frac := ((dieAmps s d v extra).mul (.ofInt v)).add (trafficUw s d)

/-- The measured powers of the SRAM, I/O and stack rails, in 0.1 W, by `p`. -/
def otherRails (p : Nat → Frac) : Frac :=
  ([5, 6, 8, 9, 11, 12, 14, 15] ++ (List.range 8).map (16 + ·)).foldl (fun (a : Frac) n => a.add (p n)) (.ofInt 0)

/-- The module power in W that core-rail powers in µW and the other rails in 0.1 W give: their sum over 0.90. -/
def modulePower (cores other : Frac) : Frac := ((cores.mul ⟨1, 1000000⟩).add (other.mul ⟨1, 10⟩)).mul ⟨10, 9⟩

/-- The sum over the dies. -/
def overDies (f : Nat → Frac) : Frac := (List.range 4).foldl (fun (a : Frac) d => a.add (f d)) (.ofInt 0)

/-- P_est and P_mod of the window, in W. -/
def pEst (s : State) : Frac := modulePower (overDies (fun d => dieEst s d (vOf s d) (fun _ => 0))) (otherRails (railMean s))
def pMod (s : State) : Frac := ((List.range 4).foldl (fun (a : Frac) n => a.add (railMean s n)) (.ofInt 0)).mul ⟨1, 10⟩

/-- P_ctl (R383). -/
def pCtl (s : State) : Frac :=
  if rd s pgPwr R.PWR_STATUS_CAP_MODE = 1 then (pMod s).max ((pEst s).mul ⟨11, 10⟩) else pMod s

/-- TELEMETRY_SAMPLE (R370, R381): the reports of the 24 rails; above 2,400 W the set-points and admission fall. -/
def telemetry (rs : List RailSample) (s : State) : State :=
  if !powerOn s then s
  else
    let s1 := (rs.take 24).zipIdx.foldl (fun t e =>
      modPower (fun p => { p with sums := mapSet 0 p.sums e.2 (mapGet 0 p.sums e.2 + e.1.p) })
        (wri pgPwr R.PWR_RAIL_P e.2 e.1.p (wri pgPwr R.PWR_RAIL_I_DA e.2 e.1.i (wri pgPwr R.PWR_RAIL_V_MV e.2 e.1.v t)))) s
    let s2 := modPower (fun p => { p with count := p.count + 1 }) s1
    checked pgPwr 1 (decide (24000 < ((rs.take 4).map (fun x => x.p)).sum))
      (fun t => recordErr pgPwr 1 none (modPower (fun p => { p with tripped := true, capped := true })
        (if railsFree t then foldUpTo 4 limitDie t else t))) id s2

/-- TELEMETRY_SAMPLE (R370). -/
def execTelemetrySample (rs : List RailSample) (s : State) : Host.Outcome State Fault Refusal := .next (telemetry rs s)

/-! ### Pre-position (R378) -/

/-- The hinted increments of a region, as calibrated current. -/
def hintCal (s : State) (r : Nat) : Nat :=
  (sluiceOf s r).hints.foldl (fun a h => a + (coreCal s r h.cls - coreCal s r (ledgerCls s r false h.core))) 0

/-- The dies whose hints reach the pre-position point `t`. -/
def placeDies (s : State) (t : Nat) : List Nat :=
  (List.range 4).filter (fun d => (regionsOf d).any (fun r => (sluiceOf s r).hints.any (fun h => !h.placed && h.pre == t)))

/-- The prediction with the hinted increments of the dies `ds` added and their set-points lowered to `v`. -/
def placePower (s : State) (ds : List Nat) (v : Nat) : Frac :=
  modulePower (overDies (fun d =>
    if ds.contains d then dieEst s d (max (vminOf s d) (min v (vOf s d))) (hintCal s)
    else dieEst s d (vOf s d) (fun _ => 0))) (otherRails (fun n => .ofInt (rdi s pgPwr R.PWR_RAIL_P n)))

/-- The pre-position point of a region's earliest hint: the dies it concerns go to the highest 5 mV step at which the
prediction does not exceed cap − HYST_W, or to vmin. -/
def prePosition (r : Nat) (s : State) : State :=
  match ((sluiceOf s r).hints.filter (fun h => !h.placed)).foldl (fun m h => some (match m with | some t => min t h.pre | none => h.pre)) none with
  | none => s
  | some t =>
    let ds := placeDies s t
    let mark (d : Nat) (u : State) : State := (regionsOf d).foldl (fun u q =>
      let k := sluiceOf u q
      setSluice q { k with hints := k.hints.map (fun h => if h.pre = t then { h with placed := true } else h) } u) u
    let s1 := ds.foldl (fun u d => mark d u) s
    if !loopOn s then s1
    else
      let top := ds.foldl (fun a d => max a (vOf s d)) 0
      let line := (capEff s).sub (.ofInt (hystW s))
      let v := (((List.range 51).map (fun i => top - 5 * i)).find? (fun v => (placePower s ds v).le line)).getD 0
      ds.foldl (fun u d => setV d (min (vOf s d) (max (vminOf s d) (min v (vOf s d)))) u) s1

/-- PRE_POSITION (R378). -/
def execPrePosition (r : RegionIx) (s : State) : Host.Outcome State Fault Refusal := .next (prePosition r s)

/-! ### The loop (R379, R382) -/

/-- What one window of the loop did: whether it lowered, whether ADMIT fell, whether V_CEIL stopped an allowed rise. -/
structure LoopOut where
  lowered : Bool
  adm     : Bool
  stopped : Bool
deriving DecidableEq, Repr

/-- Rises of the dies from `d` on, where the prediction with the rises already granted allows them. -/
def raiseDies (line : Frac) : List Nat → State × Bool → State × Bool
  | [], x => x
  | d :: ds, (s, stopped) =>
    let v := vOf s d
    let core (e : Nat) : Frac :=
      let x := dieEst s e (vOf s e) (fun _ => 0)
      if e = d then x.mul ⟨(v + 5) ^ 3, v ^ 3⟩ else x
    let fits := (modulePower (overDies core) (otherRails (railMean s))).le line
    if v + 5 ≤ vmaxOf s d then raiseDies line ds (if fits then setV d (v + 5) s else s, stopped)
    else raiseDies line ds (s, stopped || (fits && decide (vCeil s < 900 ∧ vCeil s < v + 5 ∧ v + 5 ≤ ceilOf s d)))

/-- One window of the loop of R379 at a P_ctl. -/
def capLoop (p : Frac) (s0 : State) : State × LoopOut :=
  let s := foldUpTo 4 (fun d t => if vmaxOf t d < vOf t d then setV d (max (vmaxOf t d) (vminOf t d)) t else t) s0
  let cap := capEff s
  if cap.lt p then
    let past := (Frac.ofInt (capW s)).lt p
    let s1 := modPower (fun q => { q with capped := q.capped || past }) s
    if (List.range 4).all (fun d => vOf s d == vminOf s d) then
      (foldUpTo 64 (fun r t => setAdmit r (max (admitOf t r - 5) (admitMin s)) t) s1,
        ⟨true, (List.range 64).any (fun r => decide (admitMin s < admitOf s r)), false⟩)
    else (foldUpTo 4 (fun d t => setV d (max (vOf t d - 5) (vminOf t d)) t) s1, ⟨true, false, false⟩)
  else if p.lt (cap.sub (.ofInt (hystW s))) && !s.pins.slowdown then
    if (List.range 64).any (fun r => decide (admitOf s r < 100)) then
      (foldUpTo 64 (fun r t => setAdmit r (min (admitOf t r + 5) 100) t) s, ⟨false, false, false⟩)
    else
      let x := raiseDies (cap.sub (.ofInt (hystW s))) [0, 1, 2, 3] (s, false)
      (x.1, ⟨false, false, x.2⟩)
  else (s, ⟨false, false, false⟩)

/-- The set-points of a come-out: 780 mV or the floor, admission at 100, until the schedule first runs (R379). -/
def comeoutHold (s : State) : State :=
  foldUpTo 64 (fun r t => setAdmit r 100 t) (foldUpTo 4 (fun d t => setV d (max 780 (vminOf t d)) t) s)

/-- The thermal ceilings of a window (R388). -/
def ceilings (s : State) : State :=
  foldUpTo 4 (fun d t =>
    let raw := rd t (pgTherm d) R.THERM_MAX_T
    let hot := if raw = 0x8000 then throttleC t d else signedOf 16 raw
    let c := ceilOf t d
    let c1 := if throttleC t d ≤ hot then max (min c (vOf t d) - 5) (vminOf t d)
      else if hot < throttleC t d - 16 then min (c + 5) (vCeil t)
      else c
    wr (pgTherm d) R.THERM_STATUS_THROTTLING (b2n (decide (c1 < vCeil t))) (modPower (fun p => { p with ceil := mapSet 900 p.ceil d c1 }) t)) s

/-- The set-points and admission of a window, with the holds that stand over the loop. -/
def windowLoop (p : Frac) (s : State) : State × LoopOut :=
  let x := if !railsFree s then (s, ⟨false, false, false⟩) else if loopOn s then capLoop p s else (comeoutHold s, ⟨false, false, false⟩)
  let s1 := if slowOn x.1 then slowHold x.1 else x.1
  let s2 := foldUpTo 4 (fun d t => if rd t (pgTherm d) R.THERM_STATUS_AT_LIMIT = 1 ∧ railsFree t then limitDie d t else t) s1
  let free : Bool := (List.range 4).all (fun d => decide (vmaxOf s2 d ≤ vOf s2 d)) && (List.range 64).all (fun r => admitOf s2 r == 100)
  (if free then modPower (fun q => { q with capped := false }) s2 else s2, x.2)

/-! ### Divergence (R384, R385) -/

/-- K of a region multiplied by 17/16, at most 2.0. -/
def raiseK (r : Nat) (s : State) : State := wr (pgSluice r) R.SLUICE_K (min 8192 (kOf s r * 17 / 16)) s

/-- The regions in which K is to be raised: those whose LOCAL exceeds 1.5 times their own B, or all of the die. -/
def divergeRegions (s : State) (d : Nat) : List Nat :=
  let hit := (regionsOf d).filter (fun r => ((ledgerB s r).mul ⟨3, 2⟩).lt (.ofInt (rd s (pgSluice r) R.SLUICE_LOCAL)))
  if hit.isEmpty then regionsOf d else hit

/-- One die's part: measured core-rail power against its estimate. -/
def divergeDie (d : Nat) (s : State) : State :=
  let est := dieEst s d (vOf s d) (fun _ => 0)
  let meas := (railMean s (4 + 3 * d)).mul (.ofInt 100000)
  let below (a b : Nat) : Bool := (meas.mul (.ofInt b)).lt (est.mul (.ofInt a))
  let above (a b : Nat) : Bool := (est.mul (.ofInt a)).lt (meas.mul (.ofInt b))
  let lo := if below 1 2 then mapGet 0 s.power.low d + 1 else 0
  let hi := if above 3 2 then mapGet 0 s.power.high d + 1 else 0
  let s1 := modPower (fun p => { p with low := mapSet 0 p.low d lo, high := mapSet 0 p.high d hi }) s
  let s2 := if s.power.suspect.contains d then s1 else checked pgPwr 0 (decide (200 ≤ lo)) (fun t =>
      recordErr pgPwr 0 none (wr pgPwr R.PWR_STATUS_CAP_MODE 1 (modPower (fun p => { p with suspect := p.suspect ++ [d] }) t))) id s1
  let s3 := if hi ≠ 0 ∧ hi % 200 = 0 then
      let t := (regionsOf d).foldl (fun t r => recordErr (pgSluice r) 0 none t) s2
      modPower (fun p => { p with raising := (p.raising ++ divergeRegions t d).eraseDups }) t
    else s2
  let s4 := if above 11 10 then s3 else modPower (fun p => { p with raising := p.raising.filter (fun r => r / 16 != d) }) s3
  (s4.power.raising.filter (fun r => r / 16 == d)).foldl (fun t r => raiseK r t) s4

/-! ### Throttle reasons (R386, R387) -/

/-- The reasons that a window marks. -/
def throttleMarks (p : Frac) (o : LoopOut) (s : State) : List Nat :=
  let host := (Frac.ofInt (hostCapW s)).le (capEff s)
  let on (n : Nat) (b : Bool) : List Nat := if b then [n] else []
  on 0 (s.power.capped || s.power.tripped) ++
  on 1 ((List.range 64).any (fun r => rd s (pgSluice r) R.SLUICE_BUDGET_WAIT_TICKS != mapGet 0 s.power.waits r && admitOf s r == 100)) ++
  on 2 ((List.range 4).any (fun d => decide (ceilOf s d < vCeil s)) || !s.power.limit.isEmpty) ++
  on 3 (match inletCap s with | some i => i.le (capEff s) | none => false) ++
  on 4 (o.adm && (List.range 4).any (fun d => vOf s d == vminOf s d && decide (650 < vminOf s d))) ++
  on 5 s.pins.slowdown ++
  on 6 ((host && o.lowered) || o.stopped) ++
  on 7 ((rd s pgPwr R.PWR_STATUS_CAP_MODE == 1 && (pMod s).lt p) ||
    (List.range 64).any (fun r => decide (4096 < kOf s r) && (sluiceOf s r).waiting.any (fun q => budgetFits s r 4096 q)))

/-- One reason's event: begun, continued or ended by this window. -/
def throttleEvent (marks : List Nat) (r : Nat) (s : State) : State :=
  let mv := (List.range 4).foldl (fun a d => min a (vOf s d)) 1023
  let ad := (List.range 64).foldl (fun a q => min a (admitOf s q)) 100
  let isOpen := rdi s pgPwr R.PWR_THR_DEPTH_OPEN r == 1
  if marks.contains r then
    let s1 := bumpi pgPwr R.PWR_THR_DUR r 5000 s
    if isOpen then
      wri pgPwr R.PWR_THR_DEPTH_MIN_MV r (min mv (rdi s pgPwr R.PWR_THR_DEPTH_MIN_MV r))
        (wri pgPwr R.PWR_THR_DEPTH_MIN_ADMIT r (min ad (rdi s pgPwr R.PWR_THR_DEPTH_MIN_ADMIT r)) s1)
    else
      wri pgPwr R.PWR_THR_START r s.power.winAt (wri pgPwr R.PWR_THR_END r 0 (wri pgPwr R.PWR_THR_DEPTH_OPEN r 1
        (wri pgPwr R.PWR_THR_DEPTH_MIN_MV r mv (wri pgPwr R.PWR_THR_DEPTH_MIN_ADMIT r ad s1))))
  else if isOpen then wri pgPwr R.PWR_THR_END r s.power.winAt (wri pgPwr R.PWR_THR_DEPTH_OPEN r 0 s)
  else s

/-- The reasons of a window recorded and counted (event 0xF0). -/
def throttle (marks : List Nat) (s : State) : State :=
  let s1 := wr pgPwr R.PWR_THR_ACTIVE (marks.foldl (fun a r => a + 2 ^ r) 0) (foldUpTo 8 (throttleEvent marks) s)
  if marks.isEmpty then s1 else countE (pgPerf 4) 0xF0 0 1 none s1

/-! ### Energy (R393) -/

/-- A rail's energy in the window, in nJ: the measured, or for a suspect core rail the estimate. -/
def railEnergy (s : State) (n : Nat) : Nat :=
  if 4 ≤ n ∧ n < 16 ∧ (n - 4) % 3 = 0 ∧ s.power.suspect.contains ((n - 4) / 3) then
    ((dieEst s ((n - 4) / 3) (vOf s ((n - 4) / 3)) (fun _ => 0)).mul ⟨1, 20⟩).floor
  else ((railMean s n).mul (.ofInt 5000)).floor

/-- The key that an amount of a rail's division counts under: the known context, else 64. -/
def shareKey (s : State) (n : Option CtxIx) : Nat :=
  match n with
  | some k => if (ctxOf s k).isSome then k else 64
  | none => 64

/-- What a rail's energy gives each key: in proportion to the amounts, and 64 where there is none. -/
def divideRail (s : State) (sh : List (Nat × Option CtxIx × Nat)) (n : Nat) : List (Nat × Nat) :=
  let mine := sh.filter (fun e => e.1 == n)
  let total := (mine.map (fun e => e.2.2)).sum
  if total = 0 then [(64, railEnergy s n)] else mine.map (fun e => (shareKey s e.2.1, railEnergy s n * e.2.2 / total))

/-- Energy added to a key's remainder; whole mJ go to its count. -/
def addEnergy (key nj : Nat) (s : State) : State :=
  let all := mapGet 0 s.power.rem key + nj
  let mj := all / 1000000
  let s1 := modPower (fun p => { p with rem := mapSet 0 p.rem key (all % 1000000) }) s
  if key = 65 then bump pgPwr R.PWR_MODULE_MJ mj s1
  else if key = 64 then bump pgPwr R.PWR_UNATTRIB_MJ mj s1
  else bump (pgCtx key) R.CTX_ENERGY_MJ mj s1

/-- The measured input energy of a window divided among the contexts. -/
def divideEnergy (sh : List (Nat × Option CtxIx × Nat)) (s : State) : State :=
  let all := ((pMod s).mul (.ofInt 50000)).floor
  let parts := (List.range 20).flatMap (fun i => divideRail s sh (4 + i))
  let part (key : Nat) : Nat := ((parts.filter (fun e => e.1 == key)).map (fun e => e.2)).sum
  let known := (s.ctxs.map (fun e => e.1)).filter (fun n => part n != 0)
  let keyed := (known.map part).sum
  let left := all - part 64
  let give (n : Nat) : Nat := part n * left / keyed
  let s1 := known.foldl (fun t n => addEnergy n (give n) t) (addEnergy 65 all s)
  addEnergy 64 (all - (known.map give).sum) s1

/-! ### Power states (R394, R395) -/

/-- A request refused: PWR_STATE, the state unchanged. -/
def stateRefused (s : State) : State := recordErr pgPwr 4 none s

/-- A transition begins. -/
def beginState (t : Nat) (s : State) : State := wr pgPwr R.PWR_STATUS_TRANSITION 1 (modPower (fun p => { p with target := some t }) s)

/-- A wake leaves its cause (R55). -/
def wakeCause (b : Nat) (s : State) : State := wr pgAon R.AON_WAKE_CAUSE (2 ^ b) s

/-- STANDBY is left: come-out steps 5 to 9 run; while COOLANT_OK is deasserted the wake waits. -/
def wakeStandby (b : Nat) (s : State) : State :=
  if !s.pins.coolant then modPower (fun p => { p with wake := some b }) s
  else wr pgRst R.RST_STATUS_COMEOUT 1 (wr pgRst R.RST_STATUS_STEP 4
    (beginState 0 (wakeCause b (modPower (fun p => { p with wake := none, ran := false })
      (modRst (fun x => { x with reach := 0, again := 0, ticks := 0 }) { s with stopAll := true })))))

/-- Whether state `t` may be asked for now (R395). -/
def stateMay (t : Nat) (s : State) : Bool :=
  let st := rd s pgPwr R.PWR_STATUS_STATE
  match s.power.target with
  | some u => t == u
  | none =>
    t == st || t == 0 ||
      (if t = 1 then decide (st = 0 ∧ rd s pgSched R.SCHED_STATUS_RUNNING = 0) && s.cores.all (fun e => blockIdle s (pgCore e.1))
       else s.ctxs.isEmpty && decide (t = 3 ∨ st ≤ 1))

/-- STATE_REQ applied (R395). -/
def stateRequest (t : Nat) (s : State) : State :=
  checked pgPwr 4 (!stateMay t s) stateRefused (fun s =>
    let st := rd s pgPwr R.PWR_STATUS_STATE
    if s.power.target.isSome ∨ t = st then s
    else if t = 0 then (if st = 2 then wakeStandby 2 s else beginState 0 (wakeCause 2 s))
    else beginState t s) s

/-- What a write of PWR.CTRL leaves (R65, R395): STATE_REQ is held until the control window. -/
def askState (t : Nat) (s : State) : State := writeReg (fun _ _ _ s => s) pgPwr 0x10 t (2 ^ 32 - 1) s

/-- STATE_REQ_ACTIVE, STATE_REQ_IDLE, STATE_REQ_STANDBY, STATE_REQ_SLEEP (R395). -/
def execStateReqActive (p : Path) (s : State) : Host.Outcome State Fault Refusal := .next (access p pgPwr (askState 0) s)
def execStateReqIdle (p : Path) (s : State) : Host.Outcome State Fault Refusal := .next (access p pgPwr (askState 1) s)
def execStateReqStandby (p : Path) (s : State) : Host.Outcome State Fault Refusal := .next (access p pgPwr (askState 2) s)
def execStateReqSleep (p : Path) (s : State) : Host.Outcome State Fault Refusal := .next (access p pgPwr (askState 3) s)

/-! ### The control window (R379) -/

/-- The WB values of PWR, SLUICE and THERM apply (R67), and a state request with them. -/
def windowBoundary (s : State) : State :=
  let asked := (pendAt s pgPwr 0x10).isSome
  let s1 := foldUpTo 4 (fun d t => boundary (pgTherm d) t) (foldUpTo 64 (fun r t => boundary (pgSluice r) t) (boundary pgPwr s))
  if asked then stateRequest (rd s1 pgPwr R.PWR_CTRL_STATE_REQ) s1 else s1

/-- What the meters read put into its registers (R372, R384). -/
def windowMeters (m : Meter) (s : State) : State :=
  let s1 := foldUpTo 64 (fun r t => wr (pgSluice r) R.SLUICE_LOCAL (m.amps.getD r 0) t) s
  modPower (fun p => { p with traffic := (List.range 4).foldl (fun l d => mapSet 0 l d (m.traffic.getD d 0)) p.traffic }) s1

/-- The powers and the cap that the PWR page reports. -/
def windowReports (s : State) : State :=
  let tenth (x : Frac) : Nat := min 65535 (x.mul (.ofInt 10)).floor
  wr pgPwr R.PWR_P_MOD (tenth (pMod s)) (wr pgPwr R.PWR_P_EST (tenth (pEst s)) (wr pgPwr R.PWR_P_CTL (tenth (pCtl s))
    (wr pgPwr R.PWR_CAP_EFF (capEff s).floor s)))

/-- The next window begins. -/
def windowNext (s : State) : State :=
  modPower (fun p => { p with
    sums := [], count := 0, tripped := false, limit := [], winAt := tickOf s,
    waits := (List.range 64).foldl (fun l r => mapSet 0 l r (rd s (pgSluice r) R.SLUICE_BUDGET_WAIT_TICKS)) [] }) s

/-- CONTROL_WINDOW (R379 to R393). -/
def controlWindow (m : Meter) (s : State) : State :=
  if !powerOn s then s
  else
    let s1 := ceilings (windowReports (windowMeters m (windowBoundary s)))
    let p := pCtl s1
    let x := windowLoop p s1
    let s2 := throttle (throttleMarks p x.2 x.1) x.1
    windowNext (governor m.slack (divideEnergy m.shares (if railsFree s2 then foldUpTo 4 divergeDie s2 else s2)))

/-- CONTROL_WINDOW (R379). -/
def execControlWindow (m : Meter) (s : State) : Host.Outcome State Fault Refusal := .next (controlWindow m s)

/-! ### Junction and coolant (R388 to R390) -/

/-- The stop of R390: nothing issues and nothing is granted, every stack goes to self-refresh, and safe mode is entered
for the error, with its capture. -/
def coolantStop (code : Nat) (s : State) : State :=
  foldUpTo 8 (fun k t => wr (pgMemc k) R.MEMC_STATUS_SELF_REFRESH 1 t) { deviceFatal code s with stopAll := true, alert := true }

/-- Whether a sensor is excluded (R388): out of range, or more than 15 °C from each of the other three of its region. -/
def sensorBad (ts : List Int) (i : Nat) : Bool :=
  let t := ts.getD i 0
  decide (t < -320 ∨ 1200 < t) ||
    ((List.range 4).map (i / 4 * 4 + ·)).all (fun j => j == i || decide (120 < (t - ts.getD j 0).natAbs))

/-- The highest of the sensors that are not excluded, with its index. -/
def hottest (ts : List Int) (l : List Nat) : Option (Int × Nat) :=
  l.foldl (fun m i =>
    if sensorBad ts i then m
    else match m with
      | some b => if b.1 < ts.getD i 0 then some (ts.getD i 0, i) else m
      | none => some (ts.getD i 0, i)) none

/-- A temperature as a register holds it; 0x8000 for none. -/
def tempReg (t : Option Int) : Nat := match t with | some x => wrapInt 16 x | none => 0x8000

/-- The THERM page's readings. -/
def thermRegs (d : Nat) (ts : List Int) (s : State) : State :=
  let p := pgTherm d
  let die := hottest ts (List.range 64)
  let region (k : Nat) : Option Int :=
    match hottest ts ((List.range 4).map (4 * k + ·)) with
    | some x => some x.1
    | none => die.map (fun x => x.1)
  let s1 := foldUpTo 32 (fun k t =>
    let v (i : Nat) : Option Int := if sensorBad ts i then none else some (ts.getD i 0)
    wri p R.THERM_SENS_LO k (tempReg (v (2 * k))) (wri p R.THERM_SENS_HI k (tempReg (v (2 * k + 1))) t)) s
  let s2 := foldUpTo 8 (fun k t => wri p R.THERM_REGION_LO k (tempReg (region (2 * k))) (wri p R.THERM_REGION_HI k (tempReg (region (2 * k + 1))) t)) s1
  let bad := (List.range 64).foldl (fun a i => if sensorBad ts i then a + 2 ^ i else a) 0
  let s3 := wr p R.THERM_BAD_MASK bad (wr p R.THERM_MAX_T (tempReg (die.map (fun x => x.1))) s2)
  match die with
  | some x =>
    let peak := if signedOf 16 (rd s p R.THERM_PEAK) < x.1 then wrapInt 16 x.1 else rd s p R.THERM_PEAK
    wr p R.THERM_MAX_SENSOR x.2 (wr p R.THERM_PEAK peak (wr p R.THERM_STATUS_AT_LIMIT (b2n (decide (840 ≤ x.1))) s3))
  | none =>
    let r := drawFree s3
    wr p R.THERM_MAX_SENSOR r.1 (wr p R.THERM_STATUS_AT_LIMIT 0 r.2)

/-- A region's temperature in units of 0.125 °C. -/
def regionTemp (s : State) (r : Nat) : Int :=
  signedOf 16 (rdi s (pgTherm (r / 16)) (if r % 2 = 0 then R.THERM_REGION_LO else R.THERM_REGION_HI) (r % 16 / 2))

/-- The tick since which a conditional core's region has stayed more than 5 °C below its band (R439). -/
def coolSince (s : State) : State :=
  { s with auditSt := s.auditSt.map (fun e =>
      if e.2.st ≠ 3 then e
      else if regionTemp s (regionOfCore e.1) < signedOf 16 e.2.band - 40 then
        (e.1, { e.2 with cool := some (e.2.cool.getD (tickOf s)) })
      else (e.1, { e.2 with cool := none })) }

/-- THERMAL_SAMPLE (R388): the die's 64 sensors report, in units of 0.125 °C. -/
def thermalSample (d : Nat) (ts : List Int) (s : State) : State :=
  if !powerOn s then s
  else
    let p := pgTherm d
    let was := rd s p R.THERM_BAD_MASK
    let old := rd s p R.THERM_MAX_T
    let hadTrip : Bool := old != 0x8000 && decide (880 ≤ signedOf 16 old)
    let s1 := coolSince (thermRegs d ts s)
    let trip := match hottest ts (List.range 64) with | some x => decide (880 ≤ x.1) && !hadTrip | none => false
    -- the errors of one sample, the lowest bit first (R62)
    let r0 := checkFor p 0 (rd s1 p R.THERM_STATUS_AT_LIMIT == 1 && rd s p R.THERM_STATUS_AT_LIMIT == 0) s1
    let r1 := checkFor p 1 trip (if r0.1 then recordErr p 0 none r0.2 else r0.2)
    let r2 := checkFor p 2 false (if r1.1 then recordErr p 1 none r1.2 else r1.2)
    let s2 := if r2.1 then recordErr p 2 none r2.2 else r2.2
    let s3 := foldUpTo 64 (fun i t => if sensorBad ts i && !bitSet was i then recordErr p 2 none t else t) s2
    let s4 := if rd s1 p R.THERM_STATUS_AT_LIMIT = 1 ∨ r0.1 then
        modPower (fun q => { q with limit := if q.limit.contains d then q.limit else q.limit ++ [d] }) (if railsFree s3 then limitDie d s3 else s3)
      else s3
    if r1.1 then coolantStop (errCode .therm 1) s4 else s4

/-- THERMAL_SAMPLE (R388). -/
def execThermalSample (d : DieIx) (ts : List Int) (s : State) : Host.Outcome State Fault Refusal := .next (thermalSample d ts s)

/-- INLET_SAMPLE (R389): T_in in units of 0.125 °C; the cap follows at the control window. -/
def inletSample (t : Int) (s : State) : State := if powerOn s then wr pgPwr R.PWR_INLET_T (wrapInt 16 t) s else s

/-- INLET_SAMPLE (R389). -/
def execInletSample (t : Int) (s : State) : Host.Outcome State Fault Refusal := .next (inletSample t s)

/-- COOLANT_TEMP (R389): T_in has exceeded 55 °C for 1 ms. -/
def coolantTemp (s : State) : State :=
  if powerOn s && decide (440 < signedOf 16 (rd s pgPwr R.PWR_INLET_T)) then
    coolantStop (errCode .pwr 3) (recordErr pgPwr 3 none s) else s

/-- COOLANT_TEMP (R389). -/
def execCoolantTemp (s : State) : Host.Outcome State Fault Refusal := .next (settled (coolantTemp s))

/-- COOLANT_LOSS (R390): COOLANT_OK falls. In STANDBY and SLEEP, in reset, and before come-out step 5 nothing runs that the
stop would stop. -/
def coolantLoss (s : State) : State :=
  let s1 := { s with pins := { s.pins with coolant := false } }
  if rd s pgPwr R.PWR_STATUS_STATE ≥ 2 ∨ !powerOn s ∨ !s.pins.coolant ∨
      (rd s pgRst R.RST_STATUS_COMEOUT = 1 ∧ rd s pgRst R.RST_STATUS_STEP < 4 ∧ s.rst.reach ≠ 1) then s1
  else coolantStop (errCode .pwr 2) (recordErr pgPwr 2 none s1)

/-- COOLANT_LOSS (R390). -/
def execCoolantLoss (s : State) : Host.Outcome State Fault Refusal := .next (settled (coolantLoss s))

/-! ### The board (R55) -/

/-- BOARD_T_LIMIT as it applies, in units of 0.125 °C. -/
def boardLimit (s : State) : Int := clampNat 60 100 (rd s pgAon R.AON_BOARD_T_LIMIT) * 8

/-- BOARD_OVERTEMP (R55): the board temperature, in units of 0.125 °C; BOARD_OVERTEMP is raised as it reaches the
limit. -/
def boardTemp (t : Int) (s : State) : State :=
  let hot := decide (boardLimit s ≤ t)
  let s1 := wr pgAon R.AON_STATUS_BOARD_HOT (b2n hot) (wr pgAon R.AON_BOARD_T (wrapInt 16 t) s)
  checked pgAon 0 (hot && rd s pgAon R.AON_STATUS_BOARD_HOT == 0) (recordErr pgAon 0 none) id s1

/-- The board temperature held against a limit just written (R55). -/
def boardAgain (s : State) : State := boardTemp (signedOf 16 (rd s pgAon R.AON_BOARD_T)) s

/-- BOARD_OVERTEMP (R55). -/
def execBoardOvertemp (t : Int) (s : State) : Host.Outcome State Fault Refusal := .next (boardTemp t s)

/-- Whether the module asserts ALERT_N (R55, R390, R400, R454, R455). -/
def alertN (s : State) : Bool :=
  s.alert || rd s pgAon R.AON_STATUS_BOARD_HOT == 1 || s.rst.bothFail ||
    (rd s pgRst R.RST_STATUS_COMEOUT == 1 && (decide (4 ≤ rd s pgRst R.RST_STATUS_STEP) || s.rst.reach == 1) && !s.pins.coolant)

end Sys2Proof.Machine
end

