-- ==== Sys2Proof/Machine/Recovery.lean ====
section
/-!
DEFINITION. Containment and recovery on the module itself (chapter 13): watches, the capture, audits and the repairs they
lead to, power loss; and the step boundary (R263) with what is due there.
-/

namespace Sys2Proof.Machine

/-! ### Watches (R404, R406) -/

/-- PROGRESS_STALL (R404): the watch of a context to which its polder is switched, and that is not held, has run out. -/
def progressStall (n : Nat) (s : State) : State :=
  match ctxOf s n with
  | none => s
  | some x =>
    if x.progressUs = 0 ∨ (polOf s x.polder).cur ≠ some n ∨ isHeld s n ∨ x.halted then s
    else stepFatal n (errCode .emb 4) none (recordEmb 4 (some n) s)

/-- PROGRESS_STALL (R404). -/
def execProgressStall (n : CtxIx) (s : State) : Host.Outcome State Fault Refusal := .next (settled (progressStall n s))

/-- FABRIC_LOCKUP (R406): step-fatal for every training context and context-fatal for every other; then the capture and
a COMPUTE reset. -/
def fabricLockup (s : State) : State :=
  let code := errCode .emb 3
  let s1 := s.ctxs.foldl (fun t e => if e.2.typ = 0 then stepFatal e.1 code none t else ctxFatal e.1 code t) (recordEmb 3 none s)
  assertSource 9 1 true code s1

/-- FABRIC_LOCKUP (R406). -/
def execFabricLockup (s : State) : Host.Outcome State Fault Refusal := .next (settled (fabricLockup s))

/-! ### The capture area (R408, R409) -/

/-- Words from an offset on, with their offsets. -/
def wordsAt (o : Nat) (ws : List Nat) : List (Nat × Nat) := ws.zipIdx.map (fun e => (o + 8 * e.2, e.1 % 2 ^ 64))

/-- The contexts that hold a resident place, ascending: place `p` is the `p`-th. -/
def placedCtxs (s : State) : List (Nat × Ctx) :=
  (List.range 64).filterMap (fun n =>
    if ctxState s n = stResident ∨ ctxState s n = stSwapping ∨ ctxState s n = stTearing then (ctxOf s n).map (fun x => (n, x)) else none)

/-- An armed unit as two words: tally address, core, slot, armed, satisfied; threshold. -/
def unitWords (c i : Nat) (t : TSlot) : List Nat :=
  [t.addr / 8 % 2 ^ 45 + c * 2 ^ 45 + i % 4 * 2 ^ 58 + 2 ^ 60 + b2n t.sat * 2 ^ 61, t.thr]

/-- The fetcher's record of one place. -/
def capFetcher (s : State) (n : Nat) (x : Ctx) : List Nat :=
  (List.range 4).map (headOf s n) ++ (List.range 4).map (nextOf x) ++
    (List.range 8).flatMap (fun i => match mapFind x.slots i with
      | some a => [a.step + a.mb * 2 ^ 32, a.held.foldl (fun b g => b + 2 ^ (g % 64)) 0, b2n a.last]
      | none => [0, 0, 0]) ++
    (List.range 4).flatMap (fun st => match mapFind s.fwait (n * 4 + st) with | some t => unitWords 0 st t | none => [0, 0])

/-- One core's record: STATUS, FAULT_INSN, FAULT_PC, X1 to X31, the loop stack, the address generators, tally slots,
booking, accumulators, ASTATUS. -/
def capCore (s : State) (c : Nat) : List Nat :=
  let k := coreOf s c
  let g := pgCore c
  let a := pgArray c
  let gen (i : Nat) : List Nat :=
    let y := (mapFind k.seq.ags i).getD .zero
    [y.base % 2 ^ 20 + wrapInt 20 y.stride0 * 2 ^ 20 + y.count0 % 2 ^ 16 * 2 ^ 40,
     y.wbase % 2 ^ 20 + wrapInt 20 y.stride1 * 2 ^ 20 + y.count1 % 2 ^ 16 * 2 ^ 40, y.wsize % 2 ^ 20 + y.i0 % 2 ^ 17 * 2 ^ 20 + y.i1 % 2 ^ 17 * 2 ^ 37]
  [regVal s g 0x18, rd s g R.CORE_FAULT_INSN, regVal s g 0x128] ++ (List.range 31).map (fun i => xnat k (i + 1)) ++
    (List.range 4).map (fun i => match k.seq.loops[i]? with | some l => l.start + l.last * 2 ^ 12 + l.left * 2 ^ 24 | none => 0) ++
    (List.range 6).flatMap gen ++ (List.range 4).map (fun i => match mapFind k.slots i with | some t => (unitWords c i t).headD 0 | none => 0) ++
    [k.g + k.req * 8 + b2n k.bookPend * 64, accStateWord k 0 + (k.acc0.m + k.acc0.n * 65536) * 2 ^ 32,
     accStateWord k 1 + (k.acc1.m + k.acc1.n * 65536) * 2 ^ 32, regVal s a 0x1014]

/-- One binding in an update engine's record. -/
def capBind (b : Binding) : List Nat :=
  [b.phase + b.desc.ctx * 8 + b.nodes.length * 2 ^ 16 + b.heldN.length * 2 ^ 32 + b.heldG.length * 2 ^ 48, b.sums.step + b.updStep * 2 ^ 32]

/-- One link's record: state, sequence numbers, replay buffer, credits, open trains. -/
def capLink (s : State) (k : Nat) : List Nat :=
  let l := linkOf s k
  [linkState s k + l.txSeq * 2 ^ 16 + l.rxSeq * 2 ^ 40, l.replay.length + l.txq.length * 2 ^ 32, l.encap.length] ++
    (List.range 8).map (fun vc => mapGet 0 l.out0 vc + mapGet 0 l.out1 vc * 2 ^ 16 + mapGet 0 l.free0 vc * 2 ^ 32 + mapGet 0 l.free1 vc * 2 ^ 48)

/-- The words of a section of R409, in the order of its table: fetchers, wait units, transfer engines, collective engines,
update engines, links, cores; the reserved rest is 0. -/
def capSection (s : State) (i : Nat) : List (Nat × Nat) :=
  match i with
  | 0 => (placedCtxs s).zipIdx.flatMap (fun e => if e.2 < 16 then wordsAt (0x1000 + 1024 * e.2) (capFetcher s e.1.1 e.1.2) else [])
  | 1 => (List.range 4).flatMap (fun d =>
      let us := (s.cores.filter (fun c => dieOfCore c.1 == d)).flatMap (fun c => c.2.slots.map (fun t => unitWords c.1 t.1 t.2))
      wordsAt (0x5000 + 16384 * d) (us.take 1024).flatten)
  | 2 => s.engines.flatMap (fun e =>
      wordsAt (0x15000 + 2112 * e.1) [regVal s (pgBarge e.1) 0x18] ++
        (e.2.jobs.take 32).zipIdx.flatMap (fun j => wordsAt (0x15000 + 2112 * e.1 + 64 + 64 * j.2)
          ((List.range 8).map (fun w => j.1.words.getD (2 * w) 0 + j.1.words.getD (2 * w + 1) 0 * 2 ^ 32))))
  | 3 => wordsAt 0x36000 ((s.colls.take 64).flatMap (fun c => [c.ctx + c.idx * 2 ^ 8, b2n c.issued + c.xids.length * 2 + c.blocks.length * 2 ^ 16]))
  | 4 => s.binds.flatMap (fun b => wordsAt (0x3A000 + 4096 * (b.1 / 4) + 1024 * (b.1 % 4)) (capBind b.2))
  | 5 => (List.range 32).flatMap (fun k => wordsAt (0x42000 + 512 * k) (capLink s k)) ++ wordsAt (0x42000 + 512 * 32) [rd s pgHlink R.HLINK_STATUS_STATE]
  | 6 => s.cores.flatMap (fun c => wordsAt (0x100000 + 512 * c.1) (capCore s c.1))
  | _ => []

/-- The bytes that a section takes: first offset and size. -/
def capSpan (i : Nat) : Nat × Nat :=
  [(0x1000, 0x4000), (0x5000, 0x10000), (0x15000, 0x21000), (0x36000, 0x4000), (0x3A000, 0x8000), (0x42000, 0x8000),
    (0x100000, 0x400000), (0x500000, 0x300000)].getD i (0, 0)

/-- `n` bytes of device DRAM from `a` written as zeros. -/
def zeroBytes (a n : Nat) (s : State) : State :=
  let grans := (List.range ((a + n - 1) / 4096 + 1 - a / 4096)).filterMap (fun i =>
    (locate s ((a / 4096 + i) * 4096)).map (fun q => (q / 4096, (a / 4096 + i) * 4096)))
  let hit (q : Nat) : Bool := match grans.find? (fun g => g.1 == q / 4096) with
    | some g => decide (a ≤ g.2 + q % 4096 ∧ g.2 + q % 4096 < a + n)
    | none => false
  { s with dram := mapDrop s.dram hit, dramAny := mapDrop s.dramAny (fun b => hit (b * 64)),
           dramPoison := mapDrop s.dramPoison (fun b => hit (b * 64)), dramSyms := mapDrop s.dramSyms (fun b => hit (b * 64)) }

/-- One section written. -/
def capWrite (src : State) (base i : Nat) (s : State) : State :=
  (capSection src i).foldl (fun t w => if w.2 = 0 then t else dramPutWord (base + w.1) w.2 t)
    (zeroBytes (base + (capSpan i).1) (capSpan i).2 s)

/-- The header's words, with the sections `done` written. -/
def capHeader (s : State) (c : Capture) (complete : Bool) (written : Nat) : List (Nat × Nat) :=
  [(0, 1 + b2n complete * 2 ^ 16 + written * 2 ^ 24 + (s.rst.capSeq + 1) % 2 ^ 32 * 2 ^ 32),
   (8, if c.reach = 0 then 0 else 2 ^ c.cause), (16, c.tick), (24, c.code)] ++
    (placedCtxs s).zipIdx.filterMap (fun e =>
      if e.2 < 16 then some (64 + 8 * e.2, e.1.1 + 2 ^ 6 + (if e.1.2.typ = 0 then lowestOpen s e.1.2 else 0) * 2 ^ 32) else none)

/-- The capture ends: what its sections hold is written, the reset that waits for it takes effect. -/
def capEnd (complete : Bool) (secs : Nat) (c : Capture) (s : State) : State :=
  let base := rd s pgEmb R.EMB_CAPTURE_BASE
  let s1 := (List.range secs).foldl (fun t i => capWrite s base i t) s
  let s2 := (capHeader s c complete (2 ^ secs - 1)).foldl (fun t w => dramPutWord (base + w.1) w.2 t) (zeroBytes base 4096 s1)
  let s3 := modRst (fun r => { r with capture := none, capDone := true, capSeq := r.capSeq + 1 }) (wr pgEmb R.EMB_CAPTURE_VALID 1 s2)
  if s3.rst.pend ≠ 0 ∧ !s3.rst.held then takeHere s3 else s3

/-- CAPTURE_COMPLETE (R408 step 5). -/
def captureComplete (s : State) : State :=
  match s.rst.capture with
  | some c => capEnd true 8 c s
  | none => s

/-- CAPTURE_COMPLETE (R408). -/
def execCaptureComplete (s : State) : Host.Outcome State Fault Refusal := .next (captureComplete s)

/-- CAPTURE_INCOMPLETE (R408): at 50 µs the capture stops where it stands, with fewer than its eight sections done. -/
def captureIncomplete (s : State) : State :=
  match s.rst.capture with
  | some c => let r := drawFree s; capEnd false (r.1 % 8) c (recordEmb 8 none r.2)
  | none => s

/-- CAPTURE_INCOMPLETE (R408). -/
def execCaptureIncomplete (s : State) : Host.Outcome State Fault Refusal := .next (captureIncomplete s)

/-! ### Repairs (R28 to R31, R52) -/

/-- Whether the spare of a core's half-row is in use. -/
def spareUsed (s : State) (c : Nat) : Bool := rdi s (pgDie (dieOfCore c)) R.DIE_REPAIR_USED (halfRowOf c % 64) == 1

/-- A core's half-row shifted: its spare position takes a place in the row. -/
def shiftRow (c : Nat) (cond : Bool) (s : State) : State :=
  let p := pgDie (dieOfCore c)
  let k := halfRowOf c % 64
  let s1 := wri p R.DIE_REPAIR_COL k (c % 64) (wri p R.DIE_REPAIR_USED k 1 (wri p R.DIE_REPAIR_CONDITIONAL k (b2n cond) s))
  wr p R.DIE_STATUS_SPARES_FREE (rd s p R.DIE_STATUS_SPARES_FREE - 1) { s1 with audits := s1.audits.filter (fun a => a.aud != halfRowOf c) }

/-- A conditional shift undone (R439). -/
def unshiftRow (c : Nat) (s : State) : State :=
  let p := pgDie (dieOfCore c)
  let k := halfRowOf c % 64
  wr p R.DIE_STATUS_SPARES_FREE (rd s p R.DIE_STATUS_SPARES_FREE + 1)
    (wri p R.DIE_REPAIR_COL k 0 (wri p R.DIE_REPAIR_USED k 0 (wri p R.DIE_REPAIR_CONDITIONAL k 0 s)))

/-- A failed core repaired by row shift; what it held is lost, and rebuilt by replay (R29). -/
def repairCore (c : Nat) (s : State) : State :=
  let i := s.free
  let s1 := modCore c (fun k => { k with scr := [], scrAny := some i, scrPoison := [], scrUpset := [], v := [], vAny := some (i + 1), vPoison := [],
                                         acc0 := freeAcc (i + 2), acc1 := freeAcc (i + 3) }) { s with free := s.free + 4 }
  recordErr (pgDie (dieOfCore c)) 0 none (shiftRow c false s1)

/-- The block of a core that no spare can replace withdrawn from polder allocation (R31). -/
def withdrawBlock (c : Nat) (s : State) : State :=
  let p := pgDie (dieOfCore c)
  let b := c / 128 % 32 / 8 * 8 + c % 64 / 8
  if bitSet (rd s p R.DIE_WITHDRAWN) b then s
  else recordErr p 1 none (wr p R.DIE_STATUS_BLOCKS_WITHDRAWN (rd s p R.DIE_STATUS_BLOCKS_WITHDRAWN + 1)
    (wr p R.DIE_WITHDRAWN (rd s p R.DIE_WITHDRAWN + 2 ^ b) s))

/-! ### Audits (R434 to R439) -/

/-- A 64-byte block of device DRAM that lies in a correct section which no polder owns. -/
def openBlock (s : State) (a : Nat) : Bool :=
  let n := a / 2 ^ 30
  decide (a + 64 ≤ 0x80_0000_0000) && (sectOf s n).mode != 0 && (sectOf s n).cls == 0 &&
    s.polTab.all (fun e => !bitSet (wd e.2 (3 + n / 64)) (n % 64))

/-- A record of the audit log (R437). -/
def auditLog (ty c n step mmas first count va vb g : Nat) (s : State) : State :=
  let base := rd s pgAudit R.AUDIT_LOG_BASE
  let tail := rd s pgAudit R.AUDIT_LOG_TAIL
  let a := base + tail % 2 ^ max 1 (rd s pgAudit R.AUDIT_LOG_LOG2N) * 64
  let r := regionOfCore c
  let ws := [c + ty * 2 ^ 13 + n * 2 ^ 16 + step % 2 ^ 32 * 2 ^ 32, mmas,
    wrapInt 16 (regionTemp s r) + vOf s (r / 16) * 2 ^ 16 + (ledgerB s r).floor % 2 ^ 20 * 2 ^ 26 + admitOf s r * 2 ^ 46 + g * 2 ^ 53,
    first + count * 2 ^ 12, va % 2 ^ 32 + vb % 2 ^ 32 * 2 ^ 32, kOf s r + rd s (pgSluice r) R.SLUICE_FLOOR_TRIM * 2 ^ 16, 0, 0]
  if !openBlock s a then s
  else bump pgAudit R.AUDIT_LOG_TAIL 1 (dramWrite a (ws.flatMap (bytesOf 8)) false s)

/-- A record of a fence action: nothing was compared, so those fields are free. -/
def fenceLog (ty c n step : Nat) (s : State) : State :=
  let i := s.free
  auditLog ty c n step (Config.freeNat i % 2 ^ 64) (Config.freeNat (i + 1) % 2 ^ 12) 0 (Config.freeNat (i + 2)) (Config.freeNat (i + 3))
    (coreOf s c).g { s with free := i + 4 }

/-- The record of a sampled MMA against an auditor's differences. -/
def compareLog (ty : Nat) (j : AuditJob) (step : Nat) (diff : List (Nat × Nat)) (s : State) : State :=
  match diff with
  | d :: _ => auditLog ty j.core j.ctx step j.count d.1 diff.length (mapGet 0 j.ent d.1) d.2 j.g s
  | [] => -- only SAT differed
    let i := s.free
    auditLog ty j.core j.ctx step j.count (Config.freeNat i % 2 ^ 12) 0 (Config.freeNat (i + 1)) (Config.freeNat (i + 2)) j.g { s with free := i + 3 }

/-- A core fenced by the audit (R438): CORE_FENCED, with its log record; it is replaced or withdrawn at its polder's next
step boundary. -/
def fenceCore (c n step : Nat) (s : State) : State :=
  recordErr pgAudit 2 (some n) (fenceLog 3 c n step (setAudit c { auditOf s c with st := 4, out := false, due := true } s))

/-- The escalation on a confirmed mismatch (R438). -/
def escalate (c n step : Nat) (s : State) : State :=
  let a := auditOf s c
  match a.st with
  | 0 =>
    let r := regionOfCore c
    trimStep r (setAudit c { a with st := 1, t1 := wrapInt 16 (regionTemp s r), clean := 0 } s)
  | 4 => s
  | _ => fenceCore c n step s

/-- A confirmed mismatch (R436): step-fatal, or AUDIT_LATE with a rollback where the verdict of the step is held. -/
def mismatch (j : AuditJob) (s : State) : State :=
  let s1 := bumpSat pgAudit R.AUDIT_MISMATCHES 1 s
  match ctxOf s j.ctx with
  | none => s1
  | some x =>
    let t := j.step.getD (lowestOpen s x)
    if x.typ = 0 ∧ verdictHeld x t then askRollback j.ctx t (recordErr pgAudit 1 (some j.ctx) s1)
    else stepFatal j.ctx (errCode .audit 0) j.step (recordErr pgAudit 0 (some j.ctx) s1)

/-- A clean comparison of a core in RETEST counts (R438). -/
def retested (j : AuditJob) (s : State) : State :=
  let a := auditOf s j.core
  if a.st ≠ 1 then s
  else if a.clean + 1 < max 1 (auditRd s j.ctx R.AUDIT_CTRL_RETEST_N) then setAudit j.core { a with clean := a.clean + 1 } s
  else
    let t1 := signedOf 16 a.t1
    if auditRd s j.ctx R.AUDIT_CTRL_COND_T * 8 ≤ t1 then
      setAudit j.core { a with st := 3, clean := 0, cool := none, band := wrapInt 16 (t1 - auditRd s j.ctx R.AUDIT_CTRL_COND_MARGIN * 8) } s
    else setAudit j.core { a with st := 2, clean := 0 } s

/-- AUDIT_COMPARE (R435, R436): the sampled MMA at index `i` compared, entry by entry and in SAT. -/
def auditCompare (i : Nat) (r : AuditResult) (s : State) : State :=
  match s.audits[i]? with
  | none => s
  | some j =>
    let real (l : List (Nat × Nat)) : List (Nat × Nat) :=
      (List.range 4096).filterMap (fun e => (l.find? (fun d => d.1 == e)).bind (fun d => if d.2 = mapGet 0 j.ent e then none else some d))
    let d1 := real r.diff1
    let d2 := real r.diff2
    let s1 := bump pgAudit R.AUDIT_SAMPLED 1 { s with audits := s.audits.eraseIdx i }
    if d1.isEmpty && !r.sat1 then retested j s1
    else
      let step := j.step.getD (match ctxOf s j.ctx with | some x => lowestOpen s x | none => 0)
      let bad := r.sat2 || !d2.isEmpty
      let same := r.sat1 == r.sat2 && d1 == d2
      let s2 := if bad then escalate j.core j.ctx step (compareLog 0 j step (if same then d1 else d2) s1) else s1
      let s3 := if same then s2
        else recordErr pgAudit 3 none { compareLog 1 j step d1 s2 with badAuditors := (j.aud :: s2.badAuditors).eraseDups }
      if bad then mismatch j s3 else s3

/-- AUDIT_COMPARE (R436). -/
def execAuditCompare (i : Nat) (r : AuditResult) (s : State) : Host.Outcome State Fault Refusal := .next (settled (auditCompare i r s))

/-- Whether an action on a core is due (R438, R439): its replacement, its shift out at the band, or its shift back after
1 s more than 5 °C below it. -/
def auditWaits (s : State) (c : Nat) : Bool :=
  let a := auditOf s c
  (a.st == 4 && a.due) ||
    (a.st == 3 && (if a.out then (match a.cool with | some u => decide (u + 100000000 ≤ tickOf s) | none => false)
      else decide (signedOf 16 a.band ≤ regionTemp s (regionOfCore c))))

/-- Whether a polder owns a core of a core's half-row: one of the four blocks that the half-row crosses. -/
def inHalfRow (s : State) (p c : Nat) : Bool :=
  let ws := (mapFind s.polTab p).getD []
  let b := blockOfCore c / 4 * 4
  (List.range 4).any (fun i => bitSet (wd ws (1 + (b + i) / 64)) ((b + i) % 64))

/-- The polders that own a core of a core's half-row and have step boundaries: a training context of theirs runs (R29). -/
def rowPolders (s : State) (c : Nat) : List Nat :=
  (List.range 128).filter (fun p => inHalfRow s p c &&
    s.ctxs.any (fun e => e.2.polder == p && e.2.typ == 0 && e.2.boundary.isSome && !e.2.halted))

/-- The action due on a core taken, at step boundary `t` of context `n` (R438, R439). -/
def auditAct (n t c : Nat) (s : State) : State :=
  let a := { auditOf s c with seen := [] }
  if a.st = 4 then
    (if spareUsed s c then withdrawBlock c (setAudit c { a with due := false } s)
     else repairCore c (setAudit c { a with due := false, out := true } s))
  else if a.out then fenceLog 4 c n t (unshiftRow c (setAudit c { a with out := false } s))
  else if spareUsed s c then
    let s1 := fenceCore c n t (setAudit c a s)
    withdrawBlock c (setAudit c { auditOf s1 c with due := false } s1)
  else fenceLog 2 c n t (shiftRow c true (setAudit c { a with out := true } s))

/-- What is due for one core at a step boundary `t` of a polder of its half-row: the action waits until every polder that
owns a core of the half-row has come to one (R29; log 64). -/
def auditDue (n t c : Nat) (s : State) : State :=
  let a := auditOf s c
  if !auditWaits s c then (if a.seen.isEmpty then s else setAudit c { a with seen := [] } s)
  else
    let p := match ctxOf s n with | some x => x.polder | none => 0
    let seen := if a.seen.contains p then a.seen else p :: a.seen
    if (rowPolders s c).all (fun q => seen.contains q) then auditAct n t c s
    else setAudit c { a with seen := seen } s

/-! ### The step boundary (R263, R490) -/

/-- The snapshot of a PERF page at step boundary `t` of the context it names (R490). -/
def snapshot (n t d : Nat) (s : State) : State :=
  let p := pgPerf d
  if rd s p R.PERF_SNAP_CTRL_EN = 1 ∧ rd s p R.PERF_SNAP_CTRL_CONTEXT = n then
    let s1 := foldUpTo 16 (fun i u => wri p R.PERF_SNAP_CNT i (rdi u p R.PERF_EVT_CNT i) u) s
    bump p R.PERF_SNAP_SEQ 1 (wr p R.PERF_SNAP_TICK (tickOf s) (wr p R.PERF_SNAP_STEP t s1))
  else s

/-- A context's step boundary on this module: report `t` is written and every binding has passed it. -/
def stepBoundary (n : Nat) (s : State) : State :=
  match ctxOf s n with
  | none => s
  | some x => match x.boundary with
    | none => s
    | some t =>
      if x.typ ≠ 0 ∨ !stepLe t (lastReport s x) ∨ !bindsPassed s n t then s
      else
        let s1 := takeWb n (setCtx n { x with boundary := some (stepNext t) } s)
        let s2 := foldUpTo 5 (snapshot n t) s1
        (s2.auditSt.filter (fun e => inHalfRow s x.polder e.1)).foldl (fun u e => auditDue n t e.1 u) s2

/-- STEP_BOUNDARY (R263). -/
def execStepBoundary (n : CtxIx) (s : State) : Host.Outcome State Fault Refusal := .next (settled (stepBoundary n s))

/-- STEP_HOLD (R263): the host writes CTX.CTRL.HOLD, which applies at the schedule-cycle boundary (R67). -/
def execStepHold (p : Path) (n : CtxIx) (hold : Bool) (s : State) : Host.Outcome State Fault Refusal :=
  .next (access p (pgCtx n) (writeReg (fun _ _ _ s => s) (pgCtx n) 0x10 (b2n hold * 4) 4) s)

/-- The pending values of a binding that is not valid apply, and VALID = 1 binds it (R67, R222, R243). -/
def bindApply (i : Nat) (s : State) : State :=
  let p := pgUpd (i / 4)
  let mine (o : Nat) : Bool := decide (0x100 + i % 4 * 0x80 ≤ o ∧ o < 0x180 + i % 4 * 0x80)
  if (bindAt s i).isSome ∨ !(pendOffs s p).any (fun e => mine e.1) then s
  else
    let s1 := bump p R.HEADER_BOUNDARY_CNT_COUNT 1 (applySel p mine s)
    let s2 := if urd s1 R.UPD_BIND_CTRL_SHARE i = 0 then uwr R.UPD_BIND_CTRL_SHARE i 1 s1 else s1
    if urd s2 R.UPD_BIND_CTRL_VALID i = 1 then doBind i s2 else s2

/-- BIND (R222). -/
def execBind (k : StackIx) (b : BindIx) (s : State) : Host.Outcome State Fault Refusal := .next (settled (bindApply (k * 4 + b) s))

/-! ### Power loss (R440, R441) -/

/-- The ERR_FIRST records of the pages, at most 64, by page: page number and register value. -/
def firstErrors (s : State) : List (Nat × Nat) :=
  (((s.regs.filter (fun e => e.1 % (16384 * 64) == 0x28 * 64 + 31 && e.2 == 1)).filterMap (fun e =>
    (fieldFiled e.1).map (fun p => (keyPage e.1, rd s p.1 R.HEADER_ERR_FIRST_CODE + rd s p.1 R.HEADER_ERR_FIRST_BIT * 2 ^ 16 + 2 ^ 31))))).take 64

/-- The words of the power-fail record: sequence number, timekeeping count, the contexts, the errors, the LMS index. -/
def powerFailWords (s : State) : List Nat :=
  let cs := s.ctxs.flatMap (fun e => [e.1 + e.2.job * 2 ^ 16 + (if e.2.typ = 0 then lowestOpen s e.2 else 0) * 2 ^ 32, rdi s pgEmb R.EMB_CKPT_LAST_STEP e.1])
  let es := (firstErrors s).map (fun e => e.2 + e.1 * 2 ^ 32)
  [s.factory.pfailSeq + 1, rd s pgAon R.AON_TIME, s.ctxs.length, es.length, rd s pgSec R.SEC_LMS_NEXT] ++ cs ++ es

/-- POWER_LOSS (R440): the 48 V input falls below 40 V, or returns. Sluices grant nothing above class 0, fetchers stop,
and the SUPPLY reset follows when the power-fail record is committed. -/
def powerLoss (lost : Bool) (s : State) : State :=
  let s1 := { s with pins := { s.pins with main := !lost } }
  if !lost then (if s.boot.pfail then s1 else releaseSource 3 s1)
  else if !s.pins.main ∨ rd s pgPwr R.PWR_STATUS_STATE = 3 then s1
  else
    let mark (t : State) : State := { t with boot := { t.boot with pfail := true } }
    if s.rst.held ∨ rd s pgRst R.RST_STATUS_COMEOUT = 1 then mark (assertSource 3 3 false 0 s1)
    else
      mark { modRst (fun r => { r with asserted := r.asserted.filter (· != 3) ++ [3], pend := max r.pend 3, capture := none })
        (wr pgRst R.RST_CAUSE (rd s pgRst R.RST_CAUSE ||| 8) s1) with stopAll := true }

/-- POWER_FAIL_RECORD (R440, R441): the record is committed in the quay factory region; the SUPPLY reset takes effect. -/
def powerFailRecord (s : State) : State :=
  if !s.boot.pfail then s
  else
    let s1 := { s with
      factory := { s.factory with pfail := powerFailWords s, pfailSeq := s.factory.pfailSeq + 1 }, boot := { s.boot with pfail := false } }
    let back (t : State) : State := if t.pins.main then releaseSource 3 t else t
    if s1.rst.held ∨ s1.rst.pend = 0 then back s1
    else
      let cause := if s1.rst.pend = 4 then 3 else rd s1 pgRst R.RST_CAUSE
      back (wr pgRst R.RST_CAUSE cause (takeReset s1))

/-- POWER_FAIL_RECORD (R440). -/
def execPowerFailRecord (s : State) : Host.Outcome State Fault Refusal := .next (powerFailRecord s)

end Sys2Proof.Machine
end

