-- ==== Sys2Proof/Machine/Boot.lean ====
section
/-!
DEFINITION. Resets and boot (chapter 14): the reset sources and their release, the TAP instructions, the come-out step
by step, the boot of the firmware, and the ends of power-state transitions and wakes that a come-out belongs to.
-/

namespace Sys2Proof.Machine

/-! ### Sources (R446 to R450) -/

/-- Whether the module's main domain runs: it is not in SLEEP. -/
def mainOn (s : State) : Bool := rd s pgPwr R.PWR_STATUS_STATE != 3

/-- POWER_ON (R446): the auxiliary rail rises through 3.0 V. -/
def powerOnSource (s : State) : State := wr pgAon R.AON_STATUS_AUX_OK 1 (assertSource 0 4 false 0 s)

/-- POWER_ON (R446). -/
def execPowerOn (s : State) : Host.Outcome State Fault Refusal := .next (powerOnSource s)

/-- AON_BROWNOUT (R446, R501): the auxiliary rail falls below 2.9 V, or is back. With 48 V present, compute stops and
the power-fail record is written from hold-up before the FULL reset takes effect. -/
def aonBrownout (low : Bool) (s : State) : State :=
  if !low then
    let s1 := wr pgAon R.AON_STATUS_AUX_OK 1 s
    if s1.boot.pfail ∧ !s1.rst.held then s1 else releaseSource 0 (releaseSource 1 s1)
  else if s.pins.main && mainOn s && !s.rst.held && rd s pgRst R.RST_STATUS_COMEOUT == 0 then
    { modRst (fun r => { r with asserted := r.asserted.filter (· != 1) ++ [1], pend := 4, capture := none })
        (wr pgRst R.RST_CAUSE (rd s pgRst R.RST_CAUSE ||| 2) (wr pgAon R.AON_STATUS_AUX_OK 0 s)) with
      stopAll := true, boot := { s.boot with pfail := true } }
  else wr pgAon R.AON_STATUS_AUX_OK 0 (assertSource 1 4 false 0 s)

/-- AON_BROWNOUT (R446). -/
def execAonBrownout (low : Bool) (s : State) : Host.Outcome State Fault Refusal := .next (aonBrownout low s)

/-- MAIN_BROWNOUT (R446): a main rail falls below its limit, or every rail is back; no main rail is on in SLEEP. -/
def mainBrownout (low : Bool) (s : State) : State :=
  if !low then releaseSource 2 s else if mainOn s then assertSource 2 3 false 0 s else s

/-- MAIN_BROWNOUT (R446). -/
def execMainBrownout (low : Bool) (s : State) : Host.Outcome State Fault Refusal := .next (mainBrownout low s)

/-- RESET_N (R446): the pin is accepted low, or high, after its filter. -/
def resetPin (low : Bool) (s : State) : State := if low then assertSource 4 2 false 0 s else releaseSource 4 s

/-- RESET_N (R446). -/
def execResetN (low : Bool) (s : State) : Host.Outcome State Fault Refusal := .next (resetPin low s)

/-- CLOCK_FAIL (R54, R446): the module reference or the management oscillator is more than 5 % off for 2 µs. -/
def clockFail (mgmt : Bool) (s : State) : State :=
  if !mainOn s then s
  else assertSource 5 2 true 0 (wr pgMgmt (if mgmt then R.MGMT_STATUS_MGMT_OSC_OK else R.MGMT_STATUS_REF_OSC_OK) 0 s)

/-- CLOCK_FAIL (R446). -/
def execClockFail (mgmt : Bool) (s : State) : Host.Outcome State Fault Refusal := .next (clockFail mgmt s)

/-- WATCHDOG (R446, R456): the period expires while the firmware runs and WDOG.EN is 1. -/
def watchdog (s : State) : State :=
  if rd s pgMgmt R.MGMT_STATUS_FW_RUNNING = 1 ∧ rd s pgRst R.RST_WDOG_EN = 1 then assertSource 6 2 true 0 s else s

/-- WATCHDOG (R446). -/
def execWatchdog (s : State) : Host.Outcome State Fault Refusal := .next (watchdog s)

/-- MGMT_LOCKUP (R446): the management core, where one runs, retires nothing for 1 ms. -/
def mgmtLockup (s : State) : State := if mainOn s && !(s.rst.held && decide (2 ≤ s.rst.pend)) then assertSource 7 2 true 0 s else s

/-- MGMT_LOCKUP (R446). -/
def execMgmtLockup (s : State) : Host.Outcome State Fault Refusal := .next (mgmtLockup s)

/-- What a write of RST.SW_RESET does (R480): it acts only with the key, for REACH 1 and 2. -/
def swReset (reach key : Nat) (s : State) : State :=
  if key ≠ 0xA5 then s
  else if reach = 1 then assertSource 11 1 true 0 s
  else if reach = 2 then assertSource 8 2 true 0 s
  else s

/-- SW_RESET_COMPUTE (R446). -/
def execSwResetCompute (p : Path) (key : Nat) (s : State) : Host.Outcome State Fault Refusal := .next (access p pgRst (swReset 1 key) s)

/-- SW_RESET_MODULE (R446). -/
def execSwResetModule (p : Path) (key : Nat) (s : State) : Host.Outcome State Fault Refusal := .next (access p pgRst (swReset 2 key) s)

/-! ### The TAP (R467) -/

/-- A TAP instruction comes into force: leaving RESET_REQ releases the debug request (R446). -/
def tapTo (i : Nat) (s : State) : State :=
  let s1 := { s with tap := i }
  if s.tap = 3 ∧ i ≠ 3 then releaseSource 10 s1 else s1

/-- RESET_REQ (R446, R467): permitted as invasive debug; refused, the TAP shifts through BYPASS. -/
def resetReq (s : State) : State := if debugOpen s then assertSource 10 1 false 0 { s with tap := 3 } else tapTo 0 s

/-- RESET_REQ (R446). -/
def execResetReq (s : State) : Host.Outcome State Fault Refusal := .next (resetReq s)

/-- IDCODE (R467): permitted at every level; the TAP shifts the identification code out. -/
def execIdcode (s : State) : Host.Outcome State Fault Refusal := .next { tapTo 1 s with tapOut := Config.idcode }

/-- BYPASS (R467): permitted at every level. -/
def execBypass (s : State) : Host.Outcome State Fault Refusal := .next (tapTo 0 s)

/-- EXTEST (R467): permitted as invasive debug. -/
def execExtest (s : State) : Host.Outcome State Fault Refusal := .next (tapTo (if debugOpen s then 2 else 0) s)

/-! ### Release (R448) -/

/-- RESET_RELEASE (R448): the last asserted source releases, and the come-out of the widest pending reach begins. A
source cannot release while its capture runs, nor 48 V loss before the input is back and its record committed. -/
def resetRelease (s : State) : State :=
  if s.rst.asserted.isEmpty ∨ s.rst.capture.isSome ∨ s.boot.pfail then s
  else
    let keep := s.rst.asserted.filter (fun b => b == 3 && !s.pins.main)
    tryRelease (modRst (fun x => { x with asserted := keep }) { s with tap := if s.tap = 3 then 0 else s.tap })

/-- RESET_RELEASE (R448). -/
def execResetRelease (s : State) : Host.Outcome State Fault Refusal := .next (resetRelease s)

/-! ### Come-out, steps 2 to 4 (R453 to R461, R471) -/

/-- The step of the come-out under way that has not completed: those of its reach (R453); a wake from STANDBY runs from
step 5 (R395). -/
def nextStep (s : State) : Nat :=
  let k := rd s pgRst R.RST_STATUS_STEP
  if s.rst.reach = 1 then (if k < 5 then 5 else if k = 7 then 9 else k + 1)
  else if s.rst.reach = 2 ∨ s.rst.reach = 3 then max 2 (k + 1)
  else k + 1

/-- An ADC count as it is held, and its code (R458). -/
def adcCount (c : Nat) : Nat := min 1023 c
def adcCode (c : Nat) : Nat := adcCount c / 64

/-- The first of at most 5 rounds whose 8 samples give one code (R458). -/
def strapRound (rounds : List (List Nat)) : Option (List Nat) :=
  (rounds.take 5).find? (fun r => r.length == 8 && r.all (fun c => adcCode c == adcCode (r.headD 0)))

/-- The code and count that sampling leaves (R458): the count of the accepted round, one of its samples where they
differ; with none accepted, code 14 and STRAP_UNSTABLE. -/
def sampleCode (rounds : List (List Nat)) (s : State) : Nat × Nat × State :=
  let d := drawFree s
  match strapRound rounds with
  | some r =>
    let c := adcCount (r.headD 0)
    if r.all (fun x => adcCount x == c) then (c / 64, c, s) else (c / 64, adcCount (r.getD (d.1 % 8) 0), d.2)
  | none => (14, d.1 % 1024, recordErr pgStrap 0 none d.2)

/-- Boot source, lane cap, I3C address and reference of a code (R459, R460). -/
def strapEffect (code : Nat) (i : ComeoutInput) (free : Nat) : Nat × Nat × Nat × Nat :=
  if code < 12 then (code / 4, code / 2 % 2, code % 2, 0)
  else if code = 15 then
    ((match i.boot1, i.boot0 with | false, false => 2 | false, true => 0 | true, false => 1 | true, true => 3), 0, 0, b2n i.oscsel)
  else if code = 14 then (3, 0, 0, 0)
  else (free % 4, 0, 0, 0)

/-- The straps sampled and their effects put in force (R458 to R461): safe mode on code 14 and on BOOT 11. -/
def sampleStraps (i : ComeoutInput) (s : State) : State :=
  let r := sampleCode i.counts s
  let test := decide (r.1 = 12 ∨ r.1 = 13)
  let denied := test && rd s pgFuse R.FUSE_CFG_MFG_PERMIT == 0
  let code := if denied then 14 else r.1
  let s1 := if denied then recordErr pgStrap 1 none r.2.2 else r.2.2
  let d := drawFree s1
  let e := strapEffect code i d.1
  let s2 := wr pgStrap R.STRAP_CODE_CODE code (wr pgStrap R.STRAP_CODE_COUNT r.2.1 (wr pgStrap R.STRAP_CODE_LEGACY (b2n (code == 15))
    (if test && !denied then d.2 else s1)))
  let s3 := wr pgStrap R.STRAP_PINS_BOOT0 (b2n i.boot0) (wr pgStrap R.STRAP_PINS_BOOT1 (b2n i.boot1) (wr pgStrap R.STRAP_PINS_OSCSEL (b2n i.oscsel) s2))
  let s4 := wr pgStrap R.STRAP_EFFECT_BOOT_SRC e.1 (wr pgStrap R.STRAP_EFFECT_LANE_112 e.2.1
    (wr pgStrap R.STRAP_EFFECT_I3C_B e.2.2.1 (wr pgStrap R.STRAP_EFFECT_REFCLK e.2.2.2 (wr pgRst R.RST_BOOT_SOURCE e.1 s3))))
  let s5 := foldUpTo 32 (fun k t => wr (pgLink k) R.LINK_CTRL_LANE_112 e.2.1 t) s4
  if e.1 = 3 ∧ !(test && !denied) then enterSafe 0xFFFF s5 else s5

/-- The bytes of the retained SRAM (R463). -/
def retainedBytes (s : State) : List Nat := (List.range 16384).flatMap (fun i => bytesOf 4 (mapGet 0 s.retained i))

/-- The CRC of the retained SRAM checked at step 2 of a SUPPLY or MODULE come-out (R463). -/
def checkRetained (s : State) : State :=
  if s.rst.reach = 4 ∨ rd s pgRst R.RST_RET_STATUS_SEALED = 0 then s
  else if crc32c (retainedBytes s) = rd s pgRst R.RST_RET_CRC then wr pgRst R.RST_RET_STATUS_VALID 1 s
  else recordErr pgRst 2 none (wr pgRst R.RST_RET_STATUS_VALID 0 s)

/-- A come-out step completes. -/
def stepDone (k : Nat) (s : State) : State := wr pgRst R.RST_STATUS_STEP k s

/-- Step 2 (R453 to R455): rails up, straps sampled, self-check; the D2 path takes over where the D0 path fails, and
where both fail the module holds in reset. -/
def comeStep2 (i : ComeoutInput) (s : State) : State :=
  if !i.d0 && !i.d2 then
    wr pgRst R.RST_STATUS_COMEOUT 0 (modRst (fun x => { x with bothFail := true, held := true, pend := x.reach }) s)
  else
    let s1 := wr pgMgmt R.MGMT_STATUS_REF_OSC_OK 1 (wr pgMgmt R.MGMT_STATUS_MGMT_OSC_OK 1 s)
    let s2 := if i.d0 then s1
      else recordErr pgRst 3 none (wr pgMgmt R.MGMT_STATUS_PATH 1 (wr pgRst R.RST_STATUS_PATH 1 s1))
    stepDone 2 (sampleStraps i (checkRetained (comeoutHold s2)))

/-- The effective debug level (R464, R467). -/
def effLevel (s : State) : Nat := s.factory.level - popCount 3 (rd s pgFuse R.FUSE_CFG_DEBUG_LOWER)

/-- One field loaded from fuse sense or from the factory's calibration (R16). -/
def loadField (e : Nat × Nat) (s : State) : State :=
  match fieldFiled e.1 with
  | some (_, f) =>
    if f.src = .fuse ∨ f.src = .calib then
      let n := if f.stride = 0 then 0 else (e.1 / 64 % 16384 - f.off) / f.stride
      { s with regs := mapSet (resetOf f n) s.regs e.1 (e.2 % 2 ^ f.width) }
    else s
  | none => s

/-- A factory shift applied (R29, R52): the half-row's spare is in use. -/
def loadShift (e : Nat × Nat) (s : State) : State :=
  let p := pgDie (e.1 / 64)
  let k := e.1 % 64
  let s1 := if rdi s p R.DIE_REPAIR_USED k = 1 then s else wr p R.DIE_STATUS_SPARES_FREE (rd s p R.DIE_STATUS_SPARES_FREE - 1) s
  if rdi s p R.DIE_REPAIR_USED k = 1 ∧ rdi s p R.DIE_REPAIR_FACTORY k = 0 then s
  else wri p R.DIE_REPAIR_COL k e.2 (wri p R.DIE_REPAIR_USED k 1 (wri p R.DIE_REPAIR_FACTORY k 1 s1))

/-- What fuse sense loads (R16, R29, R453 step 3): the fields sensed or calibrated at the factory, the effective debug level,
the factory shifts. -/
def senseFuses (s : State) : State :=
  let s1 := { s.factory.sensed.foldl (fun t e => loadField e t) s with factory := { s.factory with sensed := [] } }
  s1.factory.shifts.foldl (fun t e => loadShift e t) (wr pgFuse R.FUSE_CFG_DEBUG_LEVEL (effLevel s1) s1)

/-- Step 3 (R453, R465): fuse sense; a failure is device-fatal, under the boot ROM's monitor (R454). -/
def comeStep3 (i : ComeoutInput) (s : State) : State :=
  let s1 := comeoutHold (bump pgFuse R.FUSE_CE_COUNT i.fuseRows (senseFuses s))
  let s2 := if 3 ≤ rd s1 pgFuse R.FUSE_CFG_DEBUG_LEVEL then wr pgSec R.SEC_STATUS_DEBUG_UNLOCKED 1 s1 else s1
  if i.fuseBad then
    stepDone 3 (wr pgRst R.RST_BOOT_MONITOR 1 (deviceFatal (errCode .fuse 0) (recordErr pgFuse 0 none s2)))
  else stepDone 3 s2

/-- The firmware object in a slot of the factory region (R471). -/
def fwSlot (s : State) (k : Nat) : List Nat := (mapFind s.factory.fw k).getD []

/-- The slots that an attempt may try, in order (R471). -/
def bootSlots (s : State) (source a : Nat) : List Nat :=
  let m := s.factory.fwMain % 2
  if source = 0 then [m, 1 - m, 2].drop a else [2]

/-- Firmware starts from an object (R453 step 4, R456). -/
def startFw (slot : Nat) (o : List Nat) (s : State) : State :=
  wr pgRst R.RST_BOOT_SLOT slot (wr pgMgmt R.MGMT_FW_VERSION (oVersion o) (wr pgMgmt R.MGMT_FW_SVN (oSvn o)
    (wr pgMgmt R.MGMT_STATUS_FW_RUNNING 1 { s with boot := { s.boot with fw := o } })))

/-- The slots tried in order: BOOT_IMAGE_BAD for each that fails R470; whether one has started. -/
def trySlots : List Nat → State → Bool × State
  | [], s => (false, s)
  | k :: ks, s => if fwOk s (fwSlot s k) then (true, startFw k (fwSlot s k) s) else trySlots ks (recordErr pgRst 0 none s)

/-- Safe mode's software (R456): the recovery image when it verifies, else the boot ROM's monitor. -/
def startSafe (s : State) : State :=
  if fwOk s (fwSlot s 2) then startFw 2 (fwSlot s 2) s else wr pgRst R.RST_BOOT_MONITOR 1 s

/-- LMS_LOW as the remaining indices give it (R483). -/
def lmsLow (s : State) : State := wr pgSec R.SEC_STATUS_LMS_LOW (b2n (s.factory.lmsOut || decide (2 ^ 40 - rd s pgSec R.SEC_LMS_NEXT < 2 ^ 32))) s

/-- The commit word that a come-out takes: of the slots that pass their CRC the one with the higher sequence (R209). -/
def commitWord (i : ComeoutInput) (s : State) : Option (Nat × Nat) :=
  match i.badSlot0, i.badSlot1 with
  | false, false => some (if s.quayWord0.1 < s.quayWord1.1 then s.quayWord1 else s.quayWord0)
  | false, true => some s.quayWord0
  | true, false => some s.quayWord1
  | true, true => none

/-- The directory copy that a commit word names put in force. -/
def takeCommit (w : Nat × Nat) (s : State) : State :=
  if w.2 = s.quayCopy then { s with quaySeq := w.1 }
  else { s with quayDir := s.quayOther, quayOther := s.quayDir, quaySeq := w.1, quayCopy := w.2 }

/-- What the management complex loads with the firmware's start: the quay directory (R209) and the LMS index (R477).
DESIGN CHOICE (log 84): with no valid commit word the copy last in force stays, with QUAY_DIR. -/
def loadFactory (i : ComeoutInput) (s0 : State) : State :=
  let s := match commitWord i s0 with
    | some w => takeCommit w s0
    | none => recordErr pgQuay 3 none s0
  let s1 := if i.dirBad then
      recordErr pgQuay 3 none { s with quayDir := s.quayOther, quayOther := [], quayCopy := 1 - s.quayCopy }
    else s
  let s2 := quayCounts (wr pgQuay R.QUAY_STATUS_DIR_COPY s1.quayCopy (wr pgQuay R.QUAY_STATUS_READY 1 s1))
  lmsLow (wr pgSec R.SEC_LMS_NEXT (rd s pgSec R.SEC_LMS_RESERVED) s2)

/-- Step 4 (R453, R456, R471, R472): an attempt that fails leaves the step to the next attempt; the third failure is
BOOT_FAIL_LIMIT, with safe mode. With boot source host it waits for the image. -/
def comeStep4 (i : ComeoutInput) (s0 : State) : State :=
  let s := if rd s0 pgQuay R.QUAY_STATUS_READY = 1 then s0 else loadFactory i s0
  let src := rd s pgRst R.RST_BOOT_SOURCE
  let a := rd s pgRst R.RST_BOOT_FAILS
  if rd s pgRst R.RST_BOOT_MONITOR = 1 then stepDone 4 s
  else if 3 ≤ a then stepDone 4 (startSafe (deviceFatal (errCode .rst 1) (recordErr pgRst 1 none s)))
  else if src = 3 then stepDone 4 (startSafe s)
  else
    let s1 := wr pgRst R.RST_BOOT_FAILS (a + 1) s
    if src = 2 then { wr pgHlink R.HLINK_STATUS_STATE 2 s1 with boot := { s1.boot with mailbox := true } }
    else
      let r := trySlots (bootSlots s1 src a) s1
      if r.1 then stepDone 4 r.2 else r.2

/-! ### Come-out, steps 5 to 9 -/

/-- Step 5 (R180, R191, R453): the stacks leave self-refresh and retrain; a channel that fails is DEGRADED, its data
lost. -/
def comeStep5 (i : ComeoutInput) (s : State) : State :=
  let bad := i.badChans.filter (fun c => decide (c < 256) && chState s c != 2)
  let s1 := foldUpTo 8 (fun k t =>
    wr (pgMemc k) R.MEMC_STATUS_SELF_REFRESH 0 (wr (pgMemc k) R.MEMC_STATUS_TRAINED 1
      (wr (pgMemc k) R.MEMC_STATUS_MAPOUT_PENDING (b2n ((List.range 32).any (fun c => chState t (k * 32 + c) == 1))) t))) s
  stepDone 5 (bad.foldl (fun t c => degrade c { t with chDead := mapSet false t.chDead c true }) s1)

/-- A core that fails self-test (R28, R31): repaired by its half-row's spare, else fenced and its block withdrawn. -/
def selfTestFail (c : Nat) (s : State) : State :=
  let p := pgDie (dieOfCore c)
  let s1 := bump p R.DIE_SELFTEST_FAILS 1 s
  if spareUsed s1 c then withdrawBlock c (setAudit c { auditOf s1 c with st := 4, out := false, due := false } s1)
  else recordErr p 0 none (shiftRow c false (setAudit c .zero s1))

/-- A die's bridges as training leaves them (R53); a failure is device-fatal. -/
def trainBridges (d : Nat) (badH badV : Bool) (s : State) : State :=
  let p := pgCanal d
  let s1 := wr p R.CANAL_STATUS_BRIDGE_H (b2n (!badH)) (wr p R.CANAL_STATUS_BRIDGE_V (b2n (!badV)) s)
  if badH || badV then deviceFatal (errCode .canal 2) (recordErr p 2 none s1) else s1

/-- Each collective engine resumes at the ring position that the tail tally gives (R300). -/
def collResume (s : State) : State :=
  let from_ (t : Nat) : List (Nat × Nat) := (List.range 4).map (fun d => (d, t + (d + 4 - t % 4) % 4))
  { s with ctxs := s.ctxs.map (fun e =>
      (e.1, if e.2.coll.log2n = 0 then e.2 else { e.2 with collNext := from_ (dramWord s e.2.coll.tail) })) }

/-- Step 7 (R53, R178, R453, R454): self-test of the cores, which zeroes their memories (R115, R145), known-answer tests,
bridges, spare mapping; SLOWDOWN_N acts from its end on (R457). -/
def comeStep7 (i : ComeoutInput) (s : State) : State :=
  let s1 := foldUpTo 4 (fun d t => wr (pgDie d) R.DIE_STATUS_SELFTEST_DONE 1 (wr (pgDie d) R.DIE_SELFTEST_FAILS 0 t))
    { s with cores := [] }
  let s2 := i.badCores.eraseDups.foldl (fun t (c : CoreIx) => selfTestFail c.val t) s1
  let s3 := foldUpTo 4 (fun d t => trainBridges d (i.badH.any (fun x => x.val == d)) (i.badV.any (fun x => x.val == d)) t) s2
  let s4 := wr pgRng R.RNG_STATUS_KAT_DONE 1 (wr pgRng R.RNG_STATUS_KAT_PASS (b2n i.rngOk)
    (if i.rngOk then s3 else deviceFatal (errCode .rng 0) (recordErr pgRng 0 none s3)))
  let s5 := if i.secOk then s4 else deviceFatal (errCode .sec 4) (recordErr pgSec 4 none s4)
  let s6 := stepDone 7 (collResume s5)
  if slowOn s6 then slowHold s6 else s6

/-- Step 8 (R453, R454, R506): the host link trains with full apertures; where it does not, the come-out continues. -/
def comeStep8 (i : ComeoutInput) (s : State) : State :=
  if rd s pgHlink R.HLINK_STATUS_STATE = 3 then stepDone 8 s
  else match i.hlink with
    | some (v, full) =>
      stepDone 8 (wr pgHlink R.HLINK_STATUS_VERSION v (wr pgHlink R.HLINK_STATUS_RATE_224 (b2n full)
        (wr pgHlink R.HLINK_STATUS_STATE 3 { s with hostHoles := i.holes })))
    | none => stepDone 8 (recordErr pgHlink 1 none (wr pgHlink R.HLINK_STATUS_STATE 0 s))

/-- Whether every enabled link is FENCED, UP or DOWN (R453), or up in Ethernet mode. -/
def linksSettled (s : State) : Bool :=
  (List.range 32).all (fun k => rd s (pgLink k) R.LINK_CTRL_ENABLE == 0 || linkState s k == 0 || decide (3 ≤ linkState s k))

/-- The requests that follow the come-out of a COMPUTE reset (R427): every training context that had a binding asks for
the replay of its lowest step without a report. -/
def askReplays (s : State) : State :=
  let s1 := modEmb (fun e => { e with hadBind := [] }) s
  s.emb.hadBind.foldl (fun t n => match ctxOf t n with
    | some x => if x.typ = 0 then stepFatal n 0 none t else t
    | none => t) s1

/-- The come-out ends (R408, R412, R451, R480): LAST_REACH, COMEOUT_TICKS, the event of a capture taken before it, an
election, and the replays that a COMPUTE reset asks for. -/
def comeoutEnd (s : State) : State :=
  let reach := s.rst.reach
  let s1 := wr pgRst R.RST_COMEOUT_TICKS s.rst.ticks (wr pgRst R.RST_STATUS_COMEOUT 0 (stepDone 9 s))
  let s2 := if reach = 0 then s1 else wr pgRst R.RST_LAST_REACH (4 - reach) s1
  let s3 := { s2 with stopAll := rd s pgEmb R.EMB_STATUS_SAFE == 1, lastCause := rd s pgRst R.RST_CAUSE, comeouts := s.comeouts + b2n (reach != 0) }
  let s4 := if s3.rst.capDone then hostEvent evCaptureDone pgEmb none 0 (modRst (fun x => { x with capDone := false }) s3) else s3
  askReplays (startElection s4)

/-- Step 9 (R453): completes when every enabled link is settled. -/
def comeStep9 (s : State) : State := if linksSettled s then comeoutEnd s else s

/-- Whether the next step waits: for the main supply from step 2 on (R501), for the host's image in step 4 (R472), for
COOLANT_OK from step 5 on (R454). -/
def stepWaits (s : State) : Bool :=
  let k := nextStep s
  (decide (2 ≤ k) && !s.pins.main) || s.boot.mailbox || (decide (5 ≤ k) && !s.pins.coolant)

/-- A source that asserted during the come-out starts a new pending reset at the end of the present step (R450). -/
def comeoutAgain (s : State) : State :=
  let r := s.rst.again
  tryRelease (takeHere (wr pgRst R.RST_STATUS_COMEOUT 0 (modRst (fun x => { x with pend := r, again := 0, held := false }) s)))

/-- The step of the come-out that comes next. -/
def runStep (i : ComeoutInput) (s : State) : State :=
  match nextStep s with
  | 1 => stepDone 1 s
  | 2 => comeStep2 i s
  | 3 => comeStep3 i s
  | 4 => comeStep4 i s
  | 5 => comeStep5 i s
  | 6 => stepDone 6 s
  | 7 => comeStep7 i s
  | 8 => comeStep8 i s
  | _ => comeStep9 s

/-- COMEOUT (R453): the next step of the come-out under way completes; where it waits, nothing does. A FULL come-out
whose step 2 waited for the 48 V supply goes on as one of SUPPLY reach (R501). -/
def comeout (i : ComeoutInput) (s : State) : State :=
  if rd s pgRst R.RST_STATUS_COMEOUT = 0 then s
  else if stepWaits s then
    (if s.rst.again ≠ 0 then comeoutAgain s
     else if s.rst.reach = 4 ∧ nextStep s = 2 then modRst (fun x => { x with reach := 3 }) s
     else s)
  else
    let s1 := runStep i s
    if s.rst.again ≠ 0 ∧ !s1.rst.held then comeoutAgain s1 else s1

/-- COMEOUT (R453). -/
def execComeout (i : ComeoutInput) (s : State) : Host.Outcome State Fault Refusal := .next (settled (comeout i s))

/-! ### Host boot (R472) -/

/-- HOST_BOOT_IMAGE (R472): the length arrives in the boot mailbox and the boot ROM verifies the image. -/
def hostBootImage (len : Nat) (img : List Byte) (s : State) : State :=
  if !s.boot.mailbox ∨ rd s pgRst R.RST_STATUS_COMEOUT = 0 then s
  else
    let o := (objNats img).take len
    let s1 := { s with boot := { s.boot with mailbox := false } }
    if fwOk s o && decide (len ≤ 2 ^ 24 - 8) then stepDone 4 (startFw 3 o (wr pgHlink R.HLINK_STATUS_STATE 0 s1))
    else recordErr pgRst 0 none (wr pgHlink R.HLINK_STATUS_STATE 0 s1)

/-- HOST_BOOT_IMAGE (R472). -/
def execHostBootImage (len : Nat) (img : List Byte) (s : State) : Host.Outcome State Fault Refusal := .next (hostBootImage len img s)

/-- BOOT_MAILBOX_TIMEOUT (R472): no length has arrived within 10 s; the attempt fails. -/
def mailboxTimeout (s : State) : State :=
  if s.boot.mailbox then { wr pgHlink R.HLINK_STATUS_STATE 0 s with boot := { s.boot with mailbox := false } } else s

/-- BOOT_MAILBOX_TIMEOUT (R472). -/
def execBootMailboxTimeout (s : State) : Host.Outcome State Fault Refusal := .next (mailboxTimeout s)

/-! ### What the firmware writes of RST (R456, R463, R480) -/

/-- BOOT.FW_OK written 1 (R456): set, and FAILS cleared. -/
def setFwOk (s : State) : State := wr pgRst R.RST_BOOT_FAILS 0 (wr pgRst R.RST_BOOT_FW_OK 1 s)

/-- BOOT.FAILS_CLR (R456). -/
def clrFails (s : State) : State := wr pgRst R.RST_BOOT_FAILS 0 s

/-- FW_OK (R456): the firmware writes it, on the management path. -/
def execFwOk (s : State) : Host.Outcome State Fault Refusal := .next (access .mgmt pgRst setFwOk s)

/-- FAILS_CLR (R456): the host driver writes it. -/
def execFailsClr (s : State) : Host.Outcome State Fault Refusal := .next (access .host pgRst clrFails s)

/-- KICK (R480): the firmware restarts the watchdog's period; how far it has run is no state of the model, whose WATCHDOG
command says that it has expired. -/
def execKick (s : State) : Host.Outcome State Fault Refusal := .next (access .mgmt pgRst (fun t => t) s)

/-- A write of RET_DATA (R463, R480): the word at RET_ADDR, which advances; SEALED is cleared. -/
def putRetained (v : Nat) (s : State) : State :=
  let a := rd s pgRst R.RST_RET_ADDR
  wr pgRst R.RST_RET_STATUS_SEALED 0 (wr pgRst R.RST_RET_ADDR (a + 1) { s with retained := mapSet 0 s.retained a (v % 2 ^ 32) })

/-- RET_DATA (R480): a read or a write. -/
def execRetData (p : Path) (wr' : Bool) (v : Word) (s : State) : Host.Outcome State Fault Refusal :=
  .next (access p pgRst (fun t =>
    if wr' then putRetained v.toNat t
    else
      let r := readOff (pathCode p) pgRst 0x184 t
      { r.2 with reply := ⟨r.1, 0, false⟩ }) s)

/-- RET_CTRL.SEAL (R463): the CRC is begun. -/
def beginSeal (s : State) : State := { s with boot := { s.boot with sealing := true } }

/-- SEAL (R463). -/
def execSeal (p : Path) (s : State) : Host.Outcome State Fault Refusal := .next (access p pgRst beginSeal s)

/-- SEAL_COMPLETE (R463): the CRC-32C of the whole retained SRAM, and SEALED. -/
def sealComplete (s : State) : State :=
  if !s.boot.sealing then s
  else wr pgRst R.RST_RET_CRC (crc32c (retainedBytes s)) (wr pgRst R.RST_RET_STATUS_SEALED 1 { s with boot := { s.boot with sealing := false } })

/-- SEAL_COMPLETE (R463). -/
def execSealComplete (s : State) : Host.Outcome State Fault Refusal := .next (sealComplete s)

/-! ### Power states (R394, R395) -/

/-- A wake from SLEEP: the come-out of a SUPPLY reset runs. -/
def wakeSleep (b : Nat) (s : State) : State :=
  if !s.pins.coolant ∨ !s.pins.main then modPower (fun p => { p with wake := some b }) s
  else beginComeout (modRst (fun x => { x with pend := 3 }) (supplyReset .supply (wakeCause b s)))

/-- A wake of cause `b` (R55: 0 the pin, 1 I3C) in the present power state; one that comes while the module is on its way
into STANDBY or SLEEP acts there. -/
def wake (b : Nat) (s : State) : State :=
  let st := rd s pgPwr R.PWR_STATUS_STATE
  match s.power.target with
  | some t => if 2 ≤ t then modPower (fun p => { p with wake := some b }) s else s
  | none =>
    if rd s pgRst R.RST_STATUS_COMEOUT = 1 ∨ s.rst.held then s
    else if st = 3 then wakeSleep b s
    else if st = 2 then wakeStandby b s
    else s

/-- The wake that waits is tried again: the coolant or the 48 V supply is back, or the state has been entered. -/
def retryWake (s : State) : State := match s.power.wake with | some b => wake b s | none => s

/-- The links as IDLE, STANDBY and ACTIVE leave them (R394). -/
def linksIdle (s : State) : State := foldUpTo 32 (fun k t => fenceLink k t) s
def linksOff (s : State) : State := foldUpTo 32 (fun k t => dropLink k t) s
def linksBack (s : State) : State := foldUpTo 32 (fun k t => tryUp k t) s

/-- What STANDBY loses (R179, R394): cores and arrays lose their contents, the stacks are in self-refresh, links off. -/
def enterStandby (s : State) : State :=
  foldUpTo 8 (fun k t => wr (pgMemc k) R.MEMC_STATUS_SELF_REFRESH 1 t) (linksOff { s with cores := [], stopAll := true })

/-- POWER_TRANSITION_DONE (R395): the state asked for is entered; a way back to ACTIVE from STANDBY ends after its
come-out. -/
def transitionDone (s : State) : State :=
  match s.power.target with
  | none => s
  | some t =>
    if t = 0 ∧ rd s pgRst R.RST_STATUS_COMEOUT = 1 then s
    else
      let w := s.power.wake
      let s1 := wr pgPwr R.PWR_STATUS_TRANSITION 0 (wr pgPwr R.PWR_STATUS_STATE t (modPower (fun p => { p with target := none }) s))
      if t = 0 then linksBack s1
      else if t = 1 then linksIdle s1
      else if t = 2 then retryWake (enterStandby s1)
      else
        let s2 := wr pgPwr R.PWR_STATUS_STATE 3 (supplyReset .supply s1)
        retryWake (modPower (fun p => { p with wake := w }) s2)

/-- POWER_TRANSITION_DONE (R395). -/
def execPowerTransitionDone (s : State) : Host.Outcome State Fault Refusal := .next (settled (transitionDone s))

/-- WAKE (R55, R395): the pin's level; asserted, it wakes from STANDBY and SLEEP where WAKE_PIN_EN is 1, and from IDLE. -/
def wakePin (level : Bool) (s : State) : State :=
  let s1 := { s with pins := { s.pins with wake := level } }
  if !level then s1
  else if rd s pgPwr R.PWR_STATUS_STATE = 1 ∧ s.power.target = none then beginState 0 (wakeCause 0 s1)
  else if rd s pgAon R.AON_CTRL_WAKE_PIN_EN = 1 then wake 0 s1
  else s1

/-- WAKE (R395). -/
def execWake (level : Bool) (s : State) : Host.Outcome State Fault Refusal := .next (wakePin level s)

/-- I3C_WAKE (R503): from SLEEP or STANDBY, where I3C_WAKE_EN is 1; ignored in other states. -/
def i3cWake (s : State) : State :=
  if rd s pgAon R.AON_CTRL_I3C_WAKE_EN = 1 ∧ 2 ≤ rd s pgPwr R.PWR_STATUS_STATE then wake 1 s else s

/-- I3C_WAKE (R503). -/
def execI3cWake (s : State) : Host.Outcome State Fault Refusal := .next (i3cWake s)

/-- POWER_LOSS (R440): the input falls, or is back, and a wake from SLEEP that waited for it begins. -/
def execPowerLoss (lost : Bool) (s : State) : Host.Outcome State Fault Refusal :=
  .next (if lost then powerLoss true s else retryWake (powerLoss false s))

/-- COOLANT_OK_ASSERTED (R443, R454): the pin; a reset that waited in safe mode takes effect, and a wake that waited
begins. Come-out steps 5 and later may run again. -/
def coolantBack (s : State) : State :=
  let s1 := { s with pins := { s.pins with coolant := true } }
  let s2 := if s.rst.pend ≠ 0 ∧ !s.rst.held ∧ coolantHeld s.rst.pend s ∧ s.rst.capture.isNone ∧ !s.boot.pfail then
      tryRelease (takeHere s1) else s1
  retryWake s2

/-- COOLANT_OK_ASSERTED (R454). -/
def execCoolantOkAsserted (s : State) : Host.Outcome State Fault Refusal := .next (coolantBack s)

end Sys2Proof.Machine
end

