-- ==== Sys2Proof/Machine/CoreCtl.lean ====
section
/-!
DEFINITION. The CTL, LOOP and AGEN instructions of a core (R82 to R89).
-/

namespace Sys2Proof.Machine

/-- The stream a core passes control to: the ready segment of highest priority, BWD, FWD, AUX (R85). -/
def nextReady (k : Core) (but : Option Nat) : Option Nat :=
  [1, 0, 2].find? (fun st => (mapFind k.res st).isSome && some st != but)

/-- The state of one stream saved and another's restored (R85). -/
def passTo (st : Nat) (k : Core) : Core :=
  let saved := match k.cur with | some o => mapPut k.saved o k.seq | none => k.saved
  { k with saved := mapDel saved st, seq := (mapFind saved st).getD .zero, cur := some st }

/-- Whether the polder of a core waits for its cores to reach a switch point of context `n` (R358). -/
def switchAsked (s : State) (k : Core) : Bool :=
  match k.ctx with
  | some n => let p := mapGet PolState.zero s.pols k.polder; p.phase == 1 && p.cur == some n
  | none => false

/-- At a switch point or segment end, a core whose polder is switching stops there (R84, R358). -/
def meetSwitch (c : Nat) (s : State) : State :=
  if switchAsked s (coreOf s c) then modCore c (fun k => { k with atSwitch := true, stopIssue := true }) s else s

/-- NOP (R82). Words that no row of the table spells (a reserved CLASS, OP or vector FUNC, R78, R106) come as this row
too, and raise ILLEGAL_INSN. -/
def execNop (c : CoreIx) (w : DWord) (s : State) : Host.Outcome State Fault Refusal :=
  let reservedWord := decide (10 ≤ wClass w) || (wClass w == 0 && decide (7 ≤ wOp w)) || (wClass w == 1 && decide (2 ≤ wOp w)) ||
    (wClass w == 2 && decide (6 ≤ wOp w)) || (wClass w == 3 && decide (14 ≤ wOp w)) || (wClass w == 4 && decide (4 ≤ wOp w)) ||
    (wClass w == 5 && decide (10 ≤ wOp w)) || (wClass w == 6 && decide (2 ≤ wOp w)) || (wClass w == 7 && decide (5 ≤ wOp w)) ||
    (wClass w == 8 && decide (1 ≤ wOp w)) || (wClass w == 9 && decide (1 ≤ wOp w)) ||
    (wClass w == 5 && wOp w == 0 && decide (14 ≤ fld w 37 6)) || (wClass w == 5 && wOp w == 1 && decide (11 ≤ fld w 37 6)) ||
    (wClass w == 5 && wOp w == 2 && decide (4 ≤ fld w 37 6))
  coreCmd ((wClass w == 0 && wOp w == 0) || reservedWord)
    (issue false c w (fun s => coreCheck c 0 w (reservedWord || !onlyFields w [(0, 8)]) s (retire c id)) s)

/-- The entry of a context's stream that core `c` has passed SEGEND of (R83, R352). -/
def reportEnd (c n st : Nat) (s : State) : State :=
  modCtx n (fun x => { x with started := x.started.map (fun e =>
    if e.stream = st ∧ !e.ended then { e with left := e.left.filter (fun i => i != c) } else e) }) s

/-- A segment's end on a core (R83): booking released to class 0, tally slots cancelled, the end reported; then the
ready segment of highest priority, if any, takes over (R85), and the core's boundary has come (R67). -/
def segmentEnd (c : Nat) (s : State) : State :=
  let k := coreOf s c
  match k.cur with
  | none => s
  | some st =>
    let s1 := lowerCore c 0 s
    let s2 := modCore c (fun k =>
      let k1 := { noWaits k with ran := true, slots := [], res := mapDel k.res st, saved := mapDel k.saved st, cur := none }
      match nextReady k1 none with
      | some o => passTo o k1
      | none => { k1 with seq := { SeqState.zero with pc := k1.seq.pc } }) s1
    let s3 := countCore c 0x02 1 (countCore c 0x01 1 s2)
    let s4 := match k.ctx with | some n => reportEnd c n st s3 | none => s3
    meetSwitch c (coreBoundary c s4)

/-- SEGEND (R83): waits until every instruction of the segment has retired, then ends it. -/
def doSegend (c : Nat) (s : State) : State :=
  let k := coreOf s c
  if k.queue.isEmpty && k.drain.isNone && k.nmoves.isEmpty then segmentEnd c s
  else holdIssue c id s

/-- SEGEND (R83). -/
def execSegend (c : CoreIx) (w : DWord) (s : State) : Host.Outcome State Fault Refusal :=
  coreCmd (wClass w == 0 && wOp w == 1)
    (issue false c w (fun s => coreCheck c 0 w (!onlyFields w [(0, 8)]) s (doSegend c)) s)

/-- SWP (R84, R85): the live set declared; with YIELD, control passes to the ready segment of highest priority. -/
def doSwp (c : Nat) (w : DWord) (s : State) : State :=
  let s1 := retire c (fun k => { k with liveKib := fld w 12 9, liveBase := fld w 21 8, accLive := fld w 29 2 }) s
  let k := coreOf s1 c
  let s2 := if fld w 31 1 = 1 then
      (match nextReady k k.cur with
       | some st => countCore c 0x04 1 (modCore c (passTo st) s1)
       | none => s1)
    else s1
  meetSwitch c s2

/-- SWP (R84). -/
def execSwp (c : CoreIx) (w : DWord) (s : State) : Host.Outcome State Fault Refusal :=
  coreCmd (wClass w == 0 && wOp w == 2)
    (issue false c w (fun s =>
      coreCheck c 0 w (!onlyFields w [(0, 8), (12, 20)] || decide (256 < fld w 21 8 + fld w 12 9)) s (doSwp c w)) s)

/-- A branch (R82, R87): taken where `cond` holds, to TARGET, which must lie in the segment's image. DESIGN CHOICE
(log 69): with IMAGE_LEN = 0 the image has no bound of its own. -/
def doBranch (c : Nat) (w : DWord) (cond : Core → Bool) (s : State) : State :=
  let k := coreOf s c
  let t := fld w 12 12
  if cond k then
    let seg := k.cur.bind (mapFind k.res)
    let outside := match seg with | some g => g.len != 0 && !(decide (g.idx ≤ t ∧ t < g.idx + g.len)) | none => true
    coreCheck c 1 w outside s (fun s =>
      countCore c 0x03 1 (countCore c 0x01 1 (modCore c (fun k => branchTo t (noWaits k)) s)))
  else retire c id s

/-- BR (R82). -/
def execBr (c : CoreIx) (w : DWord) (s : State) : Host.Outcome State Fault Refusal :=
  coreCmd (wClass w == 0 && wOp w == 3)
    (issue false c w (fun s => coreCheck c 0 w (!onlyFields w [(0, 8), (12, 12)]) s (doBranch c w (fun _ => true))) s)

/-- BRZ (R82). -/
def execBrz (c : CoreIx) (w : DWord) (s : State) : Host.Outcome State Fault Refusal :=
  coreCmd (wClass w == 0 && wOp w == 4)
    (issue false c w (fun s => coreCheck c 0 w (!onlyFields w [(0, 8), (12, 17)]) s
      (doBranch c w (fun k => xget k (fld w 24 5) == 0#64))) s)

/-- BRNZ (R82). -/
def execBrnz (c : CoreIx) (w : DWord) (s : State) : Host.Outcome State Fault Refusal :=
  coreCmd (wClass w == 0 && wOp w == 5)
    (issue false c w (fun s => coreCheck c 0 w (!onlyFields w [(0, 8), (12, 17)]) s
      (doBranch c w (fun k => xget k (fld w 24 5) != 0#64))) s)

/-- BRLT (R82): signed. -/
def execBrlt (c : CoreIx) (w : DWord) (s : State) : Host.Outcome State Fault Refusal :=
  coreCmd (wClass w == 0 && wOp w == 6)
    (issue false c w (fun s => coreCheck c 0 w (!onlyFields w [(0, 8), (12, 22)]) s
      (doBranch c w (fun k => (xget k (fld w 24 5)).slt (xget k (fld w 29 5))))) s)

/-- A hardware loop of `count` runs whose body ends at END (R86, R87): a fifth level, or an END not after the loop or
beyond the enclosing body, faults; a count of 0 goes on at END + 1. DESIGN CHOICE (log 70): where that END is also the
enclosing body's, the enclosing loop turns. -/
def doLoop (c : Nat) (w : DWord) (count last : Nat) (s : State) : State :=
  let k := coreOf s c
  let outer := match k.seq.loops with | l :: _ => decide (l.last < last) | [] => false
  coreCheck c 2 w (decide (4 ≤ k.seq.loops.length)) s (fun s =>
    coreCheck c 3 w (decide (last ≤ k.seq.pc) || outer) s (fun s =>
      if count = 0 then
        countCore c 0x01 1 (modCore c (fun k =>
          let r := loopNext k.seq.loops last
          { noWaits k with ran := true, seq := { k.seq with loops := r.1, pc := r.2 } }) s)
      else
        countCore c 0x01 1 (modCore c (fun k =>
          { noWaits k with ran := true, seq := { k.seq with loops := ⟨k.seq.pc + 1, last, count⟩ :: k.seq.loops, pc := k.seq.pc + 1 } }) s)))

/-- LOOP (R86). -/
def execLoop (c : CoreIx) (w : DWord) (s : State) : Host.Outcome State Fault Refusal :=
  coreCmd (wClass w == 1 && wOp w == 0)
    (issue false c w (fun s => coreCheck c 0 w (!onlyFields w [(0, 8), (12, 36)]) s (doLoop c w (fld w 12 24) (fld w 36 12))) s)

/-- LOOPR (R86): COUNT from bits [31:0] of X[XA]. -/
def execLoopr (c : CoreIx) (w : DWord) (s : State) : Host.Outcome State Fault Refusal :=
  coreCmd (wClass w == 1 && wOp w == 1)
    (issue false c w (fun s => coreCheck c 0 w (!onlyFields w [(0, 8), (12, 5), (36, 12)]) s
      (fun s => doLoop c w (xnat (coreOf s c) (fld w 12 5) % 2 ^ 32) (fld w 36 12) s)) s)

/-- An AGEN operation: AG must be 0 to 5 and the word have only the fields `fs`; `f` sets the generator (R89). -/
def doAgen (c : Nat) (w : DWord) (fs : List (Nat × Nat)) (bad : Bool) (f : Core → AGen → AGen) (s : State) : State :=
  let ag := fld w 12 3
  coreCheck c 0 w (!onlyFields w ((0, 8) :: (12, 3) :: fs) || decide (6 ≤ ag) || bad) s
    (retire c (fun k => agSet ag { f k (agOf k ag) with i0 := 0, i1 := 0 } k))

/-- BASE (R89). -/
def execBase (c : CoreIx) (w : DWord) (s : State) : Host.Outcome State Fault Refusal :=
  coreCmd (wClass w == 2 && wOp w == 0)
    (issue false c w (doAgen c w [(18, 18)] false (fun _ g => { g with base := fld w 18 18 })) s)

/-- DIM0 (R89). -/
def execDim0 (c : CoreIx) (w : DWord) (s : State) : Host.Outcome State Fault Refusal :=
  coreCmd (wClass w == 2 && wOp w == 1)
    (issue false c w (doAgen c w [(18, 34)] false
      (fun _ g => { g with stride0 := signedOf 18 (fld w 18 18), count0 := fld w 36 16 })) s)

/-- DIM1 (R89). -/
def execDim1 (c : CoreIx) (w : DWord) (s : State) : Host.Outcome State Fault Refusal :=
  coreCmd (wClass w == 2 && wOp w == 2)
    (issue false c w (doAgen c w [(18, 34)] false
      (fun _ g => { g with stride1 := signedOf 18 (fld w 18 18), count1 := fld w 36 16 })) s)

/-- WRAP (R89): a window that ends beyond 0x4_0000 is illegal. -/
def execWrap (c : CoreIx) (w : DWord) (s : State) : Host.Outcome State Fault Refusal :=
  coreCmd (wClass w == 2 && wOp w == 3)
    (issue false c w (doAgen c w [(18, 37)] (decide (0x40000 < fld w 18 18 + fld w 36 19))
      (fun _ g => { g with wbase := fld w 18 18, wsize := fld w 36 19 })) s)

/-- RESET (R89). -/
def execReset (c : CoreIx) (w : DWord) (s : State) : Host.Outcome State Fault Refusal :=
  coreCmd (wClass w == 2 && wOp w == 4) (issue false c w (doAgen c w [] false (fun _ g => g)) s)

/-- BASER (R89). -/
def execBaser (c : CoreIx) (w : DWord) (s : State) : Host.Outcome State Fault Refusal :=
  coreCmd (wClass w == 2 && wOp w == 5)
    (issue false c w (doAgen c w [(16, 5)] false (fun k g => { g with base := xnat k (fld w 16 5) % 2 ^ 18 })) s)

end Sys2Proof.Machine
end

