-- ==== Sys2Proof/Machine/Secure.lean ====
section
/-!
DEFINITION. The root of trust in service (R464 to R479): blowing field fuses, SVN advance, enrolment of an owner,
attestation, and the unlock of debug.
-/

namespace Sys2Proof.Machine

/-! ### Field fuses (R464, R468, R473, R474)

A field fuse bit is numbered through the fields of R464 in their order: DEBUG_LOWER 0 to 2, HOST_CLOSED 3 to 8, QP_OWNER,
QP_NO_MORNEL and QP_LOCKED 9 to 11, REVOKED 12 to 15, the owner keys 16 to 783 and 784 to 1551, SVN_FW 1552 to 1615,
SVN_IMG 1616 to 1679; 1680 and 1681 mark the owner slots as programmed. -/

/-- The thermometer or mask `v` with a bit set. -/
def orBit (v i : Nat) : Nat := v ||| 2 ^ i


/-- A key bit of an owner slot set: bit `i` of its 96 bytes. -/
def setKeyBit (slot i : Nat) (s : State) : State :=
  let k := slot * 24 + i / 32
  { s with factory := { s.factory with keys := mapSet 0 s.factory.keys k (orBit (mapGet 0 s.factory.keys k) (i % 32)) } }

/-- One field fuse blown. -/
def blowBit (i : Nat) (s : State) : State :=
  let put (f : RegField) (k : Nat) : State := wr pgFuse f (orBit (rd s pgFuse f) k) s
  if i < 3 then
    let s1 := put R.FUSE_CFG_DEBUG_LOWER i
    wr pgFuse R.FUSE_CFG_DEBUG_LEVEL (effLevel s1) s1
  else if i < 9 then put R.FUSE_CFG_HOST_CLOSED (i - 3)
  else if i < 12 then put R.FUSE_CFG_QP (i - 9)
  else if i < 16 then put R.FUSE_CFG_REVOKED (i - 12)
  else if i < 784 then setKeyBit 2 (i - 16) s
  else if i < 1552 then setKeyBit 3 (i - 784) s
  else if i < 1616 then put R.FUSE_SVN_FW (i - 1552)
  else if i < 1680 then put R.FUSE_SVN_IMG (i - 1616)
  else if i < 1682 then put R.FUSE_CFG_OWNER_SET (i - 1680)
  else s

/-- Programming of a set of bits begins (R482). -/
def beginProg (bits : List Nat) (s : State) : State :=
  wr pgFuse R.FUSE_PROG_STATUS_BUSY 1 { s with boot := { s.boot with prog := bits } }

/-- A refused fuse write (R468). -/
def progDenied (s : State) : State := recordErr pgFuse 1 none s

/-- Whether a revocation object admits blowing bit `i` (R468): it names that slot, is signed by a live slot of the same
party, and another slot of the party stays live. -/
def revokeAdmits (s : State) (o : List Nat) (i : Nat) : Bool :=
  let k := Config.revokedSlot (oBody o)
  objOk s 5 o && decide (k < 4) && i == 12 + k && oSlot o / 2 == k / 2 && slotLive s (k / 2 * 2 + (1 - k % 2))

/-- Whether a policy object admits blowing bit `i` (R468): it names this module and only bits that a policy may set. -/
def policyAdmitsBit (s : State) (o : List Nat) (i : Nat) : Bool :=
  let bits := Config.policyBits (oBody o)
  objOk s 6 o && Config.policyDevice (oBody o) == s.factory.deviceId &&
    bits.all (fun b => decide (b < 9) || b == 10 || b == 11) && bits.contains i

/-- A write of FUSE.PROG by the management complex (R468), executing the object `o`. -/
def progBit (bit : Nat) (o : List Nat) (s : State) : State :=
  let s1 := wr pgFuse R.FUSE_PROG_BIT bit s
  if rd s pgFuse R.FUSE_PROG_STATUS_BUSY = 1 then s1
  else if revokeAdmits s o bit || policyAdmitsBit s o bit then beginProg [bit] s1
  else progDenied s1

/-- Whether a path may write PROG and SVN_ADVANCE (R482). -/
def progPath (p : Path) : Bool := match p with | .mgmt => true | .host => false

/-- PROG (R468). -/
def execProg (p : Path) (bit : Nat) (obj : List Byte) (s : State) : Host.Outcome State Fault Refusal :=
  .next (access p pgFuse (fun t => if progPath p then progBit (bit % 4096) (objNats obj) t else t) s)

/-- The highest SVN among the images in the directory in force (R475). -/
def topSvn (s : State) : Nat := s.quayDir.foldl (fun a e => max a e.2.svn) 0

/-- SVN_ADVANCE.GO (R473, R475): each floor rises to its target, never past the running image's SVN, or the highest in
the directory; only once FW_OK is set. -/
def svnAdvance (fw img : Nat) (s : State) : State :=
  if rd s pgFuse R.FUSE_PROG_STATUS_BUSY = 1 then s
  else if rd s pgRst R.RST_BOOT_FW_OK = 0 then progDenied s
  else
    let f := min (min 64 fw) (rd s pgMgmt R.MGMT_FW_SVN)
    let i := min (min 64 img) (topSvn s)
    beginProg (((List.range f).filter (fun b => !bitSet (rd s pgFuse R.FUSE_SVN_FW) b)).map (1552 + ·) ++
      ((List.range i).filter (fun b => !bitSet (rd s pgFuse R.FUSE_SVN_IMG) b)).map (1616 + ·)) s

/-- A write of FUSE.SVN_ADVANCE (R482). -/
def svnWrite (v : Nat) (s : State) : State :=
  let s1 := wr pgFuse R.FUSE_SVN_ADVANCE_FW (bitsOf v 0 7) (wr pgFuse R.FUSE_SVN_ADVANCE_IMG (bitsOf v 8 7) s)
  if bitSet v 31 then svnAdvance (bitsOf v 0 7) (bitsOf v 8 7) s1 else s1

/-- SVN_ADVANCE (R473). -/
def execSvnAdvance (p : Path) (v : Word) (s : State) : Host.Outcome State Fault Refusal :=
  .next (access p pgFuse (fun t => if progPath p then svnWrite v.toNat t else t) s)

/-- The bits of a byte list, by number. -/
def bitsOfBytes (bs : List Nat) : List Nat := (List.range (8 * bs.length)).filter (fun i => bitSet (bs.getD (i / 8) 0) (i % 8))

/-- OWNER_ENROL (R474): the firmware blows the key hashes in the first owner slot that is not programmed, and QP_OWNER;
refused once both are. -/
def ownerEnrol (q : EnrolReq) (s : State) : State :=
  let set := rd s pgFuse R.FUSE_CFG_OWNER_SET
  if rd s pgMgmt R.MGMT_STATUS_FW_RUNNING = 0 ∨ rd s pgFuse R.FUSE_PROG_STATUS_BUSY = 1 then s
  else if set = 3 then secError 2 s
  else
    let slot := if bitSet set 0 then 1 else 0
    let key := (objNats q.ecdsa).take 48 ++ (objNats q.hss).take 48
    beginProg ((bitsOfBytes key).map (16 + 768 * slot + ·) ++ [1680 + slot, 9]) s

/-- OWNER_ENROL (R474). -/
def execOwnerEnrol (q : EnrolReq) (s : State) : Host.Outcome State Fault Refusal := .next (ownerEnrol q s)

/-- FUSE_PROG_COMPLETE (R482): every bit is blown, or one did not blow, which is FUSE_PROG_FAIL, and the others stand;
which one is open. -/
def fuseProgComplete (blown : Bool) (s : State) : State :=
  if rd s pgFuse R.FUSE_PROG_STATUS_BUSY = 0 then s
  else
    let bits := s.boot.prog
    let d := drawFree s
    let s1 := wr pgFuse R.FUSE_PROG_STATUS_BUSY 0 { (if blown then s else d.2) with boot := { s.boot with prog := [] } }
    let done := if blown then bits else bits.eraseIdx (d.1 % bits.length)
    let s2 := done.foldl (fun t b => blowBit b t) s1
    if blown then s2 else recordErr pgFuse 2 none s2

/-- FUSE_PROG_COMPLETE (R482). -/
def execFuseProgComplete (blown : Bool) (s : State) : Host.Outcome State Fault Refusal := .next (fuseProgComplete blown s)

/-! ### Attestation (R476 to R479) -/

/-- The last index of the HSS key, and the count of indices (R477). -/
def lmsCount : Nat := 2 ^ 40

/-- The next index taken for a signature (R477): RESERVED is committed 256 on before an index at or past it is used. -/
def takeIndex (s : State) : Nat × State :=
  let q := rd s pgSec R.SEC_LMS_NEXT
  let s1 := if rd s pgSec R.SEC_LMS_RESERVED ≤ q then wr pgSec R.SEC_LMS_RESERVED (min (q + 256) (lmsCount - 1)) s else s
  let s2 := if q + 1 = lmsCount then { s1 with factory := { s1.factory with lmsOut := true } } else wr pgSec R.SEC_LMS_NEXT (q + 1) s1
  (q, lmsLow (bump pgSec R.SEC_SIGS 1 s2))

/-- `n` bytes of a list of numbers. -/
def nBytes (n : Nat) (l : List Nat) : List Nat := (List.range n).map (fun i => l.getD i 0 % 256)

/-- The readable fuse fields, in the order of R464, each in whole bytes. -/
def fuseBytes (s : State) : List Nat :=
  let g (f : RegField) (n : Nat) : List Nat := bytesOf n (rd s pgFuse f)
  g R.FUSE_CFG_DEBUG_LEVEL 1 ++ g R.FUSE_CFG_DEBUG_LOWER 1 ++ g R.FUSE_CFG_MFG_PERMIT 1 ++ g R.FUSE_CFG_HOST_CLOSED 1 ++
    g R.FUSE_CFG_QP 1 ++ (List.range 4).flatMap (slotKey s) ++ g R.FUSE_CFG_REVOKED 1 ++ g R.FUSE_SVN_FW 8 ++ g R.FUSE_SVN_IMG 8

/-- The quay directory in force as bytes. -/
def dirBytes (s : State) : List Nat :=
  s.quayDir.flatMap (fun e => bytesOf 8 e.1 ++ bytesOf 4 e.2.id ++ bytesOf 4 e.2.ver ++ bytesOf 8 e.2.base ++ bytesOf 8 e.2.len ++ bytesOf 4 e.2.svn)

/-- Bytes 152 to 159 of a report. -/
def attFlags (s : State) : Nat :=
  rd s pgFuse R.FUSE_CFG_DEBUG_LEVEL + rd s pgSec R.SEC_STATUS_DEBUG_UNLOCKED * 2 ^ 2 + rd s pgFuse R.FUSE_CFG_QP * 2 ^ 3 +
    rd s pgFuse R.FUSE_CFG_HOST_CLOSED * 2 ^ 6 + rd s pgFuse R.FUSE_CFG_REVOKED * 2 ^ 12 + rd s pgRst R.RST_BOOT_SOURCE * 2 ^ 16 +
    rd s pgRst R.RST_BOOT_SLOT * 2 ^ 18 + rd s pgRst R.RST_STATUS_PATH * 2 ^ 20 + rd s pgStrap R.STRAP_CODE_CODE * 2 ^ 21

/-- The first 280 bytes of a report (R478). -/
def attHead (s : State) (q : Nat) (nonce : List Nat) : List Nat :=
  bytesOf 4 1 ++ bytesOf 4 6092 ++ bytesOf 8 q ++ nBytes 32 nonce ++ nBytes 48 s.factory.deviceId ++
    nBytes 48 (Config.sha384 (oBody s.boot.fw)) ++ bytesOf 4 (rd s pgMgmt R.MGMT_FW_SVN) ++ bytesOf 4 (rd s pgMgmt R.MGMT_FW_VERSION) ++
    bytesOf 8 (attFlags s) ++ nBytes 48 (Config.sha384 (fuseBytes s)) ++ bytesOf 4 (svnFw s) ++ bytesOf 4 (svnImg s) ++
    nBytes 48 (Config.sha384 (dirBytes s)) ++ bytesOf 8 s.lastCause ++ bytesOf 8 s.comeouts

/-- The whole report (R478): the ECDSA signature is over D, the HSS signature over its 48 bytes. -/
def attReport (s : State) (q : Nat) (nonce : List Nat) : List Nat :=
  let h := attHead s q nonce
  let d := Config.sha384 h
  h ++ nBytes 96 (Config.sigMake 0 0 d) ++ nBytes 5716 (Config.sigMake 1 q d)

/-- A request refused (R477, R483). -/
def attRefused (s : State) : State := wr pgSec R.SEC_ATT_RESULT_CODE 2 (wr pgSec R.SEC_ATT_RESULT_LENGTH 0 s)

/-- Whether a request's bytes lie in backed device DRAM, 64-byte aligned (R478). -/
def attPlace (s : State) (n : Nat) : Bool :=
  let a := rd s pgSec R.SEC_ATT_ADDR
  a % 64 == 0 && (List.range ((n + 63) / 64)).all (fun i => backed s (a + 64 * i) 1)

/-- A request begins: BUSY, with what will be written. -/
def attBegin (bs : List Nat) (s : State) : State :=
  wr pgSec R.SEC_STATUS_BUSY 1 (wr pgSec R.SEC_ATT_RESULT_CODE 0 { s with boot := { s.boot with att := some (rd s pgSec R.SEC_ATT_ADDR, bs) } })

/-- ATT_REQ with KIND 0 (R478). -/
def askReport (s : State) : State :=
  if rd s pgSec R.SEC_STATUS_BUSY = 1 then s
  else if s.factory.lmsOut then attRefused (secError 3 s)
  else if !attPlace s 6092 then attRefused s
  else
    let a := rd s pgSec R.SEC_ATT_ADDR
    let nonce := dramRead s a 32
    let r := takeIndex (dramFetch a 32 none none s)
    attBegin (attReport s r.1 nonce) r.2

/-- ATT_REQ with KIND 1 (R478): the TYPE 3 certificates, one after another. -/
def askCerts (s : State) : State :=
  let bs := s.factory.certs.flatMap (fun o => o)
  if rd s pgSec R.SEC_STATUS_BUSY = 1 then s
  else if !attPlace s bs.length then attRefused s
  else attBegin bs s

/-- ATT_REPORT (R478). -/
def execAttReport (p : Path) (s : State) : Host.Outcome State Fault Refusal := .next (access p pgSec askReport s)

/-- ATT_CERTIFICATES (R478). -/
def execAttCertificates (p : Path) (s : State) : Host.Outcome State Fault Refusal := .next (access p pgSec askCerts s)

/-- ATT_COMPLETE (R478): what was asked for is written at the address; ATT_RESULT is 1; no event. -/
def attComplete (s : State) : State :=
  match s.boot.att with
  | none => s
  | some (a, bs) =>
    let s1 := dramWrite a bs false { s with boot := { s.boot with att := none } }
    wr pgSec R.SEC_STATUS_BUSY 0 (wr pgSec R.SEC_ATT_RESULT_CODE 1 (wr pgSec R.SEC_ATT_RESULT_LENGTH ((bs.length + 63) / 64) s1))

/-- ATT_COMPLETE (R478). -/
def execAttComplete (s : State) : Host.Outcome State Fault Refusal := .next (settled (attComplete s))

/-! ### Debug unlock (R467, R470) -/

/-- The token object at DBG_TOKEN; none where its length passes device DRAM's. -/
def tokenAt (s : State) : Option (List Nat) :=
  let a := rd s pgSec R.SEC_DBG_TOKEN
  let n := 8192 + oNum (dramRead s (a + 24) 8) 0 8
  if a + n ≤ 2 ^ 39 then some (dramRead s a n) else none

/-- Whether a token unlocks this module now. -/
def tokenOk (s : State) (o : List Nat) : Bool :=
  objOk s 4 o && decide (2 ≤ rd s pgFuse R.FUSE_CFG_DEBUG_LEVEL) && Config.tokenDevice (oBody o) == s.factory.deviceId &&
    Config.tokenNonce (oBody o) == rd s pgSec R.SEC_DBG_NONCE

/-- DBG_UNLOCK.GO (R467, R470): the token is verified, and a fresh nonce drawn after the attempt. -/
def dbgUnlock (s : State) : State :=
  if rd s pgSec R.SEC_STATUS_BUSY = 1 then s
  else
    let s1 := match tokenAt s with
      | some o => if tokenOk s o then wr pgSec R.SEC_STATUS_DEBUG_UNLOCKED 1 s else secError 0 s
      | none => secError 0 s
    wr pgSec R.SEC_DBG_NONCE (Config.nonce s1.free) { s1 with free := s1.free + 1 }

/-- DBG_UNLOCK (R470). -/
def execDbgUnlock (p : Path) (s : State) : Host.Outcome State Fault Refusal := .next (access p pgSec dbgUnlock s)

end Sys2Proof.Machine
end

