-- ==== Sys2Proof/Machine/Count.lean ====
section
/-!
DEFINITION. The Philox evaluator (R178), event selections and their freeze (R485, R489), and precise samples (R491 to
R493).
-/

namespace Sys2Proof.Machine

/-! ### The evaluator -/

/-- EV_GO (R178): ignored while an evaluation is in progress. -/
def evGo (s : State) : State :=
  if rd s pgRng R.RNG_STATUS_EV_BUSY = 1 then s
  else
    let k := rd s pgRng R.RNG_EV_KEY
    let c (n : Nat) : Nat := rdi s pgRng R.RNG_EV_CTR n
    let w := philox (k % 2 ^ 32) (k / 2 ^ 32 % 2 ^ 32) (c 0) (c 1) (c 2) (c 3)
    wr pgRng R.RNG_STATUS_EV_BUSY 1 { s with evOut := (List.range 4).foldl (fun a i => a + philoxPick w i * 2 ^ (32 * i)) 0 }

/-- EV_GO (R178). -/
def execEvGo (p : Path) (s : State) : Host.Outcome State Fault Refusal := .next (access p pgRng evGo s)

/-- EV_COMPLETE (R178): EV_OUT loads. -/
def evComplete (s : State) : State :=
  if rd s pgRng R.RNG_STATUS_EV_BUSY = 0 then s
  else wr pgRng R.RNG_STATUS_EV_BUSY 0 (foldUpTo 4 (fun i t => wri pgRng R.RNG_EV_OUT i (bitsOf s.evOut (32 * i) 32) t) s)

/-- EV_COMPLETE (R178). -/
def execEvComplete (s : State) : Host.Outcome State Fault Refusal := .next (evComplete s)

/-! ### Event selections -/

/-- What a write of a PERF register does besides (R485, R489): a selection that applies on acceptance zeroes its
counter; FREEZE is in effect at once. -/
def perfHook (p : Page) (b : Nat) (s : State) : State :=
  if b = 0x10 then wr p R.PERF_STATUS_FROZEN (rd s p R.PERF_CTRL_FREEZE) s
  else if 0x100 ≤ b ∧ b < 0x140 then zeroCounter p R.PERF_EVT_CNT ((b - 0x100) / 4) s
  else s

/-- A write of event selection `i` of a page (R484, R485): applied on acceptance on a PERF page, held for the boundary
on the others. -/
def writeSel (g : Page) (i v : Nat) (s : State) : State :=
  match counterRows g.cls with
  | some (sel, _, n) =>
    if i < n then writeReg (fun p b _ t => if p.cls = .perf then perfHook p b t else t) (headPage g) (sel.off + 4 * i) v (2 ^ 32 - 1) s else s
  | none => s

/-- EVT_SEL (R485). -/
def execEvtSel (p : Path) (g : Page) (i : Nat) (v : Word) (s : State) : Host.Outcome State Fault Refusal :=
  .next (access p g (writeSel g i v.toNat) s)

/-- FREEZE (R489): every counter of the PERF page stops, or counts again. -/
def freeze (g : Page) (on : Bool) (s : State) : State :=
  if g.cls = .perf then writeReg (fun p b _ t => perfHook p b t) g 0x10 (b2n on) 1 s else s

/-- FREEZE (R489). -/
def execFreeze (p : Path) (g : Page) (on : Bool) (s : State) : Host.Outcome State Fault Refusal := .next (access p g (freeze g on) s)

/-! ### Samples -/

/-- The records of a die's sample ring (R496). -/
def smpRing (s : State) (p : Page) : Nat := 2 ^ clampNat 4 24 (rd s p R.SAMPLE_BUF_LOG2N)

/-- Whether the sample ring is 64-byte aligned in sections that no polder owns (R493). -/
def smpRingOk (s : State) (p : Page) : Bool :=
  let a := rd s p R.SAMPLE_BUF_BASE
  let z := a + 64 * smpRing s p
  a % 64 == 0 && decide (z ≤ 2 ^ 39) &&
    (List.range ((z - 1) / 2 ^ 30 + 1 - a / 2 ^ 30)).all (fun i => s.polTab.all (fun e => !polderSect s e.1 (a / 2 ^ 30 + i)))

/-- What a write of a SAMPLE register does besides (R493, R496): EN is checked as it becomes 1; a TAIL that makes room
ends FULL. -/
def sampleHook (p : Page) (b : Nat) (s : State) : State :=
  if b = 0x10 then
    if rd s p R.SAMPLE_CTRL_EN = 0 then wr p R.SAMPLE_STATUS_ACTIVE 0 s
    else if rd s p R.SAMPLE_STATUS_ACTIVE = 1 then s
    else if smpRingOk s p then { wr p R.SAMPLE_STATUS_ACTIVE 1 s with smpSeq := mapSet 0 s.smpSeq p.inst 0 }
    else recordErr p 0 none (wr p R.SAMPLE_CTRL_EN 0 s)
  else if b = 0x128 ∧ (rd s p R.SAMPLE_HEAD + 2 ^ 64 - rd s p R.SAMPLE_TAIL) % 2 ^ 64 < smpRing s p then wr p R.SAMPLE_STATUS_FULL 0 s
  else s

/-- SAMPLE_ENABLE (R493): a write of SAMPLE.CTRL. -/
def execSampleEnable (p : Path) (d : DieIx) (v : Word) (s : State) : Host.Outcome State Fault Refusal :=
  .next (access p (pgSample d) (writeReg (fun g b _ t => sampleHook g b t) (pgSample d) 0x10 v.toNat (2 ^ 32 - 1)) s)

/-- Whether the retirement is one that the sampler of the die takes (R491). -/
def smpEligible (s : State) (d : Nat) (x : SampleInput) : Bool :=
  let p := pgSample d
  rd s p R.SAMPLE_CTRL_EN == 1 && dieOfCore x.core == d &&
    bitSet (rd s p R.SAMPLE_BLOCK_MASK) (x.core.val / 128 % 32 / 8 * 8 + x.core.val % 64 / 8) &&
    bitSet (rd s p R.SAMPLE_CLASS_MASK) (wClass x.word) &&
    (rd s p R.SAMPLE_CTRL_CTX_EN == 0 || (coreOf s x.core).ctx == some (rd s p R.SAMPLE_CTRL_CONTEXT))

/-- The eight words of a record (R492). -/
def smpWords (s : State) (x : SampleInput) (seq : Nat) : List Nat :=
  let k := coreOf s x.core
  let r := regionOfCore x.core
  [tickOf s,
   x.core.val + x.pc % 2 ^ 12 * 2 ^ 13 + k.ctx.getD 0 % 64 * 2 ^ 25 + (match coreStep k with | some t => 2 ^ 31 + t % 2 ^ 32 * 2 ^ 32 | none => 0),
   x.word.toNat,
   x.mb % 2 ^ 20 + k.cur.getD 0 % 4 * 2 ^ 20 + min x.latency (2 ^ 24 - 1) * 2 ^ 22 + x.cause % 2 ^ 7 * 2 ^ 46,
   x.addr % 2 ^ 48,
   k.g % 8 + rd s (pgSluice r) R.SLUICE_STATUS_ADMIT % 128 * 2 ^ 3 + rdi s pgPwr R.PWR_VSET (dieOfCore x.core) * 2 ^ 10 +
     wrapInt 16 (regionTemp s r) * 2 ^ 20,
   seq, x.held % 2 ^ 32]

/-- SAMPLE_TAKE (R491 to R493): one sample per die and local tick, a later one of that tick is skipped; a full ring
keeps its records, or loses its oldest. -/
def sampleTake (d : Nat) (x : SampleInput) (s : State) : State :=
  let p := pgSample d
  if !smpEligible s d x then s
  else if mapFind s.smpTick d = some (tickOf s) then bumpSat p R.SAMPLE_SKIPPED 1 s
  else
    let seq := mapGet 0 s.smpSeq d + 1
    let s1 := { s with smpTick := mapPut s.smpTick d (tickOf s), smpSeq := mapSet 0 s.smpSeq d seq }
    let h := rd s p R.SAMPLE_HEAD
    let full := decide (smpRing s p ≤ (h + 2 ^ 64 - rd s p R.SAMPLE_TAIL) % 2 ^ 64)
    if full && rd s p R.SAMPLE_CTRL_OVERWRITE == 0 then bumpSat p R.SAMPLE_LOST 1 (wr p R.SAMPLE_STATUS_FULL 1 s1)
    else
      let s2 := if full then bumpSat p R.SAMPLE_LOST 1 s1 else s1
      bump p R.SAMPLE_HEAD 1 (dramWrite (rd s p R.SAMPLE_BUF_BASE + h % smpRing s p * 64) ((smpWords s x seq).flatMap (fun w => bytesOf 8 w)) false s2)

/-- SAMPLE_TAKE (R491). -/
def execSampleTake (d : DieIx) (smp : SampleInput) (s : State) : Host.Outcome State Fault Refusal := .next (sampleTake d smp s)

end Sys2Proof.Machine
end

