-- ==== Sys2Proof/Machine/LinkCtl.lean ====
section
/-!
DEFINITION. Link training and negotiation (R274, R278 to R281), the watches of a link (R405, R411), the link's boundary
(R67, R279), and the rows of the collectives.
-/

namespace Sys2Proof.Machine

/-! ### Training (R278) -/

/-- A link's mode (R308): 0 native, 1 pod, 2 Ethernet. -/
def linkMode (s : State) (k : Nat) : Nat := rd s (pgLink k) R.LINK_CTRL_MODE

/-- Whether the come-out has reached the link PHYs (R278, R453 step 6). -/
def phyReady (s : State) : Bool := !s.rst.held && decide (6 ≤ rd s pgRst R.RST_STATUS_STEP)

/-- The rate at which a link first trains: 0 for 224, 1 for 112 Gbit/s (R278). -/
def firstRate (s : State) (k : Nat) : Nat := rd s (pgLink k) R.LINK_CTRL_LANE_112

/-- LINK_TRAIN_START (R278): a link that is DOWN, enabled and not held by a block reset begins to train. -/
def trainStart (k : Nat) (s : State) : State :=
  if rd s (pgLink k) R.LINK_CTRL_ENABLE = 0 ∨ !phyReady s ∨ s.inReset.contains (pageKey (pgLink k)) ∨ linkState s k ≠ 0 then s
  else
    modLink k (fun l => { l with phase := 1, sensed := false, tries224 := 0, tries112 := 0, chosen := if l.retrain then l.chosen else firstRate s k })
      (wr (pgLink k) R.LINK_STATUS_STATE 1 s)

/-- LINK_TRAIN_START (R278). -/
def execLinkTrainStart (k : LinkIx) (s : State) : Host.Outcome State Fault Refusal := .next (trainStart k s)

/-- An attempt goes on from phase `p` to the next. -/
def nextPhase (k p : Nat) (s : State) : State :=
  if linkState s k = 1 ∧ (linkOf s k).phase = p then modLink k (fun l => { l with phase := p + 1 }) s else s

/-- SIGNAL_DETECT (R278): all four lanes see a partner. -/
def signalDetect (k : Nat) (s : State) : State :=
  let s1 := nextPhase k 1 s
  if linkState s k = 1 then modLink k (fun l => { l with sensed := true }) s1 else s1

/-- SIGNAL_DETECT (R278). -/
def execSignalDetect (k : LinkIx) (s : State) : Host.Outcome State Fault Refusal := .next (signalDetect k s)

/-- EQUALISATION_COMPLETE (R278). -/
def execEqualisationComplete (k : LinkIx) (s : State) : Host.Outcome State Fault Refusal := .next (nextPhase k 2 s)

/-- The capability word that this module sends on a link (R280). -/
def localCaps (s : State) (k : Nat) : Nat :=
  2 + 2 ^ 4 + (1 - rd s (pgLink k) R.LINK_CTRL_LANE_112) * 2 ^ 5 + 2 ^ 6 + 2 ^ 7 + 2 ^ 8 + 2 ^ 9 + 2 ^ 10 +
    rd s (pgLink k) R.LINK_CTRL_SPREAD_ADV * 2 ^ 11 + 2 ^ 12 + myId s * 2 ^ 16 + k % 32 * 2 ^ 32

/-- FEC_LOCK (R278, R306): a native link negotiates; an Ethernet link is up. -/
def fecLock (k : Nat) (s : State) : State :=
  if linkState s k ≠ 1 ∨ (linkOf s k).phase ≠ 3 then s
  else if linkMode s k = 2 then modLink k (fun l => { l with phase := 0, retrain := false }) (wr (pgLink k) R.LINK_STATUS_STATE 5 s)
  else modLink k (fun l => { l with phase := 4 })
    (wr (pgLink k) R.LINK_LOCAL_CAPS (localCaps s k) (wr (pgLink k) R.LINK_STATUS_STATE 2 s))

/-- FEC_LOCK (R278). -/
def execFecLock (k : LinkIx) (s : State) : Host.Outcome State Fault Refusal := .next (fecLock k s)

/-- The credit word that this module sends (R280): CRED n = 128 for every VC, in pairs of frames. -/
def localCred : Nat := (List.range 8).foldl (fun a n => a + 128 * 2 ^ (8 * n)) 0

/-- CAPS_SEND (R280): the two words sent while NEGOTIATING, and once after a change of CTRL. -/
def capsSend (k : Nat) (s : State) : State :=
  let st := linkState s k
  if 2 ≤ st ∧ st ≤ 4 then
    ctlSent k 16 (modLink k (fun l => { l with capsOut := some (localCaps s k, localCred) })
      (wr (pgLink k) R.LINK_LOCAL_CAPS (localCaps s k) s))
  else s

/-- CAPS_SEND (R280). -/
def execCapsSend (k : LinkIx) (s : State) : Host.Outcome State Fault Refusal := .next (capsSend k s)

/-- CAPS_MISMATCH (R274), once this module has its id: the link stays FENCED. -/
def capsCheck (k : Nat) (s : State) : State :=
  if embOn s && (linkState s k == 3 || linkState s k == 2) && rd s (pgLink k) R.LINK_PARTNER_CAPS != 0 then
    checked (pgLink k) 6 (!partnerFits s k) (recordErr (pgLink k) 6 none) (fun t => t) s
  else s

/-- A link that cannot train goes DOWN (R278, R281): LINK_TRAIN_FAIL, or for a retrain LINK_DOWN with the loss of what
its replay buffer held (R277). -/
def trainFail (k : Nat) (s : State) : State :=
  dropLink k (recordErr (pgLink k) (if (linkOf s k).retrain then 0 else 1) none s)

/-- The last attempt of a training is lost. A link whose partner slot is empty, where no attempt found a signal, is DOWN
with no error (R274; log 87). -/
def attemptsOver (k : Nat) (s : State) : State :=
  if (linkOf s k).sensed ∨ (linkOf s k).retrain then trainFail k s else dropLink k s

/-- The version that two version fields resolve to: none where one is reserved. -/
def versionOf (v : Nat) : Option Nat := if v = 1 ∨ v = 2 then some v else none

/-- CAPS (R281): what the two ends share is resolved; a lower rate retrains; else credits begin and the link is FENCED. -/
def capsIn (k c0 c1 : Nat) (s : State) : State :=
  let st := linkState s k
  if st < 2 ∨ 4 < st then s
  else
    let s1 := ctlGot k 16 (wr (pgLink k) R.LINK_PARTNER_CAPS c0 s)
    if st ≠ 2 then s1
    else
      let own := localCaps s k
      let both (b : Nat) : Bool := bitSet own b && bitSet c0 b
      match versionOf (bitsOf c0 0 4) with
      | none => trainFail k s1
      | some v =>
        let hi := both 5 && v == 2
        if !hi && !both 4 then trainFail k s1
        else if !both 6 && !both 7 then trainFail k s1
        else if !hi && (linkOf s k).chosen == 0 then
          modLink k (fun l => { l with phase := 1, chosen := 1 }) (wr (pgLink k) R.LINK_STATUS_STATE 1 s1)
        else
          let put (f : RegField) (b : Bool) (u : State) : State := wr (pgLink k) f (b2n b) u
          let s2 := put R.LINK_STATUS_RATE_224 (hi && (linkOf s k).chosen == 0) (wr (pgLink k) R.LINK_STATUS_VERSION v
            (put R.LINK_STATUS_FEC_528 (!both 6) (put R.LINK_STATUS_ORDERED (both 8) (put R.LINK_STATUS_TALLY_OPS (both 9)
              (put R.LINK_STATUS_EMB_V2 (both 10) (wr (pgLink k) R.LINK_PARTNER_CRED c1 s1))))))
          let s3 := modLink k (fun l =>
              if l.retrain then { l with phase := 0, retrain := false }
              else { LinkSt.zero with chosen := l.chosen, warden := l.warden })
            (wr (pgLink k) R.LINK_STATUS_RETRYING 0 (wr (pgLink k) R.LINK_STATUS_STATE 3 s2))
          let s4 := capsCheck k s3
          tryUp k s4

/-- CAPS (R281). -/
def execCaps (k : LinkIx) (c0 c1 : DWord) (s : State) : Host.Outcome State Fault Refusal :=
  .next (settled (capsIn k c0.toNat c1.toNat s))

/-- TRAINING_TIMEOUT (R278): the attempt is lost; a FEC lock missed at 224 Gbit/s, and the third attempt there, fall back
to 112; the third at the last rate takes the link DOWN. -/
def trainingTimeout (k : Nat) (s : State) : State :=
  let st := linkState s k
  if st ≠ 1 ∧ st ≠ 2 then s
  else
    let l := linkOf s k
    let again (f : LinkSt → LinkSt) : State := modLink k (fun l => { f l with phase := 1 }) (wr (pgLink k) R.LINK_STATUS_STATE 1 s)
    if l.chosen = 0 ∧ linkMode s k ≠ 2 then
      if l.phase = 3 ∨ 2 ≤ l.tries224 then again (fun l => { l with tries224 := l.tries224 + 1, chosen := 1 })
      else again (fun l => { l with tries224 := l.tries224 + 1 })
    else if 2 ≤ l.tries112 then attemptsOver k s
    else again (fun l => { l with tries112 := l.tries112 + 1 })

/-- TRAINING_TIMEOUT (R278). -/
def execTrainingTimeout (k : LinkIx) (s : State) : Host.Outcome State Fault Refusal := .next (settled (trainingTimeout k s))

/-- LANE_LOSS (R275): the link goes DOWN to train again; what its replay buffer holds is kept while it does (R277). -/
def laneLoss (k : Nat) (s : State) : State :=
  if linkState s k = 0 ∨ linkState s k = 5 then s
  else if linkUp s k then beginRetrain k 0 s
  else dropLink k s

/-- LANE_LOSS (R275). -/
def execLaneLoss (k : LinkIx) (s : State) : Host.Outcome State Fault Refusal := .next (settled (laneLoss k s))

/-! ### Watches (R405, R411) -/

/-- LIVENESS (R411): a LIVENESS frame of module `src` is a frame received. -/
def execLiveness (k : LinkIx) (src : Nat) (s : State) : Host.Outcome State Fault Refusal :=
  .next (if linkEmb s k && (partnerOf s k == some src || rd s (pgLink k) R.LINK_PARTNER_CAPS == 0) then ctlGot k 0 s else s)

/-- LIVENESS_SEND (R411). -/
def execLivenessSend (k : LinkIx) (s : State) : Host.Outcome State Fault Refusal :=
  .next (if linkEmb s k then ctlSent k 0 s else s)

/-- LIVE_TIMEOUT (R411, R414). -/
def execLiveTimeout (k : LinkIx) (s : State) : Host.Outcome State Fault Refusal := .next (settled (liveTimeout k s))

/-- CREDIT_STARVE (R405): on an UP link where a frame of the VC waits for a credit; the link goes DOWN and retrains. -/
def creditStarve (k vc : Nat) (s : State) : State :=
  if linkUp s k && (linkOf s k).txq.any (fun f => frameVc f.hdr == vc && !mayCredit s k vc f.cls) then
    linkRetrain k 0 (recordEmb 2 none s)
  else s

/-- CREDIT_STARVE (R405). -/
def execCreditStarve (k : LinkIx) (vc : Fin 8) (s : State) : Host.Outcome State Fault Refusal :=
  .next (settled (creditStarve k vc s))

/-- HELLO_SEND (R410). -/
def execHelloSend (k : LinkIx) (s : State) : Host.Outcome State Fault Refusal := .next (helloSend k s)

/-! ### The link's boundary (R67, R279) -/

/-- The boundary of a LINK page: its pending values apply; ENABLE = 0 takes the link DOWN, FENCE holds or releases it. -/
def linkBoundary (k : Nat) (s : State) : State :=
  let s0 := boundary (pgLink k) s
  let s1 := if 64 < rd s0 (pgLink k) R.LINK_ETH_QP_COUNT then wr (pgLink k) R.LINK_ETH_QP_COUNT 64 s0 else s0
  if rd s1 (pgLink k) R.LINK_CTRL_ENABLE = 0 then (if linkState s1 k = 0 then s1 else dropLink k s1)
  else if linkMode s1 k ≠ linkMode s k then (if linkState s1 k = 0 then s1 else dropLink k s1)
  else if rd s1 (pgLink k) R.LINK_CTRL_FENCE = 1 then fenceLink k s1
  else tryUp k s1

/-! ### Collectives (R301, R303) -/

/-- REDUCE_SEND (R303). -/
def execReduceSend (n : CtxIx) (s : State) : Host.Outcome State Fault Refusal := .next (settled (reduceSend n s))

/-- GATHER (R301). -/
def execGather (n : CtxIx) (s : State) : Host.Outcome State Fault Refusal := .next (settled (gatherSend n s))

end Sys2Proof.Machine
end

