-- ==== Sys2Proof/Machine/Eth.lean ====
section
/-!
DEFINITION. Ethernet mode (R306, R307): queue pairs and their work requests, and the checkpoint writes that use them
(R430 to R432).
-/

namespace Sys2Proof.Machine

/-- A queue pair's context in memory (R307). -/
def qpAddr (s : State) (k q : Nat) : Nat := rd s (pgLink k) R.LINK_ETH_QP_BASE + 128 * q
def qpWords (s : State) (k q : Nat) : List Nat := dramWords s (qpAddr s k q) 8

/-- The queue pairs that a link has: larger counts apply as 64 (R308). -/
def qpCount (s : State) (k : Nat) : Nat := min 64 (rd s (pgLink k) R.LINK_ETH_QP_COUNT)

/-- Whether a queue pair of an Ethernet link is ready. -/
def qpReady (s : State) (k q : Nat) : Bool :=
  let w := qpWords s k q
  linkState s k == 5 && decide (q < qpCount s k) && wf w 0 0 1 == 1 && wf w 0 1 2 == 1

/-- A queue pair's state in the link engine. -/
def qpOf (s : State) (k q : Nat) : QpSt := mapGet .zero (linkOf s k).qps q

/-- Replace a queue pair's state. -/
def setQp (k q : Nat) (x : QpSt) (s : State) : State := modLink k (fun l => { l with qps := mapSet .zero l.qps q x }) s

/-- QP_POLL (R307): the tail word of a ready queue pair is read. -/
def qpPoll (k q : Nat) (s : State) : State :=
  if !qpReady s k q then s
  else
    let a := wf (qpWords s k q) 2 0 48
    setQp k q { qpOf s k q with tail := dramWord s a } (dramFetch a 8 none none s)

/-- QP_POLL (R307). -/
def execQpPoll (k : LinkIx) (q : Nat) (s : State) : Host.Outcome State Fault Refusal := .next (qpPoll k q s)

/-- SQ_HEAD of a queue pair. -/
def qpHead (s : State) (k q : Nat) : Nat := wf (qpWords s k q) 3 0 32

/-- The work request at the head of a queue pair's ring. -/
def qpRequest (s : State) (k q : Nat) : List Nat :=
  let w := qpWords s k q
  dramWords s (wf w 1 0 48 + qpHead s k q % 2 ^ wf w 0 9 4 * 64) 8

/-- Whether a ready queue pair has a request to begin: its tail is past its head, none runs, no checkpoint write goes
first. -/
def qpWaits (s : State) (k q : Nat) : Bool :=
  qpReady s k q && (qpOf s k q).busy == 0 && decide ((qpOf s k q).tail % 2 ^ 32 ≠ qpHead s k q) &&
    !s.ckpts.any (fun c => c.link == k && c.qp == q)

/-- Whether a request's local bytes lie in the sections of the queue pair's context. -/
def qpAccess (s : State) (k q a n : Nat) : Bool :=
  match ctxOf s (wf (qpWords s k q) 0 3 6) with
  | some x => inSections s x.polder a n && granBacked s a n
  | none => false

/-- The queue pair stops (R307): a transport error moves it to STATE 2. -/
def qpError (k q bit : Nat) (s : State) : State :=
  let n := wf (qpWords s k q) 0 3 6
  let s1 := if bit = 9 then dramPutWord (qpAddr s k q) (putBits (dramWord s (qpAddr s k q)) 1 2 2) s else s
  ctxFatal n (errCode .link bit) (recordErr (pgLink k) bit (if (ctxOf s n).isSome then some n else none)
    (setQp k q { qpOf s k q with busy := 3 } s1))

/-- RDMA_WRITE (R306, R307): the request at the head sends its bytes of device DRAM. -/
def rdmaWrite (k q : Nat) (s : State) : State :=
  if !qpWaits s k q then s
  else
    let r := qpRequest s k q
    if wf r 0 0 2 ≠ 0 then s
    else if !qpAccess s k q (wf r 1 0 48) (wf r 2 0 32) then qpError k q 10 s
    else setQp k q { qpOf s k q with busy := 1 } (dramFetch (wf r 1 0 48) (wf r 2 0 32) (some (wf (qpWords s k q) 0 3 6)) none s)

/-- RDMA_WRITE (R306). -/
def execRdmaWrite (k : LinkIx) (q : Nat) (s : State) : Host.Outcome State Fault Refusal := .next (settled (rdmaWrite k q s))

/-- RDMA_READ (R306, R307): the request at the head reads `d` from storage into device DRAM; bytes past its length are
not taken. -/
def rdmaRead (k q : Nat) (d : List Byte) (s : State) : State :=
  if !qpWaits s k q then s
  else
    let r := qpRequest s k q
    let len := wf r 2 0 32
    if wf r 0 0 2 ≠ 1 ∨ d.length < len then s
    else if !qpAccess s k q (wf r 1 0 48) len then qpError k q 10 s
    else setQp k q { qpOf s k q with busy := 2 } (dramWrite (wf r 1 0 48) ((d.take len).map (fun b => b.toNat)) false s)

/-- RDMA_READ (R306). -/
def execRdmaRead (k : LinkIx) (q : Nat) (d : List Byte) (s : State) : Host.Outcome State Fault Refusal :=
  .next (settled (rdmaRead k q d s))

/-! ### Checkpoints (R430 to R432) -/

/-- The commit record of a member for checkpoint step `t` (R431). -/
def commitRecord (s : State) (n t : Nat) (x : Ctx) : List Nat :=
  let idx := (x.place.bind (memberIdx s)).getD 0
  let cnt (i : Nat) : Nat := match bindOn s n i with | some b => urd s R.UPD_BIND_OPT_COUNT b % 2 ^ 32 | none => 0
  let crc := (bindsOf s n).foldl (fun a e => a ^^^ urd s R.UPD_BIND_SHARD_CRC e.1) 0
  let ws := [x.job % 2 ^ 16 + idx % 2 ^ 16 * 2 ^ 16 + t % 2 ^ 32 * 2 ^ 32] ++ (List.range 6).map (fun i => blockWord s x (8 + i)) ++
    (List.range 4).map (fun i => cnt (2 * i) + cnt (2 * i + 1) * 2 ^ 32) ++ [crc, 0, 0, 0]
  ws ++ [crc64 (ws.flatMap (bytesOf 8))]

/-- Whether every binding of a member has decided a step and has no write of it unacknowledged. -/
def ckptWritten (s : State) (n t : Nat) : Bool :=
  !(s.ckpts.any (fun c => c.ctx == n)) && (bindsOf s n).all (fun e => stepLe t e.2.passed && e.2.ckptWait.isEmpty)

/-- The commit record posted once every binding's writes are acknowledged (R431). -/
def postCommit (n t : Nat) (s : State) : State :=
  match ctxOf s n with
  | some x =>
    if ckptWritten s n t then
      { s with ckpts := s.ckpts ++ [⟨ckptLink s n, rdi s pgEmb R.EMB_CKPT_QP n, n, 0, none, t, commitRecord s n t x⟩] }
    else s
  | none => s

/-- A checkpoint write acknowledged (R430, R431): a part's wait ends; the commit record completes the checkpoint. -/
def ckptDone (c : CkptPost) (s : State) : State :=
  let s1 : State := { s with ckpts := s.ckpts.erase c }
  match c.part with
  | some p =>
    let s2 := modBind c.bind (fun b => { b with ckptWait := b.ckptWait.filter (· != p) }) s1
    postCommit c.ctx c.step s2
  | none => hostEvent evCkptDone pgEmb (some c.ctx) c.step (wri pgEmb R.EMB_CKPT_LAST_STEP c.ctx c.step s1)

/-- A checkpoint write failed (R432): CKPT_FAIL, the checkpoint dropped and the engines' waits released. -/
def ckptFail (c : CkptPost) (s : State) : State :=
  let s1 := (bindsOf s c.ctx).foldl (fun t e => modBind e.1 (fun b => { b with ckptWait := [] }) t)
    { s with ckpts := s.ckpts.filter (fun d => d.ctx != c.ctx) }
  recordEmb 10 (some c.ctx) s1

/-- RDMA_COMPLETE (R307, R430 to R432): the oldest checkpoint write of the queue pair, else the request at its head, ends.
A checkpoint write's error is contained (R432) and recorded on the link. -/
def rdmaComplete (k q : Nat) (r : RdmaResult) (s : State) : State :=
  if linkState s k ≠ 5 then s
  else match s.ckpts.find? (fun c => c.link == k && c.qp == q) with
  | some c =>
    (match r with
     | .done => ckptDone c s
     | .transport => ckptFail c (recordErr (pgLink k) 9 (some c.ctx)
         (dramPutWord (qpAddr s k q) (putBits (dramWord s (qpAddr s k q)) 1 2 2) (setQp k q { qpOf s k q with busy := 3 } s)))
     | .access => ckptFail c (recordErr (pgLink k) 10 (some c.ctx) (setQp k q { qpOf s k q with busy := 3 } s)))
  | none =>
    let x := qpOf s k q
    if x.busy ≠ 1 ∧ x.busy ≠ 2 then s
    else match r with
      | .transport => qpError k q 9 s
      | .access => qpError k q 10 s
      | .done =>
        let a := wf (qpRequest s k q) 5 0 48
        let h := qpAddr s k q + 24
        let s1 := setQp k q { x with busy := 0 } (dramPutWord h (putBits (dramWord s h) 0 32 ((qpHead s k q + 1) % 2 ^ 32)) s)
        if (locate s a).isSome then tallyAdd a 1 s1 else noteUnmapped none s1

/-- RDMA_COMPLETE (R307). -/
def execRdmaComplete (k : LinkIx) (q : Nat) (r : RdmaResult) (s : State) : Host.Outcome State Fault Refusal :=
  .next (settled (rdmaComplete k q r s))

/-- ETH_REQUEST_IN (R306): answered with a remote-access NAK and counted among the discarded frames. -/
def execEthRequestIn (k : LinkIx) (s : State) : Host.Outcome State Fault Refusal :=
  .next (if linkState s k = 5 then bumpSat (pgLink k) R.LINK_BAD_FRAMES 1 s else s)

end Sys2Proof.Machine
end

