-- ==== Sys2Proof/Machine/Regs.lean ====
section
/-!
DEFINITION. Register commands (chapter 02): what a write of each register triggers, accesses on the host's and the
management complex's path, block resets, the application of pending values; and the debug commands of a core (R115).
-/

namespace Sys2Proof.Machine

/-! ### Debug of a core (R115) -/

/-- The meanings of the core's instruction rows. -/
def coreRows : List (CoreIx → DWord → State → Host.Outcome State Fault Refusal) :=
  [execNop, execSegend, execSwp, execBr, execBrz, execBrnz, execBrlt, execLoop, execLoopr, execBase] ++
  [execDim0, execDim1, execWrap, execReset, execBaser, execAdd, execSub, execAndX, execOrX, execXorX] ++
  [execShl, execShr, execSar, execMul, execSlt, execSltu, execLih, execLd, execSt, execBook] ++
  [execHeavy, execTadd, execTarm, execTwait, execTpoll, execTcancel, execBarge, execNmove, execArithAdd, execArithSub] ++
  [execArithMul, execFma, execArithMin, execArithMax, execAbs, execNeg, execCmpeq, execCmplt, execCmple, execSel] ++
  [execDiv, execSqrt, execRcp, execRsqrt, execExp2, execLog2, execExp, execLog, execTanh, execSigmoid] ++
  [execErf, execSin, execCos, execReduceSum, execReduceMax, execReduceMin, execReduceSumsq, execCvt, execVld, execVst] ++
  [execVrng, execVacc, execVperm, execVmovx, execMma, execAdrain, execMcfg, execArel]

/-- The instruction word `w` issued on a core, as the row that it spells. -/
def issueWord (c : CoreIx) (w : DWord) (s : State) : State :=
  (coreRows.findSome? (fun f => match f c w s with | .next t => some t | _ => none)).getD s

/-- STEP (R115): one instruction issues while the core is stopped, which it stays. -/
def dbgStep (c : CoreIx) (s : State) : State :=
  let k := coreOf s c
  if !k.dbgStop then s
  else
    let s1 := issueWord c (mapGet 0#64 k.imem k.seq.pc) (modCore c (fun k => { k with dbgStop := false, bpPass := true }) s)
    modCore c (fun k => { k with dbgStop := true }) s1

/-- What a write of DBG_CTRL does (R115). -/
def dbgWrite (c x : Nat) (s : State) : State :=
  let s1 := dbgCtrl c x s
  if bitSet x 1 && decide (c < 8192) then dbgStep (Fin.ofNat 8192 c) s1 else s1

/-! ### Block reset (R64, R116) -/

/-- What a core's block reset clears (R116, R145): all but scratch, instruction memory and accumulator entries, which
keep their poison (R143). -/
def coreBlockReset (c : Nat) (s : State) : State :=
  let clear (a : Acc) : Acc := { Acc.zero with ent := a.ent, any := a.any, bad := a.bad, upset := a.upset }
  modCore c (fun k => { Core.zero with
    imem := k.imem, imemUpset := k.imemUpset, scr := k.scr, scrAny := k.scrAny, scrPoison := k.scrPoison, scrUpset := k.scrUpset,
    acc0 := clear k.acc0, acc1 := clear k.acc1 }) s

/-- A block in reset: its BLOCK fields cleared, its pending values and held words discarded (R64, R71). -/
def enterReset (p : Page) (s : State) : State :=
  let mine (g : Nat) : Bool := g == pageKey p || (p.cls == .core && g == pageKey (pgArray p.inst))
  let s1 := clearRegs .block mine s
  let s2 := { s1 with
    pend := mapDrop s1.pend (fun k => mine (wkeyPage k)), wshadow := mapDrop s1.wshadow (fun k => mine (wkeyPage (k / 4))),
    inReset := pageKey p :: s1.inReset.filter (· != pageKey p) }
  match p.cls with
  | .core => coreBlockReset p.inst s2
  | .barge => setEng p.inst .zero s2
  | .link => dropLink p.inst s2
  | _ => s2

/-- SRST.REQ (R64): refused unless the class has block reset and the block is idle. -/
def srstReq (g : Page) (s : State) : State :=
  let p := headPage g
  if bitSet (capsOf p.cls) 2 && blockIdle s p then enterReset p s
  else wr p R.HEADER_SRST_SRST_REFUSED 1 s

/-- A block reset completes (R64): the block accepts work again; a link trains anew (R308). -/
def blockResetDone (g : Page) (s : State) : State :=
  let p := headPage g
  if !s.inReset.contains (pageKey p) then s
  else
    let s1 := { s with inReset := s.inReset.filter (· != pageKey p) }
    if p.cls = .link then trainStart p.inst s1 else s1

/-- BLOCK_RESET_DONE (R64). -/
def execBlockResetDone (g : Page) (s : State) : Host.Outcome State Fault Refusal := .next (settled (blockResetDone g s))

/-! ### What writes trigger -/

/-- RST registers (R463, R480). -/
def rstHook (b x : Nat) (s : State) : State :=
  match b with
  | 0x10C => swReset (bitsOf x 0 2) (bitsOf x 8 8) s
  | 0x114 => (if bitSet x 7 then setFwOk else id) ((if bitSet x 8 then clrFails else id) s)
  | 0x184 => putRetained x s
  | 0x188 => if bitSet x 0 then beginSeal s else s
  | _ => s

/-- SEC registers (R470, R478). -/
def secHook (b x : Nat) (s : State) : State :=
  if b = 0x108 ∧ bitSet x 31 then (if bitsOf x 0 2 = 0 then askReport s else if bitsOf x 0 2 = 1 then askCerts s else s)
  else if b = 0x138 ∧ bitSet x 0 then dbgUnlock s
  else s

/-- MODULE_ID written (R410, R444): the module takes part in the protocol, and the links in negotiation or FENCED are
checked (R274). -/
def idWritten (s : State) : State :=
  if rd s pgEmb R.HEADER_PAGE_LOCK_LOCK = 1 ∨ (List.range 32).any (fun k => linkUp s k) then s
  else foldUpTo 32 capsCheck (wr pgEmb R.EMB_STATUS_ID_SET 1 s)

/-- A lock command of WLOCK (R330). -/
def lockHook (b x : Nat) (s : State) : State :=
  if 0x100 ≤ b ∧ b < 0x500 ∧ (b - 0x100) % 128 = 4 then wlCmd ((b - 0x100) / 128) (bitsOf x 0 3) (bitsOf x 3 1) s else s

/-- What a write of `x` to the register at offset `b` of a page triggers, beyond the value it leaves. -/
def topHook (p : Page) (b x : Nat) (s : State) : State :=
  if b = 0x1C ∧ bitSet x 0 then srstReq p s
  else match p.cls with
    | .core => if b = 0x140 then dbgWrite p.inst x s else s
    | .memc => if b = 0x108 then degrade (p.inst * 32 + bitsOf x 0 5) s else if b = 0x10C ∧ bitSet x 0 then mapoutGo p.inst s else s
    | .sluice => if b = 0x118 ∧ bitSet x 0 then trimStep p.inst s else s
    | .rst => rstHook b x s
    | .fuse => if b = 0x180 ∧ bitSet x 31 then progBit (bitsOf x 0 12) [] s
      else if b = 0x184 ∧ bitSet x 31 then svnAdvance (bitsOf x 0 7) (bitsOf x 8 7) s else s
    | .sec => secHook b x s
    | .sched => if b = 0x118 ∧ bitSet x 0 then createGo s else s
    | .rng => if b = 0x118 ∧ bitSet x 0 then evGo s else s
    | .wlock => lockHook b x s
    | .ctx => if b = 0x100 then (match bitsOf x 0 2 with | 1 => tearAsk p.inst s | 2 => swapAsk p.inst s | _ => s) else s
    | .emb => if b = 0x100 then idWritten s else s
    | .aon => if b = 0x10C then boardAgain s else s
    | .perf => perfHook p b s
    | .sample => sampleHook p b s
    | _ => s

/-! ### Accesses on the host's and the management path (R50, R51, R56, R58) -/

/-- An answer. -/
def answer (v err : Nat) (s : State) : State := { s with reply := ⟨v, err, false⟩ }

/-- The host window of a device region (R466). -/
def regionWindow : Region → Option Nat
  | .dram => some 0
  | .quay => some 1
  | .scratch => some 2
  | _ => none

/-- Whether a path may reach a region outside the register aperture (R51, R466). -/
def mayReach (p : Path) (r : Region) (s : State) : Bool :=
  match p, r with
  | _, .none => false
  | .host, .host => false
  | .host, r => match regionWindow r with | some b => !windowClosed s b | none => false
  | .mgmt, _ => true

/-- Whether `n` bytes of a device address are backed. -/
def devBacked (s : State) (a n : Nat) : Bool :=
  match regionOf a with
  | (.dram, o) => !dramShut s && backed s o n
  | (.quay, _) => true
  | (.scratch, o) => decide (o % 0x40000 + n ≤ 0x40000)
  | (.host, _) => (List.range n).all (fun i => !s.hostHoles.contains ((a + i) % 2 ^ 40 / 4096))
  | _ => false

/-- An access that reaches no memory (R50): in device DRAM, MEMC instance 0 records it. -/
def accessLost (a : Nat) (s : State) : State :=
  answer 0 codeUnmapped (match regionOf a with | (.dram, _) => noteUnmapped none s | _ => s)

/-- A read of `width` bytes of a device address outside the register aperture, with the poison mark of what it meets (R104,
R186, R187, R208). -/
def devAccessRd (p : Path) (a width : Nat) (s : State) : State :=
  if !mayReach p (regionOf a).1 s || !devBacked s a width then accessLost a s
  else
    let as := (List.range width).map (a + ·)
    let bs := as.map (readByte s)
    { fetchAll as none none s with reply := ⟨ofBytes (bs.map (fun b => b.1)), 0, bs.any (fun b => b.2)⟩ }

/-- A write of `width` bytes of a device address outside the register aperture; the quay window is read-only (R51). -/
def devAccessWr (p : Path) (a width v : Nat) (s : State) : State :=
  if !mayReach p (regionOf a).1 s then accessLost a s
  else match regionOf a with
    | (.quay, _) => answer 0 codeQuayRo (recordErr pgQuay 2 none s)
    | _ => if devBacked s a width then answer 0 0 (devWrite a (bytesOf width v) false s) else accessLost a s

/-- A write that the path does not carry to its register: the host's to FUSE.PROG and SVN_ADVANCE (R482). -/
def pathIgnores (p : Path) (g : Page) (o : Nat) : Bool := p == .host && g.cls == .fuse && (o / 4 * 4 == 0x180 || o / 4 * 4 == 0x184)

/-- A write of `width` bytes at device address `a` on a path; the checks stand in the order of `regRead` (log 68). -/
def regWrite (p : Path) (a width v : Nat) (s : State) : State :=
  if !pathUp p s then s
  else match regionOf a with
    | (.regs, o) =>
      (match pageAt o with
       | none => answer 0 codeUnmapped s
       | some (g, off) =>
         if !pathAllows p g s then answer 0 codeUnmapped s
         else if !accessShape a width then answer 0 codeRegAccess s
         else if pathIgnores p g off then answer 0 0 s
         else writePage topHook (pathCode p) g off width v (answer 0 0 s))
    | _ => devAccessWr p a width v s

/-- A read of `width` bytes at device address `a` on a path. DESIGN CHOICE (log 68): a reserved slot or closed window answers
ADDR_UNMAPPED whatever the access's shape; REG_ACCESS is for a page that is reached. -/
def regRead (p : Path) (a width : Nat) (s : State) : State :=
  if !pathUp p s then s
  else match regionOf a with
    | (.regs, o) =>
      (match pageAt o with
       | none => answer 0 codeUnmapped s
       | some (g, off) =>
         if !pathAllows p g s then answer 0 codeUnmapped s
         else if !accessShape a width then answer 0 codeRegAccess s
         else
           let r := readPage (pathCode p) g off width s
           answer r.1 0 r.2)
    | _ => devAccessRd p a width s

/-- REG_WRITE (R56). -/
def execRegWrite (p : Path) (a width v : Nat) (s : State) : Host.Outcome State Fault Refusal := .next (settled (regWrite p a width v s))

/-- RC_READ (R15): a read; an RC field is cleared after it. -/
def execRcRead (p : Path) (a width : Nat) (s : State) : Host.Outcome State Fault Refusal := .next (regRead p a width s)

/-- MULTIWORD_READ (R70). -/
def execMultiwordRead (p : Path) (a width : Nat) (s : State) : Host.Outcome State Fault Refusal := .next (regRead p a width s)

/-- MULTIWORD_WRITE (R71). -/
def execMultiwordWrite (p : Path) (a width v : Nat) (s : State) : Host.Outcome State Fault Refusal :=
  .next (settled (regWrite p a width v s))

/-- ALIAS_ACCESS (R69): a read or a write of one bit at its alias address. -/
def execAliasAccess (p : Path) (a : Nat) (wr bit : Bool) (s : State) : Host.Outcome State Fault Refusal :=
  .next (settled (if wr then regWrite p a 4 (b2n bit) s else regRead p a 4 s))

/-- PAGE_LOCK (R61). -/
def execPageLock (p : Path) (g : Page) (s : State) : Host.Outcome State Fault Refusal :=
  .next (access p g (writeReg topHook (headPage g) 0x0C 1 (2 ^ 32 - 1)) s)

/-- ERR_STAT_CLEAR (R62). -/
def execErrStatClear (p : Path) (g : Page) (m : Word) (s : State) : Host.Outcome State Fault Refusal :=
  .next (access p g (writeReg topHook (headPage g) 0x20 m.toNat (2 ^ 32 - 1)) s)

/-- ERR_INJ (R63). -/
def execErrInj (p : Path) (g : Page) (v : Word) (s : State) : Host.Outcome State Fault Refusal :=
  .next (access p g (writeReg topHook (headPage g) 0x2C v.toNat (2 ^ 32 - 1)) s)

/-- SRST_REQ (R64). -/
def execSrstReq (p : Path) (g : Page) (s : State) : Host.Outcome State Fault Refusal :=
  .next (settled (access p g (writeReg topHook (headPage g) 0x1C 1 (2 ^ 32 - 1)) s))

/-- DBG_STOP (R115). -/
def execDbgStop (p : Path) (c : CoreIx) (s : State) : Host.Outcome State Fault Refusal :=
  .next (access p (pgCore c) (writeReg topHook (pgCore c) 0x140 1 1) s)

/-- DBG_STEP (R115). -/
def execDbgStep (p : Path) (c : CoreIx) (s : State) : Host.Outcome State Fault Refusal :=
  .next (settled (access p (pgCore c) (writeReg topHook (pgCore c) 0x140 2 2) s))

/-- DBG_RESUME (R115). -/
def execDbgResume (p : Path) (c : CoreIx) (s : State) : Host.Outcome State Fault Refusal :=
  .next (access p (pgCore c) (writeReg topHook (pgCore c) 0x140 4 4) s)

/-! ### Pending values (R65 to R67) -/

/-- EMB's boundary, the liveness interval: a module that is no longer eligible leaves an election (R412). -/
def embBoundary (s : State) : State :=
  let s1 := boundary pgEmb s
  if rd s1 pgEmb R.EMB_CTRL_WARDEN_OK = 0 then modEmb (fun x => { x with contend := none }) s1 else s1

/-- The PWR page's boundary: a state request applies with it (R395). -/
def pwrBoundary (s : State) : State :=
  let asked := (pendAt s pgPwr 0x10).isSome
  let s1 := boundary pgPwr s
  if asked then stateRequest (rd s1 pgPwr R.PWR_CTRL_STATE_REQ) s1 else s1

/-- UPD's boundary for binding `b`: pending values of a binding that is not valid, and CTRL while none is. -/
def updBoundary (k b : Nat) (s : State) : State :=
  let free := (List.range 4).all (fun i => (bindAt s (k * 4 + i)).isNone)
  let s1 := if free && (pendAt s (pgUpd k) 0x10).isSome then bump (pgUpd k) R.HEADER_BOUNDARY_CNT_COUNT 1 (applySel (pgUpd k) (fun o => o == 0x10) s) else s
  bindApply (k * 4 + b % 4) s1

/-- WB_APPLY (R65, R67): the natural boundary of a page has come, for binding, lock or context `sub` where the page has
one for each. A core has it only with no segment running, a transfer engine with no barge under way; the pages of the
schedule cycle while the schedule is stopped, since a running one has it at SCHEDULE_CYCLE. -/
def wbApply (g : Page) (sub : Nat) (s : State) : State :=
  let stopped : Bool := rd s pgSched R.SCHED_STATUS_RUNNING == 0
  if !pageExists g then s
  else match g.cls with
    | .core | .array =>
      if (coreOf s g.inst).cur.isNone then coreBoundary g.inst s else s
    | .link => linkBoundary g.inst s
    | .hlink => boundary pgHlink s
    | .barge => if (engOf s g.inst).jobs.all (fun j => j.phase == 0) then boundary g s else s
    | .canal => if stopped then boundary g s else s
    | .ctx => if stopped then ctxBoundary g.inst s else s
    | .sched => if stopped then scheduleCycle s else s
    | .pwr => pwrBoundary s
    | .sluice | .therm => boundary g s
    | .memc => memcBoundary g.inst s
    | .emb => embBoundary s
    | .upd => updBoundary g.inst sub s
    | .audit | .rng => if s.ctxs.isEmpty then boundary g s else if (ctxOf s sub).isSome then takeWb sub s else s
    | .wlock => if sub < 8 then applyLock sub s else s
    | _ => s

/-- WB_APPLY (R65). -/
def execWbApply (g : Page) (sub : Nat) (s : State) : Host.Outcome State Fault Refusal := .next (settled (wbApply g sub s))

/-! ### The I3C target (R502, R503) -/

/-- Whether the management complex serves I3C: powered, with its firmware or the boot ROM's monitor running. -/
def i3cServed (s : State) : Bool :=
  mainOn s && (rd s pgMgmt R.MGMT_STATUS_FW_RUNNING == 1 || rd s pgRst R.RST_BOOT_MONITOR == 1)

/-- Bytes that the next private read returns. -/
def i3cAnswer (bs : List Nat) (s : State) : State := { s with i3cRead := bs }

/-- Whether READ_REG may read a page: a module page other than FUSE, SEC and CTX. -/
def i3cReads (g : Page) : Bool :=
  match g.cls with
  | .moddir | .mgmt | .aon | .rst | .strap | .pwr | .sched | .emb | .hlink | .quay | .audit | .rng | .wlock => true
  | .perf => g.inst == 4
  | _ => false

/-- READ_REG (R503): one register of a module page by its aperture offset; 0xFFFF_FFFF for any other offset, and in
SLEEP. -/
def readRegI3c (a : Nat) (s : State) : State :=
  let none' := i3cAnswer (bytesOf 4 0xFFFFFFFF) s
  if !mainOn s then none'
  else if !i3cServed s then s
  else match pageAt a with
    | some (g, o) =>
      if 0x0C00_0000 ≤ a ∧ a % 4 = 0 ∧ i3cReads g then
        let r := readOff 1 g o s
        i3cAnswer (bytesOf 4 r.1) r.2
      else none'
    | none => none'

/-- READ_REG (R503). -/
def execReadReg (a : Nat) (s : State) : Host.Outcome State Fault Refusal := .next (readRegI3c a s)

/-- WRITE_REG (R503): one register of the PWR or AON page; writes anywhere else are ignored. -/
def writeRegI3c (a v : Nat) (s : State) : State :=
  if !i3cServed s then s
  else match pageAt a with
    | some (g, o) => if a % 4 = 0 ∧ (g.cls = .pwr ∨ g.cls = .aon) then writeOff topHook 1 g o (v % 2 ^ 32) s else s
    | none => s

/-- WRITE_REG (R503). -/
def execWriteReg (a v : Nat) (s : State) : Host.Outcome State Fault Refusal := .next (writeRegI3c a v s)

/-- The state byte of STATE (R503). -/
def stateByte (s : State) : Nat :=
  rd s pgPwr R.PWR_STATUS_STATE + b2n s.pins.coolant * 4 + b2n (alertN s) * 8 + rd s pgEmb R.EMB_STATUS_SAFE * 16 +
    rd s pgMgmt R.MGMT_STATUS_FW_RUNNING * 32

/-- I3C_STATE (R503): served in every power state. -/
def execI3cState (s : State) : Host.Outcome State Fault Refusal :=
  .next (if i3cServed s || !mainOn s then i3cAnswer [stateByte s] s else s)

/-- The static address in force (R459). -/
def i3cStatic (s : State) : Nat := 0x3A + rd s pgStrap R.STRAP_EFFECT_I3C_B

/-- SETDASA (R502): the target at static address `sa` takes a dynamic address, where it has none. -/
def setdasa (sa da : Nat) (s : State) : State :=
  if mainOn s && sa == i3cStatic s && s.i3cAddr.isNone then { s with i3cAddr := some (da % 128) } else s

/-- SETDASA (R502). -/
def execSetdasa (sa da : Nat) (s : State) : Host.Outcome State Fault Refusal := .next (setdasa sa da s)

/-- ENTDAA (R502): a target without a dynamic address is assigned one. -/
def entdaa (da : Nat) (s : State) : State := if mainOn s && s.i3cAddr.isNone then { s with i3cAddr := some (da % 128) } else s

/-- ENTDAA (R502). -/
def execEntdaa (da : Nat) (s : State) : Host.Outcome State Fault Refusal := .next (entdaa da s)

/-! ### Management complex, host link, bridges (R53, R54, R507 to R509) -/

/-- MAILBOX_POLL (R54, R508): the firmware reads the request sequence and raises HEARTBEAT. -/
def mailboxPoll (s : State) : State :=
  if rd s pgMgmt R.MGMT_STATUS_FW_RUNNING = 0 then s
  else
    let a := rd s pgHlink R.HLINK_MBX_BASE / 4096 * 4096
    let s1 := if backed s a 8 && !dramShut s then dramFetch a 8 none none s else s
    bump pgMgmt R.MGMT_HEARTBEAT 1 s1

/-- MAILBOX_POLL (R508). -/
def execMailboxPoll (s : State) : Host.Outcome State Fault Refusal := .next (mailboxPoll s)

/-- HLINK_DOWN (R509): the host link drops and retrains, to the version and rate it had. -/
def hlinkDown (s : State) : State := if rd s pgHlink R.HLINK_STATUS_STATE = 3 then recordErr pgHlink 0 none s else s

/-- HLINK_DOWN (R509). -/
def execHlinkDown (s : State) : Host.Outcome State Fault Refusal := .next (hlinkDown s)

/-- MSI_X_MESSAGE (R507): at the end of the hold-off, one message for the records written during it. -/
def msiMessage (s : State) : State :=
  if !s.msiHold then s
  else if s.msiDue && rd s pgHlink R.HLINK_MSI_VEC_MASK == 0 then
    { s with msiDue := false, msiSent := s.msiSent ++ [rd s pgHlink R.HLINK_MSI_VEC_VECTOR] }
  else { s with msiHold := false, msiDue := false }

/-- MSI_X_MESSAGE (R507). -/
def execMsiXMessage (s : State) : Host.Outcome State Fault Refusal := .next (msiMessage s)

/-- The die at the other end of a die's bridge. -/
def bridgePeer (d : Nat) (vert : Bool) : Nat := if vert then (d + 2) % 4 else d / 2 * 2 + (1 - d % 2)

/-- BRIDGE_LOCK_LOST (R53): the bridge carries no more traffic, for both of its dies; device-fatal. -/
def bridgeLost (d : Nat) (vert : Bool) (s : State) : State :=
  let f := if vert then R.CANAL_STATUS_BRIDGE_V else R.CANAL_STATUS_BRIDGE_H
  if rd s (pgCanal d) f = 0 then s
  else deviceFatal (errCode .canal 2) (recordErr (pgCanal d) 2 none (wr (pgCanal (bridgePeer d vert)) f 0 (wr (pgCanal d) f 0 s)))

/-- BRIDGE_LOCK_LOST (R53). -/
def execBridgeLockLost (d : DieIx) (vert : Bool) (s : State) : Host.Outcome State Fault Refusal := .next (settled (bridgeLost d vert s))

/-- MGMT_MEMORY_ERROR (R54): a corrected word is counted; an uncorrectable one is device-fatal. -/
def mgmtMemory (bad : Bool) (s : State) : State :=
  if !mainOn s || (s.rst.held && decide (2 ≤ s.rst.pend)) then s
  else if bad then deviceFatal (errCode .mgmt 1) (recordErr pgMgmt 1 none s)
  else recordErr pgMgmt 0 none (bumpSat pgMgmt R.MGMT_MGMT_CE_COUNT 1 s)

/-- MGMT_MEMORY_ERROR (R54). -/
def execMgmtMemoryError (bad : Bool) (s : State) : Host.Outcome State Fault Refusal := .next (settled (mgmtMemory bad s))

end Sys2Proof.Machine
end

