-- ==== Sys2Proof/Machine/Dispatch.lean ====
section
/-!
DEFINITION. Dispatch: one arm per command of the NG4, each one direct call of its meaning.
-/

namespace Sys2Proof.Machine

def exec (i : Instr) (s : State) : Host.Outcome State Fault Refusal :=
  match i with
  | .nop c w => Sys2Proof.Machine.execNop c w s
  | .segend c w => Sys2Proof.Machine.execSegend c w s
  | .swp c w => Sys2Proof.Machine.execSwp c w s
  | .br c w => Sys2Proof.Machine.execBr c w s
  | .brz c w => Sys2Proof.Machine.execBrz c w s
  | .brnz c w => Sys2Proof.Machine.execBrnz c w s
  | .brlt c w => Sys2Proof.Machine.execBrlt c w s
  | .loop c w => Sys2Proof.Machine.execLoop c w s
  | .loopr c w => Sys2Proof.Machine.execLoopr c w s
  | .base c w => Sys2Proof.Machine.execBase c w s
  | .dim0 c w => Sys2Proof.Machine.execDim0 c w s
  | .dim1 c w => Sys2Proof.Machine.execDim1 c w s
  | .wrap c w => Sys2Proof.Machine.execWrap c w s
  | .reset c w => Sys2Proof.Machine.execReset c w s
  | .baser c w => Sys2Proof.Machine.execBaser c w s
  | .add c w => Sys2Proof.Machine.execAdd c w s
  | .sub c w => Sys2Proof.Machine.execSub c w s
  | .andX c w => Sys2Proof.Machine.execAndX c w s
  | .orX c w => Sys2Proof.Machine.execOrX c w s
  | .xorX c w => Sys2Proof.Machine.execXorX c w s
  | .shl c w => Sys2Proof.Machine.execShl c w s
  | .shr c w => Sys2Proof.Machine.execShr c w s
  | .sar c w => Sys2Proof.Machine.execSar c w s
  | .mul c w => Sys2Proof.Machine.execMul c w s
  | .slt c w => Sys2Proof.Machine.execSlt c w s
  | .sltu c w => Sys2Proof.Machine.execSltu c w s
  | .lih c w => Sys2Proof.Machine.execLih c w s
  | .ld c w => Sys2Proof.Machine.execLd c w s
  | .st c w => Sys2Proof.Machine.execSt c w s
  | .book c w => Sys2Proof.Machine.execBook c w s
  | .heavy c w => Sys2Proof.Machine.execHeavy c w s
  | .tadd c w => Sys2Proof.Machine.execTadd c w s
  | .tarm c w => Sys2Proof.Machine.execTarm c w s
  | .twait c w => Sys2Proof.Machine.execTwait c w s
  | .tpoll c w => Sys2Proof.Machine.execTpoll c w s
  | .tcancel c w => Sys2Proof.Machine.execTcancel c w s
  | .tallySatisfied u => Sys2Proof.Machine.execTallySatisfied u s
  | .barge c w => Sys2Proof.Machine.execBarge c w s
  | .nmove c w => Sys2Proof.Machine.execNmove c w s
  | .nmoveComplete c first => Sys2Proof.Machine.execNmoveComplete c first s
  | .arithAdd c w => Sys2Proof.Machine.execArithAdd c w s
  | .arithSub c w => Sys2Proof.Machine.execArithSub c w s
  | .arithMul c w => Sys2Proof.Machine.execArithMul c w s
  | .fma c w => Sys2Proof.Machine.execFma c w s
  | .arithMin c w => Sys2Proof.Machine.execArithMin c w s
  | .arithMax c w => Sys2Proof.Machine.execArithMax c w s
  | .abs c w => Sys2Proof.Machine.execAbs c w s
  | .neg c w => Sys2Proof.Machine.execNeg c w s
  | .cmpeq c w => Sys2Proof.Machine.execCmpeq c w s
  | .cmplt c w => Sys2Proof.Machine.execCmplt c w s
  | .cmple c w => Sys2Proof.Machine.execCmple c w s
  | .sel c w => Sys2Proof.Machine.execSel c w s
  | .div c w => Sys2Proof.Machine.execDiv c w s
  | .sqrt c w => Sys2Proof.Machine.execSqrt c w s
  | .rcp c w => Sys2Proof.Machine.execRcp c w s
  | .rsqrt c w => Sys2Proof.Machine.execRsqrt c w s
  | .exp2 c w => Sys2Proof.Machine.execExp2 c w s
  | .log2 c w => Sys2Proof.Machine.execLog2 c w s
  | .exp c w => Sys2Proof.Machine.execExp c w s
  | .log c w => Sys2Proof.Machine.execLog c w s
  | .tanh c w => Sys2Proof.Machine.execTanh c w s
  | .sigmoid c w => Sys2Proof.Machine.execSigmoid c w s
  | .erf c w => Sys2Proof.Machine.execErf c w s
  | .sin c w => Sys2Proof.Machine.execSin c w s
  | .cos c w => Sys2Proof.Machine.execCos c w s
  | .reduceSum c w => Sys2Proof.Machine.execReduceSum c w s
  | .reduceMax c w => Sys2Proof.Machine.execReduceMax c w s
  | .reduceMin c w => Sys2Proof.Machine.execReduceMin c w s
  | .reduceSumsq c w => Sys2Proof.Machine.execReduceSumsq c w s
  | .cvt c w => Sys2Proof.Machine.execCvt c w s
  | .vld c w => Sys2Proof.Machine.execVld c w s
  | .vst c w => Sys2Proof.Machine.execVst c w s
  | .vrng c w => Sys2Proof.Machine.execVrng c w s
  | .vacc c w => Sys2Proof.Machine.execVacc c w s
  | .vperm c w => Sys2Proof.Machine.execVperm c w s
  | .vmovx c w => Sys2Proof.Machine.execVmovx c w s
  | .mma c w => Sys2Proof.Machine.execMma c w s
  | .mmaComplete c slots => Sys2Proof.Machine.execMmaComplete c slots s
  | .adrain c w => Sys2Proof.Machine.execAdrain c w s
  | .adrainComplete c => Sys2Proof.Machine.execAdrainComplete c s
  | .mcfg c w => Sys2Proof.Machine.execMcfg c w s
  | .arel c w => Sys2Proof.Machine.execArel c w s
  | .dbgStop p c => Sys2Proof.Machine.execDbgStop p c s
  | .dbgStep p c => Sys2Proof.Machine.execDbgStep p c s
  | .dbgResume p c => Sys2Proof.Machine.execDbgResume p c s
  | .regWrite p a width v => Sys2Proof.Machine.execRegWrite p a width v s
  | .rcRead p a width => Sys2Proof.Machine.execRcRead p a width s
  | .multiwordRead p a width => Sys2Proof.Machine.execMultiwordRead p a width s
  | .multiwordWrite p a width v => Sys2Proof.Machine.execMultiwordWrite p a width v s
  | .aliasAccess p a wr bit => Sys2Proof.Machine.execAliasAccess p a wr bit s
  | .pageLock p g => Sys2Proof.Machine.execPageLock p g s
  | .errStatClear p g m => Sys2Proof.Machine.execErrStatClear p g m s
  | .errInj p g v => Sys2Proof.Machine.execErrInj p g v s
  | .srstReq p g => Sys2Proof.Machine.execSrstReq p g s
  | .blockResetDone g => Sys2Proof.Machine.execBlockResetDone g s
  | .wbApply g sub => Sys2Proof.Machine.execWbApply g sub s
  | .segmentStart n st => Sys2Proof.Machine.execSegmentStart n st s
  | .segmentEnd n st => Sys2Proof.Machine.execSegmentEnd n st s
  | .tailRead n st => Sys2Proof.Machine.execTailRead n st s
  | .stepPlan n => Sys2Proof.Machine.execStepPlan n s
  | .admission n => Sys2Proof.Machine.execAdmission n s
  | .stepBoundary n => Sys2Proof.Machine.execStepBoundary n s
  | .stepHold p n hold => Sys2Proof.Machine.execStepHold p n hold s
  | .bind k b => Sys2Proof.Machine.execBind k b s
  | .node k t => Sys2Proof.Machine.execNode k t s
  | .updatePass k b v u => Sys2Proof.Machine.execUpdatePass k b v u s
  | .shardCommit k b v u => Sys2Proof.Machine.execShardCommit k b v u s
  | .gatherReq k t => Sys2Proof.Machine.execGatherReq k t s
  | .gatherData k t => Sys2Proof.Machine.execGatherData k t s
  | .gatherFwd k t => Sys2Proof.Machine.execGatherFwd k t s
  | .scatter k t => Sys2Proof.Machine.execScatter k t s
  | .restoreReq k t => Sys2Proof.Machine.execRestoreReq k t s
  | .mirror k t => Sys2Proof.Machine.execMirror k t s
  | .mirrorEnd k t => Sys2Proof.Machine.execMirrorEnd k t s
  | .mirrorSkip k t => Sys2Proof.Machine.execMirrorSkip k t s
  | .mirrorAck k t => Sys2Proof.Machine.execMirrorAck k t s
  | .migrationStart k b v u => Sys2Proof.Machine.execMigrationStart k b v u s
  | .verdictUp k t => Sys2Proof.Machine.execVerdictUp k t s
  | .verdictDown k t => Sys2Proof.Machine.execVerdictDown k t s
  | .write k t => Sys2Proof.Machine.execWrite k t s
  | .readReq k t => Sys2Proof.Machine.execReadReq k t s
  | .readResp k t => Sys2Proof.Machine.execReadResp k t s
  | .writeAck k t => Sys2Proof.Machine.execWriteAck k t s
  | .deny k t => Sys2Proof.Machine.execDeny k t s
  | .tallyAdd o => Sys2Proof.Machine.execTallyAdd o s
  | .encap k t => Sys2Proof.Machine.execEncap k t s
  | .frameForward k t => Sys2Proof.Machine.execFrameForward k t s
  | .credit k b => Sys2Proof.Machine.execCredit k b s
  | .creditSend k => Sys2Proof.Machine.execCreditSend k s
  | .fecUe k seq n => Sys2Proof.Machine.execFecUe k seq n s
  | .linkTrainStart k => Sys2Proof.Machine.execLinkTrainStart k s
  | .signalDetect k => Sys2Proof.Machine.execSignalDetect k s
  | .equalisationComplete k => Sys2Proof.Machine.execEqualisationComplete k s
  | .fecLock k => Sys2Proof.Machine.execFecLock k s
  | .caps k c0 c1 => Sys2Proof.Machine.execCaps k c0 c1 s
  | .capsSend k => Sys2Proof.Machine.execCapsSend k s
  | .trainingTimeout k => Sys2Proof.Machine.execTrainingTimeout k s
  | .liveness k src => Sys2Proof.Machine.execLiveness k src s
  | .livenessSend k => Sys2Proof.Machine.execLivenessSend k s
  | .liveTimeout k => Sys2Proof.Machine.execLiveTimeout k s
  | .creditStarve k vc => Sys2Proof.Machine.execCreditStarve k vc s
  | .collEntryTake n => Sys2Proof.Machine.execCollEntryTake n s
  | .reduceSend n => Sys2Proof.Machine.execReduceSend n s
  | .gather n => Sys2Proof.Machine.execGather n s
  | .qpPoll k q => Sys2Proof.Machine.execQpPoll k q s
  | .rdmaWrite k q => Sys2Proof.Machine.execRdmaWrite k q s
  | .rdmaRead k q d => Sys2Proof.Machine.execRdmaRead k q d s
  | .rdmaComplete k q r => Sys2Proof.Machine.execRdmaComplete k q r s
  | .ethRequestIn k => Sys2Proof.Machine.execEthRequestIn k s
  | .bargeAccept e => Sys2Proof.Machine.execBargeAccept e s
  | .bargeStart e idx => Sys2Proof.Machine.execBargeStart e idx s
  | .bargeComplete e idx => Sys2Proof.Machine.execBargeComplete e idx s
  | .dramRead a symbols o => Sys2Proof.Machine.execDramRead a symbols o s
  | .dramWrite a d poison o => Sys2Proof.Machine.execDramWrite a d poison o s
  | .scrubRead a symbols => Sys2Proof.Machine.execScrubRead a symbols s
  | .refreshInterval k => Sys2Proof.Machine.execRefreshInterval k s
  | .mapoutReq p k ch => Sys2Proof.Machine.execMapoutReq p k ch s
  | .mapoutGo p k => Sys2Proof.Machine.execMapoutGo p k s
  | .quayRead a len streamed r o => Sys2Proof.Machine.execQuayRead a len streamed r o s
  | .quayInstall q => Sys2Proof.Machine.execQuayInstall q s
  | .rollback k e => Sys2Proof.Machine.execRollback k e s
  | .wlockBind l => Sys2Proof.Machine.execWlockBind l s
  | .fill p l ch => Sys2Proof.Machine.execFill p l ch s
  | .ready p l ch => Sys2Proof.Machine.execReady p l ch s
  | .abandon p l ch => Sys2Proof.Machine.execAbandon p l ch s
  | .ipStart p l => Sys2Proof.Machine.execIpStart p l s
  | .gateApply l => Sys2Proof.Machine.execGateApply l s
  | .tailTallyRead l => Sys2Proof.Machine.execTailTallyRead l s
  | .createGo p => Sys2Proof.Machine.execCreateGo p s
  | .slotStart pd => Sys2Proof.Machine.execSlotStart pd s
  | .switchPointReached pd => Sys2Proof.Machine.execSwitchPointReached pd s
  | .switchComplete pd => Sys2Proof.Machine.execSwitchComplete pd s
  | .swapOut p n => Sys2Proof.Machine.execSwapOut p n s
  | .teardown p n => Sys2Proof.Machine.execTeardown p n s
  | .teardownDone n => Sys2Proof.Machine.execTeardownDone n s
  | .scrubDone n => Sys2Proof.Machine.execScrubDone n s
  | .sluiceGrant r => Sys2Proof.Machine.execSluiceGrant r s
  | .bookRelease r => Sys2Proof.Machine.execBookRelease r s
  | .prePosition r => Sys2Proof.Machine.execPrePosition r s
  | .hintArming c => Sys2Proof.Machine.execHintArming c s
  | .hintExpiry c => Sys2Proof.Machine.execHintExpiry c s
  | .telemetrySample rs => Sys2Proof.Machine.execTelemetrySample rs s
  | .controlWindow m => Sys2Proof.Machine.execControlWindow m s
  | .marginReq p r => Sys2Proof.Machine.execMarginReq p r s
  | .slowdownN asserted => Sys2Proof.Machine.execSlowdownN asserted s
  | .thermalSample d ts => Sys2Proof.Machine.execThermalSample d ts s
  | .inletSample t => Sys2Proof.Machine.execInletSample t s
  | .boardOvertemp t => Sys2Proof.Machine.execBoardOvertemp t s
  | .stateReqActive p => Sys2Proof.Machine.execStateReqActive p s
  | .stateReqIdle p => Sys2Proof.Machine.execStateReqIdle p s
  | .stateReqStandby p => Sys2Proof.Machine.execStateReqStandby p s
  | .stateReqSleep p => Sys2Proof.Machine.execStateReqSleep p s
  | .wake level => Sys2Proof.Machine.execWake level s
  | .progressStall n => Sys2Proof.Machine.execProgressStall n s
  | .hello k e => Sys2Proof.Machine.execHello k e s
  | .helloSend k => Sys2Proof.Machine.execHelloSend k s
  | .elect k e => Sys2Proof.Machine.execElect k e s
  | .warden k e => Sys2Proof.Machine.execWarden k e s
  | .loss k e => Sys2Proof.Machine.execLoss k e s
  | .probe k e => Sys2Proof.Machine.execProbe k e s
  | .probeAck k e => Sys2Proof.Machine.execProbeAck k e s
  | .moduleLost suspect => Sys2Proof.Machine.execModuleLost suspect s
  | .lost k e => Sys2Proof.Machine.execLost k e s
  | .register k e => Sys2Proof.Machine.execRegister k e s
  | .recover k e => Sys2Proof.Machine.execRecover k e s
  | .replayPrep k e => Sys2Proof.Machine.execReplayPrep k e s
  | .prepAnswer k e => Sys2Proof.Machine.execPrepAnswer k e s
  | .durable k e => Sys2Proof.Machine.execDurable k e s
  | .replay k e => Sys2Proof.Machine.execReplay k e s
  | .replayReq k e => Sys2Proof.Machine.execReplayReq k e s
  | .halt k e => Sys2Proof.Machine.execHalt k e s
  | .rollbackReq k e => Sys2Proof.Machine.execRollbackReq k e s
  | .auditCompare idx r => Sys2Proof.Machine.execAuditCompare idx r s
  | .powerLoss lost => Sys2Proof.Machine.execPowerLoss lost s
  | .aonBrownout low => Sys2Proof.Machine.execAonBrownout low s
  | .mainBrownout low => Sys2Proof.Machine.execMainBrownout low s
  | .resetN low => Sys2Proof.Machine.execResetN low s
  | .clockFail mgmt => Sys2Proof.Machine.execClockFail mgmt s
  | .swResetCompute p key => Sys2Proof.Machine.execSwResetCompute p key s
  | .swResetModule p key => Sys2Proof.Machine.execSwResetModule p key s
  | .comeout idx => Sys2Proof.Machine.execComeout idx s
  | .hostBootImage len img => Sys2Proof.Machine.execHostBootImage len img s
  | .retData p wr v => Sys2Proof.Machine.execRetData p wr v s
  | .seal p => Sys2Proof.Machine.execSeal p s
  | .prog p bit obj => Sys2Proof.Machine.execProg p bit obj s
  | .svnAdvance p v => Sys2Proof.Machine.execSvnAdvance p v s
  | .ownerEnrol q => Sys2Proof.Machine.execOwnerEnrol q s
  | .attReport p => Sys2Proof.Machine.execAttReport p s
  | .attCertificates p => Sys2Proof.Machine.execAttCertificates p s
  | .dbgUnlock p => Sys2Proof.Machine.execDbgUnlock p s
  | .evGo p => Sys2Proof.Machine.execEvGo p s
  | .evtSel p g idx v => Sys2Proof.Machine.execEvtSel p g idx v s
  | .freeze p g on => Sys2Proof.Machine.execFreeze p g on s
  | .sampleEnable p d v => Sys2Proof.Machine.execSampleEnable p d v s
  | .sampleTake d smp => Sys2Proof.Machine.execSampleTake d smp s
  | .readReg a => Sys2Proof.Machine.execReadReg a s
  | .writeReg a v => Sys2Proof.Machine.execWriteReg a v s
  | .setdasa sa da => Sys2Proof.Machine.execSetdasa sa da s
  | .entdaa da => Sys2Proof.Machine.execEntdaa da s
  | .laneLoss k => Sys2Proof.Machine.execLaneLoss k s
  | .bridgeLockLost d vert => Sys2Proof.Machine.execBridgeLockLost d vert s
  | .mgmtMemoryError bad => Sys2Proof.Machine.execMgmtMemoryError bad s
  | .swapComplete n => Sys2Proof.Machine.execSwapComplete n s
  | .fuseProgComplete blown => Sys2Proof.Machine.execFuseProgComplete blown s
  | .mapoutRelocate => Sys2Proof.Machine.execMapoutRelocate s
  | .mapoutComplete => Sys2Proof.Machine.execMapoutComplete s
  | .polderTableLoad => Sys2Proof.Machine.execPolderTableLoad s
  | .scheduleCycle => Sys2Proof.Machine.execScheduleCycle s
  | .coolantTemp => Sys2Proof.Machine.execCoolantTemp s
  | .coolantLoss => Sys2Proof.Machine.execCoolantLoss s
  | .powerTransitionDone => Sys2Proof.Machine.execPowerTransitionDone s
  | .fabricLockup => Sys2Proof.Machine.execFabricLockup s
  | .captureComplete => Sys2Proof.Machine.execCaptureComplete s
  | .captureIncomplete => Sys2Proof.Machine.execCaptureIncomplete s
  | .electionTimeout => Sys2Proof.Machine.execElectionTimeout s
  | .powerFailRecord => Sys2Proof.Machine.execPowerFailRecord s
  | .powerOn => Sys2Proof.Machine.execPowerOn s
  | .watchdog => Sys2Proof.Machine.execWatchdog s
  | .mgmtLockup => Sys2Proof.Machine.execMgmtLockup s
  | .resetReq => Sys2Proof.Machine.execResetReq s
  | .idcode => Sys2Proof.Machine.execIdcode s
  | .bypass => Sys2Proof.Machine.execBypass s
  | .extest => Sys2Proof.Machine.execExtest s
  | .resetRelease => Sys2Proof.Machine.execResetRelease s
  | .bootMailboxTimeout => Sys2Proof.Machine.execBootMailboxTimeout s
  | .fwOk => Sys2Proof.Machine.execFwOk s
  | .failsClr => Sys2Proof.Machine.execFailsClr s
  | .kick => Sys2Proof.Machine.execKick s
  | .attComplete => Sys2Proof.Machine.execAttComplete s
  | .evComplete => Sys2Proof.Machine.execEvComplete s
  | .i3cWake => Sys2Proof.Machine.execI3cWake s
  | .i3cState => Sys2Proof.Machine.execI3cState s
  | .mailboxPoll => Sys2Proof.Machine.execMailboxPoll s
  | .hlinkDown => Sys2Proof.Machine.execHlinkDown s
  | .coolantOkAsserted => Sys2Proof.Machine.execCoolantOkAsserted s
  | .sealComplete => Sys2Proof.Machine.execSealComplete s
  | .msiXMessage => Sys2Proof.Machine.execMsiXMessage s

end Sys2Proof.Machine
end

