-- ==== Sys2Proof/Machine/Tick.lean ====
section
/-!
DEFINITION. One local tick with nothing commanded: what the clocks of the module count (R54, R55), the tick counters of
its blocks, the ramp buckets (R373), and the levels that the event counters sample (R486).
-/

namespace Sys2Proof.Machine

/-- Whether the local tick runs (R54): from step 2 of a MODULE or wider come-out on, and not in SLEEP. -/
def ticksRun (s : State) : Bool :=
  !(s.rst.held && decide (2 ≤ s.rst.pend)) && !(rd s pgRst R.RST_STATUS_COMEOUT == 1 && decide (nextStep s < 2)) &&
    rd s pgPwr R.PWR_STATUS_STATE != 3

/-- Whether the rails of the counting units are on (R394, R488): the power state is ACTIVE or IDLE. -/
def unitsOn (s : State) : Bool := decide (rd s pgPwr R.PWR_STATUS_STATE ≤ 1)

/-! ### Timekeeping -/

/-- The 32.768 kHz count over one local tick of 10 ns, except while a FULL reset holds it (R55). -/
def aonTick (s : State) : State :=
  if s.rst.held ∧ s.rst.pend = 4 then s
  else
    let t := s.aonPart + 32768
    if 100000000 ≤ t then bump pgAon R.AON_TIME 1 { s with aonPart := t - 100000000 } else { s with aonPart := t }

/-- The ticks of a come-out from step 2 or its first step (R480). -/
def comeoutTick (s : State) : State :=
  if rd s pgRst R.RST_STATUS_COMEOUT = 1 then { s with rst := { s.rst with ticks := s.rst.ticks + 1 } } else s

/-! ### Sluices (R373, R376) -/

/-- One tick of a sluice: the wait counts of the request at its head, B in whole mA, and the refill of its bucket. -/
def sluiceTick (r : Nat) (s : State) : State :=
  let p := pgSluice r
  let s1 := match (sluiceOf s r).waiting with
    | [] => s
    | q :: _ =>
      if !budgetFits s r (kOf s r) q then bump p R.SLUICE_BUDGET_WAIT_TICKS 1 s
      else if !rampFits s r q then bump p R.SLUICE_RAMP_WAIT_TICKS 1 s
      else s
  let s2 := bump p R.SLUICE_AMP_TICKS (ledgerB s r).floor s1
  setSluice r { sluiceOf s r with bucket := min (max (bucketCap s r) (sluiceOf s r).bucket) ((sluiceOf s r).bucket + refillOf s r) } s2

/-! ### Links, engines, locks and contexts -/

/-- The frames of a link that wait for a credit. -/
def creditWaits (s : State) (k : Nat) : List Frame :=
  (linkOf s k).txq.filter (fun f => carries s f.hdr k && !mayCredit s k (frameVc f.hdr) f.cls)

/-- CREDIT_STALL_TICKS of a link (R308). -/
def linkTick (k : Nat) (s : State) : State :=
  if (creditWaits s k).isEmpty then s else bump (pgLink k) R.LINK_CREDIT_STALL_TICKS 1 s

/-- THROTTLE_TICKS of a die (R397). -/
def thermTick (d : Nat) (s : State) : State :=
  if rd s (pgTherm d) R.THERM_STATUS_THROTTLING = 1 then bump (pgTherm d) R.THERM_THROTTLE_TICKS 1 s else s

/-- HELD_TICKS of a weight lock (R338). -/
def lockTick (l : Nat) (s : State) : State :=
  if rdi s pgWlock R.WLOCK_LOCK_STATUS_HELD l = 1 then bumpi pgWlock R.WLOCK_HELD_TICKS l 1 s else s

/-- The shard parts of a binding that wait for the acknowledgement of their last mirror stream (R236). -/
def mirrorHolds (b : Binding) : Bool :=
  (b.phase == 3 || b.phase == 4) && !b.mirLost &&
    (match b.todo with | q :: _ => b.mirWait.contains q && !(b.crcs.any (fun c => c.1 == q)) | [] => false)

/-- MIRROR_WAIT of a binding (R236), and UPD_TICKS of its context while the engine works for it (R362). -/
def bindTick (i : Nat) (b : Binding) (s : State) : State :=
  if mirrorHolds b then bumpi (pgUpd (i / 4)) R.UPD_BIND_MIRROR_WAIT (i % 4) 1 s
  else if b.phase = 4 ∨ !b.series.isEmpty then bump (pgCtx b.desc.ctx) R.CTX_UPD_TICKS 1 s
  else s

/-- ENGINE_TICKS and SWITCH_TICKS over a polder (R362): its cores, counted for the context that it is switched to, or for
both contexts while it saves and restores. -/
def polTick (p : Nat) (k : PolState) (s : State) : State :=
  let n := (polderCores s p).length
  let add (c : Option Nat) (f : RegField) (t : State) : State := match c with | some c => bump (pgCtx c) f n t | none => t
  if k.phase = 2 then add k.next R.CTX_SWITCH_TICKS (add k.cur R.CTX_SWITCH_TICKS s) else add k.cur R.CTX_ENGINE_TICKS s

/-- The wait counts of a context (R254), and how long it has been blocked (R360). -/
def ctxTick (n : Nat) (s : State) : State :=
  match ctxOf s n with
  | none => s
  | some x =>
    let blocked := blockedNow s n
    let full := x.typ == 0 && (nextPair x).isSome && (freeSlot s x).isNone
    let peer := full && !s.cores.any (fun e => e.2.ctx == some n && holdsReady e.2)
    setCtx n { x with slotFull := x.slotFull + b2n full, peerBound := x.peerBound + b2n peer,
                      blockTicks := if blocked then x.blockTicks + 1 else 0, blockCycle := x.blockCycle && blocked } s

/-! ### Levels (R486, R487) -/

/-- The value of an L event at a page's instance. -/
def levelOf (s : State) (p : Page) (e src : Nat) : Nat :=
  let k := coreOf s p.inst
  let g := engOf s p.inst
  let r := p.inst * 16 + src
  if e = 0x06 then b2n k.waitBook
  else if e = 0x07 then b2n k.waitTally
  else if e = 0x08 then b2n k.waitXfer
  else if e = 0x0C then k.g
  else if e = 0x43 then b2n k.waitAcc
  else if e = 0x44 then k.queue.length
  else if e = 0x63 then g.jobs.length
  else if e = 0x64 then b2n (g.ask != 0)
  else if e = 0x65 then b2n ((List.range g.jobs.length).any (fun i => match g.jobs[i]? with
    | some j => j.phase == 1 && bFence j.words && (g.jobs.take i).any (fun y => y.tag.ctx == j.tag.ctx)
    | none => false))
  else if e = 0x83 then min 1023 (creditWaits s p.inst).length
  else if e = 0xC1 then (sluiceOf s r).waiting.length
  else if e = 0xC2 then (ledgerB s r).floor / 1000
  else if e = 0xD3 then (s.binds.foldl (fun a b => if b.1 / 4 = p.inst * 2 + src then a + b.2.nodes.length else a) 0) / 64
  else 0

/-- The level that a selection sees: of its instance, or summed over every instance of the die (R485). -/
def levelSeen (s : State) (p : Page) (sel : Nat) : Nat :=
  let e := bitsOf sel 0 8
  let src := bitsOf sel 10 5
  if p.cls = .perf ∧ src = 16 then
    (List.range (if e / 16 = 0xC then 16 else 2)).foldl (fun a i => a + levelOf s p e i) 0
  else levelOf s p e src

/-- Whether a page's unit works for a context (R486); a sluice, a link and a stack controller work for none. -/
def worksFor (s : State) (p : Page) (sel n : Nat) : Bool :=
  match p.cls with
  | .core | .array => (coreOf s p.inst).ctx == some n
  | .barge => (engOf s p.inst).jobs.any (fun j => j.tag.ctx == n)
  | .perf => bitsOf sel 0 8 == 0xD3 && s.binds.any (fun b => b.1 / 8 == p.inst && b.2.desc.ctx == n &&
      (bitsOf sel 10 5 == 16 || b.1 / 4 == p.inst * 2 + bitsOf sel 10 5))
  | _ => false

/-- One counter samples its level (R486): MODE 1 counts the rises from 0, MODE 2 the ticks at or above THRESH, MODE 3
adds the level. -/
def levelTick (p : Page) (cnt : RegField) (i sel : Nat) (s : State) : State :=
  let m := selMode p sel
  if m = 0 ∨ eventKind (bitsOf sel 0 8) ≠ 2 ∨ (p.cls = .perf ∧ rd s p R.PERF_CTRL_FREEZE = 1) then s
  else
    let v := levelSeen s p sel
    let key := fieldKey p cnt i
    let was := mapFind s.levels key
    let s1 := { s with levels := mapPut s.levels key (v + 1) }
    let d := if bitSet sel 25 && !worksFor s p sel (bitsOf sel 26 6) then 0
      else if m = 1 then b2n (was == some 1 && decide (0 < v))
      else if m = 2 then b2n (decide (bitsOf sel 15 10 ≤ v))
      else v
    bumpi p cnt i d s1

/-- The event selections that are not 0, with their pages and numbers. -/
def selections (s : State) : List (Page × Nat × Nat) :=
  s.regs.filterMap (fun e =>
    match fieldFiled e.1 with
    | some (p, f) => match counterRows p.cls with
      | some (sel, _, _) => if f = sel then (regAt f (e.1 / 64 % 16384)).map (fun n => (p, n, e.2)) else none
      | none => none
    | none => none)

/-- Every selected counter of an L event samples its level. -/
def levelsTick (s : State) : State :=
  (selections s).foldl (fun t e =>
    match counterRows e.1.cls with
    | some (_, cnt, _) => levelTick e.1 cnt e.2.1 e.2.2 t
    | none => t) s

/-! ### The tick -/

/-- What the units count in a local tick. -/
def unitsTick (s : State) : State :=
  let s1 := levelsTick s
  let s2 := s1.ctxs.foldl (fun t e => ctxTick e.1 t) s1
  let s3 := s2.pols.foldl (fun t e => polTick e.1 e.2 t) s2
  let s4 := s3.binds.foldl (fun t e => bindTick e.1 e.2 t) s3
  let s5 := foldUpTo 8 lockTick (foldUpTo 4 thermTick (foldUpTo 32 linkTick s4))
  foldUpTo 64 sluiceTick s5

/-- One local tick. -/
def tick (s : State) : State :=
  let s1 := aonTick s
  if !ticksRun s then s1
  else
    let s2 := comeoutTick (bump pgMgmt R.MGMT_TICK 1 s1)
    if unitsOn s then unitsTick s2 else s2

end Sys2Proof.Machine
end

