-- ==== Sys2Proof/Safety.lean ====
section
/-!
DEFINITION. The terms in which the statements speak: canonical memory, what a command leaves as it was, when a core
issues a word undisturbed, and the rows of the core's instructions that share one shape.
-/

namespace Sys2Proof.Machine

/-! ### Canonical memory -/

/-- A cell list in canonical form, where an unlisted address `a` reads as `d a`: addresses strictly rising, and no entry
equal to what its address would read as unlisted. -/
def cellsWf (d : Nat → Byte) : List Host.Cell → Bool
  | [] => true
  | (a, v) :: m => keysAbove a m && decide (v ≠ d a) && cellsWf d m

/-- The memories are in canonical form: device DRAM, the quay store, host memory and every core's scratch. -/
def Memory.wf (s : State) : Bool :=
  cellsWf (dramUnlisted s) s.dram && cellsWf (fun _ => 0#8) s.quay && cellsWf (fun _ => 0#8) s.host &&
    s.cores.all (fun e => cellsWf (scrUnlisted e.2) e.2.scr)

/-! ### Frames -/

/-- `t` is `s` but for register fields and cores. -/
def SameButCores (s t : State) : Prop := { t with regs := s.regs, cores := s.cores } = s

/-- Every register field that `on` does not select is as it was, whether listed or at its after-reset value. -/
def KeepsRegs (on : Nat → Bool) (s t : State) : Prop := ∀ key, on key = false → mapFind t.regs key = mapFind s.regs key

/-- Whether a filed field is an event counter of a page (R484). -/
def isCounter (p : Page) (key : Nat) : Bool :=
  match counterRows p.cls with
  | some (_, cnt, n) => (List.range n).any (fun i => key == fieldKey p cnt i)
  | none => false

/-- What an instruction of core `c` that works on the core alone leaves as it was: every other core, all of memory, and
every register but the event counters of the core's own page. -/
def CoreAlone (c : Nat) (s t : State) : Prop :=
  SameButCores s t ∧ (∀ d, d ≠ c → coreOf t d = coreOf s d) ∧ KeepsRegs (isCounter (pgCore c)) s t

/-! ### Checks -/

/-- No error injection is armed that debug permits (R61, R63): every check reports what it finds. -/
def Uninjected (s : State) : Prop := ∀ p b, injArmed s p b = false

/-! ### When a core issues -/

/-- Core `c` issues word by word: a segment is current, nothing stops it, no breakpoint stands at its pc, the pc names
an index of instruction memory whose word is sound, and no error injection is armed on its page. -/
def Issues (c : Nat) (s : State) : Prop :=
  canIssue false s (coreOf s c) = true ∧
  ((coreOf s c).bpPass = true ∨ rd s (pgCore c) R.CORE_DBG_BP_EN ≠ 1 ∨ rd s (pgCore c) R.CORE_DBG_BP_PC ≠ (coreOf s c).seq.pc) ∧
  (coreOf s c).seq.pc ≤ 4095 ∧ mapGet 0 (coreOf s c).imemUpset (coreOf s c).seq.pc = 0 ∧
  rd s (pgCore c) R.HEADER_ERR_INJ_ARM = 0

/-- Core `c` as an issuing instruction finds it: no wait stands, and a passed breakpoint is spent. -/
def atIssue (s : State) (c : Nat) : Core := noWaits { coreOf s c with bpPass := false }

/-- A word of class `cls` and operation `op` whose bits outside the listed fields are 0 (R77). -/
def Spelled (cls op : Nat) (fs : List (Nat × Nat)) (w : DWord) : Prop :=
  wClass w = cls ∧ wOp w = op ∧ onlyFields w fs = true

/-- Core `c` has refused word `w` with ILLEGAL_INSN: recorded with its index, nothing of it done, the core stopped and its
booking released (R77, R114). -/
def RefusedAsIllegal (c : Nat) (w : DWord) (s t : State) : Prop :=
  (coreOf t c).faulted = true ∧ (coreOf t c).seq = (coreOf s c).seq ∧ (coreOf t c).v = (coreOf s c).v ∧ (coreOf t c).g = 0 ∧
    rd t (pgCore c) R.CORE_FAULT_INSN = w.toNat ∧ rd t (pgCore c) R.CORE_FAULT_PC_PC = (coreOf s c).seq.pc ∧
    rd t (pgCore c) R.CORE_FAULT_PC_VALID = 1 ∧ bitSet (rd t (pgCore c) R.HEADER_ERR_STAT_ERR) 0 = true

/-! ### Rows of one shape -/

/-- The scalar operations of R80 that take two operands: constructor, OP, function. -/
def aluRows : List ((CoreIx → DWord → Instr) × Nat × (DWord → DWord → DWord)) :=
  [(.add, 0, fun a b => a + b), (.sub, 1, fun a b => a - b), (.andX, 2, fun a b => a &&& b), (.orX, 3, fun a b => a ||| b),
   (.xorX, 4, fun a b => a ^^^ b), (.shl, 5, fun a b => a <<< (b.toNat % 64)), (.shr, 6, fun a b => a >>> (b.toNat % 64)),
   (.sar, 7, fun a b => a.sshiftRight (b.toNat % 64)), (.mul, 8, fun a b => a * b),
   (.slt, 9, fun a b => if a.slt b then 1#64 else 0#64), (.sltu, 10, fun a b => if a.ult b then 1#64 else 0#64)]

/-- The conditional branches of R82: constructor, OP, the operand fields beside TARGET, condition. -/
def branchRows : List ((CoreIx → DWord → Instr) × Nat × Nat × (DWord → Core → Bool)) :=
  [(.br, 3, 12, fun _ _ => true), (.brz, 4, 17, fun w k => decide (xget k (fld w 24 5) = 0#64)),
   (.brnz, 5, 17, fun w k => decide (xget k (fld w 24 5) ≠ 0#64)),
   (.brlt, 6, 22, fun w k => (xget k (fld w 24 5)).slt (xget k (fld w 29 5)))]

/-- The address-generator operations of R89: constructor, OP, operand fields, what becomes of the generator before its
indices are zeroed. -/
def agenRows : List ((CoreIx → DWord → Instr) × Nat × List (Nat × Nat) × (DWord → Core → AGen → AGen)) :=
  [(.base, 0, [(18, 18)], fun w _ g => { g with base := fld w 18 18 }),
   (.dim0, 1, [(18, 34)], fun w _ g => { g with stride0 := signedOf 18 (fld w 18 18), count0 := fld w 36 16 }),
   (.dim1, 2, [(18, 34)], fun w _ g => { g with stride1 := signedOf 18 (fld w 18 18), count1 := fld w 36 16 }),
   (.wrap, 3, [(18, 37)], fun w _ g => { g with wbase := fld w 18 18, wsize := fld w 36 19 }),
   (.reset, 4, [], fun _ _ g => g),
   (.baser, 5, [(16, 5)], fun w k g => { g with base := xnat k (fld w 16 5) % 2 ^ 18 })]

/-- The ARITH functions of R106: constructor, FUNC. -/
def arithRows : List ((CoreIx → DWord → Instr) × Nat) :=
  [(.arithAdd, 0), (.arithSub, 1), (.arithMul, 2), (.fma, 3), (.arithMin, 4), (.arithMax, 5), (.abs, 6), (.neg, 7),
   (.cmpeq, 8), (.cmplt, 9), (.cmple, 10), (.sel, 11), (.div, 12), (.sqrt, 13)]

/-- The TRANS functions of R106 and R107: constructor, FUNC. -/
def transRows : List ((CoreIx → DWord → Instr) × Nat) :=
  [(.rcp, 0), (.rsqrt, 1), (.exp2, 2), (.log2, 3), (.exp, 4), (.log, 5), (.tanh, 6), (.sigmoid, 7), (.erf, 8), (.sin, 9),
   (.cos, 10)]

/-- The REDUCE functions of R106 and R108: constructor, FUNC. -/
def reduceRows : List ((CoreIx → DWord → Instr) × Nat) :=
  [(.reduceSum, 0), (.reduceMax, 1), (.reduceMin, 2), (.reduceSumsq, 3)]

/-- The other rows of core instructions whose word must spell them by CLASS and OP (R78): constructor, CLASS, OP. -/
def otherCoreRows : List ((CoreIx → DWord → Instr) × Nat × Nat) :=
  [(.segend, 0, 1), (.swp, 0, 2), (.loop, 1, 0), (.loopr, 1, 1), (.lih, 3, 11), (.ld, 3, 12), (.st, 3, 13), (.mma, 4, 0),
   (.adrain, 4, 1), (.mcfg, 4, 2), (.arel, 4, 3), (.cvt, 5, 3), (.vld, 5, 4), (.vst, 5, 5), (.vrng, 5, 6), (.vacc, 5, 7),
   (.vperm, 5, 8), (.vmovx, 5, 9), (.barge, 6, 0), (.nmove, 6, 1), (.tadd, 7, 0), (.tarm, 7, 1), (.twait, 7, 2),
   (.tpoll, 7, 3), (.tcancel, 7, 4), (.heavy, 8, 0), (.book, 9, 0)]

/-! ### Scratch -/

/-- The words that `n` scratch bytes from `a` touch hold no bit in error, and no ADRAIN is under way (R79, R104). -/
def ScratchSound (k : Core) (a n : Nat) : Prop := k.drain = none ∧ ∀ w ∈ wordsOf a n, mapGet 0 k.scrUpset w = 0

/-! ### Device DRAM -/

/-- The `n` bytes of device DRAM from `a` are backed by channels that work (R50, R180). -/
def Works (s : State) (a n : Nat) : Prop :=
  ∀ i < n, ∃ q, locate s (a + i) = some q ∧ mapGet false s.chDead (q / 2 ^ 31) = false

/-- Device DRAM is as it was but for the `n` bytes from `a`. -/
def DramBut (a n : Nat) (s t : State) : Prop :=
  ∀ q, (∀ i < n, locate s (a + i) ≠ some q) → dramCell t q = dramCell s q

/-- The `n` bytes from `a` work, and each has a place of its own (R182, R190). -/
def Places (s : State) (a n : Nat) : Prop :=
  Works s a n ∧ ∀ i < n, ∀ j < n, locate s (a + i) = locate s (a + j) → i = j

/-- Reads of the `n` bytes of device DRAM from `a` meet no error (R180, R186). -/
def ReadsSound (s : State) (a n : Nat) : Prop :=
  Uninjected s ∧ ∀ i < n, ∃ q, locate s (a + i) = some q ∧ mapGet 0 s.dramSyms (q / 64) = 0 ∧ mapGet false s.chDead (q / 2 ^ 31) = false

/-- Reads of those of the `n` bytes of device DRAM from `a` that are backed meet no error (R50, R180, R186). -/
def BackedSound (s : State) (a n : Nat) : Prop :=
  Uninjected s ∧ ∀ i < n, ∀ q, locate s (a + i) = some q → mapGet 0 s.dramSyms (q / 64) = 0 ∧ mapGet false s.chDead (q / 2 ^ 31) = false

/-- The addresses of `n` bytes from `a`. -/
def spanOf (a n : Nat) : List Nat := (List.range n).map (a + ·)

/-- The addresses of device DRAM work, and each has a place of its own (R182, R190). -/
def Apart (s : State) (l : List Nat) : Prop :=
  (∀ a ∈ l, ∃ q, locate s a = some q ∧ mapGet false s.chDead (q / 2 ^ 31) = false) ∧ (l.map (locate s)).Nodup

/-- Where a device address lives: its region, with the physical place of device DRAM. -/
def placeAt (s : State) (a : Nat) : Region × Nat :=
  match regionOf a with
  | (.dram, o) => (.dram, (locate s o).getD 0)
  | r => r

/-- A device address that a transfer engine reads without meeting an error (R104, R186, R205, R208). -/
def SoundByte (s : State) (a : Nat) : Prop :=
  match regionOf a with
  | (.dram, o) => ∃ q, locate s o = some q ∧ mapGet 0 s.dramSyms (q / 64) = 0 ∧ mapGet false s.chDead (q / 2 ^ 31) = false
  | (.quay, o) => mapGet false s.quayBad (o / 4096) = false
  | (.scratch, o) => mapGet 0 (coreOf s (o / 0x40000)).scrUpset (o % 0x40000 / 8) = 0 ∧
      rd s (pgCore (o / 0x40000)) R.HEADER_ERR_INJ_ARM = 0
  | (.host, o) => o / 4096 ∉ s.hostHoles
  | _ => False

/-! ### Registers and settling -/

/-- A path carries an access to a page (R50, R58, R466). -/
def Reaches (p : Path) (g : Page) (s : State) : Prop := pathUp p s = true ∧ pathAllows p g s = true ∧ pageExists g = true

/-- `t` is what `u` comes to once everything that it has set in motion here has run its course: `u` itself where nothing is
on its way and no verdict or binding has a step to take. -/
def ComesTo (u t : State) : Prop := t = settled u ∧ (atRest u = true → pokeAll u = u → t = u)

/-- The answer of an access, all else as it was. -/
def answered (v err : Nat) (s : State) : State := { s with reply := ⟨v, err, false⟩ }

/-- The command completes, and what it has done here is `u`, with whatever that sets in motion carried to its end. -/
def EndsAs (c : Instr) (s u : State) : Prop := ∃ t, exec c s = .next t ∧ ComesTo u t

/-! ### Trains -/

/-- The rows of trains: constructor, TYPE, OP (R286). -/
def trainRows : List ((LinkIx → Train → Instr) × Nat × Nat) :=
  [(.write, 0, 0), (.readReq, 0, 1), (.readResp, 0, 2), (.writeAck, 0, 3), (.gatherReq, 0, 4), (.gatherData, 0, 5),
   (.gatherFwd, 0, 6), (.scatter, 0, 7), (.mirror, 0, 8), (.mirrorEnd, 0, 9), (.mirrorSkip, 0, 10), (.mirrorAck, 0, 11),
   (.verdictUp, 0, 12), (.verdictDown, 0, 13), (.deny, 0, 15), (.restoreReq, 0, 16), (.node, 6, 0),
   (fun k t => .tallyAdd (.frame k t), 1, 0)]

/-- Link `k` takes a train in: it carries it, its SEQs are new, and it is not malformed (R276, R284). -/
def TakenIn (k : Nat) (t : Train) (s : State) : Prop :=
  carries s t k = true ∧ (trainSeqs t).all (seqFresh (linkOf s k)) = true ∧ malformed (linkV1 s k) t = false ∧ Uninjected s

/-- Link `k` takes in the frame of an EMB message, which carries the SEQ expected next. -/
def EmbTaken (k : Nat) (e : EmbMsg) (s : State) : Prop :=
  linkEmb s k = true ∧ TakenIn k { embTrain e with seq := (linkOf s k).rxSeq } s

/-- A train on link `k` is for this module, for a job that has context `n` here, which is not being torn down, and of a
generation that a version held here records (R290); it waits behind no other (R316), and the link is not of version 1, whose
trains carry a tag extension (R282). -/
def ServedHere (k : Nat) (t : Train) (n : Nat) (x : Ctx) (s : State) : Prop :=
  t.dst = myId s ∧ trainCtx s t = some n ∧ ctxOf s n = some x ∧ tearing s n = false ∧ genKnown x t = true ∧
    waitsBehind s k t = false ∧ linkV1 s k = false

/-- `v` is `s` with a train taken in at link `k`: its frames counted and freed, its SEQs received, and where it comes in order
the next SEQ expected (R276, R288, R308). -/
def TookIn (k : Nat) (t : Train) (s v : State) : Prop :=
  (linkOf v k).rxSeq = (seqTake t (linkOf s k)).rxSeq ∧ (linkOf v k).rxGot = (seqTake t (linkOf s k)).rxGot ∧
  (linkOf v k).nak = (linkOf s k).nak ∧
  (t.gaps = [] → (linkOf s k).rxGot = [] → t.seq = (linkOf s k).rxSeq → t.seq < 4096 →
    (linkOf v k).rxSeq = (t.seq + frameCount t) % 4096) ∧
  rd v (pgLink k) R.LINK_RX_FRAMES = (rd s (pgLink k) R.LINK_RX_FRAMES + frameCount t) % 2 ^ R.LINK_RX_FRAMES.width ∧
  rd v (pgLink k) R.LINK_RX_BYTES =
    (rd s (pgLink k) R.LINK_RX_BYTES + (t.bodies.map (fun b => b.bytes.length)).sum) % 2 ^ R.LINK_RX_BYTES.width ∧
  { v with regs := s.regs, links := s.links } = s

/-- The rows of EMB messages: constructor, operation (R415). -/
def embRows : List ((LinkIx → EmbMsg → Instr) × Nat) :=
  [(.hello, 0), (.elect, 1), (.warden, 2), (.loss, 3), (.probe, 4), (.probeAck, 5), (.lost, 6), (.register, 7), (.recover, 8),
   (.replayPrep, 9), (.prepAnswer, 10), (.replay, 11), (.replayReq, 12), (.halt, 13), (.rollback, 14), (.durable, 15),
   (.rollbackReq, 16)]

/-! ### Resets -/

/-- No reset is pending and none comes out, no capture runs, and the module is not in safe mode. -/
def Quiet (s : State) : Prop :=
  rd s pgRst R.RST_STATUS_COMEOUT = 0 ∧ s.rst.pend = 0 ∧ s.rst.held = false ∧ s.rst.capture = none ∧ rd s pgEmb R.EMB_STATUS_SAFE = 0

/-- A source joined the asserted ones. -/
def joined (s : State) (b : Nat) : List Nat := if s.rst.asserted.contains b then s.rst.asserted else s.rst.asserted ++ [b]

/-- The source of bit `b` and rank `r` (1 COMPUTE, 2 MODULE, 3 SUPPLY, 4 FULL) has asserted and its reset has taken effect:
each reach clears what narrower ones do, and more (R446, R447). -/
def HasReset (b r : Nat) (s u : State) : Prop :=
  u.rst.held = true ∧ u.rst.pend = r ∧ u.rst.asserted = joined s b ∧ u.cores = [] ∧ u.binds = [] ∧ u.engines = [] ∧ u.stopAll = true ∧
    (2 ≤ r → u.ctxs = [] ∧ u.polTab = [] ∧ u.links = [] ∧ rd u pgSched R.SCHED_STATUS_RUNNING = 0) ∧
    (r ≤ 2 → u.dram = s.dram) ∧ (3 ≤ r → u.dram = []) ∧ (r = 4 → u.retained = [])

/-- The come-out of rank `r` has begun: no step of it is complete (R448, R453). -/
def ComesOut (r : Nat) (u : State) : Prop :=
  rd u pgRst R.RST_STATUS_COMEOUT = 1 ∧ rd u pgRst R.RST_STATUS_STEP = 0 ∧ u.rst.reach = r ∧ u.rst.pend = 0 ∧ u.rst.held = false

/-! ### What every step keeps -/

/-- The quay store and host memory are in canonical form, the pending reset, the come-out under way and the next one have one
of the five reaches, the TAP holds one of its four instructions, and an I3C dynamic address has seven bits. -/
def StaysLegal (s : State) : Prop :=
  cellsWf (fun _ => 0#8) s.quay = true ∧ cellsWf (fun _ => 0#8) s.host = true ∧ s.rst.pend ≤ 4 ∧ s.rst.reach ≤ 4 ∧ s.rst.again ≤ 4 ∧
    s.tap ≤ 3 ∧ ∀ a, s.i3cAddr = some a → a < 128

end Sys2Proof.Machine
end

