-- ==== Sys2Proof/WellFormed.lean ====
section
/-!
DEFINITION. Which commands are well formed: operands that a command carries from outside lie in the ranges their rules
give them.
-/

namespace Sys2Proof

open Machine

/-- A frame body whose byte count is its BODY_LEN, at most 252 (R284). -/
def FrameBody.wf (b : FrameBody) : Bool := b.bytes.length == b.len && decide (b.len ≤ 252)

/-- Whether a core instruction's word spells the row it comes under (R77, R78): CLASS and OP. -/
def spells (w : DWord) (cls op : Nat) : Bool := bitsOf w.toNat 0 4 == cls && bitsOf w.toNat 4 4 == op

/-- The same of a row of the vector class that FUNC tells apart (R106). -/
def spellsFn (w : DWord) (op func : Nat) : Bool := spells w 5 op && bitsOf w.toNat 37 6 == func

/-- Whether a row of the core's table is spelled by a word (R77, R78, R106): its CLASS lists the OP, and the vector classes
that FUNC divides list the FUNC. -/
def spellsRow (w : DWord) : Bool :=
  let cls := bitsOf w.toNat 0 4
  let op := bitsOf w.toNat 4 4
  decide (op < [7, 2, 6, 14, 4, 10, 2, 5, 1, 1].getD cls 0) &&
    (cls != 5 || decide (bitsOf w.toNat 37 6 < [14, 11, 4].getD op 64))

/-- Whether a train's bodies are as their lengths say (R284). -/
def Train.wf (t : Train) : Bool := t.bodies.all FrameBody.wf

/-- A command whose operands lie in the ranges that the rules give them: core words spell their rows (NOP carries the words
that spell none), bodies have their lengths, a device address has 48 bits, and a value fits its access. -/
def Instr.wf : Instr → Bool
  | .nop _ w => spells w 0 0 || !spellsRow w
  | .segend _ w => spells w 0 1
  | .swp _ w => spells w 0 2
  | .br _ w => spells w 0 3
  | .brz _ w => spells w 0 4
  | .brnz _ w => spells w 0 5
  | .brlt _ w => spells w 0 6
  | .loop _ w => spells w 1 0
  | .loopr _ w => spells w 1 1
  | .base _ w => spells w 2 0
  | .dim0 _ w => spells w 2 1
  | .dim1 _ w => spells w 2 2
  | .wrap _ w => spells w 2 3
  | .reset _ w => spells w 2 4
  | .baser _ w => spells w 2 5
  | .add _ w => spells w 3 0
  | .sub _ w => spells w 3 1
  | .andX _ w => spells w 3 2
  | .orX _ w => spells w 3 3
  | .xorX _ w => spells w 3 4
  | .shl _ w => spells w 3 5
  | .shr _ w => spells w 3 6
  | .sar _ w => spells w 3 7
  | .mul _ w => spells w 3 8
  | .slt _ w => spells w 3 9
  | .sltu _ w => spells w 3 10
  | .lih _ w => spells w 3 11
  | .ld _ w => spells w 3 12
  | .st _ w => spells w 3 13
  | .mma _ w => spells w 4 0
  | .adrain _ w => spells w 4 1
  | .mcfg _ w => spells w 4 2
  | .arel _ w => spells w 4 3
  | .cvt _ w => spells w 5 3
  | .vld _ w => spells w 5 4
  | .vst _ w => spells w 5 5
  | .vrng _ w => spells w 5 6
  | .vacc _ w => spells w 5 7
  | .vperm _ w => spells w 5 8
  | .vmovx _ w => spells w 5 9
  | .barge _ w => spells w 6 0
  | .nmove _ w => spells w 6 1
  | .tadd _ w => spells w 7 0
  | .tarm _ w => spells w 7 1
  | .twait _ w => spells w 7 2
  | .tpoll _ w => spells w 7 3
  | .tcancel _ w => spells w 7 4
  | .heavy _ w => spells w 8 0
  | .book _ w => spells w 9 0
  | .arithAdd _ w => spellsFn w 0 0
  | .arithSub _ w => spellsFn w 0 1
  | .arithMul _ w => spellsFn w 0 2
  | .fma _ w => spellsFn w 0 3
  | .arithMin _ w => spellsFn w 0 4
  | .arithMax _ w => spellsFn w 0 5
  | .abs _ w => spellsFn w 0 6
  | .neg _ w => spellsFn w 0 7
  | .cmpeq _ w => spellsFn w 0 8
  | .cmplt _ w => spellsFn w 0 9
  | .cmple _ w => spellsFn w 0 10
  | .sel _ w => spellsFn w 0 11
  | .div _ w => spellsFn w 0 12
  | .sqrt _ w => spellsFn w 0 13
  | .rcp _ w => spellsFn w 1 0
  | .rsqrt _ w => spellsFn w 1 1
  | .exp2 _ w => spellsFn w 1 2
  | .log2 _ w => spellsFn w 1 3
  | .exp _ w => spellsFn w 1 4
  | .log _ w => spellsFn w 1 5
  | .tanh _ w => spellsFn w 1 6
  | .sigmoid _ w => spellsFn w 1 7
  | .erf _ w => spellsFn w 1 8
  | .sin _ w => spellsFn w 1 9
  | .cos _ w => spellsFn w 1 10
  | .reduceSum _ w => spellsFn w 2 0
  | .reduceMax _ w => spellsFn w 2 1
  | .reduceMin _ w => spellsFn w 2 2
  | .reduceSumsq _ w => spellsFn w 2 3
  | .regWrite _ a width v | .multiwordWrite _ a width v => decide (a < 2 ^ 48) && decide (v < 2 ^ (8 * width))
  | .rcRead _ a _ | .multiwordRead _ a _ => decide (a < 2 ^ 48)
  | .node _ t | .gatherReq _ t | .gatherData _ t | .gatherFwd _ t | .scatter _ t | .restoreReq _ t | .mirror _ t => t.wf
  | .mirrorEnd _ t | .mirrorSkip _ t | .mirrorAck _ t | .verdictUp _ t | .verdictDown _ t | .write _ t | .readReq _ t => t.wf
  | .readResp _ t | .writeAck _ t | .deny _ t | .encap _ t | .frameForward _ t => t.wf
  | _ => true

end Sys2Proof
end

