-- ==== Sys2Proof/Certificates/Slice0/Obligations.lean ====
section
/-!
DEFINITION. The statements put to the provers: what each command does, what it leaves as it was, and what every step
keeps.
-/

open Sys2Proof Sys2Proof.Machine

/-! ### The step -/

/-- A step takes the command at the front of the queue and answers exec of it on the state with the queue's rest. -/
def Obligations.StepTakesTheFrontCommand : Prop :=
  ∀ (s : State) (c : Instr) (rest : List Instr),
    Sys2Proof.Machine.step { s with pending := c :: rest } = Sys2Proof.Machine.exec c { s with pending := rest }

/-- A command whose word does not spell its row names no event of the machine and stops as malformed (R77, R78): by
CLASS and OP, and by FUNC for ARITH, TRANS and REDUCE. A word of a reserved CLASS or of an OP or function that its
class does not list, and a word with a bit set outside its row's fields, raises ILLEGAL_INSN and does nothing: the
core stops with the word and its index recorded, its booking released (R77, R78, R114). -/
def Obligations.MalformedAndIllegalWords : Prop :=
  (∀ (c : CoreIx) (w : DWord) (s : State),
     (∀ r ∈ aluRows, ¬ (wClass w = 3 ∧ wOp w = r.2.1) → exec (r.1 c w) s = .fault .malformedCommand) ∧
     (∀ r ∈ branchRows, ¬ (wClass w = 0 ∧ wOp w = r.2.1) → exec (r.1 c w) s = .fault .malformedCommand) ∧
     (∀ r ∈ agenRows, ¬ (wClass w = 2 ∧ wOp w = r.2.1) → exec (r.1 c w) s = .fault .malformedCommand) ∧
     (∀ r ∈ arithRows, ¬ (wClass w = 5 ∧ wOp w = 0 ∧ fld w 37 6 = r.2) → exec (r.1 c w) s = .fault .malformedCommand) ∧
     (∀ r ∈ transRows, ¬ (wClass w = 5 ∧ wOp w = 1 ∧ fld w 37 6 = r.2) → exec (r.1 c w) s = .fault .malformedCommand) ∧
     (∀ r ∈ reduceRows, ¬ (wClass w = 5 ∧ wOp w = 2 ∧ fld w 37 6 = r.2) → exec (r.1 c w) s = .fault .malformedCommand) ∧
     (∀ r ∈ otherCoreRows, ¬ (wClass w = r.2.1 ∧ wOp w = r.2.2) → exec (r.1 c w) s = .fault .malformedCommand)) ∧
  (∀ (c : CoreIx) (w : DWord) (s : State), Issues c s →
     ((10 ≤ wClass w ∨ (∃ e ∈ [(0, 7), (1, 2), (2, 6), (3, 14), (4, 4), (5, 10), (6, 2), (7, 5), (8, 1), (9, 1)],
         wClass w = e.1 ∧ e.2 ≤ wOp w) ∨
         (∃ e ∈ [(0, 14), (1, 11), (2, 4)], wClass w = 5 ∧ wOp w = e.1 ∧ e.2 ≤ fld w 37 6) ∨
         wClass w = 0 ∧ wOp w = 0 ∧ onlyFields w [(0, 8)] = false) →
       ∃ t, exec (.nop c w) s = .next t ∧ RefusedAsIllegal c w s t) ∧
     (∀ r ∈ aluRows, wClass w = 3 → wOp w = r.2.1 → onlyFields w [(0, 8), (12, 16), (28, 32)] = false →
       ∃ t, exec (r.1 c w) s = .next t ∧ RefusedAsIllegal c w s t) ∧
     (∀ r ∈ branchRows, wClass w = 0 → wOp w = r.2.1 → onlyFields w [(0, 8), (12, r.2.2.1)] = false →
       ∃ t, exec (r.1 c w) s = .next t ∧ RefusedAsIllegal c w s t))

/-! ### Core: scalar, control, loops, generators -/

/-- A read of X0 gives 0 whatever was written to it, and a write to X0 changes nothing. The scalar operations of R80
complete on every core that issues: X[XD] takes the function of X[XA] and of X[XB] or the sign-extended immediate (XD
0 discards it), LIH the immediate in its high half; the pc moves on; every other part of the core, every other core,
memory and every register but the core's own event counters stay (R80). -/
def Obligations.ScalarRegistersAndOperations : Prop :=
  ((∀ (k : Core) (v : DWord), xget k 0 = 0#64 ∧ xset 0 v k = k) ∧
   (∀ (k : Core) (i j : Nat) (v : DWord), i ≠ 0 → xget (xset i v k) j = if j = i then v else xget k j)) ∧
  ((∀ (r : (CoreIx → DWord → Instr) × Nat × (DWord → DWord → DWord)), r ∈ aluRows →
     ∀ (c : CoreIx) (w : DWord) (s : State), Issues c s → Spelled 3 r.2.1 [(0, 8), (12, 16), (28, 32)] w →
       (fld w 27 1 = 0 → fld w 28 32 = 0) →
       ∃ t, exec (r.1 c w) s = .next t ∧ CoreAlone c s t ∧
         let k := atIssue s c
         let b := if fld w 27 1 = 1 then BitVec.ofInt 64 (signedOf 32 (fld w 28 32)) else xget k (fld w 22 5)
         coreOf t c = stepPc (xset (fld w 12 5) (r.2.2 (xget k (fld w 17 5)) b) k)) ∧
   (∀ (c : CoreIx) (w : DWord) (s : State), Issues c s → Spelled 3 11 [(0, 8), (12, 16), (28, 32)] w →
       (fld w 27 1 = 0 → fld w 28 32 = 0) →
       ∃ t, exec (.lih c w) s = .next t ∧ CoreAlone c s t ∧
         let k := atIssue s c
         coreOf t c = stepPc (xset (fld w 12 5)
           (BitVec.ofNat 64 (xnat k (fld w 12 5) % 2 ^ 32 + fld w 28 32 * 2 ^ 32)) k)))

/-- NOP moves the pc on and does nothing else; a branch whose condition holds and whose target lies in the segment's
image goes there and discards the loop levels whose body lacks the target, and one whose condition fails goes on (R82,
R87). -/
def Obligations.BranchesGoToTheirTarget : Prop :=
  (∀ (c : CoreIx) (w : DWord) (s : State), Issues c s → Spelled 0 0 [(0, 8)] w →
    ∃ t, exec (.nop c w) s = .next t ∧ CoreAlone c s t ∧ coreOf t c = stepPc (atIssue s c)) ∧
  (∀ (r : (CoreIx → DWord → Instr) × Nat × Nat × (DWord → Core → Bool)), r ∈ branchRows →
    ∀ (c : CoreIx) (w : DWord) (s : State) (st : Nat) (g : Seg), Issues c s → Spelled 0 r.2.1 [(0, 8), (12, r.2.2.1)] w →
      (coreOf s c).cur = some st → mapFind (coreOf s c).res st = some g →
      (g.len = 0 ∨ (g.idx ≤ fld w 12 12 ∧ fld w 12 12 < g.idx + g.len)) →
      ∃ t, exec (r.1 c w) s = .next t ∧ CoreAlone c s t ∧
        let k := atIssue s c
        coreOf t c = if r.2.2.2 w k then
            { k with ran := true, seq := { k.seq with
                pc := fld w 12 12,
                loops := k.seq.loops.filter (fun l => decide (l.start ≤ fld w 12 12 ∧ fld w 12 12 ≤ l.last)) } }
          else stepPc k)

/-- A hardware loop pushes a level that runs its body COUNT times from the next instruction to END, or goes on past
END with COUNT 0; COUNT is the field for LOOP and bits [31:0] of X[XA] for LOOPR. At the last instruction of a loop's
body the sequencer returns to the body's start while runs are left, and else leaves the level; elsewhere the pc grows
by one (R86, R87). -/
def Obligations.HardwareLoopsRun : Prop :=
  (∀ (c : CoreIx) (w : DWord) (s : State), Issues c s →
     (coreOf s c).seq.loops.length < 4 → (coreOf s c).seq.pc < fld w 36 12 →
     (∀ l ∈ (coreOf s c).seq.loops.head?, fld w 36 12 ≤ l.last) →
     let k := atIssue s c
     let after (n : Nat) : Core :=
       if n = 0 then
         { k with ran := true, seq := { k.seq with loops := (loopNext k.seq.loops (fld w 36 12)).1,
                                                   pc := (loopNext k.seq.loops (fld w 36 12)).2 } }
       else { k with ran := true, seq := { k.seq with loops := ⟨k.seq.pc + 1, fld w 36 12, n⟩ :: k.seq.loops, pc := k.seq.pc + 1 } }
     (Spelled 1 0 [(0, 8), (12, 36)] w →
       ∃ t, exec (.loop c w) s = .next t ∧ CoreAlone c s t ∧ coreOf t c = after (fld w 12 24)) ∧
     (Spelled 1 1 [(0, 8), (12, 5), (36, 12)] w →
       ∃ t, exec (.loopr c w) s = .next t ∧ CoreAlone c s t ∧ coreOf t c = after (xnat k (fld w 12 5) % 2 ^ 32))) ∧
  (∀ (k : Core) (l : LoopLevel) (ls : List LoopLevel), k.seq.loops = l :: ls →
     (k.seq.pc = l.last → 1 < l.left →
       (stepPc k).seq.pc = l.start ∧ (stepPc k).seq.loops = { l with left := l.left - 1 } :: ls) ∧
     (k.seq.pc = l.last → l.left ≤ 1 → (stepPc k).seq = (stepPc { k with seq := { k.seq with loops := ls } }).seq) ∧
     (k.seq.pc ≠ l.last → (stepPc k).seq.pc = k.seq.pc + 1 ∧ (stepPc k).seq.loops = l :: ls))

/-- The address-generator operations set the fields they name of generator AG 0 to 5 and zero both its indices; the
other generators stay; a COUNT of 0 stands for 65,536; AG 6 and 7, a window that ends above 0x4_0000 and OP 6 to 15
raise ILLEGAL_INSN, and the word does nothing (R89). -/
def Obligations.GeneratorsAreSet : Prop :=
  (∀ (g : AGen) (i : Nat), i < 65536 →
    (g.count0 = 0 → (agNext { g with i0 := i }).i0 = (i + 1) % 65536) ∧
    (g.count1 = 0 → g.count0 = 1 → (agNext { g with i0 := 0, i1 := i }).i1 = (i + 1) % 65536)) ∧
  (∀ (c : CoreIx) (w : DWord) (s : State), Issues c s → wClass w = 2 →
    (∀ r ∈ agenRows, wOp w = r.2.1 → (6 ≤ fld w 12 3 ∨ r.2.1 = 3 ∧ 0x40000 < fld w 18 18 + fld w 36 19) →
      ∃ t, exec (r.1 c w) s = .next t ∧ RefusedAsIllegal c w s t) ∧
    (6 ≤ wOp w → ∃ t, exec (.nop c w) s = .next t ∧ RefusedAsIllegal c w s t)) ∧
  ∀ (r : (CoreIx → DWord → Instr) × Nat × List (Nat × Nat) × (DWord → Core → AGen → AGen)), r ∈ agenRows →
    ∀ (c : CoreIx) (w : DWord) (s : State), Issues c s → Spelled 2 r.2.1 ((0, 8) :: (12, 3) :: r.2.2.1) w →
      fld w 12 3 < 6 → (r.2.1 = 3 → fld w 18 18 + fld w 36 19 ≤ 0x40000) →
      ∃ t, exec (r.1 c w) s = .next t ∧ CoreAlone c s t ∧
        let k := atIssue s c
        coreOf t c = stepPc (agSet (fld w 12 3)
          { r.2.2.2 w k (agOf k (fld w 12 3)) with i0 := 0, i1 := 0 } k)

/-- A generator's address is BASE + i0 × STRIDE0 + i1 × STRIDE1 in 32 bits, placed in the window of WSIZE bytes from
WBASE where WSIZE is not 0; each use advances i0, and i1 when i0 reaches COUNT0, both returning to 0 at their counts.
LD and VLD read scratch, in range and sound, from the named generator's address or X[XA] (LD plus OFFS) into their
register, LD zero- or sign-extended, VLD with the poison of the words read; all else stays. ST and VST write their
register's bytes to scratch, in range and sound, the least significant first; every byte of scratch outside those
reads as before, and all else but the generator and the pc stays (R80, R88, R105). -/
def Obligations.ScratchLoadsAndStores : Prop :=
  (∀ (g : AGen),
     (∀ a : Int, a = (g.base : Int) + g.i0 * g.stride0 + g.i1 * g.stride1 → -(2 ^ 31) ≤ a → a < 2 ^ 31 →
       (g.wsize = 0 → agAddr g = a) ∧
       (g.wsize ≠ 0 → agAddr g = g.wbase + (a - g.wbase) % g.wsize ∧
         (g.wbase : Int) ≤ agAddr g ∧ agAddr g < g.wbase + g.wsize)) ∧
     (let n0 := if g.count0 = 0 then 65536 else g.count0
      let n1 := if g.count1 = 0 then 65536 else g.count1
      (g.i0 + 1 ≠ n0 → agNext g = { g with i0 := g.i0 + 1 }) ∧
      (g.i0 + 1 = n0 → g.i1 + 1 ≠ n1 → agNext g = { g with i0 := 0, i1 := g.i1 + 1 }) ∧
      (g.i0 + 1 = n0 → g.i1 + 1 = n1 → agNext g = { g with i0 := 0, i1 := 0 }))) ∧
  (∀ (c : CoreIx) (w : DWord) (s : State), Issues c s → fld w 22 3 ≠ 7 →
     (∀ a : Nat, Spelled 3 12 [(0, 8), (12, 13), (25, 4), (29, 19)] w → fld w 28 1 = 0 →
       startAddr (coreOf s c) (fld w 22 3) (fld w 17 5) + signedOf 19 (fld w 29 19) = (a : Int) →
       a + 2 ^ fld w 25 2 ≤ 0x40000 → ScratchSound (coreOf s c) a (2 ^ fld w 25 2) →
       ∃ t, exec (.ld c w) s = .next t ∧ CoreAlone c s t ∧
         let k := atIssue s c
         let v := ofBytes (scrRead k a (2 ^ fld w 25 2))
         coreOf t c = stepPc (xset (fld w 12 5)
           (if fld w 27 1 = 1 then BitVec.ofInt 64 (signedOf (8 * 2 ^ fld w 25 2) v) else BitVec.ofNat 64 v)
           (agUse (fld w 22 3) k))) ∧
     (∀ a : Nat, Spelled 5 4 [(0, 11), (12, 13)] w → wCc w ≤ (coreOf s c).g →
       startAddr (coreOf s c) (fld w 22 3) (fld w 17 5) = (a : Int) → a + 64 ≤ 0x40000 → ScratchSound (coreOf s c) a 64 →
       ∃ t, exec (.vld c w) s = .next t ∧ CoreAlone c s t ∧
         let k := atIssue s c
         coreOf t c = stepPc (vset (fld w 12 5) (BitVec.ofNat 512 (ofBytes (scrRead k a 64))) (scrPoisoned k a 64)
           (agUse (fld w 22 3) k)))) ∧
  (∀ (c : CoreIx) (w : DWord) (s : State), Issues c s → fld w 22 3 ≠ 7 →
     (∀ a : Nat, Spelled 3 13 [(0, 8), (12, 13), (25, 4), (29, 19)] w → fld w 28 1 = 0 →
       startAddr (coreOf s c) (fld w 22 3) (fld w 17 5) + signedOf 19 (fld w 29 19) = (a : Int) →
       a + 2 ^ fld w 25 2 ≤ 0x40000 → ScratchSound (coreOf s c) a (2 ^ fld w 25 2) →
       ∃ t, exec (.st c w) s = .next t ∧ CoreAlone c s t ∧
         let k := atIssue s c
         (∀ b, scrCell (coreOf t c) b =
           if a ≤ b ∧ b < a + 2 ^ fld w 25 2 then BitVec.ofNat 8 (xnat k (fld w 12 5) / 256 ^ (b - a)) else scrCell k b) ∧
         (coreOf t c).seq = (stepPc (agUse (fld w 22 3) k)).seq ∧
         { coreOf t c with scr := k.scr, scrPoison := k.scrPoison, scrUpset := k.scrUpset, seq := k.seq, ran := k.ran } = k) ∧
     (∀ a : Nat, Spelled 5 5 [(0, 11), (12, 13)] w → wCc w ≤ (coreOf s c).g →
       startAddr (coreOf s c) (fld w 22 3) (fld w 17 5) = (a : Int) → a + 64 ≤ 0x40000 → ScratchSound (coreOf s c) a 64 →
       ∃ t, exec (.vst c w) s = .next t ∧ CoreAlone c s t ∧
         let k := atIssue s c
         (∀ b, scrCell (coreOf t c) b =
           if a ≤ b ∧ b < a + 64 then BitVec.ofNat 8 ((vget k (fld w 12 5)).toNat / 256 ^ (b - a)) else scrCell k b) ∧
         (coreOf t c).seq = (stepPc (agUse (fld w 22 3) k)).seq ∧
         { coreOf t c with scr := k.scr, scrPoison := k.scrPoison, scrUpset := k.scrUpset, seq := k.seq, ran := k.ran } = k))

/-! ### Core: memory, streams of control, booking, tallies, transfers -/

/-- LD and ST with SPACE 1 reach the core's own page at an aligned 4- or 8-byte offset below 0x4000: LD takes what the
page's registers read, and ST leaves every register of another page as it was. A register access by device address:
one that a path carries to a page of the aperture, in a shape that R56 performs, is the read or write of that page's
words; a closed window and a reserved slot end with ADDR_UNMAPPED, a wrong shape with REG_ACCESS, and neither changes
anything but the answer; the I3C target's READ_REG and WRITE_REG reach the same words (R50, R56, R57, R81, R466,
R503). -/
def Obligations.RegisterAccess : Prop :=
  (∀ (c : CoreIx) (w : DWord) (s : State) (a : Nat), Issues c s → fld w 22 3 ≠ 7 → fld w 28 1 = 1 →
     startAddr (coreOf s c) (fld w 22 3) (fld w 17 5) + signedOf 19 (fld w 29 19) = (a : Int) → a < 0x4000 →
     (fld w 25 2 = 2 ∧ a % 4 = 0 ∨ fld w 25 2 = 3 ∧ a % 8 = 0) →
     let page := if 0x1000 ≤ a ∧ a < 0x2000 then pgArray c else pgCore c
     (Spelled 3 12 [(0, 8), (12, 13), (25, 4), (29, 19)] w →
       ∃ t, exec (.ld c w) s = .next t ∧
         (fld w 12 5 ≠ 0 → xget (coreOf t c) (fld w 12 5) =
           let v := (readPage 2 page a (2 ^ fld w 25 2) (modCore c (fun k => { k with bpPass := false }) s)).1
           if fld w 27 1 = 1 then BitVec.ofInt 64 (signedOf (8 * 2 ^ fld w 25 2) v) else BitVec.ofNat 64 v)) ∧
     (Spelled 3 13 [(0, 8), (12, 13), (25, 4), (29, 19)] w →
       ∃ t, exec (.st c w) s = .next t ∧ (coreOf t c).seq = (stepPc (agUse (fld w 22 3) (atIssue s c))).seq ∧
         (∀ d, d ≠ c.val → coreOf t d = coreOf s d) ∧
         (∀ key, keyPage key ≠ pageKey (pgCore c) → keyPage key ≠ pageKey (pgArray c) →
           mapFind t.regs key = mapFind s.regs key))) ∧
  ((∀ (p : Path) (o width v : Nat) (s : State) (g : Page) (off : Nat), o < 0x1000_0000 → pageAt o = some (g, off) →
     pathUp p s = true →
     let a := 2 * 2 ^ 40 + o
     let read : State := { (readPage (pathCode p) g off width s).2 with reply := ⟨(readPage (pathCode p) g off width s).1, 0, false⟩ }
     (pathAllows p g s = true → accessShape a width = true →
       exec (.rcRead p a width) s = .next read ∧ exec (.multiwordRead p a width) s = .next read ∧
       (width = 4 → ∃ t, exec (.aliasAccess p a false false) s = .next t ∧ ComesTo read t) ∧
       (pathIgnores p g off = false →
         let u (w x : Nat) : State := writePage topHook (pathCode p) g off w x (answered 0 0 s)
         (∃ t, exec (.regWrite p a width v) s = .next t ∧ ComesTo (u width v) t) ∧
         (∃ t, exec (.multiwordWrite p a width v) s = .next t ∧ ComesTo (u width v) t) ∧
         (width = 4 → ∀ bit, ∃ t, exec (.aliasAccess p a true bit) s = .next t ∧ ComesTo (u 4 (b2n bit)) t))) ∧
     (pathAllows p g s = false → exec (.rcRead p a width) s = .next (answered 0 0x0002 s)) ∧
     (pathAllows p g s = true → accessShape a width = false → exec (.rcRead p a width) s = .next (answered 0 0x0001 s))) ∧
   (∀ (p : Path) (o width : Nat) (s : State), o < 0x1000_0000 → pageAt o = none → pathUp p s = true →
     exec (.rcRead p (2 * 2 ^ 40 + o) width) s = .next (answered 0 0x0002 s)) ∧
   (∀ (a v : Nat) (s : State) (g : Page) (off : Nat), pageAt a = some (g, off) → mainOn s = true → i3cServed s = true →
     a % 4 = 0 →
     (0x0C00_0000 ≤ a → i3cReads g = true →
       exec (.readReg a) s = .next { (readOff 1 g off s).2 with i3cRead := bytesOf 4 (readOff 1 g off s).1 }) ∧
     (g.cls = .pwr ∨ g.cls = .aon → exec (.writeReg a v) s = .next (writeOff topHook 1 g off (v % 2 ^ 32) s))))

/-- SEGEND with nothing of the segment in flight ends it: its stream is resident no more, the booking is released to
class 0, the tally slots are cancelled, and the resident segment of highest priority, BWD, FWD, AUX, takes over. SWP
declares the live set of scratch and accumulators and goes on; with YIELD and another resident segment, the state of
the present stream is saved and that of the first other of BWD, FWD, AUX restored (R83 to R85). -/
def Obligations.SegmentsEndAndSwitch : Prop :=
  (∀ (c : CoreIx) (w : DWord) (s : State) (st : Nat), Issues c s → Spelled 0 1 [(0, 8)] w →
     (coreOf s c).cur = some st → (coreOf s c).queue = [] → (coreOf s c).drain = none → (coreOf s c).nmoves = [] →
     ∃ t, exec (.segend c w) s = .next t ∧
       mapFind (coreOf t c).res st = none ∧ (coreOf t c).g = 0 ∧ (coreOf t c).bookPend = false ∧ (coreOf t c).slots = [] ∧
       (coreOf t c).cur = [1, 0, 2].find? (fun o => (mapFind (mapDel (coreOf s c).res st) o).isSome) ∧
       (∀ d, d ≠ c.val → coreOf t d = coreOf s d)) ∧
  (∀ (c : CoreIx) (w : DWord) (s : State), Issues c s → Spelled 0 2 [(0, 8), (12, 20)] w →
     fld w 21 8 + fld w 12 9 ≤ 256 →
     ∃ t, exec (.swp c w) s = .next t ∧
       (coreOf t c).liveKib = fld w 12 9 ∧ (coreOf t c).liveBase = fld w 21 8 ∧ (coreOf t c).accLive = fld w 29 2 ∧
       (∀ d, d ≠ c.val → coreOf t d = coreOf s d) ∧
       (let k := atIssue s c
        let other := [1, 0, 2].find? (fun o => (mapFind k.res o).isSome && some o != k.cur)
        (fld w 31 1 = 0 ∨ other = none → (coreOf t c).seq = (stepPc k).seq ∧ (coreOf t c).cur = k.cur) ∧
        (∀ o cur, fld w 31 1 = 1 → other = some o → k.cur = some cur →
          (coreOf t c).cur = some o ∧ (coreOf t c).seq = (mapFind k.saved o).getD .zero ∧
          mapFind (coreOf t c).saved cur = some (stepPc k).seq)))

/-- BOOK lowers the booking once no heavier work is in flight, a release setting out for the sluice, and asks the
sluice for a raise, retiring at once where WAIT is 0 and staying where WAIT is 1; HEAVY puts the core's hint, in place
of its earlier one, into its region, and DUR 0 withdraws it. A grant: the request at the head of a sluice is granted
where the ledger, the increase and the reserve fit the admitted budget and the ramp bucket holds the increase or a
hint skips it; the ledger and the requester then hold its class. A release that arrives lowers the ledger. A core's
hint arms, and an armed one expires (R90, R92, R373 to R375, R377). -/
def Obligations.BookingsAreAskedAndGranted : Prop :=
  (∀ (c : CoreIx) (w : DWord) (s : State), Issues c s →
     (Spelled 9 0 [(0, 8), (12, 4)] w →
       (fld w 12 3 < (coreOf s c).g → heavyAbove (coreOf s c) (fld w 12 3) = false →
         ∃ t, exec (.book c w) s = .next t ∧ (coreOf t c).g = fld w 12 3 ∧ (coreOf t c).bookPend = false ∧
           (coreOf t c).seq = (stepPc (coreOf s c)).seq ∧
           (sluiceOf t (regionOfCore c)).releases =
             (sluiceOf s (regionOfCore c)).releases ++ [⟨tickOf s, false, c, fld w 12 3⟩]) ∧
       ((coreOf s c).g < fld w 12 3 → (coreOf s c).bookPend = false →
         ∃ t, exec (.book c w) s = .next t ∧ (coreOf t c).g = (coreOf s c).g ∧ (coreOf t c).bookPend = true ∧
           (coreOf t c).req = fld w 12 3 ∧
           ⟨tickOf s, false, c, fld w 12 3⟩ ∈ (sluiceOf t (regionOfCore c)).waiting ∧
           (coreOf t c).seq = (if fld w 15 1 = 1 then (coreOf s c).seq else (stepPc (coreOf s c)).seq) ∧
           (coreOf t c).waitBook = decide (fld w 15 1 = 1))) ∧
     (Spelled 8 0 [(0, 8), (12, 35)] w →
       ∃ t, exec (.heavy c w) s = .next t ∧ coreOf t c = stepPc (atIssue s c) ∧
         (sluiceOf t (regionOfCore c)).hints =
           (sluiceOf s (regionOfCore c)).hints.filter (fun h => h.core != c.val) ++
             (if fld w 15 16 = 0 then [] else
               [⟨c, fld w 12 3, tickOf s + (fld w 31 16 - 20) * 100, tickOf s + max (fld w 31 16) 20 * 100,
                 tickOf s + max (fld w 31 16) 20 * 100 + fld w 15 16 * 100, false, false⟩]))) ∧
  ((∀ (r : RegionIx) (s : State) (q : BookReq) (qs : List BookReq), (sluiceOf s r).waiting = q :: qs → s.stopAll = false →
     (∀ b ∈ (sluiceOf s r).releases, b.eng ≠ q.eng ∨ b.who ≠ q.who) →
     let v := vOf s (r.val / 16)
     let h := reserveAt s r (kOf s r) (if hinted s r q then some q.who else none)
     let fits := ((ampsAt (kOf s r) v (ledgerCal s r + deltaCal s r q)).add h).le (admitLimit s r)
     (fits = true → hinted s r q = true ∨ deltaUa s r q ≤ (sluiceOf s r).bucket →
       ∃ t, exec (.sluiceGrant r) s = .next t ∧ (sluiceOf t r).waiting = qs ∧ ledgerCls t r q.eng q.who = q.cls ∧
         (sluiceOf t r).bucket = (sluiceOf s r).bucket - (if hinted s r q then 0 else deltaUa s r q) ∧
         (q.eng = true → (engOf t q.who).cls = q.cls ∧ (engOf t q.who).ask = 0 ∧ t.cores = s.cores) ∧
         (q.eng = false → (coreOf t q.who).g = q.cls ∧ (coreOf t q.who).bookPend = false ∧ t.engines = s.engines ∧
           ∀ c, c ≠ q.who → coreOf t c = coreOf s c) ∧
         (∀ (e : Bool) (w : Nat), (e, w) ≠ (q.eng, q.who) → ledgerCls t r e w = ledgerCls s r e w)) ∧
     (fits = false ∨ hinted s r q = false ∧ (sluiceOf s r).bucket < deltaUa s r q → exec (.sluiceGrant r) s = .next s)) ∧
   (∀ (r : RegionIx) (s : State) (q : BookReq) (qs : List BookReq), (sluiceOf s r).releases = q :: qs →
     ∃ t, exec (.bookRelease r) s = .next t ∧ (sluiceOf t r).releases = qs ∧ ledgerCls t r q.eng q.who = q.cls ∧
       (sluiceOf t r).waiting = (sluiceOf s r).waiting ∧
       (∀ (e : Bool) (w : Nat), (e, w) ≠ (q.eng, q.who) → ledgerCls t r e w = ledgerCls s r e w) ∧
       (∀ k : Nat, k ≠ r.val → sluiceOf t k = sluiceOf s k) ∧ { t with sluices := s.sluices } = s) ∧
   ∀ (c : CoreIx) (s : State),
     let hs := (sluiceOf s (regionOfCore c)).hints
     (∃ t, exec (.hintArming c) s = .next t ∧ { t with sluices := s.sluices } = s ∧
       (sluiceOf t (regionOfCore c)).hints.length = hs.length ∧
       ∀ (i : Nat) (h : Hint), hs[i]? = some h →
         (sluiceOf t (regionOfCore c)).hints[i]? = some { h with armed := h.armed || decide (h.core = c.val) }) ∧
     (∃ t, exec (.hintExpiry c) s = .next t ∧ { t with sluices := s.sluices } = s ∧
       (∀ h : Hint, h ∈ (sluiceOf t (regionOfCore c)).hints ↔ h ∈ hs ∧ ¬ (h.core = c.val ∧ h.armed = true)) ∧
       (sluiceOf t (regionOfCore c)).waiting = (sluiceOf s (regionOfCore c)).waiting))

/-- TADD adds its value modulo 2^64 to a local tally in backed device DRAM, every byte outside the tally's eight
reading as before; an armed wait unit that watches the tally sees the new value. TARM arms a free slot on its tally,
in sight of a value already at the threshold; TPOLL and TWAIT write the satisfied subset of MASK, an unarmed slot
counting as satisfied, and TWAIT, once all (ALL) or any of MASK are satisfied, disarms those; TCANCEL disarms MASK. A
wait unit that has seen its tally at or above the threshold satisfies its slot, whatever the tally reads now; no other
slot, core or register changes (R94 to R96, R354). -/
def Obligations.TalliesOnTheCore : Prop :=
  (∀ (c : CoreIx) (w : DWord) (s : State), Issues c s → Spelled 7 0 [(0, 8), (12, 15), (27, 33)] w → fld w 22 5 = 0 →
     let k := atIssue s c
     let a := xnat k (fld w 12 5)
     let v := if fld w 27 1 = 1 then (BitVec.ofInt 64 (signedOf 32 (fld w 28 32)) : DWord).toNat else xnat k (fld w 17 5)
     a % 8 = 0 → a < 2 ^ 40 → backed s a 8 = true →
     (∀ q, locate s a = some q → mapGet false s.chDead (q / 2 ^ 31) = false) →
     ∃ t, exec (.tadd c w) s = .next t ∧ dramWord t a = (dramWord s a + v) % 2 ^ 64 ∧
       (coreOf t c).seq = (stepPc k).seq ∧
       (∀ i x, mapFind k.slots i = some x → x.addr = a →
         mapFind (coreOf t c).slots i = some { x with seen := x.seen || decide (x.thr ≤ (dramWord s a + v) % 2 ^ 64) }) ∧
       (∀ q, (∀ i < 8, locate s (a + i) ≠ some q) → dramCell t q = dramCell s q)) ∧
  (∀ (c : CoreIx) (w : DWord) (s : State), Issues c s →
     let k := atIssue s c
     let sub := satSubset k (fld w 12 4)
     (Spelled 7 1 [(0, 8), (12, 2), (17, 10)] w → mapFind k.slots (fld w 12 2) = none →
       xnat k (fld w 17 5) % 8 = 0 → xnat k (fld w 17 5) < 2 ^ 40 → backed s (xnat k (fld w 17 5)) 8 = true →
       unitsUsed (modCore c (fun k => { k with bpPass := false }) s) (dieOfCore c) < 1024 →
       ∃ t, exec (.tarm c w) s = .next t ∧ CoreAlone c s t ∧
         coreOf t c = stepPc { k with slots := (mapPut k.slots (fld w 12 2)
           ⟨xnat k (fld w 17 5), xnat k (fld w 22 5), decide (xnat k (fld w 22 5) ≤ dramWord s (xnat k (fld w 17 5))), false⟩) }) ∧
     (Spelled 7 2 [(0, 8), (12, 5), (17, 5)] w →
       (fld w 12 4 = 0 ∨ sub = fld w 12 4 ∨ fld w 16 1 = 0 ∧ sub ≠ 0) →
       ∃ t, exec (.twait c w) s = .next t ∧ CoreAlone c s t ∧
         coreOf t c = stepPc (xset (fld w 17 5) (BitVec.ofNat 64 sub)
           { k with slots := mapDrop k.slots (fun i => bitSet sub i) })) ∧
     (Spelled 7 3 [(0, 8), (12, 4), (17, 5)] w →
       ∃ t, exec (.tpoll c w) s = .next t ∧ CoreAlone c s t ∧
         coreOf t c = stepPc (xset (fld w 17 5) (BitVec.ofNat 64 sub) k)) ∧
     (Spelled 7 4 [(0, 8), (12, 4)] w →
       ∃ t, exec (.tcancel c w) s = .next t ∧ CoreAlone c s t ∧
         coreOf t c = stepPc { k with slots := mapDrop k.slots (fun i => bitSet (fld w 12 4) i) })) ∧
  ((∀ (c : CoreIx) (i : Fin 4) (s : State) (t0 : TSlot), mapFind (coreOf s c).slots i = some t0 → t0.seen = true →
     ∃ t, exec (.tallySatisfied (.core c i)) s = .next t ∧
       mapFind (coreOf t c).slots i = some { t0 with sat := true } ∧
       (∀ j, j ≠ i.val → mapFind (coreOf t c).slots j = mapFind (coreOf s c).slots j) ∧
       (∀ d, d ≠ c.val → coreOf t d = coreOf s d) ∧ { t with cores := s.cores } = s) ∧
   (∀ (n : CtxIx) (st : StreamIx) (s : State) (t0 : TSlot), mapFind s.fwait (n * 4 + st) = some t0 → t0.seen = true →
     ∃ t, exec (.tallySatisfied (.fetcher n st)) s = .next t ∧
       mapFind t.fwait (n * 4 + st) = some { t0 with sat := true } ∧ { t with fwait := s.fwait } = s))

/-- BARGE copies the 16 words of its 64-byte aligned descriptor at issue to the end of its open engine's queue, and
goes on. NMOVE of 1 to 4,096 bytes to or from a neighbour of the same polder starts where fewer than two run, and
NMOVE_COMPLETE of a push whose bytes are sound ends it with the bytes in the neighbour's scratch (R97 to R99, R513). -/
def Obligations.CoreTransfersStart : Prop :=
  (∀ (c : CoreIx) (w : DWord) (s : State) (a : Nat), Issues c s → Spelled 6 0 [(0, 8), (12, 13)] w → fld w 17 3 ≠ 7 →
     fld w 24 1 = 0 → startAddr (coreOf s c) (fld w 17 3) (fld w 12 5) = (a : Int) → a % 64 = 0 → a + 64 ≤ 0x40000 →
     ScratchSound (coreOf s c) a 64 →
     let e := dieOfCore c * 16 + fld w 20 4
     engShut s e = false → (engOf s e).jobs.length < 32 →
     ∃ t, exec (.barge c w) s = .next t ∧ coreOf t c = stepPc (agUse (fld w 17 3) (atIssue s c)) ∧
       (∃ j, (engOf t e).jobs = (engOf s e).jobs ++ [j] ∧ j.phase = 0 ∧
         j.words = wordsOfBytes 16 (scrRead (coreOf s c) a 64) ∧ j.tag = coreTag s (coreOf s c)) ∧
       (∀ e', e' ≠ e → engOf t e' = engOf s e')) ∧
  ((∀ (c : CoreIx) (w : DWord) (s : State) (peer : Nat), Issues c s →
     Spelled 6 1 [(0, 11), (12, 4), (16, 46)] w → fld w 12 3 < 4 → wCc w ≤ (coreOf s c).g → fld w 21 5 = 0 →
     neighbour c (fld w 12 3) = some peer → polderOfCore s c = polderOfCore s peer →
     let k := atIssue s c
     0 < xnat k (fld w 16 5) → xnat k (fld w 16 5) ≤ 4096 → fld w 26 18 + xnat k (fld w 16 5) ≤ 0x40000 →
     fld w 44 18 + xnat k (fld w 16 5) ≤ 0x40000 → k.nmoves.length < 2 →
     ∃ t, exec (.nmove c w) s = .next t ∧ CoreAlone c s t ∧
       coreOf t c = stepPc { k with nmoves := k.nmoves ++
         [⟨wCc w, fld w 15 1 == 1, peer, xnat k (fld w 16 5), fld w 26 18, fld w 44 18, none, w.toNat, k.seq.pc⟩] }) ∧
   (∀ (c : CoreIx) (s : State) (m : NMove) (rest : List NMove), (coreOf s c).nmoves = m :: rest → m.pull = false →
     m.tally = none → m.peer ≠ c.val → (∀ x ∈ wordsOf m.loc m.len, mapGet 0 (coreOf s c).scrUpset x = 0) →
     Uninjected s →
     ∃ t, exec (.nmoveComplete c true) s = .next t ∧ (coreOf t c).nmoves = rest ∧
       (∀ b, scrCell (coreOf t m.peer) b = if m.remote ≤ b ∧ b < m.remote + m.len then scrCell (coreOf s c) (m.loc + (b - m.remote))
         else scrCell (coreOf s m.peer) b) ∧
       (∀ d, d ≠ c.val → d ≠ m.peer → coreOf t d = coreOf s d)))

/-! ### The vector unit -/

/-- Every ARITH, TRANS and REDUCE function, at a legal format and rounding mode and booked at its CC or above, writes
its result over the lanes of its operands to VD, poisoned where an operand that it reads is, and moves on; all else
stays. On INT32 lanes ADD, SUB, MUL and FMA keep the low 32 bits of the exact result, MIN, MAX, CMPLT and CMPLE
compare as signed, ABS and NEG give −2^31 for −2^31, comparisons write all ones or zero, and SEL takes VA's lane where
VC's is not zero. A reduction leaves every lane but lane 0 zero (R105, R106, R108). -/
def Obligations.VectorArithmetic : Prop :=
  (∀ (c : CoreIx) (w : DWord) (s : State), Issues c s → wClass w = 5 → wCc w ≤ (coreOf s c).g →
     let k := atIssue s c
     let a := vget k (fld w 17 5)
     let b := vget k (fld w 22 5)
     let x := vget k (fld w 27 5)
     (∀ r ∈ arithRows, wOp w = 0 → fld w 37 6 = r.2 → onlyFields w [(0, 11), (12, 31)] = true → fld w 32 2 ≠ 3 → fld w 34 3 < 4 →
       (fld w 32 2 = 2 → r.2 < 12) →
       ∃ t, exec (r.1 c w) s = .next t ∧ CoreAlone c s t ∧
         coreOf t c = stepPc (vset (fld w 12 5) (vecArith (fld w 32 2) r.2 (fld w 34 3) a b x)
           (vbad k (fld w 17 5) || (r.2 != 6 && r.2 != 7 && r.2 != 13 && vbad k (fld w 22 5)) ||
             ((r.2 == 3 || r.2 == 11) && vbad k (fld w 27 5))) k)) ∧
     (∀ r ∈ transRows, wOp w = 1 → fld w 37 6 = r.2 → onlyFields w [(0, 11), (12, 10), (32, 11)] = true → fld w 32 2 < 2 →
       fld w 34 3 < 5 → (r.2 = 0 → fld w 34 3 < 4) → (fld w 32 2 = 1 → r.2 < 6) →
       ∃ t, exec (r.1 c w) s = .next t ∧ CoreAlone c s t ∧
         coreOf t c = stepPc (vset (fld w 12 5) (vecTrans (fld w 32 2) r.2 (fld w 34 3) a) (vbad k (fld w 17 5)) k)) ∧
     (∀ r ∈ reduceRows, wOp w = 2 → fld w 37 6 = r.2 → onlyFields w [(0, 11), (12, 10), (32, 11)] = true → fld w 32 2 ≠ 3 →
       fld w 34 3 < 4 →
       ∃ t, exec (r.1 c w) s = .next t ∧ CoreAlone c s t ∧
         coreOf t c = stepPc (vset (fld w 12 5) (vecReduce (fld w 32 2) r.2 (fld w 34 3) a) (vbad k (fld w 17 5)) k))) ∧
  (∀ (rm : Nat) (a b x : VReg) (i : Nat), i < 16 →
     let lane (f : Nat) : Nat := laneOf 32 (vecArith 2 f rm a b x) i
     let p := laneOf 32 a i
     let q := laneOf 32 b i
     let r := laneOf 32 x i
     lane 0 = (p + q) % 2 ^ 32 ∧ lane 1 = (p + 2 ^ 32 - q) % 2 ^ 32 ∧ lane 2 = p * q % 2 ^ 32 ∧ lane 3 = (p * q + r) % 2 ^ 32 ∧
     lane 4 = (if signedOf 32 p ≤ signedOf 32 q then p else q) ∧ lane 5 = (if signedOf 32 p ≤ signedOf 32 q then q else p) ∧
     (p = 2 ^ 31 → lane 6 = 2 ^ 31 ∧ lane 7 = 2 ^ 31) ∧ lane 7 = (2 ^ 32 - p) % 2 ^ 32 ∧
     lane 8 = (if p = q then 2 ^ 32 - 1 else 0) ∧ lane 9 = (if signedOf 32 p < signedOf 32 q then 2 ^ 32 - 1 else 0) ∧
     lane 10 = (if signedOf 32 p ≤ signedOf 32 q then 2 ^ 32 - 1 else 0) ∧ lane 11 = (if r ≠ 0 then p else q)) ∧
  (∀ (fmt func rm : Nat) (a : VReg) (l : Nat), fmt < 3 → func < 4 → 0 < l → l < laneCount fmt →
     laneOf (laneBits fmt) (vecReduce fmt func rm a) l = 0)

/-- VPERM takes lane l + SHIFT of VA for lane l of VD where that index lies in 0 to N − 1, else lane (l + SHIFT) mod N
of VB; N is 8 for FP64 and 16 otherwise (R109). -/
def Obligations.PermuteTakesShiftedLanes : Prop :=
  ∀ (c : CoreIx) (w : DWord) (s : State), Issues c s → wClass w = 5 → wOp w = 8 → wCc w ≤ (coreOf s c).g →
    onlyFields w [(0, 11), (12, 22)] = true → fld w 32 2 ≠ 3 →
    let k := atIssue s c
    let n : Int := if fld w 32 2 = 1 then 8 else 16
    let b := if fld w 32 2 = 1 then 64 else 32
    let va := vget k (fld w 17 5)
    let vb := vget k (fld w 22 5)
    ∃ t vd, exec (.vperm c w) s = .next t ∧ CoreAlone c s t ∧
      coreOf t c = stepPc (vset (fld w 12 5) vd (vbad k (fld w 17 5) || vbad k (fld w 22 5)) k) ∧
      ∀ l : Nat, (l : Int) < n →
        let i := (l : Int) + signedOf 5 (fld w 27 5)
        laneOf b vd l = if 0 ≤ i ∧ i < n then laneOf b va i.toNat else laneOf b vb (i % n).toNat

/-- CVT, VRNG, VMOVX and VACC write their result, at legal fields and booked at their CC or above, and move on; all
else stays: CVT converts with the words of the core's Philox lane where RM is 4, VRNG writes 16 of them, VMOVX moves
one lane to or from a scalar register, VACC reads 16 accumulator entries (R105, R110, R111). -/
def Obligations.VectorMovesAndConversions : Prop :=
  ∀ (c : CoreIx) (w : DWord) (s : State), Issues c s → wClass w = 5 → wCc w ≤ (coreOf s c).g →
    let k := atIssue s c
    let draw (l : Nat) : Nat := drawWord (coreSeed s k) (xnat k (fld w 43 5)) (coreDrawStep s k) (xnat k (fld w 38 5) + l)
    (∀ src dst, wOp w = 3 → onlyFields w [(0, 11), (12, 36)] = true → fmtOfCode (fld w 22 6) = some src →
      fmtOfCode (fld w 28 6) = some dst → fld w 34 3 < 5 → (fld w 37 1 = 1 → fld w 28 6 = 4) →
      ∃ t, exec (.cvt c w) s = .next t ∧ CoreAlone c s t ∧
        coreOf t c = stepPc (vset (fld w 12 5)
          (vecCvt src dst (fld w 34 3) (fld w 37 1 == 1) (if fld w 34 3 = 4 then draw else fun _ => 0) (vget k (fld w 17 5)))
          (vbad k (fld w 17 5)) k)) ∧
    (wOp w = 6 → onlyFields w [(0, 11), (12, 5), (38, 10)] = true →
      ∃ t, exec (.vrng c w) s = .next t ∧ CoreAlone c s t ∧
        coreOf t c = stepPc (vset (fld w 12 5) (packLanes 32 ((List.range 16).map draw)) false k)) ∧
    (wOp w = 9 → onlyFields w [(0, 11), (12, 15), (32, 2)] = true → fld w 32 2 ≠ 3 → (fld w 32 2 = 1 → fld w 22 4 < 8) →
      ∃ t, exec (.vmovx c w) s = .next t ∧ CoreAlone c s t ∧
        let b := laneBits (fld w 32 2)
        let v := laneOf b (vget k (fld w 17 5)) (fld w 22 4)
        coreOf t c = stepPc (if fld w 26 1 = 0 then
            vset (fld w 12 5) (putLane b (vget k (fld w 12 5)) (fld w 22 4) (xnat k (fld w 17 5))) (vbad k (fld w 12 5)) k
          else xset (fld w 12 5) (if fld w 32 2 = 2 then BitVec.ofInt 64 (signedOf 32 v) else BitVec.ofNat 64 v) k)) ∧
    (wOp w = 7 → onlyFields w [(0, 11), (12, 18)] = true → fld w 18 12 + 15 ≤ 4095 →
      ¬ ((accOf k (fld w 17 1)).st = 1 ∧ inflight k (fld w 17 1) ≠ 0) →
      (∀ i < 16, mapGet 0 (accOf k (fld w 17 1)).upset (fld w 18 12 + i) = 0) →
      ∃ t, exec (.vacc c w) s = .next t ∧ CoreAlone c s t ∧
        let es := (List.range 16).map (· + fld w 18 12)
        coreOf t c = stepPc (vset (fld w 12 5) (packLanes 32 (es.map (accEnt (accOf k (fld w 17 1)))))
          (es.any (fun e => mapGet false (accOf k (fld w 17 1)).bad e)) k))

/-! ### The matrix array -/

/-- MCFG sets a legal configuration and AREL makes an OPEN accumulator with nothing in flight IDLE; an MMA with a zero
dimension retires and is counted, and nothing else. A legal MMA that its booking covers, into an IDLE accumulator with
CONT 0 or continuing the open tile of the same shape and kind, enters the queue with its operands captured and moves
on; with CONT 0 its tile is opened (R120, R124 to R126, R133, R139). -/
def Obligations.MmaConfigurationAndIssue : Prop :=
  (∀ (c : CoreIx) (w : DWord) (s : State), Issues c s →
     let k := atIssue s c
     (Spelled 4 2 [(0, 8), (12, 19)] w → pairLegal (fld w 12 4) (fld w 16 4) (fld w 20 1) = true →
       ∃ t, exec (.mcfg c w) s = .next t ∧ CoreAlone c s t ∧
         coreOf t c = stepPc { k with cfg := ⟨fld w 12 4, fld w 16 4, fld w 20 1, fld w 21 5, fld w 26 5⟩ }) ∧
     (Spelled 4 3 [(0, 8), (20, 1)] w → inflight k (fld w 20 1) = 0 →
       ∃ t, exec (.arel c w) s = .next t ∧ CoreAlone c s t ∧
         coreOf t c = stepPc (if (accOf k (fld w 20 1)).st = 1 then
           setAcc (fld w 20 1) { accOf k (fld w 20 1) with st := 0 } k else k)) ∧
     (Spelled 4 0 [(0, 11), (12, 37)] w → fld w 12 10 ≤ 512 → fld w 22 10 ≤ 512 → fld w 12 10 * fld w 22 10 ≤ 4096 →
       fld w 43 3 < 6 → fld w 46 3 < 6 → (fld w 12 10 = 0 ∨ fld w 22 10 = 0 ∨ xnat k (fld w 32 5) = 0) →
       ∃ t, exec (.mma c w) s = .next t ∧ coreOf t c = stepPc k ∧ (∀ d, d ≠ c.val → coreOf t d = coreOf s d) ∧
         SameButCores s t ∧
         KeepsRegs (fun key => isCounter (pgCore c) key || key == fieldKey (pgArray c) R.ARRAY_MMA_COUNT 0) s t ∧
         rd t (pgArray c) R.ARRAY_MMA_COUNT = (rd s (pgArray c) R.ARRAY_MMA_COUNT + 1) % 2 ^ R.ARRAY_MMA_COUNT.width)) ∧
  (∀ (c : CoreIx) (w : DWord) (s : State) (a b : Nat), Issues c s → Spelled 4 0 [(0, 11), (12, 37)] w →
     let k := atIssue s c
     let m := fld w 12 10
     let n := fld w 22 10
     let d := xnat k (fld w 32 5)
     let acc := accOf k (fld w 37 1)
     let kind := if arrGroup k.cfg.at_ = 3 then 1 else 0
     0 < m → m ≤ 512 → 0 < n → n ≤ 512 → m * n ≤ 4096 → 0 < d → d ≤ 2 ^ 24 → fld w 43 3 < 6 → fld w 46 3 < 6 →
     (arrGroup k.cfg.at_ = 2 ∨ arrGroup k.cfg.bt = 2 → d % 32 = 0) → wCc w ≤ k.g → k.queue.length < 2 →
     (acc.st = 0 ∧ fld w 38 1 = 0 ∨
       acc.st = 1 ∧ fld w 38 1 = 1 ∧ acc.tile = fld w 39 4 ∧ acc.m = m ∧ acc.n = n ∧ acc.kind = kind) →
     agAddr (agOf k (fld w 43 3)) = (a : Int) → agAddr (agOf k (fld w 46 3)) = (b : Int) →
     a + panelBytes k.cfg.at_ 8 m d ≤ 0x40000 → b + panelBytes k.cfg.bt 64 n d ≤ 0x40000 →
     ScratchSound k a (panelBytes k.cfg.at_ 8 m d) → ScratchSound k b (panelBytes k.cfg.bt 64 n d) →
     ∃ t, exec (.mma c w) s = .next t ∧ CoreAlone c s t ∧
       ∃ j, (coreOf t c).queue = k.queue ++ [j] ∧
         j.m = m ∧ j.n = n ∧ j.k = d ∧ j.acc = fld w 37 1 ∧ j.cont = (fld w 38 1 == 1) ∧ j.at_ = k.cfg.at_ ∧ j.bt = k.cfg.bt ∧
         j.apan = ofBytes (scrRead k a (panelBytes k.cfg.at_ 8 m d)) ∧ j.bpan = ofBytes (scrRead k b (panelBytes k.cfg.bt 64 n d)) ∧
         (fld w 38 1 = 0 → (accOf (coreOf t c) (fld w 37 1)).st = 1 ∧ (accOf (coreOf t c) (fld w 37 1)).m = m ∧
           (accOf (coreOf t c) (fld w 37 1)).n = n ∧ (accOf (coreOf t c) (fld w 37 1)).tile = fld w 39 4) ∧
         (fld w 38 1 = 1 → accOf (coreOf t c) (fld w 37 1) = acc) ∧
         (coreOf t c).seq =
           (stepPc (if fld w 43 3 = fld w 46 3 then agUse (fld w 43 3) k else agUse (fld w 46 3) (agUse (fld w 43 3) k))).seq)

/-- MMA_COMPLETE, where every entry that it reloads is sound, drains every fold of the streaming MMA into its
accumulator, going on from the sums that a series of single-fold MMAs keeps, leaves the last fold's sums in the cells,
takes the MMA off the queue, and counts it and its multiply-accumulates; the other accumulator and every other core
stay. A legal ADRAIN of an accumulator with nothing in flight takes the free drain path and makes it DRAINING; at
ADRAIN_COMPLETE every row stands in scratch, the accumulator is IDLE and the path is free (R118, R128, R134 to R136,
R142, R145). -/
def Obligations.MmaCompletionAndDrain : Prop :=
  (∀ (c : CoreIx) (s : State) (slots : Nat) (j : MmaJob) (rest : List MmaJob), (coreOf s c).queue = j :: rest →
     (∀ e ∈ reloaded (coreOf s c) j (foldCount j),
       rd s (pgCore c) R.HEADER_ERR_INJ_ARM = 0 ∧ mapGet 0 (accOf (coreOf s c) j.acc).upset e = 0) →
     ∃ t, exec (.mmaComplete c slots) s = .next t ∧
       (let d := (mmaFolds j (foldCount j) (startAcc (coreOf s c) j (accOf (coreOf s c) j.acc))).1
        coreOf t c = foldsDone j d (setAcc j.acc d { coreOf s c with queue := rest })) ∧
       (∀ d, d ≠ c.val → coreOf t d = coreOf s d) ∧
       rd t (pgArray c) R.ARRAY_MMA_COUNT = (rd s (pgArray c) R.ARRAY_MMA_COUNT + 1) % 2 ^ R.ARRAY_MMA_COUNT.width ∧
       rd t (pgArray c) R.ARRAY_MAC_COUNT =
         (rd s (pgArray c) R.ARRAY_MAC_COUNT + j.m * j.n * j.k) % 2 ^ R.ARRAY_MAC_COUNT.width) ∧
  ((∀ (c : CoreIx) (w : DWord) (s : State) (a : Nat), Issues c s → Spelled 4 1 [(0, 11), (12, 35)] w →
     let k := atIssue s c
     let acc := accOf k (fld w 20 1)
     fld w 12 3 ≠ 7 → fld w 21 4 < 6 → fld w 25 3 < 5 → (fld w 28 1 = 1 → fld w 21 4 = 3) → wCc w ≤ k.g → acc.st ≠ 2 →
     inflight k (fld w 20 1) = 0 → k.drain = none → drainMismatch (fld w 21 4) acc.kind = false →
     startAddr k (fld w 12 3) (fld w 15 5) = (a : Int) →
     a + drainSpan ⟨0, fld w 20 1, fld w 21 4, 0, false, 0, fld w 29 18, 0, 0, 0, 0, 0, 0⟩ acc.m acc.n ≤ 0x40000 →
     ∃ t, exec (.adrain c w) s = .next t ∧ CoreAlone c s t ∧
       (∃ d, (coreOf t c).drain = some d ∧ d.acc = fld w 20 1 ∧ d.dtype = fld w 21 4 ∧ d.start = a ∧ d.stride = fld w 29 18) ∧
       accOf (coreOf t c) (fld w 20 1) = { acc with st := 2 } ∧
       (coreOf t c).seq = (stepPc (agUse (fld w 12 3) k)).seq) ∧
   (∀ (c : CoreIx) (s : State) (d : DrainJob), (coreOf s c).drain = some d → rd s (pgCore c) R.HEADER_ERR_INJ_ARM = 0 →
     (∀ e, mapGet 0 (accOf (coreOf s c) d.acc).upset e = 0) →
     ∃ t, exec (.adrainComplete c) s = .next t ∧ CoreAlone c s t ∧ (coreOf t c).drain = none ∧
       (coreOf t c).scr = (drainRows d (accOf (coreOf s c) d.acc).m (coreOf s c)).scr ∧
       accOf (coreOf t c) d.acc = { accOf (coreOf s c) d.acc with st := 0 }))

/-! ### Registers -/

/-- A full-word write takes effect on each field of its register by the field's kind: RW takes the written bits, W1C
clears the bits written as 1, RO, RC and WO stay; a WL field stays while its page is locked. A write to a WB field is
held: the field in force stays, a read shows the pending value, and at the block's boundary the field takes it and
BOUNDARY_CNT grows; WB_APPLY is that boundary, for a core one of both its pages. The refresh interval of a trained
stack awake is its boundary: a valid section table that is pending comes into force as a whole, and one that is not is
refused as a whole with SECT_CONFIG (R15, R17, R65, R67, R69, R181, R211). -/
def Obligations.RegisterWritesByKind : Prop :=
  (∀ (g : Page) (b v : Nat) (s : State) (f : RegField) (n : Nat), (f, n) ∈ rowsAt g.cls b → f.wb = false →
     f.lo + f.width ≤ 32 → debugReg g.cls b = false → b ≠ 0x0C → b ≠ 0x20 → (∀ u x, fieldShut u g f x = false) →
     fieldAbsent g f = false →
     let t := writeReg (fun _ _ _ u => u) g b v (2 ^ 32 - 1) s
     (f.wl = true → rd s (headPage g) R.HEADER_PAGE_LOCK_LOCK = 1 → rdi t g f n = rdi s g f n) ∧
     ((f.wl = true → rd s (headPage g) R.HEADER_PAGE_LOCK_LOCK = 0) →
       (f.kind = .rw → rdi t g f n = bitsOf v f.lo f.width) ∧
       (f.kind = .w1c → rdi s g f n < 2 ^ f.width →
         rdi t g f n = rdi s g f n - (rdi s g f n &&& bitsOf v f.lo f.width)) ∧
       (f.kind ≠ .rw → f.kind ≠ .w1c → rdi t g f n = rdi s g f n))) ∧
  ((∀ (g : Page) (b v : Nat) (s : State) (f : RegField) (n : Nat), (f, n) ∈ rowsAt g.cls b → f.wb = true → f.kind = .rw →
     f.lo + f.width ≤ 32 → debugReg g.cls b = false → (f.wl = true → rd s (headPage g) R.HEADER_PAGE_LOCK_LOCK = 0) →
     (∀ u x, fieldShut u g f x = false) → fieldAbsent g f = false → (∀ q ∈ rowsAt g.cls b, rdi s g q.1 q.2 < 2 ^ q.1.width) →
     let t := writeReg (fun _ _ _ u => u) g b v (2 ^ 32 - 1) s
     rdi t g f n = rdi s g f n ∧ pendingRd t g f n = bitsOf v f.lo f.width ∧
     rdi (boundary g t) g f n = bitsOf v f.lo f.width ∧ pendAt (boundary g t) g b = none) ∧
   (∀ (g : Page) (sub : Nat) (s : State), pageExists g = true → (g.cls = .sluice ∨ g.cls = .therm ∨ g.cls = .hlink) →
     ∃ t, exec (.wbApply g sub) s = .next t ∧ ComesTo (boundary g s) t ∧
       rd (boundary g s) g R.HEADER_BOUNDARY_CNT_COUNT = (rd s g R.HEADER_BOUNDARY_CNT_COUNT + 1) % 2 ^ 32) ∧
   (∀ (c : CoreIx) (s : State), (coreOf s c).cur = none →
     ∃ t, exec (.wbApply (pgCore c) 0) s = .next t ∧ ComesTo (coreBoundary c s) t ∧
       rd (coreBoundary c s) (pgCore c) R.HEADER_BOUNDARY_CNT_COUNT =
         (rd s (pgCore c) R.HEADER_BOUNDARY_CNT_COUNT + 1) % 2 ^ 32)) ∧
  (∀ (k : StackIx) (s : State), rd s (pgMemc k) R.MEMC_STATUS_TRAINED = 1 → rd s (pgMemc k) R.MEMC_STATUS_SELF_REFRESH = 0 →
     s.mapQ = [] → (∀ e ∈ pendOffs s (pgMemc k), pendAt s (pgMemc k) e.1 = some e.2) →
     ∃ t, exec (.refreshInterval k) s = .next t ∧ t.dram = s.dram ∧
       rd t (pgMemc k) R.HEADER_BOUNDARY_CNT_COUNT = (rd s (pgMemc k) R.HEADER_BOUNDARY_CNT_COUNT + 1) % 2 ^ 32 ∧
       (∀ n < 512, sectOf t n = if k.val = 0 ∧ sectTableOk s = true then sectPending s n else sectOf s n) ∧
       (k.val = 0 → sectTableOk s = false → (∃ e ∈ pendOffs s (pgMemc 0), sectOff e.1 = true) →
         bitSet (rd t (pgMemc 0) R.HEADER_ERR_STAT_ERR) 6 = true) ∧
       pendOffs t (pgMemc k) = [])

/-- The header's commands on a page that the path reaches: PAGE_LOCK sets LOCK; clearing ERR_STAT clears the bits
written as 1 and empties ERR_FIRST with the last; an injection is armed only where debug is open and the page
unlocked; SRST.REQ resets an idle block of a class that has block reset, and else sets SRST_REFUSED; at its end the
block is in reset no more. An error sets its ERR_STAT bit and keeps the others; the first unmasked one loads ERR_FIRST
with its bit and code, a further one sets MULTI and leaves ERR_FIRST, and a masked one neither (R61 to R64, R400). -/
def Obligations.HeadersActAndErrorsAreRecorded : Prop :=
  (∀ (p : Path) (g : Page) (s : State), Reaches p g s →
     let h := headPage g
     (exec (.pageLock p g) s = .next (wr h R.HEADER_PAGE_LOCK_LOCK 1 (answered 0 0 s))) ∧
     (∀ m : Word, ∃ t, exec (.errStatClear p g m) s = .next t ∧
       (rd s h R.HEADER_ERR_STAT_ERR < 2 ^ 31 →
         rd t h R.HEADER_ERR_STAT_ERR = rd s h R.HEADER_ERR_STAT_ERR - (rd s h R.HEADER_ERR_STAT_ERR &&& m.toNat)) ∧
       (rd s h R.HEADER_ERR_STAT_ERR - (rd s h R.HEADER_ERR_STAT_ERR &&& m.toNat) = 0 →
         (bitSet m.toNat 31 = true ∨ rd s h R.HEADER_ERR_STAT_MULTI = 0) → rd t h R.HEADER_ERR_FIRST_VALID = 0) ∧
       { t with regs := s.regs, reply := s.reply } = s) ∧
     (∀ v : Word, ∃ t, exec (.errInj p g v) s = .next t ∧
       (debugOpen s = true → rd s h R.HEADER_PAGE_LOCK_LOCK = 0 →
         rd t h R.HEADER_ERR_INJ_BIT = bitsOf v.toNat 0 5 ∧ rd t h R.HEADER_ERR_INJ_ARM = bitOf v.toNat 8) ∧
       (debugOpen s = false → t = answered 0 0 s)) ∧
     (∃ u t, exec (.srstReq p g) s = .next t ∧ ComesTo u t ∧
       (bitSet (capsOf h.cls) 2 = true → blockIdle s h = true →
         pageKey h ∈ u.inReset ∧ (∀ k, wkeyPage k = pageKey h → mapFind u.pend k = none)) ∧
       (bitSet (capsOf h.cls) 2 = false ∨ blockIdle s h = false →
         u = wr h R.HEADER_SRST_SRST_REFUSED 1 (answered 0 0 s))) ∧
     (h.cls ≠ .link → pageKey h ∈ s.inReset →
       ∃ t, exec (.blockResetDone g) s = .next t ∧
         ComesTo { s with inReset := s.inReset.filter (· != pageKey h) } t)) ∧
  (∀ (p : Page) (bit code : Nat) (s : State), bit < 31 → code < 2 ^ 16 → rd s (headPage p) R.HEADER_ERR_STAT_ERR < 2 ^ 31 →
     let h := headPage p
     let t := setErr p bit code s
     rd t h R.HEADER_ERR_STAT_ERR = rd s h R.HEADER_ERR_STAT_ERR ||| 2 ^ bit ∧
     (bitSet (rd s h R.HEADER_ERR_MASK_MASK) bit = true →
       rd t h R.HEADER_ERR_FIRST_VALID = rd s h R.HEADER_ERR_FIRST_VALID ∧
       rd t h R.HEADER_ERR_FIRST_CODE = rd s h R.HEADER_ERR_FIRST_CODE ∧
       rd t h R.HEADER_ERR_STAT_MULTI = rd s h R.HEADER_ERR_STAT_MULTI) ∧
     (bitSet (rd s h R.HEADER_ERR_MASK_MASK) bit = false →
       (rd s h R.HEADER_ERR_FIRST_VALID = 1 →
         rd t h R.HEADER_ERR_STAT_MULTI = 1 ∧ rd t h R.HEADER_ERR_FIRST_CODE = rd s h R.HEADER_ERR_FIRST_CODE ∧
         rd t h R.HEADER_ERR_FIRST_BIT = rd s h R.HEADER_ERR_FIRST_BIT) ∧
       (rd s h R.HEADER_ERR_FIRST_VALID ≠ 1 →
         rd t h R.HEADER_ERR_FIRST_VALID = 1 ∧ rd t h R.HEADER_ERR_FIRST_CODE = code ∧ rd t h R.HEADER_ERR_FIRST_BIT = bit ∧
         rd t h R.HEADER_ERR_STAT_MULTI = rd s h R.HEADER_ERR_STAT_MULTI)) ∧
     { t with regs := s.regs } = s)

/-- Where debug is open, DBG_STOP stops a core at the next instruction boundary, DBG_RESUME lets it issue again past a
breakpoint, and DBG_STEP on a stopped core issues the word at its pc and leaves it stopped (R115, R467). -/
def Obligations.DebugStopStepResume : Prop :=
  ∀ (p : Path) (c : CoreIx) (s : State), Reaches p (pgCore c) s → debugOpen s = true →
    (∃ t, exec (.dbgStop p c) s = .next t ∧ rd t (pgCore c) R.CORE_DBG_CTRL_STOP = 1 ∧
      coreOf t c = { coreOf s c with dbgStop := true } ∧ (∀ d, d ≠ c.val → coreOf t d = coreOf s d)) ∧
    (∃ t, exec (.dbgResume p c) s = .next t ∧ rd t (pgCore c) R.CORE_DBG_CTRL_STOP = 0 ∧
      coreOf t c = { coreOf s c with dbgStop := false, bpPass := true } ∧ (∀ d, d ≠ c.val → coreOf t d = coreOf s d)) ∧
    ((coreOf s c).dbgStop = true → rd s (pgCore c) R.CORE_DBG_CTRL_STOP = 1 →
      ∃ u t, exec (.dbgStep p c) s = .next t ∧ ComesTo u t ∧ (coreOf u c).dbgStop = true ∧
        (∀ w, w = mapGet 0#64 (coreOf s c).imem (coreOf s c).seq.pc → Spelled 0 0 [(0, 8)] w →
          Issues c (modCore c (fun k => { k with dbgStop := false, bpPass := true }) s) →
          (coreOf u c).seq = (stepPc (coreOf s c)).seq))

/-- Every command whose operands lie in the ranges that their rules give completes, whatever the state: it stops
neither for a privilege nor for an error that its rule reports. Where a path carries them, the accesses to registers
complete with their own effect and the answer 0: reads with what the register's word shows, writes with the write, the
header's commands on their field; DBG_STOP, DBG_STEP and DBG_RESUME where debug is open, and the I3C target's two
where it is served (R56, R57, R61, R63, R64, R69, R115, R467, R503). -/
def Obligations.EveryCommandCompletes : Prop :=
  (∀ (i : Instr) (s : State), Instr.wf i = true → ∃ t, exec i s = .next t) ∧
  (∀ (p : Path) (g : Page) (s : State), Reaches p g s →
    let h := headPage g
    (∃ t, exec (.pageLock p g) s = .next t ∧ t.reply = ⟨0, 0, false⟩ ∧ rd t h R.HEADER_PAGE_LOCK_LOCK = 1) ∧
    (∀ m : Word, bitSet m.toNat 3 = true → rd s h R.HEADER_ERR_STAT_ERR < 2 ^ 31 →
      ∃ t, exec (.errStatClear p g m) s = .next t ∧ t.reply = ⟨0, 0, false⟩ ∧ bitSet (rd t h R.HEADER_ERR_STAT_ERR) 3 = false) ∧
    (∀ v : Word, debugOpen s = true → rd s h R.HEADER_PAGE_LOCK_LOCK = 0 →
      ∃ t, exec (.errInj p g v) s = .next t ∧ t.reply = ⟨0, 0, false⟩ ∧ rd t h R.HEADER_ERR_INJ_BIT = bitsOf v.toNat 0 5 ∧
        rd t h R.HEADER_ERR_INJ_ARM = bitOf v.toNat 8) ∧
    (bitSet (capsOf h.cls) 2 = true → blockIdle s h = true →
      ∃ u t, exec (.srstReq p g) s = .next t ∧ ComesTo u t ∧ u.reply = ⟨0, 0, false⟩ ∧ pageKey h ∈ u.inReset) ∧
    (h.cls ≠ .link → pageKey h ∈ s.inReset → ∃ u t, exec (.blockResetDone g) s = .next t ∧ ComesTo u t ∧ pageKey h ∉ u.inReset)) ∧
  (∀ (p : Path) (c : CoreIx) (s : State), Reaches p (pgCore c) s → debugOpen s = true →
    (∃ t, exec (.dbgStop p c) s = .next t ∧ t.reply = ⟨0, 0, false⟩ ∧ (coreOf t c).dbgStop = true) ∧
    (∃ t, exec (.dbgResume p c) s = .next t ∧ t.reply = ⟨0, 0, false⟩ ∧ (coreOf t c).dbgStop = false) ∧
    ((coreOf s c).dbgStop = true → ∃ u t, exec (.dbgStep p c) s = .next t ∧ ComesTo u t ∧ (coreOf u c).dbgStop = true)) ∧
  (∀ (p : Path) (o width v : Nat) (s : State) (g : Page) (off : Nat), o < 0x1000_0000 → pageAt o = some (g, off) →
    pathUp p s = true → pathAllows p g s = true → accessShape (2 * 2 ^ 40 + o) width = true →
    let x := (readPage (pathCode p) g off width s).1
    (∃ t, exec (.rcRead p (2 * 2 ^ 40 + o) width) s = .next t ∧ t.reply = ⟨x, 0, false⟩) ∧
    (∃ t, exec (.multiwordRead p (2 * 2 ^ 40 + o) width) s = .next t ∧ t.reply = ⟨x, 0, false⟩) ∧
    (width = 4 → ∃ u t, exec (.aliasAccess p (2 * 2 ^ 40 + o) false false) s = .next t ∧ ComesTo u t ∧ u.reply = ⟨x, 0, false⟩) ∧
    (pathIgnores p g off = false →
      let u := writePage topHook (pathCode p) g off width v (answered 0 0 s)
      (∃ t, exec (.regWrite p (2 * 2 ^ 40 + o) width v) s = .next t ∧ ComesTo u t) ∧
      ∃ t, exec (.multiwordWrite p (2 * 2 ^ 40 + o) width v) s = .next t ∧ ComesTo u t)) ∧
  (∀ (a v : Nat) (s : State) (g : Page) (off : Nat), pageAt a = some (g, off) → i3cServed s = true → a % 4 = 0 →
    (0x0C00_0000 ≤ a → i3cReads g = true →
      ∃ t, exec (.readReg a) s = .next t ∧ t.i3cRead = bytesOf 4 (readOff 1 g off s).1) ∧
    (g.cls = .pwr ∨ g.cls = .aon → ∃ t, exec (.writeReg a v) s = .next t ∧ t = writeOff topHook 1 g off (v % 2 ^ 32) s))

/-! ### Counters, samples and the evaluator -/

/-- EV_GO on an idle evaluator makes it busy, and EV_COMPLETE loads EV_OUT with the four words of Philox-4×32-10 of
EV_KEY and EV_CTR; EV_GO while it is busy changes nothing (R169, R178). -/
def Obligations.EvaluatorRunsPhilox : Prop :=
  ∀ (p : Path) (s : State), Reaches p pgRng s →
    (rd s pgRng R.RNG_STATUS_EV_BUSY = 1 → exec (.evGo p) s = .next (answered 0 0 s)) ∧
    (rd s pgRng R.RNG_STATUS_EV_BUSY ≠ 1 → (∀ i < 4, rdi s pgRng R.RNG_EV_CTR i < 2 ^ 32) →
      ∃ t, exec (.evGo p) s = .next t ∧ rd t pgRng R.RNG_STATUS_EV_BUSY = 1 ∧
        { t with regs := s.regs, evOut := s.evOut, reply := s.reply } = s ∧
        ∃ u, exec .evComplete t = .next u ∧ rd u pgRng R.RNG_STATUS_EV_BUSY = 0 ∧ { u with regs := t.regs } = t ∧
          ∀ i < 4, rdi u pgRng R.RNG_EV_OUT i =
            philoxPick (philox (rd s pgRng R.RNG_EV_KEY % 2 ^ 32) (rd s pgRng R.RNG_EV_KEY / 2 ^ 32 % 2 ^ 32)
              (rdi s pgRng R.RNG_EV_CTR 0) (rdi s pgRng R.RNG_EV_CTR 1) (rdi s pgRng R.RNG_EV_CTR 2)
              (rdi s pgRng R.RNG_EV_CTR 3)) i)

/-- A selection takes effect at once on a PERF page and with its block's boundary on the others, and zeroes its
counter as it applies; FREEZE stops every counter of its PERF page, and unfrozen each counter whose selection names
the event grows. Setting EN starts the sampler where the ring is legal and else leaves EN at 0 with SAMPLE_BUF;
clearing it stops the sampler. An eligible sample is written as its eight words at the head of the ring, which moves
on; a second one in a tick is skipped; a full ring keeps its records, or loses its oldest with OVERWRITE (R484 to
R486, R489, R491 to R493). -/
def Obligations.CountersAndSamples : Prop :=
  ((∀ (p : Path) (d : Fin 5) (i : Nat) (v : Word) (s : State), Reaches p (pgPerf d) s → i < 16 →
     ∃ t, exec (.evtSel p (pgPerf d) i v) s = .next t ∧ rdi t (pgPerf d) R.PERF_EVT_SEL i = v.toNat ∧
       rdi t (pgPerf d) R.PERF_EVT_CNT i = 0 ∧
       KeepsRegs (fun k => k == fieldKey (pgPerf d) R.PERF_EVT_SEL i || k == fieldKey (pgPerf d) R.PERF_EVT_CNT i) s t ∧
       { t with regs := s.regs, levels := s.levels, reply := s.reply } = s) ∧
   (∀ (p : Path) (g : Page) (i : Nat) (v : Word) (s : State) (sel cnt : RegField) (n : Nat), Reaches p g s → g.cls ≠ .perf →
     counterRows g.cls = some (sel, cnt, n) → i < n → rdi s (headPage g) sel i < 2 ^ 32 →
     ∃ t, exec (.evtSel p g i v) s = .next t ∧ pendingRd t (headPage g) sel i = v.toNat ∧
       KeepsRegs (fun k => k == fieldKey (headPage g) R.HEADER_CTRL_PEND_REPLACED 0) s t ∧
       { t with regs := s.regs, pend := s.pend, reply := s.reply } = s ∧
       rdi (boundary (headPage g) t) (headPage g) sel i = v.toNat ∧ rdi (boundary (headPage g) t) (headPage g) cnt i = 0) ∧
   (∀ (p : Path) (d : Fin 5) (on : Bool) (s : State), Reaches p (pgPerf d) s →
     exec (.freeze p (pgPerf d) on) s =
       .next (wr (pgPerf d) R.PERF_STATUS_FROZEN (b2n on) (wr (pgPerf d) R.PERF_CTRL_FREEZE (b2n on) (answered 0 0 s)))) ∧
   (∀ (d e src n : Nat) (ctx : Option Nat) (s : State),
     (rd s (pgPerf d) R.PERF_CTRL_FREEZE = 1 → countE (pgPerf d) e src n ctx s = s) ∧
     (rd s (pgPerf d) R.PERF_CTRL_FREEZE ≠ 1 → ∀ i < 16,
       rdi (countE (pgPerf d) e src n ctx s) (pgPerf d) R.PERF_EVT_CNT i =
         let v := rdi s (pgPerf d) R.PERF_EVT_SEL i
         let c := rdi s (pgPerf d) R.PERF_EVT_CNT i
         if selMode (pgPerf d) v = 1 ∧ selCounts (pgPerf d) v e src ctx = true then (c + n) % 2 ^ 64 else c))) ∧
  ((∀ (p : Path) (d : DieIx) (v : Word) (s : State), Reaches p (pgSample d) s →
     ∃ t, exec (.sampleEnable p d v) s = .next t ∧ t.dram = s.dram ∧
       rd t (pgSample d) R.SAMPLE_CTRL_OVERWRITE = bitOf v.toNat 1 ∧
       (bitSet v.toNat 0 = false → rd t (pgSample d) R.SAMPLE_CTRL_EN = 0 ∧ rd t (pgSample d) R.SAMPLE_STATUS_ACTIVE = 0) ∧
       (bitSet v.toNat 0 = true → rd s (pgSample d) R.SAMPLE_STATUS_ACTIVE ≠ 1 → smpRingOk s (pgSample d) = true →
         rd t (pgSample d) R.SAMPLE_CTRL_EN = 1 ∧ rd t (pgSample d) R.SAMPLE_STATUS_ACTIVE = 1 ∧ mapGet 0 t.smpSeq d = 0) ∧
       (bitSet v.toNat 0 = true → rd s (pgSample d) R.SAMPLE_STATUS_ACTIVE ≠ 1 → smpRingOk s (pgSample d) = false →
         rd t (pgSample d) R.SAMPLE_CTRL_EN = 0 ∧ bitSet (rd t (pgSample d) R.HEADER_ERR_STAT_ERR) 0 = true)) ∧
   (∀ (d : DieIx) (x : SampleInput) (s : State), smpEligible s d x = true →
     let g := pgSample d
     let n := smpRing s g
     let h := rd s g R.SAMPLE_HEAD
     let a := rd s g R.SAMPLE_BUF_BASE + h % n * 64
     let seq := mapGet 0 s.smpSeq d + 1
     let full := n ≤ (h + 2 ^ 64 - rd s g R.SAMPLE_TAIL) % 2 ^ 64
     (mapFind s.smpTick d = some (tickOf s) →
       exec (.sampleTake d x) s = .next (wr g R.SAMPLE_SKIPPED (satAdd R.SAMPLE_SKIPPED.width (rd s g R.SAMPLE_SKIPPED) 1) s)) ∧
     (mapFind s.smpTick d ≠ some (tickOf s) →
       ∃ t, exec (.sampleTake d x) s = .next t ∧ mapFind t.smpTick d = some (tickOf s) ∧ mapGet 0 t.smpSeq d = seq ∧
         rd t g R.SAMPLE_SKIPPED = rd s g R.SAMPLE_SKIPPED ∧
         (full → rd t g R.SAMPLE_LOST = satAdd R.SAMPLE_LOST.width (rd s g R.SAMPLE_LOST) 1) ∧
         (¬ full → rd t g R.SAMPLE_LOST = rd s g R.SAMPLE_LOST) ∧
         (full ∧ rd s g R.SAMPLE_CTRL_OVERWRITE = 0 →
           rd t g R.SAMPLE_STATUS_FULL = 1 ∧ rd t g R.SAMPLE_HEAD = h ∧ t.dram = s.dram) ∧
         (¬ full ∨ rd s g R.SAMPLE_CTRL_OVERWRITE ≠ 0 → a % 64 = 0 → Works s a 64 →
           rd t g R.SAMPLE_HEAD = (h + 1) % 2 ^ 64 ∧
           dramRead t a 64 = (smpWords s x seq).flatMap (fun w => bytesOf 8 w) ∧ DramBut a 64 s t))))

/-! ### Device DRAM -/

/-- A read of a block of device DRAM meets the outcome that its section's class and the symbols in error give: the
bytes, the corrected bytes and a count, a poisoned answer with its error, step-fatal for the work, or a value that
nothing guarantees; a block of a channel that failed retraining cannot be corrected, a block stored poisoned raises
nothing new, and an address without backing is MEMC instance 0's error. A block of a bound record that cannot be
corrected is held for restore besides. A patrol read corrects 1 to 4 symbols of a correct block, those known before
among them, counts them and rewrites the block; every other one of up to 8 symbols is counted, raises SCRUB_UE, and
stays in error (R50, R180, R186 to R188, R235). -/
def Obligations.DramAndPatrolReads : Prop :=
  (∀ (a0 symbols : Nat) (o : WorkTag) (s : State), dramShut s = false → Uninjected s →
     let a := a0 / 64 * 64
     let n := o.ctx.map (fun n => n.val)
     let bytes := ofBytes (dramRead s a 64)
     let answers (u : State) : Prop := ∃ t, exec (.dramRead a0 symbols o) s = .next t ∧ ComesTo (holdAtAddr a symbols u) t
     (locate s a = none → ∃ u, answers u ∧ u.reply = ⟨0, 0x0002, false⟩ ∧ u.dram = s.dram ∧
       bitSet (rd u (pgMemc 0) R.HEADER_ERR_STAT_ERR) 3 = true) ∧
     (∀ q, locate s a = some q →
       let m := pgMemc (q / 2 ^ 31 / 32)
       let known := max symbols (mapGet 0 s.dramSyms (q / 64))
       let dead := mapGet false s.chDead (q / 2 ^ 31)
       (dead = false → mapGet false s.dramPoison (q / 64) = true →
         ∃ u, answers u ∧ u.reply = ⟨bytes, 0, true⟩ ∧ u.dram = s.dram ∧
           rd u m R.HEADER_ERR_STAT_ERR = rd s m R.HEADER_ERR_STAT_ERR) ∧
       (dead = false → mapGet false s.dramPoison (q / 64) = false →
         (known = 0 → ∃ u, answers u ∧ u.reply = ⟨bytes, 0, false⟩ ∧ u.dram = s.dram ∧
           rd u m R.MEMC_RD_BYTES = (rd s m R.MEMC_RD_BYTES + 64) % 2 ^ R.MEMC_RD_BYTES.width) ∧
         (8 < symbols → ∃ u, answers u ∧ u.reply.err = 0 ∧ u.dram = s.dram ∧
           rd u m R.HEADER_ERR_STAT_ERR = rd s m R.HEADER_ERR_STAT_ERR) ∧
         (1 ≤ known → known ≤ 4 → classOf s a = 0 → ∃ u, answers u ∧ u.reply = ⟨bytes, 0, false⟩ ∧ u.dram = s.dram ∧
             mapGet 0 u.dramSyms (q / 64) = 0 ∧
             rd u m R.MEMC_CE_COUNT = satAdd R.MEMC_CE_COUNT.width (rd s m R.MEMC_CE_COUNT) 1 ∧
             bitSet (rd u m R.HEADER_ERR_STAT_ERR) 0 = true)) ∧
       (dead = true ∨ mapGet false s.dramPoison (q / 64) = false ∧ 1 ≤ known ∧ symbols ≤ 8 ∧ (5 ≤ known ∨ classOf s a ≠ 0) →
         let k := if classOf s a = 0 then 1 else 2
         let cnt := if classOf s a = 0 then R.MEMC_UE_COUNT else R.MEMC_DET_COUNT
         ∃ u, (let v := workStepFatal n o.step (0x0701 + k) u
               answers { v with metUe := if classOf s a = 0 then v.metUe ++ [a] else v.metUe,
                                reply := ⟨0, errCode .memc (1 + classOf s a), true⟩ }) ∧
           u.dram = s.dram ∧ rd u m cnt = satAdd cnt.width (rd s m cnt) 1 ∧ rd u m R.MEMC_LAST_ERR_ADDR = a ∧
           bitSet (rd u m R.HEADER_ERR_STAT_ERR) k = true ∧ dramPoisoned u a 64 = true))) ∧
  (∀ (a0 symbols q : Nat) (s : State), locate s (a0 / 64 * 64) = some q → 1 ≤ symbols → symbols ≤ 8 →
     mapGet false s.dramPoison (q / 64) = false → Uninjected s →
     let a := a0 / 64 * 64
     let m := pgMemc (q / 2 ^ 31 / 32)
     let known := max symbols (mapGet 0 s.dramSyms (q / 64))
     (rd s m R.MEMC_CTRL_SCRUB_EN = 0 → exec (.scrubRead a0 symbols) s = .next s) ∧
     (rd s m R.MEMC_CTRL_SCRUB_EN ≠ 0 → ∃ t, exec (.scrubRead a0 symbols) s = .next t ∧ t.dram = s.dram ∧
       (classOf s a = 0 ∧ known ≤ 4 → rd t m R.MEMC_CE_COUNT = satAdd R.MEMC_CE_COUNT.width (rd s m R.MEMC_CE_COUNT) 1 ∧
         mapGet 0 t.dramSyms (q / 64) = 0) ∧
       (¬ (classOf s a = 0 ∧ known ≤ 4) →
         rd t m R.MEMC_SCRUB_UE_COUNT = satAdd R.MEMC_SCRUB_UE_COUNT.width (rd s m R.MEMC_SCRUB_UE_COUNT) 1 ∧
         bitSet (rd t m R.HEADER_ERR_STAT_ERR) 5 = true ∧ dramPoisoned t a 64 = true)))

/-- A write to device DRAM stores its bytes, up to the end of its block, and no others; a poisoned one marks its
block, an unpoisoned one of the whole block clears the mark, and a partial one leaves it; one without backing stores
nothing. Long reads of device DRAM, located granule by granule, give the bytes that their addresses name one by one
(R50, R181, R182, R187, R190). -/
def Obligations.DramWritesAndBulkReads : Prop :=
  (∀ (a : Nat) (d : List Byte) (poison : Bool) (o : WorkTag) (s : State), dramShut s = false →
     let bs := (d.take (64 - a % 64)).map (fun b => b.toNat)
     (locate s a = none → ∃ t, exec (.dramWrite a d poison o) s = .next t ∧ t.reply = ⟨0, 0x0002, false⟩ ∧ t.dram = s.dram) ∧
     (d ≠ [] → Works s a bs.length → ∃ t, exec (.dramWrite a d poison o) s = .next t ∧ t.reply = ⟨0, 0, false⟩ ∧
       dramRead t a bs.length = bs ∧ DramBut a bs.length s t ∧
       (∀ q, locate s a = some q → mapGet false t.dramPoison (q / 64) =
         (if poison then true else if a % 64 = 0 ∧ bs.length = 64 then false else mapGet false s.dramPoison (q / 64))))) ∧
  (∀ (s : State) (a n : Nat), dramBulk s a n = dramRead s a n)

/-- With the listed members mapped out, the granules from T on have no backing, those of healthy members stay, and one
of a failed member lives where the j-th healthy granule from T on was, j granules of failed members standing below it.
The granule whose data lives at a place is the one that R190 puts there, and no other: map-out's relocation and the
location of addresses agree. A channel that the host driver names becomes DEGRADED; a GO takes every DEGRADED channel
of its stack that none has taken; once its contexts are held their granules are relocated; and with its completion the
channels are mapped out, recorded in the factory region, and the contexts released (R189 to R191). -/
def Obligations.RemapAndRelocation : Prop :=
  (∀ (k g h : Nat) (failed : List Nat), k = 256 ∨ k = 64 ∨ k = 32 → failed.Pairwise (· < ·) → (∀ i ∈ failed, i < k) →
     failed.length < k → g < 262144 →
     let top := 262144 - failed.length * (262144 / k)
     let lost (x : Nat) : Bool := failed.contains (x % k)
     (top ≤ g → remapGranule k failed g = none) ∧
     (g < top → lost g = false → remapGranule k failed g = some g) ∧
     (g < top → lost g = true → (remapGranule k failed g = some h ↔
       top ≤ h ∧ h < 262144 ∧ lost h = false ∧
         ((List.range h).filter (fun x => decide (top ≤ x) && !lost x)).length = ((List.range g).filter lost).length))) ∧
  (∀ (k g h : Nat) (failed : List Nat), k = 256 ∨ k = 64 ∨ k = 32 → failed.Pairwise (· < ·) → (∀ i ∈ failed, i < k) →
     failed.length < k → g < 262144 → h < 262144 →
     (ownerGran k failed h = some g ↔ remapGranule k failed g = some h)) ∧
  ((∀ (p : Path) (k : StackIx) (ch : Fin 32) (s : State), Reaches p (pgMemc k) s → chState s (k * 32 + ch) = 0 →
     ∃ t, exec (.mapoutReq p k ch) s = .next t ∧ chState t (k * 32 + ch) = 1 ∧
       rd t (pgMemc k) R.MEMC_STATUS_MAPOUT_PENDING = 1 ∧ bitSet (rd t (pgMemc k) R.HEADER_ERR_STAT_ERR) 4 = true ∧
       t.dram = s.dram) ∧
   (∀ (p : Path) (k : StackIx) (s : State), Reaches p (pgMemc k) s →
     let cs := openChans s k
     (∀ ch, ch ∈ cs ↔ ch / 32 = k.val ∧ chState s ch = 1 ∧ ∀ j ∈ s.mapQ, ch ∉ j.chans) ∧
     exec (.mapoutGo p k) s = .next (if cs = [] then answered 0 0 s
       else wr (pgMemc k) R.MEMC_STATUS_MAPOUT_PENDING 1 (answered 0 0 { s with mapQ := s.mapQ ++ [⟨k, cs, 0⟩] }))) ∧
   (∀ (s : State) (j : MapJob) (js : List MapJob), s.mapQ = j :: js → j.stack < 8 →
     (j.phase = 1 → (∀ e ∈ s.ctxs, polderHit s j.chans e.2.polder = true → isHeld s e.1 = true) →
       ∃ t, exec .mapoutRelocate s = .next t ∧ t.mapQ = { j with phase := 2 } :: js ∧
         rd t (pgMemc j.stack) R.MEMC_STATUS_RELOCATING = 1 ∧ t.dram = moveEntries 4096 s j.chans s.dram ∧ t.ctxs = s.ctxs) ∧
     (j.phase = 2 → js = [] → (∀ ch ∈ j.chans, ch < 256) →
       ∃ t, exec .mapoutComplete s = .next t ∧ t.mapQ = [] ∧ (∀ ch ∈ j.chans, chState t ch = 2) ∧
         t.factory.mapped = s.factory.mapped ++ j.chans ∧ rd t (pgMemc j.stack) R.MEMC_STATUS_RELOCATING = 0 ∧
         rd t (pgMemc 0) R.MEMC_BACKED_MIB = (524288 - 2048 * t.factory.mapped.length) % 2 ^ R.MEMC_BACKED_MIB.width ∧
         (∀ n x, ctxOf t n = some x → x.mapHold = none) ∧
         (∀ q, j.chans.contains (q / 2 ^ 31) = false → dramCell t q = dramCell s q))))

/-! ### The quay store -/

/-- A read of the quay window answers with the bytes of its page, counted; a corrected one counts and raises QUAY_CE,
and an uncorrectable one raises QUAY_UE, poisons its page, and is step-fatal for its work. An installation that the
policy refuses leaves the quay store as it was with INSTALL_DENIED; one whose object fails its checks, or is older
than the fuses or the directory allow, is not committed; and a good one commits: its bytes stand in its pages, its
directory entry is in force, the former directory is the other copy, the commit word of the raised sequence number
takes the slot that the last one did not, and no other image's bytes change (R206, R208, R209, R470, R474, R475). -/
def Obligations.QuayReadsAndInstalls : Prop :=
  (∀ (a len : Nat) (streamed : Bool) (o : WorkTag) (s : State), rd s pgQuay R.QUAY_STATUS_READY ≠ 0 → a < 2 ^ 40 →
     Uninjected s →
     let n := min len (4096 - a % 4096)
     let bytes := ofBytes ((List.range n).map (fun i => (mapGet 0#8 s.quay (a + i)).toNat))
     let rdBytes := (rd s pgQuay R.QUAY_RD_BYTES + n) % 2 ^ R.QUAY_RD_BYTES.width
     (∃ t, exec (.quayRead a len streamed .clean o) s = .next t ∧ t.reply = ⟨bytes, 0, false⟩ ∧ t.quay = s.quay ∧
       rd t pgQuay R.QUAY_RD_BYTES = rdBytes) ∧
     (∃ t, exec (.quayRead a len streamed .corrected o) s = .next t ∧ t.reply = ⟨bytes, 0, false⟩ ∧ t.quay = s.quay ∧
       rd t pgQuay R.QUAY_RD_BYTES = rdBytes ∧
       rd t pgQuay R.QUAY_CE_COUNT = satAdd R.QUAY_CE_COUNT.width (rd s pgQuay R.QUAY_CE_COUNT) 1 ∧
       bitSet (rd t pgQuay R.HEADER_ERR_STAT_ERR) 0 = true) ∧
     (∃ u, exec (.quayRead a len streamed .bad o) s =
         .next { workStepFatal (o.ctx.map (fun x => x.val)) o.step 0x0902 u with reply := ⟨0, 0x0902, true⟩ } ∧ u.quay = s.quay ∧
       rd u pgQuay R.QUAY_RD_BYTES = rdBytes ∧ mapGet false u.quayBad (a / 4096) = true ∧
       rd u pgQuay R.QUAY_UE_COUNT = satAdd R.QUAY_UE_COUNT.width (rd s pgQuay R.QUAY_UE_COUNT) 1 ∧
       bitSet (rd u pgQuay R.HEADER_ERR_STAT_ERR) 1 = true)) ∧
  (∀ (q : InstallReq) (s : State), rd s pgMgmt R.MGMT_STATUS_FW_RUNNING ≠ 0 → rd s pgQuay R.QUAY_STATUS_READY ≠ 0 →
     let o := objNats q.obj
     ∃ t, exec (.quayInstall q) s = .next t ∧
       (policyAdmits s (oSlot o) = false → bitSet (rd t pgSec R.HEADER_ERR_STAT_ERR) 2 = true) ∧
       (policyAdmits s (oSlot o) = true → quayFree s q.base o.length = true →
         (objOk s 2 o = false → bitSet (rd t pgSec R.HEADER_ERR_STAT_ERR) 0 = true) ∧
         (objOk s 2 o = true →
           (oSvn o < svnImg s ∨ (∃ e ∈ s.quayDir, e.2.id = oImage o ∧ oVersion o < e.2.ver)) →
           bitSet (rd t pgSec R.HEADER_ERR_STAT_ERR) 1 = true)) ∧
       (if policyAdmits s (oSlot o) = true ∧ quayFree s q.base o.length = true ∧ objOk s 2 o = true ∧ svnImg s ≤ oSvn o ∧
           (∀ e ∈ s.quayDir, e.2.id = oImage o → e.2.ver ≤ oVersion o) ∧ (quaySlot s (oImage o)).isSome = true then
         ∃ i, quaySlot s (oImage o) = some i ∧
           mapFind t.quayDir i = some ⟨oImage o, oVersion o, q.base, o.length, oSvn o, false⟩ ∧
           (∀ j, j ≠ i → mapFind t.quayDir j = mapFind s.quayDir j) ∧
           t.quayOther = s.quayDir ∧ t.quaySeq = s.quaySeq + 1 ∧ t.quayCopy = 1 - s.quayCopy ∧
           (if s.quaySeq % 2 = 1 then t.quayWord0 = (s.quaySeq + 1, 1 - s.quayCopy) ∧ t.quayWord1 = s.quayWord1
             else t.quayWord1 = (s.quaySeq + 1, 1 - s.quayCopy) ∧ t.quayWord0 = s.quayWord0) ∧
           (∀ j < o.length, (mapGet 0#8 t.quay (q.base + j)).toNat = o.getD j 0) ∧
           (∀ a, (a < q.base ∨ q.base + quaySpan o.length ≤ a) →
             (∀ e, mapFind s.quayDir i = some e → a < e.base ∨ e.base + quaySpan e.len ≤ a) →
             mapGet 0#8 t.quay a = mapGet 0#8 s.quay a)
       else t.quay = s.quay ∧ t.quayDir = s.quayDir ∧ t.quaySeq = s.quaySeq))

/-! ### Transfer engines -/

/-- The oldest offered descriptor of an engine is accepted where it passes the checks of R194, and else ends with
BARGE_DESC, context-fatal, without an access; under HOLD none is accepted. An accepted barge whose FENCE lets it
starts: at once where it has no bytes or its booking covers it and both sides are here; one whose source is away asks
the peer for its bytes and awaits them; one that its booking does not cover asks its sluice for the raise. A completed
barge without bytes moves nothing and adds 1 to its tally; a completed copy or transpose leaves every destination byte
of its walk holding its source byte and every other byte of the module as it was; either leaves its engine and is
counted. One whose tally is on another module sends the add behind its data and stays, by the model's choice (log 90),
until it completes again (R194 to R196, R198 to R202, R204, R212, R289). -/
def Obligations.BargesRun : Prop :=
  (∀ (e : EngIx) (s : State) (i : Nat) (j : BargeJob), (engOf s e).jobs[i]? = some j → j.phase = 0 →
     (∀ k < i, ∀ x, (engOf s e).jobs[k]? = some x → x.phase ≠ 0) → Uninjected s →
     (rd s (pgBarge e) R.BARGE_CTRL_HOLD = 1 → EndsAs (.bargeAccept e) s s) ∧
     (rd s (pgBarge e) R.BARGE_CTRL_HOLD ≠ 1 → descOk j.words = true → ∃ u t, exec (.bargeAccept e) s = .next t ∧ ComesTo u t ∧
       (engOf u e).jobs = (engOf s e).jobs.set i { j with phase := 1 } ∧ { u with regs := s.regs, engines := s.engines } = s) ∧
     (rd s (pgBarge e) R.BARGE_CTRL_HOLD ≠ 1 → descOk j.words = false →
       ∃ u, exec (.bargeAccept e) s = .next (settled (ctxFatal j.tag.ctx 0x0601 u)) ∧
       (engOf u e).jobs = (engOf s e).jobs.eraseIdx i ∧ bitSet (rd u (pgBarge e) R.HEADER_ERR_STAT_ERR) 0 = true ∧
       u.dram = s.dram ∧ u.cores = s.cores)) ∧
  (∀ (e : EngIx) (i : Nat) (s : State) (j : BargeJob), (engOf s e).jobs[i]? = some j → j.phase = 1 →
     (bFence j.words = true → ∀ x ∈ (engOf s e).jobs.take i, x.tag.ctx ≠ j.tag.ctx) →
     ∃ u t, exec (.bargeStart e i) s = .next t ∧ ComesTo u t ∧
       (bLen j.words = 0 ∨ bCc j.words ≤ (engOf s e).cls ∧ srcAway s j.words = false ∧ dstAway s j.words = false →
         (engOf u e).jobs = (engOf s e).jobs.set i { j with phase := 2 } ∧ { u with engines := s.engines } = s) ∧
       (0 < bLen j.words → bCc j.words ≤ (engOf s e).cls → srcAway s j.words = true → routeOk s (bSrcMod j.words) = true →
         (engOf u e).jobs = (engOf s e).jobs.set i
           { j with phase := 3, xid := s.nextXid % 2 ^ 14, todo := (allSrcs j.words).length } ∧
           u.nextXid = s.nextXid + 1 ∧ u.dram = s.dram) ∧
       (0 < bLen j.words → (engOf s e).cls < bCc j.words → (engOf s e).ask ≠ bCc j.words →
         u.dram = s.dram ∧ (engOf u e).jobs = (engOf s e).jobs ∧ (engOf u e).ask = max (engOf s e).ask (bCc j.words) ∧
         ∃ q ∈ (sluiceOf u e).waiting, q.eng = true ∧ q.who = e.val ∧ q.cls = max (engOf s e).ask (bCc j.words))) ∧
  (∀ (e : EngIx) (i : Nat) (s : State) (j : BargeJob), (engOf s e).jobs[i]? = some j → j.phase = 2 →
     bCksum j.words = false → Uninjected s →
     (bLen j.words = 0 → bTallyEn j.words = true → bTallyAtDst j.words = true → dstAway s j.words = true →
       ∃ y, EndsAs (.bargeComplete e i) s (sendOn j.alt [y] (setEng e
           { engOf s e with jobs := (engOf s e).jobs.set i { j with phase := 5 } } s)) ∧
         y.type = 1 ∧ y.op = 0 ∧ y.dst = bDstMod j.words ∧ y.addr = bTally j.words ∧ y.arg = 1) ∧
     (bLen j.words = 0 → bTallyEn j.words = true → (bTallyAtDst j.words = true → dstAway s j.words = false) →
       Places s (bTally j.words) 8 →
       ∃ u t, exec (.bargeComplete e i) s = .next t ∧ ComesTo u t ∧ (engOf u e).jobs = (engOf s e).jobs.eraseIdx i ∧
         rd u (pgBarge e) R.BARGE_DONE = (rd s (pgBarge e) R.BARGE_DONE + 1) % 2 ^ R.BARGE_DONE.width ∧
         dramWord u (bTally j.words) = (dramWord s (bTally j.words) + 1) % 2 ^ 64 ∧ DramBut (bTally j.words) 8 s u) ∧
     (0 < bLen j.words → bTallyEn j.words = false → bConvert j.words = false →
       (∀ n < bLen j.words, SoundByte s (srcAt j.words n) ∧ dstErr s j.words (dstAt j.words n) = none) →
       (∀ n < bLen j.words, ∀ q, placeAt s (dstAt j.words n) = (.dram, q) → mapGet false s.chDead (q / 2 ^ 31) = false) →
       (∀ n < bLen j.words, ∀ m < bLen j.words, srcAt j.words n ≠ dstAt j.words m) →
       (∀ n < bLen j.words, ∀ m < bLen j.words, placeAt s (dstAt j.words n) = placeAt s (dstAt j.words m) → n = m) →
       ∃ u t, exec (.bargeComplete e i) s = .next t ∧ ComesTo u t ∧ (engOf u e).jobs = (engOf s e).jobs.eraseIdx i ∧
         rd u (pgBarge e) R.BARGE_DONE = (rd s (pgBarge e) R.BARGE_DONE + 1) % 2 ^ R.BARGE_DONE.width ∧
         (∀ n < bLen j.words, (devByte u (dstAt j.words n)).1 = (devByte s (srcAt j.words n)).1) ∧
         (∀ a, (∀ n < bLen j.words, placeAt s a ≠ placeAt s (dstAt j.words n)) → (devByte u a).1 = (devByte s a).1)))

/-! ### Ethernet -/

/-- A poll of a ready queue pair takes its tail; the request at its head sends or receives its bytes of device DRAM;
its end moves SQ_HEAD on and adds to its completion tally, and a transport or access error stops the queue pair,
context-fatal; a request from outside is refused and counted (R306, R307). -/
def Obligations.QueuePairsWork : Prop :=
  (∀ (k : LinkIx) (q : Nat) (s : State), qpReady s k q = true →
    ∃ t, exec (.qpPoll k q) s = .next t ∧ (qpOf t k q).tail = dramWord s (wf (qpWords s k q) 2 0 48) ∧ t.dram = s.dram) ∧
  (∀ (k : LinkIx) (q : Nat) (s : State), qpWaits s k q = true →
    let r := qpRequest s k q
    let a := wf r 1 0 48
    let n := wf r 2 0 32
    (wf r 0 0 2 = 0 → qpAccess s k q a n = true →
      ∃ u t, exec (.rdmaWrite k q) s = .next t ∧ ComesTo u t ∧ (qpOf u k q).busy = 1) ∧
    (∀ d : List Byte, wf r 0 0 2 = 1 → qpAccess s k q a n = true → n ≤ d.length → Places s a n →
      ∃ u t, exec (.rdmaRead k q d) s = .next t ∧ ComesTo u t ∧ (qpOf u k q).busy = 2 ∧
        dramRead u a n = (d.take n).map (fun b => b.toNat) ∧ DramBut a n s u) ∧
    (wf r 0 0 2 = 0 → qpAccess s k q a n = false →
      ∃ u, exec (.rdmaWrite k q) s = .next (settled (ctxFatal (wf (qpWords s k q) 0 3 6) 0x0A0B u)) ∧ (qpOf u k q).busy = 3 ∧
        bitSet (rd u (pgLink k) R.HEADER_ERR_STAT_ERR) 10 = true ∧ u.dram = s.dram)) ∧
  (∀ (k : LinkIx) (q : Nat) (s : State), linkState s k = 5 → (∀ c ∈ s.ckpts, c.link ≠ k.val ∨ c.qp ≠ q) →
    (qpOf s k q).busy = 1 ∨ (qpOf s k q).busy = 2 →
    let h := qpAddr s k q + 24
    let a := wf (qpRequest s k q) 5 0 48
    (Places s h 8 → Places s a 8 → (∀ i < 8, ∀ j < 8, locate s (a + i) ≠ locate s (h + j)) →
      ∃ u t, exec (.rdmaComplete k q .done) s = .next t ∧ ComesTo u t ∧ (qpOf u k q).busy = 0 ∧
        bitsOf (dramWord u h) 0 32 = (qpHead s k q + 1) % 2 ^ 32 ∧ dramWord u a = (dramWord s a + 1) % 2 ^ 64) ∧
    (∃ u, exec (.rdmaComplete k q .transport) s = .next (settled (ctxFatal (wf (qpWords s k q) 0 3 6) 0x0A0A u)) ∧
      (qpOf u k q).busy = 3 ∧ bitSet (rd u (pgLink k) R.HEADER_ERR_STAT_ERR) 9 = true ∧
      (Places s (qpAddr s k q) 8 → bitsOf (dramWord u (qpAddr s k q)) 1 2 = 2))) ∧
  (∀ (k : LinkIx) (s : State), linkState s k = 5 →
    exec (.ethRequestIn k) s =
      .next (wr (pgLink k) R.LINK_BAD_FRAMES (satAdd R.LINK_BAD_FRAMES.width (rd s (pgLink k) R.LINK_BAD_FRAMES) 1) s))

/-! ### Trains -/

/-- Every row of a train takes in a train of its operation whose frames carry SEQs not received yet, and serves or
forwards it, on a link of version 1 with the tag extension put back; a malformed one is discarded whole with
FRAME_BAD, and one whose SEQs are not new changes nothing. A train for another module goes on, keeping its buffers,
and an encapsulated frame is held until its train is whole, which then arrives as if it had come so. A link sends the
frames of one virtual channel in the order in which they were queued, those kept for replay before those that still
wait, and loses none (R276, R282, R284, R287, R289, R290, R293). -/
def Obligations.FramesAndTrainsKeepTheirOrder : Prop :=
  ((∀ r ∈ trainRows, ∀ (k : LinkIx) (t : Train) (s : State), t.type = r.2.1 → t.op = r.2.2 → carries s t k = true →
     (TakenIn k t s → ∃ v, exec (r.1 k t) s =
         .next (settled (arrive k (if linkV1 s k = true ∧ t.type = 0 then unext t else t) v)) ∧ TookIn k t s v) ∧
     ((trainSeqs t).all (seqFresh (linkOf s k)) = true → malformed (linkV1 s k) t = true → ∃ u, exec (r.1 k t) s = .next u ∧
       (linkOf u k).rxSeq = (seqTake t (linkOf s k)).rxSeq ∧ bitSet (rd u (pgLink k) R.HEADER_ERR_STAT_ERR) 5 = true ∧
       rd u (pgLink k) R.LINK_BAD_FRAMES = satAdd R.LINK_BAD_FRAMES.width (rd s (pgLink k) R.LINK_BAD_FRAMES) (frameCount t) ∧
       u.dram = s.dram) ∧
     ((trainSeqs t).all (seqFresh (linkOf s k)) = false → exec (r.1 k t) s = .next s)) ∧
   (∀ (k : LinkIx) (t : Train) (s : State), TakenIn k t s → t.dst ≠ myId s → linkV1 s k = false → waitsBehind s k t = false →
     ∃ v, exec (.frameForward k t) s = .next (settled (forwardTrain k t (holdTrain k t v))) ∧ TookIn k t s v) ∧
   (∀ (k : LinkIx) (t : Train) (s : State) (b : FrameBody), TakenIn k t s → t.type = 0 → t.op = 14 → t.bodies = [b] →
     (linkOf s k).encap = [] →
     (extPlace b = (0, true) →
       let w := { t with
         type := t.arg % 8, op := 0, arg := extArg b, closed := true, gaps := [],
         polder := (extTag b).1, gen := (extTag b).2.1, step := (extTag b).2.2,
         bodies := framesOf ((b.bytes.drop 16).map (fun x => (x.toNat, b.poison))) }
       ∃ v, exec (.encap k t) s = .next (settled (if t.dst = myId s then arrive k w v else forwardTrain 32 w v)) ∧
         TookIn k t s v ∧ (linkOf v k).encap = []) ∧
     ((extPlace b).2 = false →
       ∃ u, EndsAs (.encap k t) s u ∧ TookIn k t s u ∧
         (linkOf u k).encap = [⟨{ t with bodies := [], gaps := [] }, (extPlace b).1, b, false, 0, 32⟩]))) ∧
  (∀ (k vc : Nat) (s : State),
     let held (t : State) : List Frame :=
       ((linkOf t k).replay.map (fun e => e.2) ++ (linkOf t k).txq).filter (fun f => frameVc f.hdr == vc)
     held (pump k s) = held s ∧ (linkOf (pump k s) k).replay.length ≤ max 512 (linkOf s k).replay.length)

/-- Trains that reach memory or a transfer engine here: a WRITE stores its bytes, a READ_REQ is answered with the
bytes it names, a READ_RESP lands them for the barge that waits, a WRITE_ACK and a DENY end what a barge awaits, and a
TALLY_ADD, from a train or from the host, adds to its tally. A WRITE that expects another class of section stores
nothing; that it names the class in ARG [16:15] is the model's choice, log 89. Trains of the update engines: a gather
of the generation in force is answered with its block's compute copy and a TALLY_ADD, gather data and the state of a
LOADING shard land where they are addressed, and mirror streams are kept, marked current, skipped, acknowledged and
given back (R198, R199, R204, R233 to R236, R286, R301, R314, R354). -/
def Obligations.MemoryAndUpdateTrainsAreServed : Prop :=
  ((∀ (k : LinkIx) (t : Train) (s : State) (n : Nat) (x : Ctx), TakenIn k t s → ServedHere k t n x s →
     let bs := bodyNats t
     let len := t.arg % 2 ^ 40
     let xid := t.arg % 2 ^ 14
     let cls := bitsOf t.arg 15 2
     (t.type = 0 → t.op = 0 → inSections s x.polder t.addr bs.length = true → Places s t.addr bs.length →
       (bitSet t.arg 14 = false → bs.length = 8 → granBacked s (t.addr - 8) 8 = true) →
       (cls = 0 ∨ (∀ i ∈ sectsOf t.addr bs.length, (sectOf s i).cls + 1 = cls) →
         ∃ u, EndsAs (.write k t) s u ∧ dramRead u t.addr bs.length = bs ∧ DramBut t.addr bs.length s u) ∧
       (cls ≠ 0 → (∃ i ∈ sectsOf t.addr bs.length, (sectOf s i).cls + 1 ≠ cls) →
         ∃ u y, EndsAs (.write k t) s (sendTrain y u) ∧ y.type = 0 ∧ y.op = 15 ∧ y.dst = t.src ∧ bitsOf y.arg 16 16 = 0x0602 ∧
           u.dram = s.dram)) ∧
     (t.type = 0 → t.op = 1 → inSections s x.polder t.addr len = true → granBacked s t.addr len = true →
       ∃ u ts, EndsAs (.readReq k t) s (sendSeries ts u) ∧ ts.flatMap bodyNats = dramRead s t.addr len ∧
         ∀ y ∈ ts, y.type = 0 ∧ y.op = 2 ∧ y.src = t.dst ∧ y.dst = t.src ∧ y.job = x.job ∧ y.arg = bitsOf (bodyWord t 0) 48 14) ∧
     (∀ (e i : Nat) (j : BargeJob), bargeByXid s xid = some (e, i) → (engOf s e).jobs[i]? = some j → j.phase = 3 →
       (t.type = 0 → t.op = 2 → collects j.words = false →
         (∀ m < bs.length, dstErr s j.words (t.addr + m) = none) →
         (∀ m < bs.length, ∀ q, placeAt s (t.addr + m) = (.dram, q) → mapGet false s.chDead (q / 2 ^ 31) = false) →
         (∀ m < bs.length, ∀ l < bs.length, placeAt s (t.addr + m) = placeAt s (t.addr + l) → m = l) →
         ∃ u, EndsAs (.readResp k t) s u ∧ (∀ m < bs.length, (devByte u (t.addr + m)).1 = bs.getD m 0) ∧
           (engOf u e).jobs = (engOf s e).jobs.set i { j with todo := j.todo - bs.length }) ∧
       (t.type = 0 → t.op = 3 → bargePeer s xid = some t.src → ∃ u, EndsAs (.writeAck k t) s u ∧ u.dram = s.dram ∧
         (engOf u e).jobs = (engOf s e).jobs.set i { j with todo := j.todo - 1 }) ∧
       (t.type = 0 → t.op = 15 → bargePeer s xid = some t.src → bitsOf t.arg 16 16 ≠ 0x0804 → bitsOf t.arg 16 16 ≠ 0x0805 →
         (bitsOf t.arg 16 16 = 0x0002 → bargeByTally s t.src t.addr = none) →
         let bit := denyBit (bitsOf t.arg 16 16)
         ∃ u, EndsAs (.deny k t) s (ctxFatal j.tag.ctx (errCode .barge bit) u) ∧ u.dram = s.dram ∧
           (engOf u e).jobs = (engOf s e).jobs.eraseIdx i ∧ bitSet (rd u (pgBarge e) R.HEADER_ERR_STAT_ERR) bit = true)) ∧
     (t.type = 1 → t.op = 0 → t.vc ≠ 3 → (t.src, t.addr) ∉ s.crcDenied → Places s t.addr 8 →
       ∃ u, EndsAs (.tallyAdd (.frame k t)) s u ∧ dramWord u t.addr = (dramWord s t.addr + t.arg) % 2 ^ 64 ∧
         DramBut t.addr 8 s u)) ∧
   (∀ (a : Nat) (v : DWord) (s : State), pathUp .host s = true → tallyAligned a = true → Places s a 8 →
     ∃ t, exec (.tallyAdd (.host a v)) s = .next t ∧ t.reply = ⟨0, 0, false⟩ ∧
       dramWord t a = (dramWord s a + v.toNat) % 2 ^ 64 ∧ DramBut a 8 s t)) ∧
  (∀ (k : LinkIx) (t : Train) (s : State) (n : Nat) (x : Ctx), TakenIn k t s → ServedHere k t n x s → t.type = 0 →
     let bs := bodyNats t
     (t.op = 5 → gMcast t = false → t.addr < 2 ^ 39 → Places s t.addr bs.length →
       ∃ u, EndsAs (.gatherData k t) s u ∧ dramRead u t.addr bs.length = bs ∧ DramBut t.addr bs.length s u) ∧
     (∀ (i : Nat) (b : Binding) (h : Shard), bindFor s n (nV t) = some i → bindAt s i = some b →
       shardOf b.desc (nV t) = some h →
       let w := genWord s h (nU t)
       let cb := copyBytes (groupAt b.desc (nU t)).cfmt
       let served (c : Instr) : Prop := ∃ u ts, EndsAs c s (sendSeries ts u) ∧
         urd u R.UPD_BIND_GATHERS i = (urd s R.UPD_BIND_GATHERS i + 1) % 2 ^ R.UPD_BIND_GATHERS.width ∧
         ts.flatMap bodyNats = dramRead s (recAt b.desc h (gJ t) + offCopy b.desc (gwBuf w)) cb ∧ (∀ y ∈ ts, y.dst = t.src) ∧
         ∃ y, ts.getLast? = some y ∧ y.type = 1 ∧ y.addr = gTally t ∧ y.arg = 1
       (h.loading = false → (h.v, nU t) ∉ b.restore → isHeld s n = false → gGen t = gwGen w → gMcast t = false →
         (t.op = 4 → served (.gatherReq k t)) ∧ (t.op = 6 → served (.gatherFwd k t))) ∧
       (t.op = 7 → h.loading = true → bitSet t.addr 47 = false →
         inSections s x.polder (h.base + t.addr) bs.length = true → Places s (h.base + t.addr) bs.length →
         ∃ u, EndsAs (.scatter k t) s u ∧ dramRead u (h.base + t.addr) bs.length = bs ∧
           DramBut (h.base + t.addr) bs.length s u) ∧
       (t.op = 11 → (nV t, nU t) ∉ b.migSent → gGen t = gwGen w →
         ∃ u c, EndsAs (.mirrorAck k t) s u ∧ bindAt u i = some c ∧
           c.mirWait = b.mirWait.filter (fun p => p != (nV t, nU t)) ∧ u.dram = s.dram)) ∧
     (t.op = 8 → inSections s x.polder t.addr bs.length = true → ownSects s (nV t % 8) t.addr bs.length = true →
       Places s t.addr bs.length →
       ∃ u m, EndsAs (.mirror k t) s u ∧ dramRead u t.addr bs.length = bs ∧ DramBut t.addr bs.length s u ∧
         mirrorOf u t.job (nV t) (nU t) = some m ∧ m.wgen = some (gGen t) ∧
         (t.addr, bs.length) ∈ (if gGen t % 2 = 0 then m.slot0 else m.slot1)) ∧
     (t.op = 9 → ∃ u m, EndsAs (.mirrorEnd k t) s u ∧ u.dram = s.dram ∧ mirrorOf u t.job (nV t) (nU t) = some m ∧
       m.cur = some (gGen t % 2) ∧ m.genW = bodyWord t 0) ∧
     (t.op = 10 → ∃ u m, EndsAs (.mirrorSkip k t) s u ∧ u.dram = s.dram ∧ mirrorOf u t.job (nV t) (nU t) = some m ∧
       gwGen m.genW = gGen t ∧ gwSkip m.genW = true) ∧
     (t.op = 16 → ∀ ts, mirrorRestore s n t.src (nV t) (nU t) t.job = some ts →
       ∃ u, EndsAs (.restoreReq k t) s (sendSeries ts u) ∧ { u with regs := s.regs, links := s.links } = s))

/-- A verdict from a child is kept for its step, the job verdict of the lowest open step is recorded and acted on, and
a contribution to the step being reduced is taken, one for a step decided already is dropped and counted, and one for
a step not planned is held at the credits. Two leaves that are siblings combine to the same root, the lower one's
values first, in whichever order they arrive, the first one's values having waited in a slot of the pool, which the
root then takes (R159, R161, R228, R229, R305). -/
def Obligations.VerdictsAndContributionsAreTaken : Prop :=
  (∀ (k : LinkIx) (t : Train) (s : State) (n : Nat) (x : Ctx), TakenIn k t s → ServedHere k t n x s →
     (∀ (p : Place) (i c : Nat), t.type = 0 → t.op = 12 → placeFor x t.step = some p → memberIdx s p = some i →
       (childrenOf p i).find? (fun c => moduleOf p c == t.src) = some c →
       ∃ u, EndsAs (.verdictUp k t) s (pokeCtx n u) ∧
         (∃ y, ctxOf u n = some { x with ups := y } ∧ (c, sumsOf t.step (bodyNats t)) ∈ y) ∧ u.dram = s.dram) ∧
     (t.type = 0 → t.op = 13 → t.step = lowestOpen s x →
       let v := verdictWith s x ⟨t.step, bitSet t.arg 0, bodyWord t 0, bodyWord t 1, bodyWord t 2, bodyWord t 3, bodyWord t 4,
         bodyWord t 5, 0, 0, 0, bitSet t.arg 1⟩
       ∃ u y, EndsAs (.verdictDown k t) s (releaseCtx n ((bindsOf u n).foldl
           (fun w e => bindVerdict e.1 v (urd w R.UPD_BIND_OPT_COUNT e.1) w) u)) ∧ ctxOf u n = some y ∧ v ∈ y.verds) ∧
     (∀ (i : Nat) (b : Binding) (h : Shard), t.type = 6 → t.op = 0 → bindFor s n (nV t) = some i → bindAt s i = some b →
       shardOf b.desc (nV t) = some h →
       let gen := gwGen (genWord s h (nU t))
       (stepLe t.step gen = true → h.loading = false → isHeld s n = false →
         ∃ u, EndsAs (.node k t) s u ∧ u.binds = s.binds ∧ u.dram = s.dram ∧
           urd u R.UPD_BIND_LATE_DROP i = min (urd s R.UPD_BIND_LATE_DROP i + 1) (2 ^ 32 - 1)) ∧
       (stepLe t.step gen = false → planOf x t.step = none →
         ∃ u, EndsAs (.node k t) s u ∧ bindAt u i = some { b with heldN := b.heldN ++ [(k.val, t)] } ∧ u.dram = s.dram) ∧
       (∀ p : Plan, planOf x t.step = some p → t.step = stepNext gen → stepLe t.step gen = false →
         reduceWaits s i n b h (nU t) = false → b.nodes = [] → b.series = [] → b.stalled = [] → 0 < b.desc.slots →
         (bodyWords t).length = nodeWords (lgOf s x) t →
         (blockKey (nV t) (nU t) (nJ t), nodeKey (nLevel t) (nA t)) ∉ b.got →
         ∃ u c, EndsAs (.node k t) s u ∧ bindAt u i = some c ∧
           (blockKey (nV t) (nU t) (nJ t), nodeKey (nLevel t) (nA t)) ∈ c.got))) ∧
  (∀ (s : State) (i lg : Nat) (b : Binding) (l r : Node), bindAt s i = some b → b.nodes = [] → 1 ≤ lg →
     l.level = 0 → r.level = 0 → l.a = 0 → r.a = 1 → r.v = l.v → r.u = l.u → r.j = l.j →
     l.vals.length = 1024 → r.vals.length = 1024 → (∀ w ∈ l.vals ++ r.vals, w < 2 ^ 32) →
     b.desc.pool % 64 = 0 → Places s b.desc.pool 4096 → ReadsSound s b.desc.pool 4096 →
     let vals := addBlock l.vals r.vals
     let root : Node := ⟨l.v, l.u, l.j, 64, 0, vals, l.bad || r.bad || badBlock vals, 0⟩
     ∀ t ∈ [placeNode i 2 lg 40 r (placeNode i 2 lg 40 l s), placeNode i 2 lg 40 l (placeNode i 2 lg 40 r s)],
       ∃ c, bindAt t i = some c ∧ c.nodes = [root] ∧ c.roots = b.roots ++ [(partKey l.v l.u, l.j)] ∧
         dramRead t b.desc.pool 4096 = vals.flatMap (bytesOf 4))

/-! ### Links -/

/-- A link trains by phases: start, signal, equalisation, FEC lock, negotiation of what the capability words share,
FENCED; a lower common rate trains again, none takes it DOWN, and lost attempts fall back to the lower rate and then
take it DOWN, without an error where the partner slot is empty, which by the model's choice (log 87) shows as no
signal in any attempt; the loss of a lane takes it DOWN to train again with its replay buffer kept. CREDIT returns
what the partner has freed, drops acknowledged frames from the replay buffer and replays on request, and a grant above
what is outstanding takes the link DOWN; CREDIT_SEND spells what was freed here; an uncorrectable codeword is counted,
with the symbols corrected beside it, and its first frame asked for again where none before it is; LIVENESS frames are
counted; a link without frames, or with a frame starved of credits, goes DOWN (R274 to R278, R280, R281, R288, R308,
R405, R411, R414). -/
def Obligations.LinksTrainAndAreKept : Prop :=
  (∀ (k : LinkIx) (s : State),
     let g := pgLink k
     let st := linkState s k
     let l := linkOf s k
     (rd s g R.LINK_CTRL_ENABLE ≠ 0 → phyReady s = true → pageKey g ∉ s.inReset → st = 0 →
       ∃ t, exec (.linkTrainStart k) s = .next t ∧ linkState t k = 1 ∧ (linkOf t k).phase = 1 ∧ (linkOf t k).tries224 = 0 ∧
         (linkOf t k).tries112 = 0 ∧ { t with regs := s.regs, links := s.links } = s) ∧
     (st = 1 → l.phase = 1 → exec (.signalDetect k) s = .next (setLink k { l with phase := 2, sensed := true } s)) ∧
     (st = 1 → l.phase = 2 → exec (.equalisationComplete k) s = .next (setLink k { l with phase := 3 } s)) ∧
     (st = 1 → l.phase = 3 → ∃ t, exec (.fecLock k) s = .next t ∧ { t with regs := s.regs, links := s.links } = s ∧
       (linkMode s k = 2 → linkState t k = 5) ∧
       (linkMode s k ≠ 2 → linkState t k = 2 ∧ (linkOf t k).phase = 4 ∧
         rd t g R.LINK_LOCAL_CAPS = localCaps s k % 2 ^ R.LINK_LOCAL_CAPS.width)) ∧
     (2 ≤ st → st ≤ 4 → ∃ t, exec (.capsSend k) s = .next t ∧ { t with regs := s.regs, links := s.links } = s ∧
       (linkOf t k).capsOut = some (localCaps s k, localCred) ∧ (∀ vc < 8, bitsOf localCred (8 * vc) 8 = 128) ∧
       rd t g R.LINK_LOCAL_CAPS = localCaps s k % 2 ^ R.LINK_LOCAL_CAPS.width ∧
       rd t g R.LINK_TX_FRAMES = (rd s g R.LINK_TX_FRAMES + 1) % 2 ^ R.LINK_TX_FRAMES.width) ∧
     (∀ c0 c1 : DWord, st = 2 →
       let own := localCaps s k
       let v := bitsOf c0.toNat 0 4
       let both (b : Nat) : Bool := bitSet own b && bitSet c0.toNat b
       let hi := both 5 && v == 2
       (v = 1 ∨ v = 2) → (both 6 = true ∨ both 7 = true) →
       ∃ u, EndsAs (.caps k c0 c1) s u ∧ rd u g R.LINK_PARTNER_CAPS = c0.toNat ∧
         (hi = true ∨ both 4 = true ∧ l.chosen ≠ 0 → l.retrain = false →
           linkState u k = 3 ∧ rd u g R.LINK_STATUS_VERSION = v ∧ rd u g R.LINK_STATUS_FEC_528 = b2n (!both 6) ∧
           rd u g R.LINK_STATUS_RATE_224 = b2n (hi && l.chosen == 0) ∧ rd u g R.LINK_PARTNER_CRED = c1.toNat) ∧
         (hi = false → both 4 = true → l.chosen = 0 → linkState u k = 1 ∧ (linkOf u k).chosen = 1) ∧
         (hi = false → both 4 = false → l.retrain = false →
           linkState u k = 0 ∧ bitSet (rd u g R.HEADER_ERR_STAT_ERR) 1 = true)) ∧
     (st = 1 ∨ st = 2 → ∃ u, EndsAs (.trainingTimeout k) s u ∧
       (l.chosen = 0 → linkMode s k ≠ 2 → linkState u k = 1 ∧ (linkOf u k).phase = 1 ∧ (linkOf u k).tries224 = l.tries224 + 1 ∧
         (linkOf u k).chosen = (if l.phase = 3 ∨ 2 ≤ l.tries224 then 1 else 0)) ∧
       (l.chosen ≠ 0 ∨ linkMode s k = 2 → l.tries112 < 2 → linkState u k = 1 ∧ (linkOf u k).tries112 = l.tries112 + 1) ∧
       (l.chosen ≠ 0 ∨ linkMode s k = 2 → 2 ≤ l.tries112 → linkState u k = 0 ∧
         (l.sensed = true ∨ l.retrain = true →
           bitSet (rd u g R.HEADER_ERR_STAT_ERR) (if l.retrain = true then 0 else 1) = true) ∧
         (l.sensed = false → l.retrain = false → rd u g R.HEADER_ERR_STAT_ERR = rd s g R.HEADER_ERR_STAT_ERR))) ∧
     (st ≠ 0 → st ≠ 5 → ∃ u, EndsAs (.laneLoss k) s u ∧ linkState u k = 0 ∧
       (st = 4 → (linkOf u k).replay = l.replay ∧ (linkOf u k).retrain = true ∧ rd u g R.LINK_STATUS_RETRYING = 1) ∧
       (st ≠ 4 → linkOf u k = .zero))) ∧
  (∀ (k : LinkIx) (s : State),
     let g := pgLink k
     let l := linkOf s k
     let rx (t : State) : Prop := rd t g R.LINK_RX_FRAMES = (rd s g R.LINK_RX_FRAMES + 1) % 2 ^ R.LINK_RX_FRAMES.width
     let tx (t : State) : Prop := rd t g R.LINK_TX_FRAMES = (rd s g R.LINK_TX_FRAMES + 1) % 2 ^ R.LINK_TX_FRAMES.width
     (∀ b : CreditBody, linkEmb s k = true → classed k = false → Uninjected s →
       let d (vc : Nat) : Nat := (b.cum.getD vc 0 % 2 ^ 16 + 2 ^ 16 - mapGet 0 l.seen vc) % 2 ^ 16
       ((∀ vc < 8, d vc ≤ credUsed l vc) → l.txq = [] → b.nak = none →
         ∃ u, EndsAs (.credit k b) s u ∧ rx u ∧ (linkOf u k).replay = acked b.ackSeq l.replay ∧
           (∀ vc < 8, credUsed (linkOf u k) vc + d vc = credUsed l vc) ∧ { u with regs := s.regs, links := s.links } = s) ∧
       ((∀ vc < 8, d vc ≤ credUsed l vc) → l.txq = [] → ∀ q, b.nak = some q →
         ∃ u, EndsAs (.credit k b) s u ∧ rd u g R.LINK_STATUS_RETRYING = 1 ∧
           rd u g R.LINK_REPLAYS = satAdd R.LINK_REPLAYS.width (rd s g R.LINK_REPLAYS) 1) ∧
       ((∃ vc < 8, credUsed l vc < d vc) →
         ∃ u, EndsAs (.credit k b) s u ∧ linkState u k = 0 ∧ bitSet (rd u g R.HEADER_ERR_STAT_ERR) 4 = true)) ∧
     (linkEmb s k = true → l.unsent ≠ 0 ∨ l.nak ≠ none →
       ∃ t b, exec (.creditSend k) s = .next t ∧ tx t ∧ (linkOf t k).credOut = some b ∧ (linkOf t k).unsent = 0 ∧
         (linkOf t k).nak = none ∧ b.nak = l.nak ∧ b.ackSeq = (l.rxSeq + 4095) % 4096 ∧
         (classed k = false → ∀ vc < 8, b.cum.getD vc 0 = (mapGet 0 l.free0 vc + mapGet 0 l.free1 vc) % 2 ^ 16) ∧
         { t with regs := s.regs, links := s.links } = s) ∧
     (∀ seq n sym : Nat, 2 ≤ linkState s k → linkState s k ≤ 5 → ∃ t, exec (.fecUe k seq ⟨n, sym⟩) s = .next t ∧ t.dram = s.dram ∧
       rd t g R.LINK_FEC_UE_CW = satAdd R.LINK_FEC_UE_CW.width (rd s g R.LINK_FEC_UE_CW) 1 ∧
       rd t g R.LINK_FEC_CE_SYM = (rd s g R.LINK_FEC_CE_SYM + sym) % 2 ^ R.LINK_FEC_CE_SYM.width ∧
       bitSet (rd t g R.HEADER_ERR_STAT_ERR) 3 = true ∧
       (linkEmb s k = true → 0 < n → seqLost l seq = true → (linkOf t k).nak = some (seq % 4096)) ∧
       (linkEmb s k = true → 0 < n → seqLost l seq = false → (linkOf t k).nak = l.nak)) ∧
     (∀ src : Nat, linkEmb s k = true → partnerOf s k = some src →
       ∃ t, exec (.liveness k src) s = .next t ∧ rx t ∧ { t with regs := s.regs } = s) ∧
     (linkEmb s k = true → ∃ t, exec (.livenessSend k) s = .next t ∧ tx t ∧ { t with regs := s.regs } = s) ∧
     (linkEmb s k = true → l.joined = true → ∃ u, EndsAs (.liveTimeout k) s u ∧ linkState u k = 0 ∧
       bitSet (rd u pgEmb R.EMB_LINKS_LOST) k = true ∧ bitSet (rd u pgEmb R.HEADER_ERR_STAT_ERR) 0 = true) ∧
     (∀ vc : Fin 8, linkUp s k = true → (∃ f ∈ l.txq, frameVc f.hdr = vc.val ∧ mayCredit s k vc f.cls = false) →
       ∃ u, EndsAs (.creditStarve k vc) s u ∧ linkState u k = 0 ∧ (linkOf u k).replay = l.replay ∧
         bitSet (rd u pgEmb R.HEADER_ERR_STAT_ERR) 2 = true ∧
         rd u g R.LINK_RETRAINS = satAdd R.LINK_RETRAINS.width (rd s g R.LINK_RETRAINS) 1))

/-! ### The embankment protocol -/

/-- Every row of an EMB message takes its frame in, and acts on the message where it is for this module and else sends
it on; HELLO, ELECT, WARDEN and REGISTER do what they say, an election that no lower module answers makes this module
warden, and a HELLO goes out on a link that is FENCED or UP. A warden opens a case for a reported loss, closes it on
the suspect's answer, and declares the module lost without one; a probed module answers; and a module declared lost is
known as lost (R279, R410, R412 to R415). -/
def Obligations.WardensAndLosses : Prop :=
  ((∀ r ∈ embRows, ∀ (k : LinkIx) (e : EmbMsg) (s : State), e.op = r.2 → EmbTaken k e s →
     let t : Train := { embTrain e with seq := (linkOf s k).rxSeq }
     ∃ v, TookIn k t s v ∧
       exec (r.1 k e) s = .next (settled (if e.dst = myId s then embIn k e v else forwardTrain k t (holdTrain k t v)))) ∧
   (∀ (k : LinkIx) (e : EmbMsg) (s : State), EmbTaken k e s → e.dst = myId s → embOn s = true →
     (e.op = 0 → ∃ u, EndsAs (.hello k e) s u ∧ (linkOf u k).heard = true ∧ (linkOf u k).warden = e.subject ∧
       (linkOf u k).joined = ((linkOf s k).joined || bitSet e.aux 0) ∧
       ((linkOf u k).joined = true → partnerFits s k = true → rd s (pgLink k) R.LINK_CTRL_FENCE = 0 →
         rd s pgPwr R.PWR_STATUS_STATE = 0 → linkUp u k = true)) ∧
     (e.op = 1 → e.src < myId s → s.emb.contend.getD (rd s pgEmb R.EMB_EPOCH) ≤ e.epoch →
       ∃ u, EndsAs (.elect k e) s u ∧ u.emb.contend = none ∧ u.emb.seen = max s.emb.seen e.epoch) ∧
     (e.op = 2 → rd s pgEmb R.EMB_EPOCH < e.epoch ∨ e.epoch = rd s pgEmb R.EMB_EPOCH ∧ e.src < rd s pgEmb R.EMB_WARDEN_ID →
       ∃ u, EndsAs (.warden k e) s u ∧ rd u pgEmb R.EMB_WARDEN_ID = e.src % 2 ^ R.EMB_WARDEN_ID.width ∧
         rd u pgEmb R.EMB_EPOCH = e.epoch % 2 ^ R.EMB_EPOCH.width ∧ rd u pgEmb R.EMB_STATUS_WARDEN = b2n (e.src == myId s) ∧
         u.emb.contend = none) ∧
     (e.op = 7 → isWarden s = true → ∃ u, EndsAs (.register k e) s u ∧
       (⟨e.src, e.job, e.aux, e.subject, bitsOf e.arg 0 16⟩ : Registered) ∈ u.emb.regs ∧ u.dram = s.dram)) ∧
   (∀ (s : State) (epoch : Nat), s.emb.contend = some epoch → ∃ u, EndsAs .electionTimeout s u ∧
     isWarden u = true ∧ rd u pgEmb R.EMB_WARDEN_ID = myId s % 2 ^ R.EMB_WARDEN_ID.width ∧
     rd u pgEmb R.EMB_EPOCH = epoch % 2 ^ R.EMB_EPOCH.width ∧ u.emb.contend = none) ∧
   (∀ (k : LinkIx) (s : State), embOn s = true → linkEmb s k = true →
     ∃ e, exec (.helloSend k) s = .next (putOnLink 32 k (embTrain e) s) ∧ e.op = 0 ∧ e.src = myId s ∧
       e.subject = rd s pgEmb R.EMB_WARDEN_ID ∧ e.epoch = rd s pgEmb R.EMB_EPOCH ∧ bitSet e.aux 0 = (linkOf s k).heard)) ∧
  ((∀ (k : LinkIx) (e : EmbMsg) (s : State), EmbTaken k e s → e.dst = myId s → embOn s = true →
     (e.op = 3 → isWarden s = true → e.subject ∉ s.emb.lost → (∀ l ∈ s.emb.losses, l.suspect ≠ e.subject) →
       ∃ u, EndsAs (.loss k e) s u ∧ u.emb.nonce = s.emb.nonce + 1 ∧
         u.emb.losses = s.emb.losses ++ [⟨e.subject, [e.src], s.emb.nonce, false, [e.aux]⟩]) ∧
     (e.op = 4 → ∃ u a, EndsAs (.probe k e) s (sendEmb a u) ∧ a.op = 5 ∧ a.src = myId s ∧ a.dst = e.src ∧
       a.subject = myId s ∧ a.arg = e.arg ∧ { u with regs := s.regs, links := s.links } = s) ∧
     (e.op = 5 → ∃ u, EndsAs (.probeAck k e) s u ∧
       u.emb.losses = s.emb.losses.filter (fun l => !(l.suspect == e.subject && l.nonce == e.arg && !l.held)) ∧
       { u.emb with losses := s.emb.losses } = s.emb) ∧
     (e.op = 6 → ∃ u, EndsAs (.lost k e) s u ∧ e.subject ∈ u.emb.lost ∧ ∀ m ∈ s.emb.lost, m ∈ u.emb.lost)) ∧
   (∀ (s : State) (suspect : Nat) (l : LossCase), l ∈ s.emb.losses → l.suspect = suspect → l.held = false →
     (∀ y ∈ s.emb.losses, y.suspect = suspect → y = l) →
     ∃ u, EndsAs (.moduleLost suspect) s u ∧ u.emb.losses = s.emb.losses.filter (fun y => y != l) ∧
       rd u pgEmb R.EMB_DECISIONS = satAdd R.EMB_DECISIONS.width (rd s pgEmb R.EMB_DECISIONS) 1 ∧
       bitSet (rd u pgEmb R.HEADER_ERR_STAT_ERR) 1 = true))

/-- What the members of a job do on its messages: RECOVER without a spare halts it and with one prepares; REPLAY_PREP
prepares, answers and DURABLE are gathered, REPLAY and a REPLAY_REQ at the coordinator take the job back to their
step, HALT halts it behind its dike, and ROLLBACK holds it at its next step boundary with the least limit (R417, R419,
R421 to R424, R426, R433). -/
def Obligations.JobsRecover : Prop :=
  ∀ (k : LinkIx) (e : EmbMsg) (s : State) (n : Nat) (x : Ctx), EmbTaken k e s → e.dst = myId s → embOn s = true →
    embCtx s e = some (n, x) →
    let cnt := if x.replayStep = e.step ∧ x.replayCnt ≠ 0 then x.replayCnt + 1 else 1
    let replayed (u : State) : Prop := ∃ y, ctxOf u n = some y ∧ y.replayStep = e.step ∧ y.replayCnt = cnt ∧
      y.admitStep = some e.step ∧ y.prep = false ∧ ∀ a ∈ y.slots, stepLe e.step a.2.step = false
    (e.op = 13 → (isRoot s x = false ∨ x.halted = false) → ∃ u y, EndsAs (.halt k e) s u ∧ ctxOf u n = some y ∧
      y.halted = true ∧ y.haltCode = (if x.halted = true then x.haltCode else e.aux) ∧
      bitSet (rd u pgEmb R.HEADER_ERR_STAT_ERR) 6 = true) ∧
    (e.op = 14 → ∃ u y, EndsAs (.rollback k e) s u ∧ ctxOf u n = some y ∧ y.prep = false ∧
      y.hold = some (x.hold.getD (lowestOpen s x))) ∧
    (e.op = 16 → isRoot s x = true → ∃ u y, EndsAs (.rollbackReq k e) s u ∧ ctxOf u n = some y ∧
      y.hold = some (x.hold.getD (lowestOpen s x)) ∧
      mapFind u.emb.limits e.job = some (match mapFind s.emb.limits e.job with
        | some l => if stepLe l e.arg = true then l else e.arg
        | none => e.arg)) ∧
    (e.op = 11 → e.extra = [] → cnt ≤ rd s pgEmb R.EMB_REPLAY_MAX →
      ∃ u, EndsAs (.replay k e) s u ∧ replayed u) ∧
    (e.op = 12 → isRoot s x = true → x.halted = false → replayFresh x e.step = false → verdictHeld x e.step = false →
      cnt ≤ rd s pgEmb R.EMB_REPLAY_MAX → ∃ u, EndsAs (.replayReq k e) s u ∧ replayed u) ∧
    (∀ p, x.place = some p →
      (e.op = 8 → memberOfModule p e.subject ≠ none → (∀ r, recovOf s e.job = some r → r.lost ≠ e.subject) →
        (spareOf s p e.subject = none → ∃ u y, EndsAs (.recover k e) s u ∧ ctxOf u n = some y ∧ y.halted = true ∧
          bitSet (rd u pgEmb R.HEADER_ERR_STAT_ERR) 9 = true) ∧
        (∀ spare, spareOf s p e.subject = some spare →
          memberIdx s (exchange p e.subject spare) = some (rootOf (exchange p e.subject spare)) →
          ∃ u y r, EndsAs (.recover k e) s u ∧ ctxOf u n = some y ∧ y.prep = true ∧ recovOf u x.job = some r ∧
            r.lost = e.subject ∧ r.spare = spare)) ∧
      (e.op = 9 → ∀ spare i, spareOf s p e.subject = some spare → memberOfModule p e.subject ≠ none →
        memberIdx s (exchange p e.subject spare) = some i →
        ∃ u y r, EndsAs (.replayPrep k e) s u ∧ ctxOf u n = some y ∧ y.prep = true ∧ recovOf u x.job = some r ∧
          r.lost = e.subject ∧ r.spare = spare ∧ r.verd = highVerdict s x ∧ r.gen = highGen s n x) ∧
      (∀ r, recovOf s e.job = some r → r.job = e.job →
        (e.op = 10 → ∀ c, r.wait.find? (fun i => moduleOf (exchange p r.lost r.spare) i == e.src) = some c →
          r.wait.erase c ≠ [] → ∃ u, EndsAs (.prepAnswer k e) s u ∧ recovOf u e.job = some
            { r with wait := r.wait.erase c, verd := stepMax r.verd (bitsOf e.arg 0 32), gen := stepMax r.gen (bitsOf e.arg 32 32) }) ∧
        (e.op = 15 → r.lost = e.subject → r.wait ≠ [] → ∃ u, EndsAs (.durable k e) s u ∧
          recovOf u e.job = some { r with durable := some (e.arg % 2 ^ 32) })))

/-! ### Streams and steps -/

/-- A tail read of a stream finds the entries its tail shows, and a tail below the head or above the ring is
STREAM_RING; the head entry of a stream starts on every core of its rectangle once its conditions hold; and a segment
whose cores have all ended adds to its tally, frees its groups and advances the head (R251, R253, R349, R350, R352). -/
def Obligations.StreamsAreFetched : Prop :=
  ∀ (n : CtxIx) (st : StreamIx) (s : State) (x : Ctx), ctxOf s n = some x →
    let r := ringOf x st
    let h := headOf s n st
    let k := nextOf x st
    let ws := entryWords s x st k
    (fetchOn s n x = true → r.log2n ≠ 0 → ReadsSound s r.tail 8 →
      let t := dramWord s r.tail
      (h ≤ t → t ≤ h + 2 ^ r.log2n → ∃ u, exec (.tailRead n st) s = .next u ∧
        ctxOf u n = some { x with tails := mapSet 0 x.tails st t } ∧ u.dram = s.dram ∧ u.cores = s.cores) ∧
      (t < h ∨ h + 2 ^ r.log2n < t → ∃ u, exec (.tailRead n st) s = .next (ctxFatal n (errCode .ctx 2) u) ∧
        bitSet (rd u (pgCtx n) R.HEADER_ERR_STAT_ERR) 2 = true ∧ u.ctxs = s.ctxs ∧ u.dram = s.dram ∧ u.cores = s.cores)) ∧
    (fetchOn s n x = true → st.val ≠ 3 → k < tailOf x st → ReadsSound s (r.base + k % 2 ^ r.log2n * 64) 64 →
      ReadsSound s (wf ws 2 0 48) (8 * wf ws 2 48 13) → segOk s x ws = true → tagBad x ws = false →
      (wf ws 4 0 48 = 0 ∨ mapFind s.fwait (n.val * 4 + st.val) = none ∧ wd ws 5 ≤ dramWord s (wf ws 4 0 48)) →
      holdLets x (if tagged ws then some (tStep ws) else none) = true → (tagged ws = true → tagStarts x ws = true) →
      (∀ c ∈ rectCores ws, coreTakes s n st c = true) →
      ∃ u y, exec (.segmentStart n st) s = .next u ∧ ctxOf u n = some y ∧ nextOf y st = k + 1 ∧
        y.started = x.started ++ [startedOf st k ws] ∧ u.dram = s.dram ∧ (∀ c ∉ rectCores ws, coreOf u c = coreOf s c) ∧
        ∀ c ∈ rectCores ws, (mapFind (coreOf u c).res st).isSome = true ∧ (coreOf u c).ctx = some n.val ∧
          (∀ i, mapGet 0#64 (coreOf u c).imem i =
            if wf ws 1 32 12 ≤ i ∧ i < wf ws 1 32 12 + wf ws 2 48 13 then
              BitVec.ofNat 64 (wd (imageWords s ws) (i - wf ws 1 32 12))
            else mapGet 0#64 (coreOf s c).imem i) ∧
          ((coreOf s c).cur = none → (coreOf u c).cur = some st.val ∧ (coreOf u c).seq.pc = wf ws 1 44 12 ∧
            (coreOf u c).seq.loops = [] ∧ (coreOf u c).seq.ags = [] ∧ xnat (coreOf u c) 1 = wd ws 6 % 2 ^ 64 ∧
            xnat (coreOf u c) 2 = (c / 128 - wf ws 3 0 6) * 2 ^ 16 + (c % 128 - wf ws 3 8 7) ∧ xnat (coreOf u c) 3 = n ∧
            ∀ j, 4 ≤ j → j < 32 → xget (coreOf u c) j = 0#64)) ∧
    (∀ e : Started, x.started.find? (fun e => e.stream == st.val && !e.ended && e.left.isEmpty) = some e →
      Apart s ((if e.doneEn then spanOf e.doneTally 8 else []) ++ spanOf (r.tail + 8) 8) →
      ∃ u y, exec (.segmentEnd n st) s = .next u ∧ ctxOf u n = some y ∧ 
        y.slots = (if holdsSlot s n x = true then slotsBound (slotEffect e x.slots) else slotEffect e x.slots) ∧
        (e.doneEn = true → dramWord u e.doneTally = (dramWord s e.doneTally + 1) % 2 ^ 64) ∧
        (e.entry = h → (∀ y ∈ x.started, y.stream = st.val → y.entry ≠ h + 1 ∨ y.ended = false) →
          headOf u n st = (h + 1) % 2 ^ R.CTX_HEAD.width ∧ dramWord u (r.tail + 8) = (h + 1) % 2 ^ 64))

/-- The next step descriptor plans its step outside steer mode: the member's range of micro-batches, the plan half of
its report, NEXT_STEP, PLAN_TALLY and the head; and the next planned micro-batch is admitted to the lowest free slot.
A step boundary of a context whose report is written and whose bindings have passed it moves on to the next step and
takes the snapshots of the PERF pages that name the context; a STEP_HOLD waits in CTX.CTRL, as a WB field does, and
holds no earlier (R67, R248 to R250, R263, R270, R490). -/
def Obligations.StepsArePlannedAndPass : Prop :=
  (∀ (n : CtxIx) (s : State) (x : Ctx), ctxOf s n = some x →
     let k := nextOf x 3
     let ws := entryWords s x 3 k
     let t := wf ws 0 0 32
     let b := wf ws 0 32 21
     let tally := bitsOf (blockWord s x 6) 0 48
     (∀ (p : Place) (r : Nat), fetchOn s n x = true → x.typ = 0 → k < tailOf x 3 → steerMode s x ≠ 2 → stepDescOk s x ws = true →
       x.place = some p → x.placeNext = none → placeFor x t = some p → wf (dramWords s p.addr 8) 4 0 48 = 0 →
       namesMe s p = true → rankOf s p = some r →
       ReadsSound s ((ringOf x 3).base + k % 2 ^ (ringOf x 3).log2n * 64) 64 → ReadsSound s (p.addr + 32) 8 →
       Apart s (spanOf (reportAddr s x t) 128 ++ spanOf x.stepBlock 256 ++ spanOf tally 8 ++ spanOf ((ringOf x 3).tail + 8) 8) →
       let lo := r * b / dpCount p
       let m := (r + 1) * b / dpCount p - lo
       ∃ u y w, w = releaseCtx n (retryPinned u) ∧ ctxOf u n = some y ∧
         (exec (.stepPlan n) s = .next (settled w) ∨ exec (.stepPlan n) s = .next (settled (registerJob n w))) ∧
         planOf y t = some ⟨t, b, lo, m⟩ ∧ nextOf y 3 = k + 1 ∧ headOf u n 3 = (k + 1) % 2 ^ R.CTX_HEAD.width ∧
         dramWord u (x.stepBlock + 64) = putBits (blockWord s x 8) 0 32 ((t + 1) % 2 ^ 32) ∧
         dramWord u tally = (dramWord s tally + 1) % 2 ^ 64 ∧ dramWord u (reportAddr s x t) = t + 2 ^ 32 ∧
         dramWord u (reportAddr s x t + 8) = (b + lo * 2 ^ 21 + m * 2 ^ 41) % 2 ^ 64 ∧
         dramWord u (reportAddr s x t + 88) = wd ws 1 % 2 ^ 64) ∧
     (∀ (t mb i f : Nat), fetchOn s n x = true → holdLets x (some t) = true → f < mbLimit s x → mapFind x.slots f = none →
       (∀ g < f, (mapFind x.slots g).isSome = true) →
       (∃ p l, x.plans = p :: l ∧ x.admitStep = some p.step ∧ x.admitIdx < p.count ∧
         (t, mb, i) = (p.step, p.first + x.admitIdx, x.admitIdx + 1)) ∨
       (∃ p q l, x.plans = p :: q :: l ∧ x.admitStep = some p.step ∧ p.count ≤ x.admitIdx ∧ q.step = stepNext p.step ∧
         0 < q.count ∧ p.step < 2 ^ 32 ∧ (t, mb, i) = (q.step, q.first, 1)) →
       ∃ u y, exec (.admission n) s = .next u ∧ ctxOf u n = some y ∧ mapFind y.slots f = some ⟨t, mb, [], false⟩ ∧
         (∀ g, g ≠ f → mapFind y.slots g = mapFind x.slots g) ∧ y.admitStep = some t ∧ y.admitIdx = i ∧
         { u with ctxs := s.ctxs } = s)) ∧
  ((∀ (n : CtxIx) (s : State) (x : Ctx) (t : Nat), ctxOf s n = some x → x.typ = 0 → x.boundary = some t →
     stepLe t (lastReport s x) = true → bindsPassed s n t = true →
     ∃ u y, EndsAs (.stepBoundary n) s u ∧ ctxOf u n = some y ∧ y.boundary = some (stepNext t) ∧ y.slots = x.slots ∧
       ∀ d < 5, rd s (pgPerf d) R.PERF_SNAP_CTRL_EN = 1 → rd s (pgPerf d) R.PERF_SNAP_CTRL_CONTEXT = n.val →
         rd u (pgPerf d) R.PERF_SNAP_STEP = t % 2 ^ R.PERF_SNAP_STEP.width ∧
         rd u (pgPerf d) R.PERF_SNAP_TICK = tickOf s % 2 ^ R.PERF_SNAP_TICK.width ∧
         rd u (pgPerf d) R.PERF_SNAP_SEQ = (rd s (pgPerf d) R.PERF_SNAP_SEQ + 1) % 2 ^ R.PERF_SNAP_SEQ.width ∧
         ∀ i < 16, rdi u (pgPerf d) R.PERF_SNAP_CNT i = rdi s (pgPerf d) R.PERF_EVT_CNT i % 2 ^ R.PERF_SNAP_CNT.width) ∧
   (∀ (p : Path) (n : CtxIx) (hold : Bool) (s : State), Reaches p (pgCtx n) s →
     (∀ q ∈ rowsAt .ctx 0x10, rdi s (pgCtx n) q.1 q.2 < 2 ^ q.1.width) →
     ∃ t, exec (.stepHold p n hold) s = .next t ∧ t.reply = ⟨0, 0, false⟩ ∧ pendingRd t (pgCtx n) R.CTX_CTRL_HOLD 0 = b2n hold ∧
       rd t (pgCtx n) R.CTX_CTRL_HOLD = rd s (pgCtx n) R.CTX_CTRL_HOLD ∧ t.ctxs = s.ctxs))

/-! ### Update engines -/

/-- A descriptor in order that applies with VALID = 1 binds: no part is under way and the next step to reduce is the
lowest whose verdict is not known; one that is refused stays unbound (R222, R241). -/
def Obligations.BindingsAreMade : Prop :=
  ∀ (k : StackIx) (b : BindIx) (s : State),
    let i := k.val * 4 + b.val
    let mine (o : Nat) : Bool := decide (0x100 + i % 4 * 0x80 ≤ o ∧ o < 0x180 + i % 4 * 0x80)
    let w := applySel (pgUpd k) mine s
    let a := urd w R.UPD_BIND_DESC i % 2 ^ 48
    let d := readDesc w a
    bindAt s i = none → (pendOffs s (pgUpd k)).any (fun e => mine e.1) = true → urd w R.UPD_BIND_CTRL_VALID i = 1 →
    BackedSound w a (80 + 16 * d.groups.length) →
    (∀ x : Ctx, descGood w k a = true → progOk d.prog d.nmom d.fact = true → ctxOf w d.ctx = some x →
      updMaxLets w x.polder k = true → interrupted w d = [] →
      ∃ u c, EndsAs (.bind k b) s u ∧ bindAt u i = some c ∧ c.desc = d ∧ c.todo = [] ∧ c.nodes = [] ∧ c.restore = [] ∧
        urd u R.UPD_BIND_STEP i = lowestOpen w x % 2 ^ R.UPD_BIND_STEP.width ∧
        bitSet (rd u (pgUpd k) R.UPD_STATUS_BOUND) (i % 4) = true ∧ u.dram = s.dram) ∧
    (descGood w k a = false ∨ progOk d.prog d.nmom d.fact = false →
      ∃ u, EndsAs (.bind k b) s u ∧ bindAt u i = none ∧ urd u R.UPD_BIND_CTRL_VALID i = 0 ∧
        bitSet (rd u (pgUpd k) R.HEADER_ERR_STAT_ERR) (if descGood w k a then 1 else 0) = true ∧ u.dram = s.dram)

/-- The update of a shard part sets IN_UPD, leaves each block of a group that is not FROZEN with the masters, moments
and factors that its microprogram gives and the copy of the new masters in the other buffer, and keeps the CRC of what
it wrote; a FROZEN group's data stay. Its commit is one write of the generation word (R231, R239). -/
def Obligations.ShardPartsAreUpdated : Prop :=
  ∀ (k : StackIx) (n : BindIx) (v g : Nat) (s : State) (b : Binding) (h : Shard) (x : Ctx),
    let i := k.val * 4 + n.val
    let d := b.desc
    let w := genWord s h g
    bindAt s i = some b → shardOf d v = some h → ctxOf s d.ctx = some x →
    (mayUpdate s i b v g = true →
      Apart s (spanOf (genAt h g) 8 ++ (partBlocks d v g).flatMap (fun j => spanOf (recAt d h j) (recStride d))) →
      (∀ j ∈ partBlocks d v g, ReadsSound s (recAt d h j) (recStride d) ∧ dramPoisoned s (recAt d h j) (recStride d) = false) →
      ∃ u c, EndsAs (.updatePass k n v g) s u ∧ bindAt u i = some c ∧ c.phase = 4 ∧
        genWord u h g = gwMake (gwGen w) (gwBuf w) (gwSkip w) true ∧
        c.crcs = b.crcs ++ [((v, g), crc64 ((partBlocks d v g).flatMap (fun j => dramRead u (recAt d h j) (mirBytes d))))] ∧
        ∀ j ∈ partBlocks d v g,
          ((groupAt d g).frozen = true → dramRead u (recAt d h j) (recStride d) = dramRead s (recAt d h j) (recStride d)) ∧
          ((groupAt d g).frozen = false → ∃ free,
            let new := updateBlock free d.prog d.nmom d.fact b.zs (readBlock s d h j)
            let cp := copyOf d.mw (groupAt d g).cfmt x.seed (groupAt d g).tid b.updStep ((h.v + j * 65536) * 1024) new.mas
            dramRead u (recAt d h j) (if d.mw then 8192 else 4096) = new.mas.flatMap (bytesOf (if d.mw then 8 else 4)) ∧
            (1 ≤ d.nmom → dramRead u (recAt d h j + offMom d) 4096 = new.mom1.flatMap (bytesOf 4)) ∧
            (2 ≤ d.nmom → dramRead u (recAt d h j + offMom d + 4096) 4096 = new.mom2.flatMap (bytesOf 4)) ∧
            (d.fact = true → dramRead u (recAt d h j + offFact d) 256 = new.fact.flatMap (bytesOf 4)) ∧
            dramRead u (recAt d h j + offCopy d (1 - gwBuf w)) cp.length = cp ∧
            dramRead u (recAt d h j + offCopy d (gwBuf w)) 2048 = dramRead s (recAt d h j + offCopy d (gwBuf w)) 2048)) ∧
    (∀ rest, b.todo = (v, g) :: rest → b.crcs.any (fun c => c.1 == (v, g)) = true → b.phase = 4 → Apart s (spanOf (genAt h g) 8) →
      (b.mirLost = false → ∀ j ∈ partBlocks d v g, ReadsSound s (recAt d h j) (mirBytes d)) →
      ∃ u, exec (.shardCommit k n v g) s = .next (settled (releaseHeld i u)) ∧ DramBut (genAt h g) 8 s u ∧
        genWord u h g = (if (groupAt d g).frozen then gwMake b.updStep (gwBuf w) true false
          else gwMake b.updStep (1 - gwBuf w) false false) ∧
        (rest ≠ [] → ∃ c, bindAt u i = some c ∧ c.todo = rest ∧ (b.mirLost = false → (v, g) ∈ c.mirWait)) ∧
        (rest = [] → pendOffs s (pgUpd k) = [] →
          urd u R.UPD_BIND_OPT_COUNT i = (urd s R.UPD_BIND_OPT_COUNT i + 1) % 2 ^ R.UPD_BIND_OPT_COUNT.width ∧
          urd u R.UPD_BIND_SHARD_CRC i = xorCrcs b.crcs % 2 ^ R.UPD_BIND_SHARD_CRC.width ∧
          ∃ c, bindAt u i = some c ∧ c.todo = [] ∧ c.passed = b.updStep)) ∧
    (∀ q : Place, (match x.placeNext with | some q => some q | none => x.place) = some q → (v, g) ∈ b.migOut → (v, g) ∉ b.migSent →
      gwUpd w = false → stepLe (stepPrev q.eff) (gwGen w) = true →
      (∀ j ∈ partBlocks d v g, ReadsSound s (recAt d h j) (mirBytes d)) →
      ∃ u ts y, EndsAs (.migrationStart k n v g) s (sendSeries ts u) ∧
        bindAt u i = some { b with migSent := b.migSent ++ [(v, g)] } ∧ u.dram = s.dram ∧
        (∀ t ∈ ts, t.type = 0 ∧ t.op = 7 ∧ t.vc = 0 ∧ t.dst = moduleOf q (ownerOf q v)) ∧
        ts.getLast? = some y ∧ y.addr = 2 ^ 47 + 8 * g ∧ bodyWord y 0 = w ∧
        ts.dropLast.flatMap bodyNats = (partBlocks d v g).flatMap (fun j => dramRead s (recAt d h j) (mirBytes d) ++
          dramRead s (recAt d h j + offCopy d (gwBuf w)) 2048))

/-! ### Collective offload -/

/-- The earliest entry of a ring that its tail shows and whose die's engine has room is taken by that engine, or ends
with COLL_DESC; a REDUCE_SEND sends to each shard's owner one series with the node's values and partials of the
shard's blocks; and a GATHER asks the owner of each of its blocks for the copy, once its engine's booking covers it
(R300, R301, R303, R514). -/
def Obligations.CollectivesAreSent : Prop :=
  ∀ (n : CtxIx) (s : State) (x : Ctx), ctxOf s n = some x →
    (∀ i ws, ws = dramWords s (x.coll.base + i % 2 ^ x.coll.log2n * 128) 16 → ctxState s n = stResident → x.coll.log2n ≠ 0 →
      i = collNextOf x (i % 4) → i < dramWord s x.coll.tail → (collsOfDie s (i % 4)).length < 16 →
      (∀ d < 4, collNextOf x d < i → 16 ≤ (collsOfDie s d).length) →
      ReadsSound s (x.coll.base + i % 2 ^ x.coll.log2n * 128) 128 →
      let y : Ctx := { x with collNext := mapPut x.collNext (i % 4) (i + 4) }
      (collOk s n x ws = true → ∃ u c, exec (.collEntryTake n) s = .next u ∧ u.colls = s.colls ++ [c] ∧ c.ctx = n.val ∧
        c.idx = i ∧ c.words = ws ∧ c.issued = false ∧ ctxOf u n = some y ∧ u.dram = s.dram) ∧
      (collOk s n x ws = false → ∃ u, exec (.collEntryTake n) s = .next (ctxFatal n (errCode .ctx 7) u) ∧ u.colls = s.colls ∧
        bitSet (rd u (pgCtx n) R.HEADER_ERR_STAT_ERR) 7 = true ∧ ctxOf u n = some y)) ∧
    (∀ (c : CollEntry) (d : BindDesc) (p : Place), collWaiting s n 0 = some c → collDesc s n = some d →
      placeFor x (wf c.words 0 16 32) = some p → sendBacked s c d (lgOf s x) = true → groupShards d (wf c.words 0 8 8) ≠ [] →
      let nb := groupEnd d (wf c.words 0 8 8) - (groupAt d (wf c.words 0 8 8)).base
      let level := wf c.words 1 20 5
      let np := if lgOf s x ≤ level then 2 ^ (level - lgOf s x) else 0
      ReadsSound s (wf c.words 2 0 48) (4096 * nb) → ReadsSound s (wf c.words 3 0 48) (4 * np * nb) →
      let vs := groupShards d (wf c.words 0 8 8)
      let series (v : Nat × Nat) : List Train := sendSeriesOf s (ctxTag s n (some (wf c.words 0 16 32))) d (lgOf s x) c.words v.1
        (moduleOf p (ownerOf p v.1)) ((s.nextXid + v.2) % 2 ^ 14)
      (∃ u e, EndsAs (.reduceSend n) s (vs.zipIdx.foldl (fun t v => sendSeries (series v) t) u) ∧ e ∈ u.colls ∧ e.issued = true ∧
        e.words = c.words ∧ e.xids = vs.zipIdx.map (fun v => ((s.nextXid + v.2) % 2 ^ 14, moduleOf p (ownerOf p v.1))) ∧
        u.dram = s.dram) ∧
      ∀ v ∈ vs.zipIdx, (∀ t ∈ series v, t.type = 6 ∧ t.dst = moduleOf p (ownerOf p v.1)) ∧
        (series v).flatMap bodyNats = (partBlocks d v.1 (wf c.words 0 8 8)).flatMap (fun j =>
          let o := v.1 + 65536 * j - (groupAt d (wf c.words 0 8 8)).base
          dramRead s (wf c.words 2 0 48 + o * 4096) 4096 ++ dramRead s (wf c.words 3 0 48 + o * 4 * np) (4 * np))) ∧
    (∀ (c : CollEntry) (p : Place), x.typ = 0 → x.place.isSome = true → collWaiting s n 1 = some c →
      placeFor x (stepNext (wf c.words 0 16 32)) = some p → collCc c ≤ (engOf s (collEng (c.idx % 4))).cls →
      wf c.words 1 40 24 ≠ 0 →
      let bs := spanOf (wf c.words 1 0 40) (wf c.words 1 40 24)
      ∃ (u : State) (e : CollEntry) (req : Nat → Train), EndsAs (.gather n) s (bs.foldl (fun t b => sendTrain (req b) t) u) ∧
        e ∈ u.colls ∧ e.issued = true ∧ e.words = c.words ∧ { u with colls := s.colls } = s ∧
        ∀ b ∈ bs, (req b).type = 0 ∧ (req b).op = 4 ∧ (req b).dst = moduleOf p (ownerOf p (b % 65536)) ∧ nV (req b) = b % 65536 ∧
          nU (req b) = wf c.words 0 8 8 ∧ gGen (req b) = wf c.words 0 16 32 ∧
          bodyWord (req b) 0 = b / 65536 % 2 ^ 24 + 2 ^ 24 ∧ bodyWord (req b) 9 = b - wf c.words 1 0 40 ∧
          ∀ i < 8, bodyWord (req b) (1 + i) = wd c.words (8 + i))

/-! ### Weight locks -/

/-- A lock's VALID that applies binds it with both chambers FREE and the gate closed, or is refused with WL_STATE;
FILL, READY and ABANDON move a chamber of a bound lock, IP_START sets the barrier, and any of them set WL_STATE
elsewhere; an ACTIVE_REQ that names a READY chamber opens the gate on it and drains the chamber before. At a read of
its tail tally a lock admits the waiting entry to the chamber that its gate is open on, with the chamber's base and
generation in the entry and 1 added to its tally; frees a drained chamber; grants the next layer of a replacement in
place; and releases the barrier once every layer is done (R328 to R333, R336, R337). -/
def Obligations.WeightLocks : Prop :=
  (∀ (l : LockIx) (s : State), Uninjected s →
     (let w := applySel pgWlock (lockOff l) s
      (pendOffs s pgWlock).any (fun e => lockOff l e.1) = true →
      (lockBound s l = false → chamber s l 0 = 0 → chamber s l 1 = 0 → wl w R.WLOCK_LOCK_CTRL_VALID l = 1 →
        wl w R.WLOCK_LOCK_CTRL_ACTIVE_REQ l = 0 →
        (lockCfgOk w l = true → ∃ u, exec (.wlockBind l) s = .next u ∧ lockBound u l = true ∧ chamber u l 0 = 0 ∧ chamber u l 1 = 0 ∧
          wl u R.WLOCK_LOCK_CTRL_VALID l = 1 ∧ u.dram = s.dram ∧
          ∀ f ∈ [R.WLOCK_LOCK_STATUS_ACTIVE, R.WLOCK_LOCK_GEN, R.WLOCK_LOCK_ADMITTED_A, R.WLOCK_LOCK_ADMITTED_B, R.WLOCK_LOCK_SWAPS],
            wl u f l = 0) ∧
        (lockCfgOk w l = false → wl w R.WLOCK_LOCK_STATUS_ACTIVE l = 0 →
          ∃ u, exec (.wlockBind l) s = .next u ∧ lockBound u l = false ∧ wl u R.WLOCK_LOCK_CTRL_VALID l = 0 ∧
          bitSet (rd u pgWlock R.HEADER_ERR_STAT_ERR) 0 = true)) ∧
      (∀ r, (r = 1 ∨ r = 2) → lockBound s l = true → (∀ e ∈ pendOffs s pgWlock, lockDiscards s l e.1 = false) →
        wl w R.WLOCK_LOCK_CTRL_VALID l = 1 → wl w R.WLOCK_LOCK_CTRL_ACTIVE_REQ l = r → wl w R.WLOCK_LOCK_STATUS_ACTIVE l ≤ 2 →
        wl w R.WLOCK_LOCK_STATUS_ACTIVE l ≠ r → wl w R.WLOCK_LOCK_STATUS_BARRIER l = 0 →
        (chamber w l (r - 1) = 2 → (r = 2 → wl w R.WLOCK_LOCK_CTRL_MODE l = 0) →
          ∃ u, exec (.gateApply l) s = .next u ∧ wl u R.WLOCK_LOCK_STATUS_ACTIVE l = r ∧ chamber u l (r - 1) = 3 ∧
          (wl w R.WLOCK_LOCK_STATUS_ACTIVE l ≠ 0 → chamber u l (2 - r) = 4) ∧
          wl u R.WLOCK_LOCK_GEN l = (wl w R.WLOCK_LOCK_GEN l + 1) % 2 ^ 32 ∧ u.dram = s.dram) ∧
        (chamber w l (r - 1) ≠ 2 → ∃ u, exec (.gateApply l) s = .next u ∧
          wl u R.WLOCK_LOCK_STATUS_ACTIVE l = wl w R.WLOCK_LOCK_STATUS_ACTIVE l ∧
          wl u R.WLOCK_LOCK_CTRL_ACTIVE_REQ l = wl w R.WLOCK_LOCK_STATUS_ACTIVE l ∧
          bitSet (rd u pgWlock R.HEADER_ERR_STAT_ERR) 0 = true ∧ u.dram = s.dram))) ∧
     (∀ p : Path, Reaches p pgWlock s →
       (∀ (ch : Fin 2) (c : Instr) (from_ : List Nat) (to_ : Nat),
         (c, from_, to_) ∈ [(Instr.fill p l ch, [0], 1), (.ready p l ch, [1], 2), (.abandon p l ch, [1, 2], 0)] →
         (lockBound s l = true → (ch = 1 → wl s R.WLOCK_LOCK_CTRL_MODE l ≠ 1) → chamber s l ch ∈ from_ →
           ∃ t, exec c s = .next t ∧ chamber t l ch = to_ ∧
           (∀ (m : LockIx) (e : Fin 2), (m, e) ≠ (l, ch) → chamber t m e = chamber s m e) ∧
           { t with regs := s.regs, reply := s.reply } = s) ∧
         (lockBound s l = false ∨ chamber s l ch ∉ from_ → ∃ t, exec c s = .next t ∧
           (∀ (m : LockIx) (e : Fin 2), chamber t m e = chamber s m e) ∧
           bitSet (rd t pgWlock R.HEADER_ERR_STAT_ERR) 0 = true)) ∧
       (lockBound s l = true → wl s R.WLOCK_LOCK_CTRL_MODE l = 1 → chamber s l 0 = 3 → wl s R.WLOCK_LOCK_STATUS_BARRIER l = 0 →
         ∃ t, exec (.ipStart p l) s = .next t ∧ wl t R.WLOCK_LOCK_STATUS_BARRIER l = 1 ∧ wl t R.WLOCK_LOCK_IP_NEXT l = 0 ∧
           { t with regs := s.regs, reply := s.reply } = s))) ∧
  (∀ (l : LockIx) (s : State), Uninjected s → lockBound s l = true → l.val ∉ s.wlStop →
     let f (r : RegField) : Nat := wl s r l
     let c := f R.WLOCK_LOCK_STATUS_ACTIVE
     let tail := dramWord s (f R.WLOCK_LOCK_TAIL_TALLY)
     let ra := dramWord s (f R.WLOCK_LOCK_RET_A_TALLY)
     let rb := dramWord s (f R.WLOCK_LOCK_RET_B_TALLY)
     let e := f R.WLOCK_LOCK_RING_BASE + admitted s l % 2 ^ f R.WLOCK_LOCK_RING_LOG2N * 64
     let t := wf (admitWords s l (admitted s l)) 1 0 48
     let idle := (ra < f R.WLOCK_LOCK_ADMITTED_A ∨ ra = f R.WLOCK_LOCK_ADMITTED_A ∧ chamber s l 0 ≠ 4) ∧
       (rb < f R.WLOCK_LOCK_ADMITTED_B ∨ rb = f R.WLOCK_LOCK_ADMITTED_B ∧ chamber s l 1 ≠ 4)
     let n := f R.WLOCK_LOCK_IP_LAYERS
     let i := f R.WLOCK_LOCK_IP_NEXT
     let k := f R.WLOCK_LOCK_SWAPS
     (f R.WLOCK_LOCK_CTRL_MODE = 0 → idle → tail = admitted s l + 1 → (pendOffs s pgWlock).any (fun e => lockOff l e.1) = false →
       (c = 1 ∨ c = 2) → f R.WLOCK_LOCK_STATUS_BARRIER = 0 → admitOk (admitWords s l (admitted s l)) = true →
       Apart s (spanOf (e + 16) 16 ++ spanOf t 8) →
       ∃ u, exec (.tailTallyRead l) s = .next u ∧
         dramWord u (e + 16) = (f R.WLOCK_LOCK_GEN + c * 2 ^ 32) % 2 ^ 64 ∧
         dramWord u (e + 24) = (if c = 1 then f R.WLOCK_LOCK_CH_A_BASE else f R.WLOCK_LOCK_CH_B_BASE) % 2 ^ 64 ∧
         dramWord u t = (dramWord s t + 1) % 2 ^ 64 ∧
         wl u (if c = 1 then R.WLOCK_LOCK_ADMITTED_A else R.WLOCK_LOCK_ADMITTED_B) l =
           ((if c = 1 then f R.WLOCK_LOCK_ADMITTED_A else f R.WLOCK_LOCK_ADMITTED_B) + 1) % 2 ^ R.WLOCK_LOCK_ADMITTED_A.width) ∧
     (f R.WLOCK_LOCK_CTRL_MODE = 0 → tail = admitted s l → ra = f R.WLOCK_LOCK_ADMITTED_A → chamber s l 0 = 4 →
       rb ≤ f R.WLOCK_LOCK_ADMITTED_B → ∃ u, exec (.tailTallyRead l) s = .next u ∧ chamber u l 0 = 0 ∧ u.dram = s.dram) ∧
     (f R.WLOCK_LOCK_CTRL_MODE = 1 → idle → tail = admitted s l → f R.WLOCK_LOCK_STATUS_BARRIER = 1 →
       (∀ j < n, passOf s l j ≤ f R.WLOCK_LOCK_ADMITTED_A) →
       Apart s ([R.WLOCK_LOCK_REWRITE_TALLY, R.WLOCK_LOCK_DONE_TALLY, R.WLOCK_LOCK_TAIL_TALLY, R.WLOCK_LOCK_RET_A_TALLY,
         R.WLOCK_LOCK_RET_B_TALLY].flatMap (fun r => spanOf (f r) 8) ++ spanOf (f R.WLOCK_LOCK_PASS_BASE) (8 * n)) →
       (i < n → passOf s l i = f R.WLOCK_LOCK_ADMITTED_A → (i + 1 < n → passOf s l (i + 1) < f R.WLOCK_LOCK_ADMITTED_A) →
         i + 1 < 2 ^ R.WLOCK_LOCK_IP_NEXT.width → dramWord s (f R.WLOCK_LOCK_DONE_TALLY) < (k + 1) * n →
         ∃ u, exec (.tailTallyRead l) s = .next u ∧ wl u R.WLOCK_LOCK_IP_NEXT l = i + 1 ∧
           dramWord u (f R.WLOCK_LOCK_REWRITE_TALLY) = (dramWord s (f R.WLOCK_LOCK_REWRITE_TALLY) + 1) % 2 ^ 64) ∧
       (n ≤ i → (k + 1) * n ≤ dramWord s (f R.WLOCK_LOCK_DONE_TALLY) →
         ∃ u, exec (.tailTallyRead l) s = .next u ∧ wl u R.WLOCK_LOCK_STATUS_BARRIER l = 0 ∧
           wl u R.WLOCK_LOCK_SWAPS l = (k + 1) % 2 ^ R.WLOCK_LOCK_SWAPS.width ∧
           wl u R.WLOCK_LOCK_GEN l = (f R.WLOCK_LOCK_GEN + 1) % 2 ^ R.WLOCK_LOCK_GEN.width ∧ u.dram = s.dram)))

/-! ### Polders, contexts and the schedule -/

/-- Once a written POLDER_BASE has applied at the schedule-cycle boundary the table is read: one that passes the
checks comes into force as a whole; any other leaves the table in force and sets POLDER_BAD. CREATE_GO takes the
lowest EMPTY number for a descriptor that passes the checks, SWAPPED and with its polder's next generation; with no
number EMPTY, or for any other descriptor, nothing is created (R341, R342, R344, R345, R347, R348, R367). -/
def Obligations.TablesAndContextsAreMade : Prop :=
  (∀ s : State, Uninjected s → (s.polDue = false → exec .polderTableLoad s = .next s) ∧ (s.polDue = true →
     let w : State := { s with polDue := false }
     let a := rd w pgSched R.SCHED_POLDER_BASE
     let ws (p : Nat) : List Nat := polderWords w a p
     let valid (p : Nat) : Bool := bitSet (wd (ws p) 0) 0
     let good : Prop := backed w a 16384 = true ∧ dramPoisoned w a 16384 = false ∧ ∀ p < 128,
       wd (ws p) 0 ≤ 1 ∧ wd (ws p) 12 ≤ 4 ∧ wd (ws p) 13 = 0 ∧ wd (ws p) 14 = 0 ∧ wd (ws p) 15 = 0 ∧
       (valid p = true → (wd (ws p) 1 ≠ 0 ∨ wd (ws p) 2 ≠ 0) ∧
         (∀ b < 128, bitSet (wd (ws p) (1 + b / 64)) (b % 64) = true → withdrawn w b = false) ∧
         (∀ i < 512, bitSet (wd (ws p) (3 + i / 64)) (i % 64) = true → (sectOf w i).mode ≠ 0) ∧
         ∀ q < p, valid q = true → poldersMeet (ws q) (ws p) = false) ∧
       (∀ e ∈ w.ctxs, e.2.polder = p → mapFind w.polTab p = if valid p then some (ws p) else none)
     (good → ∃ t, exec .polderTableLoad s = .next t ∧
       (∀ p < 128, mapFind t.polTab p = if valid p then some (ws p) else none) ∧ t.dram = s.dram ∧ t.cores = s.cores) ∧
     (¬ good → ∃ t, exec .polderTableLoad s = .next t ∧ t.polTab = s.polTab ∧ t.dram = s.dram ∧
       bitSet (rd t pgSched R.HEADER_ERR_STAT_ERR) 1 = true))) ∧
  (∀ (p : Path) (s : State), Uninjected s → Reaches p pgSched s →
     let a := rd s pgSched R.SCHED_CREATE_DESC
     let ws := dramWords s a 32
     let m := wf ws 8 0 48
     let mask := maskOf (dramWords s m 8)
     let good : Prop := a % 64 = 0 ∧ backed s a 256 = true ∧ dramPoisoned s a 256 = false ∧ backed s m 64 = true ∧
       dramPoisoned s m 64 = false ∧ ctxDescOk s ws mask = true
     let g := (rdi s pgSched R.SCHED_POLDER_GEN (wf ws 0 16 7) + 1) % 2 ^ 16
     ((∀ n < 64, (ctxOf s n).isSome = true) → ∃ t, exec (.createGo p) s = .next t ∧ rd t pgSched R.SCHED_CREATE_RESULT_CODE = 2 ∧
       bitSet (rd t pgSched R.HEADER_ERR_STAT_ERR) 2 = true ∧ t.ctxs = s.ctxs ∧ t.dram = s.dram) ∧
     (∀ n : CtxIx, ctxOf s n = none → (∀ k < n.val, (ctxOf s k).isSome = true) →
       (good → ∃ t x, exec (.createGo p) s = .next t ∧ rd t pgSched R.SCHED_CREATE_RESULT_CODE = 1 ∧
         rd t pgSched R.SCHED_CREATE_RESULT_NUM = n.val ∧ ctxState t n = stSwapped ∧ rd t (pgCtx n) R.CTX_STATUS_GEN = g ∧
         rdi t pgSched R.SCHED_POLDER_GEN (wf ws 0 16 7) = g ∧ rd t (pgCtx n) R.CTX_STATUS_POLDER = wf ws 0 16 7 ∧
         rd t (pgCtx n) R.CTX_DESC = a % 2 ^ 48 ∧ rd t (pgCtx n) R.CTX_CTRL_RUN = 0 ∧ (∀ st < 4, headOf t n st = 0) ∧
         ctxOf t n = some x ∧ x.job = wf ws 0 0 16 ∧ x.polder = wf ws 0 16 7 ∧ x.typ = wf ws 0 24 2 ∧ x.seed = wd ws 1 ∧
         x.gen = g ∧ x.sects = mask ∧ x.stepBlock = wf ws 2 0 48 ∧ x.saveBase = wf ws 7 0 48 ∧ x.progressUs = wf ws 9 0 32 ∧
         x.started = [] ∧ x.halted = false ∧
         (∀ i < 4, ringOf x i = ⟨wf ws (10 + 2 * i) 0 48, wf ws (10 + 2 * i) 48 4, wf ws (11 + 2 * i) 0 48⟩) ∧
         (∀ k : Nat, k ≠ n.val → ctxOf t k = ctxOf s k) ∧ t.dram = s.dram ∧ t.cores = s.cores) ∧
       (¬ good → ∃ t, exec (.createGo p) s = .next t ∧ rd t pgSched R.SCHED_CREATE_RESULT_CODE = 3 ∧
         bitSet (rd t pgSched R.HEADER_ERR_STAT_ERR) 3 = true ∧ t.ctxs = s.ctxs ∧ t.dram = s.dram)))

/-- At its polder's next slot a switch begins to a resident context that the slot guarantees or that has segments,
none to one that is already there; a guaranteed slot whose context is not resident sets GUARANTEE_MISS. The last core
at its switch point counts the lag and saves each core's live scratch; the switch's completion restores it and the
cores are the next context's (R355, R357 to R359). -/
def Obligations.SlotsSwitchContexts : Prop :=
  ∀ (p : PolderIx) (s : State),
    let k := polOf s p
    (∀ i < 256, rd s pgSched R.SCHED_STATUS_RUNNING = 1 → s.stopAll = false → rd s pgSched R.SCHED_CTRL_SWAP_POLICY ≠ 2 →
      rdi s pgSched R.SCHED_SLOT_VALID i = 1 → rdi s pgSched R.SCHED_SLOT_POLDER i = p.val → (k.slot = 256 ∨ k.slot < i) →
      (∀ j < i, k.slot = 256 ∨ k.slot < j → rdi s pgSched R.SCHED_SLOT_VALID j ≠ 1 ∨ rdi s pgSched R.SCHED_SLOT_POLDER j ≠ p.val) →
      let n := rdi s pgSched R.SCHED_SLOT_CONTEXT i
      (ctxState s n = stResident → rdi s pgSched R.SCHED_SLOT_GUARANTEED i = 1 ∨ (ctxOf s n).isSome = true ∧ hasSegments s n = true ∧
          (∀ x, ctxOf s n = some x → ∀ st < 4, (ringOf x st).log2n ≠ 0 → ReadsSound s (ringOf x st).tail 8) →
        ∃ t, exec (.slotStart p) s = .next t ∧
          (k.cur ≠ some n → k.phase = 0 → polOf t p = { k with slot := i, next := some n, phase := 1, nomAt := tickOf s }) ∧
          (k.cur = some n → k.phase = 0 → polOf t p = { k with slot := i })) ∧
      (n < 64 → ctxState s n ≠ stResident → (ctxOf s n).isSome = true → rdi s pgSched R.SCHED_SLOT_GUARANTEED i = 1 →
        (∀ j < 256, i < j → rdi s pgSched R.SCHED_SLOT_VALID j ≠ 1 ∨ rdi s pgSched R.SCHED_SLOT_POLDER j ≠ p.val) →
        ∃ t, exec (.slotStart p) s = .next t ∧ bitSet (rd t (pgCtx n) R.HEADER_ERR_STAT_ERR) 6 = true ∧
          polOf t p = { k with slot := i } ∧ t.ctxs = s.ctxs ∧ t.cores = s.cores)) ∧
    (∀ (n : CtxIx) (x : Ctx), Uninjected s → k.phase = 1 → k.cur = some n.val → ctxOf s n = some x → ctxState s n ≠ stTearing →
      ctxState s n ≠ stScrubbing → (s.cores.map (fun e => e.1)).Nodup → x.saveBase % 64 = 0 →
      (∀ e ∈ s.cores, e.2.ctx = some n.val → e.1 < 8192 ∧ e.1 ∈ polderCores s x.polder ∧ coreParked e.2 = true ∧ e.2.accLive = 0 ∧
        liveLo e.2 + liveLen e.2 ≤ 0x40000 ∧ ∀ w ∈ wordsOf (liveLo e.2) (liveLen e.2), mapGet 0 e.2.scrUpset w = 0) →
      Apart s (spanOf (x.saveBase + 8192) (311296 * (polderCores s x.polder).length)) →
      let lag := (tickOf s + 2 ^ 64 - k.nomAt) % 2 ^ 64
      ∃ t, exec (.switchPointReached p) s = .next t ∧ polOf t p = { k with phase := 2 } ∧
        rd t (pgCtx n) R.CTX_SWITCH_LAG_TICKS = (rd s (pgCtx n) R.CTX_SWITCH_LAG_TICKS + lag) % 2 ^ R.CTX_SWITCH_LAG_TICKS.width ∧
        (rd s pgSched R.SCHED_OVERRUN_TICKS < lag → bitSet (rd t (pgCtx n) R.HEADER_ERR_STAT_ERR) 5 = true) ∧
        ∀ c : CoreIx, (coreOf s c).ctx = some n.val → (coreOf t c).ctx = none ∧
          dramRead t (recordAt s x c + liveLo (coreOf s c)) (liveLen (coreOf s c)) =
            scrRead (coreOf s c) (liveLo (coreOf s c)) (liveLen (coreOf s c)) ∧
          ∃ k0, imgCore t n c = some k0 ∧ k0.seq = (coreOf s c).seq ∧ k0.res = (coreOf s c).res ∧ k0.v = (coreOf s c).v ∧
            k0.liveBase = (coreOf s c).liveBase ∧ k0.liveKib = (coreOf s c).liveKib) ∧
    (∀ (n : CtxIx) (x : Ctx), k.phase = 2 → k.next = some n.val → ctxOf s n = some x → ctxState s n = stResident →
      (∀ m, slotCtx s p = some m → m = n.val) →
      (∀ c ∈ polderCores s p, ∀ k0, imgCore s n c = some k0 →
        liveLo k0 + liveLen k0 ≤ 0x40000 ∧ ReadsSound s (recordAt s x c + liveLo k0) (liveLen k0)) →
      ∃ t, exec (.switchComplete p) s = .next t ∧ polOf t p = { k with cur := some n.val, next := none, phase := 0 } ∧
        ∀ c ∈ polderCores s p, (coreOf t c).ctx = some n.val ∧ (coreOf t c).gen = rd s (pgCtx n) R.CTX_STATUS_GEN ∧
          (imgCore s n c = none → (coreOf t c).cur = none) ∧
          ∀ k0, imgCore s n c = some k0 → imgCore t n c = none ∧ (coreOf t c).cur = k0.cur ∧ (coreOf t c).seq = k0.seq ∧
            (coreOf t c).v = k0.v ∧ (coreOf t c).req = k0.g ∧ (coreOf t c).g = 0 ∧
            scrRead (coreOf t c) (liveLo k0) (liveLen k0) = dramRead s (recordAt s x c + liveLo k0) (liveLen k0))

/-- A cycle boundary counts the cycle, applies the WB values of SCHED and of every CTX page, puts every polder before
its first slot, and starts or stops the schedule as CTRL.RUN says; a slot table that fails the checks is dropped as a
whole, with SCHED_BAD. SWAP_OUT is noted unless the context is pinned; a swap that ends leaves the context RESIDENT
with BLOCKED_CYCLES 0, or SWAPPED and counted (R344, R350, R355, R356, R360, R361, R367, R368). -/
def Obligations.CyclesTurnAndSwapsRun : Prop :=
  (∀ s : State, ∃ u, EndsAs .scheduleCycle s u ∧ (∀ p, (polOf u p).slot = 256) ∧ pendOffs u pgSched = [] ∧
     (∀ n < 64, pendOffs u (pgCtx n) = []) ∧
     rd u pgSched R.SCHED_STATUS_RUNNING = rd u pgSched R.SCHED_CTRL_RUN % 2 ∧
     (rd s pgSched R.SCHED_STATUS_RUNNING = 1 →
       rd u pgSched R.SCHED_CYCLES = (rd s pgSched R.SCHED_CYCLES + 1) % 2 ^ R.SCHED_CYCLES.width) ∧
     ((pendOffs s pgSched = [] → rd u pgSched R.SCHED_CTRL_RUN = rd s pgSched R.SCHED_CTRL_RUN) ∧
      (∀ v, pendOffs s pgSched = [(0x10, v)] → rd u pgSched R.SCHED_CTRL_RUN = v % 2) ∧
      ((∀ n < 64, pendOffs s (pgCtx n) = []) → ((pendOffs s pgSched).map (fun e => e.1)).Nodup → pendOffs s pgSched ≠ [] →
        Uninjected s → (∀ e ∈ pendOffs s pgSched, slotOff e.1 = true) →
        let slot (f : State → Page → RegField → Nat → Nat) (t : State) (i : Nat) : List Nat :=
          [R.SCHED_SLOT_POLDER, R.SCHED_SLOT_VALID, R.SCHED_SLOT_CONTEXT, R.SCHED_SLOT_GUARANTEED, R.SCHED_SLOT_DURATION].map
            (fun r => f t pgSched r i)
        (schedOk s = true → ∀ i < 256, slot rdi u i = slot pendingRd s i) ∧
        (schedOk s = false → (∀ i < 256, slot rdi u i = slot rdi s i) ∧ bitSet (rd u pgSched R.HEADER_ERR_STAT_ERR) 0 = true)))) ∧
  (∀ (n : CtxIx) (s : State) (x : Ctx), ctxOf s n = some x →
     (∀ p : Path, Reaches p (pgCtx n) s →
       ∃ t, exec (.swapOut p n) s = .next t ∧
         (ctxOf t n = if rd s (pgCtx n) R.CTX_CTRL_PIN = 1 then some x else some { x with swapReq := true }) ∧
         (∀ m : Nat, m ≠ n.val → ctxOf t m = ctxOf s m) ∧ { t with ctxs := s.ctxs, reply := s.reply } = s) ∧
     (ctxState s n = stSwapping → x.tearReq = false →
       (x.swapOut = false → ∃ u y, EndsAs (.swapComplete n) s u ∧ ctxState u n = stResident ∧
         rd u (pgCtx n) R.CTX_BLOCKED_CYCLES = 0 ∧ ctxOf u n = some y ∧ y.swapOut = false ∧ y.started = x.started ∧
         u.dram = s.dram ∧ u.cores = s.cores) ∧
       (x.swapOut = true → x.swapFor = none → (polOf s x.polder).cur ≠ some n.val →
         ∃ u y, EndsAs (.swapComplete n) s u ∧ ctxState u n = stSwapped ∧ ctxOf u n = some y ∧ y.swapOut = false ∧
           y.waitTick = tickOf s ∧ u.imgCores = s.imgCores ∧
           rd u pgSched R.SCHED_SWAPS = min (rd s pgSched R.SCHED_SWAPS + 1) (2 ^ 32 - 1))))

/-- TEARDOWN halts the context, stops its cores, cancels their tally slots, ends its bindings and weight locks and
raises the polder's generation; a drained context's cores are zeroed and it is SCRUBBING; after the scrub its number
is EMPTY and its sections read zero (R363 to R365). -/
def Obligations.ContextsAreTornDown : Prop :=
  ∀ (n : CtxIx) (s : State) (x : Ctx), ctxOf s n = some x →
    (∀ p : Path, Reaches p (pgCtx n) s → (ctxState s n = stSwapped ∨ ctxState s n = stResident) → x.polder < 128 →
      ∃ u y, EndsAs (.teardown p n) s u ∧ ctxState u n = stTearing ∧ ctxOf u n = some y ∧ y.halted = true ∧
        rdi u pgSched R.SCHED_POLDER_GEN x.polder = (rdi s pgSched R.SCHED_POLDER_GEN x.polder + 1) % 2 ^ 16 ∧
        (∀ c : CoreIx, (coreOf s c).ctx = some n.val → (coreOf u c).stopIssue = true ∧ (coreOf u c).slots = [] ∧
          (coreOf u c).queue = [] ∧ (coreOf u c).g = 0) ∧
        bindsOf u n = [] ∧ (∀ e ∈ u.colls, e.ctx ≠ n.val) ∧
        (∀ l : LockIx, rdi s pgWlock R.WLOCK_LOCK_CTRL_CONTEXT l = n.val → lockBound u l = false)) ∧
    (ctxState s n = stTearing → (∀ e ∈ s.cores, e.2.ctx = some n.val → e.2.nmoves = []) →
      (∀ e ∈ s.engines, ∀ j ∈ e.2.jobs, j.tag.ctx ≠ n.val) →
      ∃ t, exec (.teardownDone n) s = .next t ∧ ctxState t n = stScrubbing ∧ t.ctxs = s.ctxs ∧ t.dram = s.dram ∧
        (∀ c : CoreIx, (coreOf s c).ctx = some n.val → (s.cores.map (fun e => e.1)).Nodup →
          coreOf t c = { Core.zero with imem := (coreOf s c).imem, imemUpset := (coreOf s c).imemUpset, ran := (coreOf s c).ran }) ∧
        (∀ c : CoreIx, (coreOf s c).ctx ≠ some n.val → (s.cores.map (fun e => e.1)).Nodup → coreOf t c = coreOf s c)) ∧
    (ctxState s n = stScrubbing → ∃ t, exec (.scrubDone n) s = .next t ∧ ctxOf t n = none ∧ ctxState t n = stEmpty ∧
      (∀ m : Nat, m ≠ n.val → ctxOf t m = ctxOf s m) ∧
      ∀ q, (∀ m g, baseGran s (q / 4096) = some (m, g) → bitSet x.sects m = true → dramCell t q = 0#8 ∧
          mapGet false t.dramPoison (q / 64) = false ∧ mapGet 0 t.dramSyms (q / 64) = 0) ∧
        ((∀ m g, baseGran s (q / 4096) = some (m, g) → bitSet x.sects m = false) → dramCell t q = dramCell s q))

/-! ### Bookings -/

/-- The pre-position point of a region's earliest hint lowers each die that it concerns to the highest of the 5 mV
steps at which the prediction with the hinted increments lies HYST_W below the cap, but not below its floor, and
places the hints. A control window applies the waiting values of PWR, SLUICE and THERM, reports the powers and the
effective cap, adds the window's energy to MODULE_MJ, and moves the set-points and admission one step: down above the
cap, dies first and then admission, and admission first up below the cap less HYST_W (R67, R378, R379, R383, R393). -/
def Obligations.HintsAndControlWindowsAct : Prop :=
  (∀ (r : RegionIx) (s : State) (h : Hint), loopOn s = true → h ∈ (sluiceOf s r).hints → h.placed = false →
     (∀ g ∈ (sluiceOf s r).hints, g.placed = false → h.pre ≤ g.pre) →
     let ds := placeDies s h.pre
     let top := ds.foldl (fun a d => max a (vOf s d)) 0
     let fits (v : Nat) : Bool := (placePower s ds v).le ((capEff s).sub (.ofInt (hystW s)))
     ∃ t, exec (.prePosition r) s = .next t ∧
       (∀ v, (∃ i < 51, v = top - 5 * i ∧ fits v = true ∧ ∀ j < i, fits (top - 5 * j) = false) ∨
           (v = 0 ∧ ∀ j < 51, fits (top - 5 * j) = false) →
         ∀ d ∈ ds, vOf t d = min (vOf s d) (max (vminOf s d) (min v (vOf s d))) % 2 ^ R.PWR_VSET.width) ∧
       (∀ d < 4, d ∉ ds → vOf t d = vOf s d) ∧
       (∀ d ∈ ds, ∀ k ∈ regionsOf d, ∀ g ∈ (sluiceOf t k).hints, g.pre = h.pre → g.placed = true) ∧
       { t with regs := s.regs, sluices := s.sluices } = s) ∧
  (∀ (m : Meter) (s : State), powerOn s = true →
     let w := windowMeters m (windowBoundary s)
     let c := ceilings (windowReports w)
     let p := pCtl w
     ∃ t, exec (.controlWindow m) s = .next t ∧ pendOffs t pgPwr = [] ∧ (∀ r < 64, pendOffs t (pgSluice r) = []) ∧
       (∀ d < 4, pendOffs t (pgTherm d) = []) ∧ t.power.sums = [] ∧ t.power.count = 0 ∧
       rd t pgPwr R.PWR_P_MOD = min 65535 ((pMod w).mul (.ofInt 10)).floor ∧
       rd t pgPwr R.PWR_P_EST = min 65535 ((pEst w).mul (.ofInt 10)).floor ∧
       rd t pgPwr R.PWR_CAP_EFF = (capEff w).floor % 2 ^ R.PWR_CAP_EFF.width ∧
       ((∀ e ∈ s.ctxs, e.1 < 64) →
         let e := mapGet 0 w.power.rem 65 + ((pMod w).mul (.ofInt 50000)).floor
         rd t pgPwr R.PWR_MODULE_MJ = (rd w pgPwr R.PWR_MODULE_MJ + e / 1000000) % 2 ^ R.PWR_MODULE_MJ.width ∧
         mapGet 0 t.power.rem 65 = e % 1000000) ∧
       (pendAt s pgPwr 0x10 = none → loopOn s = true → s.pins.slowdown = false →
         (∀ d < 4, rd s (pgTherm d) R.THERM_STATUS_AT_LIMIT = 0) → (∀ d < 4, vOf c d ≤ vmaxOf c d) →
         ((capEff w).lt p = true → (∃ d < 4, vOf c d ≠ vminOf c d) → ∀ d < 4,
           vOf t d = max (vOf c d - 5) (vminOf c d) % 2 ^ R.PWR_VSET.width ∧ ∀ r ∈ regionsOf d, admitOf t r = admitOf c r) ∧
         ((capEff w).lt p = true → (∀ d < 4, vOf c d = vminOf c d) →
           (∀ d < 4, vOf t d = vOf c d) ∧ ∀ r < 64, admitOf t r = max (admitOf c r - 5) (admitMin c) % 2 ^ R.SLUICE_STATUS_ADMIT.width) ∧
         ((capEff w).lt p = false → p.lt ((capEff w).sub (.ofInt (hystW w))) = true → (∃ r < 64, admitOf c r < 100) →
           (∀ d < 4, vOf t d = vOf c d) ∧ ∀ r < 64, admitOf t r = min (admitOf c r + 5) 100)))

/-! ### Power and cooling -/

/-- A telemetry sample is held rail by rail and summed for the window, and above 2,400 W sets PMAX_TRIP, every die to
its vmin and every region's ADMIT to ADMIT_MIN; SLOWDOWN_N holds the dies at vmin and ADMIT at SLOW_ADMIT; a margin
request steps the region's floor, the 13th sets AGEING_LIMIT; inlet and board temperatures are held, the board's limit
with BOARD_OVERTEMP. A die's 64 sensors: the excluded ones show in BAD_MASK, MAX_T and MAX_SENSOR name the hottest of
the others, from 105 °C the die is at its limit, at vmin with ADMIT_MIN, and from 110 °C it trips, which stops all
issue with ALERT_N (R55, R370, R381, R382, R388, R389, R392). -/
def Obligations.PowerAndThermalSamplesAct : Prop :=
  ((∀ (rs : List RailSample) (s : State), Uninjected s → powerOn s = true → rs.length = 24 →
     ∃ t, exec (.telemetrySample rs) s = .next t ∧ t.power.count = s.power.count + 1 ∧
       (∀ (i : Nat) (x : RailSample), rs[i]? = some x → rdi t pgPwr R.PWR_RAIL_P i = x.p % 2 ^ R.PWR_RAIL_P.width ∧
         rdi t pgPwr R.PWR_RAIL_I_DA i = x.i % 2 ^ R.PWR_RAIL_I_DA.width ∧
         rdi t pgPwr R.PWR_RAIL_V_MV i = x.v % 2 ^ R.PWR_RAIL_V_MV.width ∧
         mapGet 0 t.power.sums i = mapGet 0 s.power.sums i + x.p) ∧
       (24000 < ((rs.take 4).map (fun x => x.p)).sum → bitSet (rd t pgPwr R.HEADER_ERR_STAT_ERR) 1 = true ∧
         (railsFree s = true → (∀ d < 4, vOf t d = vminOf s d % 2 ^ R.PWR_VSET.width) ∧ ∀ r < 64, admitOf t r = admitMin s)) ∧
       (((rs.take 4).map (fun x => x.p)).sum ≤ 24000 → (∀ d, vOf t d = vOf s d) ∧ ∀ r, admitOf t r = admitOf s r)) ∧
   (∀ s : State,
     (railsFree s = true → rd s pgRst R.RST_STATUS_COMEOUT = 0 → ∃ t, exec (.slowdownN true) s = .next t ∧ t.pins.slowdown = true ∧
       (∀ d < 4, vOf t d = vminOf s d % 2 ^ R.PWR_VSET.width) ∧ ∀ r < 64, admitOf t r = min (admitOf s r) (slowAdmit s)) ∧
     exec (.slowdownN false) s = .next { s with pins := { s.pins with slowdown := false } }) ∧
   (∀ (p : Path) (r : RegionIx) (s : State), Reaches p (pgSluice r) s →
     let n := rd s (pgSluice r) R.SLUICE_FLOOR_TRIM
     ∃ t, exec (.marginReq p r) s = .next t ∧
       (n < 12 → rd t (pgSluice r) R.SLUICE_FLOOR_TRIM = n + 1 ∧ floorOf t r =
         max 650 (rd s (pgSluice r) R.SLUICE_FLOOR_BASE + 5 * (n + 1)) % 2 ^ R.SLUICE_FLOOR_EFFECTIVE.width ∧
         { t with regs := s.regs, reply := s.reply } = s) ∧
       (12 ≤ n → rd t (pgSluice r) R.SLUICE_FLOOR_TRIM = n ∧ floorOf t r = floorOf s r ∧
         bitSet (rd t (pgSluice r) R.HEADER_ERR_STAT_ERR) 1 = true)) ∧
   (∀ (i : Int) (s : State), powerOn s = true → -32768 ≤ i → i < 32768 →
     ∃ t, exec (.inletSample i) s = .next t ∧ signedOf 16 (rd t pgPwr R.PWR_INLET_T) = i ∧ { t with regs := s.regs } = s) ∧
   ∀ (i : Int) (s : State), -32768 ≤ i → i < 32768 →
     ∃ t, exec (.boardOvertemp i) s = .next t ∧ signedOf 16 (rd t pgAon R.AON_BOARD_T) = i ∧
       rd t pgAon R.AON_STATUS_BOARD_HOT = (if boardLimit s ≤ i then 1 else 0) ∧
       (boardLimit s ≤ i → alertN t = true ∧
         (rd s pgAon R.AON_STATUS_BOARD_HOT = 0 → bitSet (rd t pgAon R.HEADER_ERR_STAT_ERR) 0 = true))) ∧
  (∀ (d : DieIx) (ts : List Int) (s : State), Uninjected s → powerOn s = true → ts.length = 64 →
     let bad (i : Nat) : Bool := decide (ts.getD i 0 < -320) || decide (1200 < ts.getD i 0) ||
       (List.range 4).all (fun j => i / 4 * 4 + j == i || decide (120 < (ts.getD i 0 - ts.getD (i / 4 * 4 + j) 0).natAbs))
     ∃ t, exec (.thermalSample d ts) s = .next t ∧
       (∀ i < 64, bitSet (rd t (pgTherm d) R.THERM_BAD_MASK) i = bad i) ∧
       (∀ m < 64, bad m = false → (∀ i < 64, bad i = false → ts.getD i 0 ≤ ts.getD m 0) →
         (∀ i < m, bad i = false → ts.getD i 0 < ts.getD m 0) →
         let x := ts.getD m 0
         signedOf 16 (rd t (pgTherm d) R.THERM_MAX_T) = x ∧ rd t (pgTherm d) R.THERM_MAX_SENSOR = m ∧
         (rd s (pgTherm d) R.THERM_PEAK < 2 ^ 16 → x ≤ signedOf 16 (rd t (pgTherm d) R.THERM_PEAK)) ∧
         rd t (pgTherm d) R.THERM_STATUS_AT_LIMIT = (if 840 ≤ x then 1 else 0) ∧
         (840 ≤ x → x < 880 → railsFree s = true → vOf t d = vminOf s d % 2 ^ R.PWR_VSET.width ∧
           ∀ r ∈ regionsOf d, admitOf t r = admitMin s) ∧
         (880 ≤ x → (rd s (pgTherm d) R.THERM_MAX_T = 0x8000 ∨ signedOf 16 (rd s (pgTherm d) R.THERM_MAX_T) < 880) →
           t.stopAll = true ∧ alertN t = true ∧ bitSet (rd t (pgTherm d) R.HEADER_ERR_STAT_ERR) 1 = true ∧
           ∀ k < 8, rd t (pgMemc k) R.MEMC_STATUS_SELF_REFRESH = 1)))

/-- A state request waits in CTRL.STATE_REQ, as a WB field does, and the control window acts on it: ACTIVE goes to
IDLE only with the schedule stopped and every core idle. A transition that ends enters its state; IDLE wakes at the
WAKE pin; I3C wakes a module in STANDBY whose coolant flows, with come-out steps 5 to 9. Coolant: an inlet above 55 °C
for 1 ms, and COOLANT_OK falling while the module works, stop all issue with their error, every stack in self-refresh
and ALERT_N; COOLANT_OK back lets a wake that waited begin (R55, R67, R389, R390, R394, R395, R443, R454, R503). -/
def Obligations.PowerStatesAndCoolant : Prop :=
  ((∀ (p : Path) (s : State), Reaches p pgPwr s →
     ∀ e ∈ [(Instr.stateReqActive p, 0), (.stateReqIdle p, 1), (.stateReqStandby p, 2), (.stateReqSleep p, 3)],
       ∃ t, exec e.1 s = .next t ∧ pendingRd t pgPwr R.PWR_CTRL_STATE_REQ 0 = e.2 ∧
         rd t pgPwr R.PWR_CTRL_STATE_REQ = rd s pgPwr R.PWR_CTRL_STATE_REQ ∧ rd t pgPwr R.PWR_STATUS_STATE = rd s pgPwr R.PWR_STATUS_STATE) ∧
   (∀ (m : Meter) (s : State) (v : Nat), Uninjected s → powerOn s = true → pendOffs s pgPwr = [(0x10, v)] → v % 4 = 1 → s.power.target = none →
     rd s pgPwr R.PWR_STATUS_STATE = 0 →
     (rd s pgSched R.SCHED_STATUS_RUNNING = 0 → (∀ e ∈ s.cores, blockIdle s (pgCore e.1) = true) →
       (∀ r < 64, pendOffs s (pgSluice r) = []) → (∀ d < 4, pendOffs s (pgTherm d) = []) →
       ∃ t, exec (.controlWindow m) s = .next t ∧ t.power.target = some 1 ∧ rd t pgPwr R.PWR_STATUS_TRANSITION = 1 ∧
         rd t pgPwr R.PWR_STATUS_STATE = 0) ∧
     (rd s pgSched R.SCHED_STATUS_RUNNING = 1 → ∃ t, exec (.controlWindow m) s = .next t ∧ t.power.target = none ∧
       bitSet (rd t pgPwr R.HEADER_ERR_STAT_ERR) 4 = true)) ∧
   (∀ (s : State) (k : Nat), s.power.target = some k → (k = 1 ∨ k = 2 ∧ s.power.wake = none ∨ k = 0 ∧ rd s pgRst R.RST_STATUS_COMEOUT = 0) →
     ∃ u, EndsAs .powerTransitionDone s u ∧ u.power.target = none ∧ rd u pgPwr R.PWR_STATUS_TRANSITION = 0 ∧
       rd u pgPwr R.PWR_STATUS_STATE = k ∧
       (k = 2 → u.cores = [] ∧ u.stopAll = true ∧ ∀ j < 8, rd u (pgMemc j) R.MEMC_STATUS_SELF_REFRESH = 1) ∧
       (k = 1 → ∀ j < 32, linkState u j ≠ 4)) ∧
   (∀ s : State, rd s pgPwr R.PWR_STATUS_STATE = 1 → s.power.target = none →
     ∃ t, exec (.wake true) s = .next t ∧ t.pins.wake = true ∧ t.power.target = some 0 ∧ rd t pgPwr R.PWR_STATUS_TRANSITION = 1 ∧
       rd t pgAon R.AON_WAKE_CAUSE = 1) ∧
   ∀ s : State, rd s pgPwr R.PWR_STATUS_STATE = 2 → s.power.target = none → rd s pgRst R.RST_STATUS_COMEOUT = 0 → s.rst.held = false →
     s.pins.coolant = true → rd s pgAon R.AON_CTRL_I3C_WAKE_EN = 1 →
     ∃ t, exec .i3cWake s = .next t ∧ t.power.target = some 0 ∧ rd t pgRst R.RST_STATUS_COMEOUT = 1 ∧ nextStep t = 5 ∧
       rd t pgAon R.AON_WAKE_CAUSE = 2) ∧
  (∀ s : State,
     let stopped (u : State) : Prop := u.stopAll = true ∧ alertN u = true ∧ rd u pgEmb R.EMB_STATUS_SAFE = 1 ∧
       ∀ k < 8, rd u (pgMemc k) R.MEMC_STATUS_SELF_REFRESH = 1
     (powerOn s = true → 440 < signedOf 16 (rd s pgPwr R.PWR_INLET_T) →
       ∃ u, EndsAs .coolantTemp s u ∧ stopped u ∧ bitSet (rd u pgPwr R.HEADER_ERR_STAT_ERR) 3 = true) ∧
     (powerOn s = true → rd s pgPwr R.PWR_STATUS_STATE < 2 → s.pins.coolant = true → rd s pgRst R.RST_STATUS_COMEOUT = 0 →
       ∃ u, EndsAs .coolantLoss s u ∧ u.pins.coolant = false ∧ stopped u ∧ bitSet (rd u pgPwr R.HEADER_ERR_STAT_ERR) 2 = true) ∧
     (s.rst.pend = 0 → s.power.target = none → s.rst.held = false → rd s pgRst R.RST_STATUS_COMEOUT = 0 →
       ∃ t, exec .coolantOkAsserted s = .next t ∧ t.pins.coolant = true ∧
         (∀ b, s.power.wake = some b → rd s pgPwr R.PWR_STATUS_STATE = 2 → rd t pgRst R.RST_STATUS_COMEOUT = 1 ∧
           t.power.target = some 0 ∧ t.power.wake = none) ∧
         (s.power.wake = none → { t with pins := s.pins } = s)))

/-! ### Resets -/

/-- A reset source that asserts is recorded in CAUSE and its reset takes effect: at once, or after the capture that is
taken where one is marked and can be. During a come-out it is recorded and widens the next one. 48 V loss and an
always-on brown-out with 48 V present first wait for the power-fail record. The come-out of the pending reset begins
when the last asserted source releases: RESET_N high, the auxiliary rail or the main rails back, or whichever is last
(R407, R440, R446 to R448, R450, R451, R453). -/
def Obligations.SourcesAssertAndRelease : Prop :=
  (∀ s : State,
     let cause (b : Nat) : Nat := (rd s pgRst R.RST_CAUSE ||| 2 ^ b) % 2 ^ R.RST_CAUSE.width
     let captured := rd s pgEmb R.EMB_CAPTURE_ARMED = 1 ∧ rd s pgEmb R.EMB_CAPTURE_BASE ≠ 0
     (Quiet s →
       (∀ e ∈ [(Instr.resetN true, 4, 2)] ++ (if mainOn s then [(Instr.mainBrownout true, 2, 3)] else []) ++
           (if debugOpen s then [(Instr.resetReq, 10, 1)] else []),
         ∃ t, exec e.1 s = .next t ∧ HasReset e.2.1 e.2.2 s t ∧ rd t pgRst R.RST_CAUSE = cause e.2.1) ∧
       (∃ t, exec .powerOn s = .next t ∧ HasReset 0 4 s t ∧ rd t pgRst R.RST_CAUSE = 1 ∧ rd t pgAon R.AON_STATUS_AUX_OK = 1) ∧
       (s.pins.main = false → ∃ t, exec (.aonBrownout true) s = .next t ∧ HasReset 1 4 s t ∧ rd t pgRst R.RST_CAUSE = 3 ∧
         rd t pgAon R.AON_STATUS_AUX_OK = 0) ∧
       (s.pins.main = true → mainOn s = true →
         (∃ t, exec (.aonBrownout true) s = .next t ∧ t.rst.held = false ∧ t.rst.pend = 4 ∧ 1 ∈ t.rst.asserted ∧ t.stopAll = true ∧
           t.boot.pfail = true ∧ t.dram = s.dram ∧ rd t pgRst R.RST_CAUSE = cause 1) ∧
         ∃ t, exec (.powerLoss true) s = .next t ∧ t.pins.main = false ∧ t.rst.held = false ∧ t.rst.pend = 3 ∧ 3 ∈ t.rst.asserted ∧
           t.stopAll = true ∧ t.boot.pfail = true ∧ t.dram = s.dram ∧ rd t pgRst R.RST_CAUSE = cause 3) ∧
       ∀ e ∈ (if mainOn s then [(Instr.clockFail false, 5, 2), (.clockFail true, 5, 2), (.mgmtLockup, 7, 2)] else []) ++
           (if rd s pgMgmt R.MGMT_STATUS_FW_RUNNING = 1 ∧ rd s pgRst R.RST_WDOG_EN = 1 then [(Instr.watchdog, 6, 2)] else []),
         (rd s pgEmb R.EMB_CAPTURE_ARMED = 0 → ∃ t, exec e.1 s = .next t ∧ HasReset e.2.1 e.2.2 s t ∧
           rd t pgRst R.RST_CAUSE = cause e.2.1) ∧
         (captured → ∃ t, exec e.1 s = .next t ∧ t.rst.capture = some ⟨e.2.1, tickOf s, 0, e.2.2⟩ ∧ t.rst.held = false ∧
           t.rst.pend = e.2.2 ∧ t.rst.asserted = joined s e.2.1 ∧ t.stopAll = true ∧ t.cores = s.cores ∧
           rd t pgEmb R.EMB_CAPTURE_ARMED = 0 ∧ rd t pgRst R.RST_CAUSE = cause e.2.1)) ∧
     (∀ p : Path, Quiet s → Reaches p pgRst s →
       ∀ e ∈ [(Instr.swResetCompute p, 11, 1), (.swResetModule p, 8, 2)],
         (rd s pgEmb R.EMB_CAPTURE_ARMED = 0 → ∃ t, exec (e.1 0xA5) s = .next t ∧ HasReset e.2.1 e.2.2 s t ∧
           rd t pgRst R.RST_CAUSE = cause e.2.1) ∧
         (captured → ∃ t, exec (e.1 0xA5) s = .next t ∧ t.rst.capture = some ⟨e.2.1, tickOf s, 0, e.2.2⟩ ∧ t.rst.pend = e.2.2 ∧
           t.stopAll = true ∧ t.cores = s.cores) ∧
         ∀ key, key ≠ 0xA5 → exec (e.1 key) s = .next (answered 0 0 s)) ∧
     (rd s pgRst R.RST_STATUS_COMEOUT = 1 →
       ∀ e ∈ [(Instr.resetN true, 4, 2)] ++ (if mainOn s then [(Instr.mainBrownout true, 2, 3)] else []),
         ∃ t, exec e.1 s = .next t ∧ t.rst.again = max (max s.rst.again e.2.2) s.rst.reach ∧ t.rst.pend = s.rst.pend ∧
           t.rst.asserted = joined s e.2.1 ∧ t.cores = s.cores ∧ t.dram = s.dram ∧ rd t pgRst R.RST_CAUSE = cause e.2.1)) ∧
  (∀ s : State, s.rst.held = true → s.rst.pend ≠ 0 →
     (∀ e ∈ [(Instr.resetN false, 4), (.mainBrownout false, 2)],
       (s.rst.asserted = [e.2] → ∃ t, exec e.1 s = .next t ∧ ComesOut s.rst.pend t ∧ t.rst.asserted = []) ∧
       (∀ a, a ≠ e.2 → a ∈ s.rst.asserted → e.2 ∈ s.rst.asserted → ∃ t, exec e.1 s = .next t ∧ t.rst.held = true ∧
         t.rst.asserted = s.rst.asserted.filter (· != e.2) ∧ { t with rst := s.rst } = s)) ∧
     (∀ b, (b = 0 ∨ b = 1) → s.rst.asserted = [b] →
       ∃ t, exec (.aonBrownout false) s = .next t ∧ ComesOut s.rst.pend t ∧ rd t pgAon R.AON_STATUS_AUX_OK = 1) ∧
     (s.rst.asserted ≠ [] → s.rst.capture = none → s.boot.pfail = false → s.pins.main = true →
       ∃ t, exec .resetRelease s = .next t ∧ ComesOut s.rst.pend t ∧ t.rst.asserted = [] ∧ t.tap ≠ 3))

/-- A capture that completes has its header in the capture area, VALID, and lets the reset that waits take effect; one
cut short is CAPTURE_INCOMPLETE, with fewer than its eight sections. The power-fail record holds its sequence number,
the time and each context, and the SUPPLY reset follows (R408, R409, R440, R441). -/
def Obligations.RecordsAreKept : Prop :=
  ∀ s : State,
    (∀ c : Capture, s.rst.capture = some c →
      let base := rd s pgEmb R.EMB_CAPTURE_BASE
      let kept (full : Bool) (k : Nat) (t : State) : Prop := rd t pgEmb R.EMB_CAPTURE_VALID = 1 ∧ t.rst.capture = none ∧
        t.rst.capDone = true ∧ t.rst.capSeq = s.rst.capSeq + 1 ∧
        dramWord t base = 1 + b2n full * 2 ^ 16 + (2 ^ k - 1) * 2 ^ 24 + (s.rst.capSeq + 1) % 2 ^ 32 * 2 ^ 32 ∧
        dramWord t (base + 16) = c.tick % 2 ^ 64 ∧ dramWord t (base + 24) = c.code % 2 ^ 64
      base % 64 = 0 → Apart s (spanOf base 4096) →
      (s.rst.pend = 0 → (∃ t, exec .captureComplete s = .next t ∧ kept true 8 t) ∧
        ∃ t k, k < 8 ∧ exec .captureIncomplete s = .next t ∧ kept false k t ∧ bitSet (rd t pgEmb R.HEADER_ERR_STAT_ERR) 8 = true) ∧
      (s.rst.pend = 1 → s.rst.held = false → rd s pgEmb R.EMB_STATUS_SAFE = 0 →
        ∃ t, exec .captureComplete s = .next t ∧ t.rst.held = true ∧ t.rst.capture = none ∧ t.cores = [] ∧ t.binds = [])) ∧
    (s.boot.pfail = true → s.rst.held = false → s.rst.pend = 3 → s.pins.main = false →
      ∃ t, exec .powerFailRecord s = .next t ∧ t.boot.pfail = false ∧ t.rst.held = true ∧ t.dram = [] ∧ t.ctxs = [] ∧ t.cores = [] ∧
        t.factory.pfailSeq = s.factory.pfailSeq + 1 ∧
        t.factory.pfail.take 3 = [s.factory.pfailSeq + 1, rd s pgAon R.AON_TIME, s.ctxs.length] ∧
        ∀ (i n : Nat) (x : Ctx), s.ctxs[i]? = some (n, x) → x.typ ≠ 0 →
          t.factory.pfail[5 + 2 * i]? = some (n + x.job * 2 ^ 16) ∧
          t.factory.pfail[6 + 2 * i]? = some (rdi s pgEmb R.EMB_CKPT_LAST_STEP n))

/-- A context that makes no progress in its slot is step-fatal, or halted; a fabric lock-up is that for every context,
and then the capture and the COMPUTE reset; an audit that agrees counts, and one that two auditors confirm is
AUDIT_MISMATCH, the core in RETEST and its region's floor raised (R404, R406, R435, R436, R438). -/
def Obligations.WatchesAndAuditsAct : Prop :=
  ∀ s : State,
    (∀ (n : CtxIx) (x : Ctx), ctxOf s n = some x → x.progressUs ≠ 0 → (polOf s x.polder).cur = some n.val → isHeld s n = false →
      x.halted = false → ∃ v, EndsAs (.progressStall n) s (stepFatal n (errCode .emb 4) none v) ∧ v.ctxs = s.ctxs ∧
        v.cores = s.cores ∧ v.dram = s.dram ∧ bitSet (rd v pgEmb R.HEADER_ERR_STAT_ERR) 4 = true) ∧
    (Quiet s →
      (rd s pgEmb R.EMB_CAPTURE_ARMED = 0 → ∃ u, EndsAs .fabricLockup s u ∧ u.rst.held = true ∧ u.rst.pend = 1 ∧
        bitSet (rd u pgRst R.RST_CAUSE) 9 = true ∧ u.cores = [] ∧ u.binds = []) ∧
      (rd s pgEmb R.EMB_CAPTURE_ARMED = 1 → rd s pgEmb R.EMB_CAPTURE_BASE ≠ 0 → ∃ u, EndsAs .fabricLockup s u ∧
        u.rst.capture = some ⟨9, tickOf s, errCode .emb 3, 1⟩ ∧ u.rst.pend = 1 ∧ u.stopAll = true ∧
        bitSet (rd u pgEmb R.HEADER_ERR_STAT_ERR) 3 = true ∧
        ∀ (n : Nat) (x : Ctx), ctxOf s n = some x → x.typ ≠ 0 → (s.ctxs.map (fun e => e.1)).Nodup →
          ∃ y, ctxOf u n = some y ∧ y.halted = true)) ∧
    ∀ (i : Nat) (j : AuditJob) (r : AuditResult), s.audits[i]? = some j → r.sat1 = false →
      (r.diff1 = [] → ∃ u, EndsAs (.auditCompare i r) s u ∧ u.audits = s.audits.eraseIdx i ∧ u.dram = s.dram ∧
        rd u pgAudit R.AUDIT_SAMPLED = (rd s pgAudit R.AUDIT_SAMPLED + 1) % 2 ^ R.AUDIT_SAMPLED.width ∧
        ((auditOf s j.core).st ≠ 1 → u.auditSt = s.auditSt) ∧
        ((auditOf s j.core).st = 1 → (auditOf s j.core).clean + 1 < max 1 (auditRd s j.ctx R.AUDIT_CTRL_RETEST_N) →
          auditOf u j.core = { auditOf s j.core with clean := (auditOf s j.core).clean + 1 })) ∧
      (∀ (e v : Nat) (x : Ctx), e < 4096 → v ≠ mapGet 0 j.ent e → r.diff1 = [(e, v)] → r.diff2 = [(e, v)] → r.sat2 = false →
        (auditOf s j.core).st = 0 → ctxOf s j.ctx = some x →
        (x.typ ≠ 0 ∨ ∃ t, j.step = some t ∧ verdictHeld x t = false) →
        rd s (pgSluice (regionOfCore j.core)) R.SLUICE_FLOOR_TRIM < 12 → regionOfCore j.core < 64 →
        ∃ u, EndsAs (.auditCompare i r) s u ∧ u.audits = s.audits.eraseIdx i ∧ (auditOf u j.core).st = 1 ∧
          (auditOf u j.core).clean = 0 ∧ bitSet (rd u pgAudit R.HEADER_ERR_STAT_ERR) 0 = true ∧
          rd u (pgSluice (regionOfCore j.core)) R.SLUICE_FLOOR_TRIM =
            rd s (pgSluice (regionOfCore j.core)) R.SLUICE_FLOOR_TRIM + 1)

/-! ### The come-out and boot -/

/-- The steps of a come-out: each completes with what R453 gives it, where it does not wait for the main supply, the
host's image or COOLANT_OK; a source that asserted meanwhile starts the next reset at its end (R28, R53, R180, R450,
R453 to R456, R458 to R461, R465, R471, R472, R480). -/
def Obligations.ComeOutStepsComplete : Prop :=
  ∀ (i : ComeoutInput) (s : State), rd s pgRst R.RST_STATUS_COMEOUT = 1 → s.pins.main = true → s.boot.mailbox = false →
    (nextStep s < 5 ∨ s.pins.coolant = true) →
    let step (u : State) : Nat := rd u pgRst R.RST_STATUS_STEP
    let err (u : State) (p : Page) (b : Nat) : Prop := bitSet (rd u p R.HEADER_ERR_STAT_ERR) b = true
    let safe (u : State) : Prop := rd u pgEmb R.EMB_STATUS_SAFE = 1
    (s.rst.again ≠ 0 → s.rst.again ≤ 4 → s.rst.held = false → nextStep s = 6 → rd s pgEmb R.EMB_STATUS_SAFE = 0 →
      ∃ u, EndsAs (.comeout i) s u ∧ u.cores = [] ∧ (s.rst.asserted = [] → ComesOut s.rst.again u) ∧
        (s.rst.asserted ≠ [] → u.rst.held = true ∧ u.rst.pend = s.rst.again ∧ u.rst.again = 0)) ∧
    (s.rst.again = 0 →
      (nextStep s = 1 → ∃ u, EndsAs (.comeout i) s u ∧ step u = 1) ∧
      (nextStep s = 2 →
        (i.d0 = false → i.d2 = false → ∃ u, EndsAs (.comeout i) s u ∧ u.rst.bothFail = true ∧ u.rst.held = true ∧
          rd u pgRst R.RST_STATUS_COMEOUT = 0 ∧ alertN u = true) ∧
        (∀ n < 768, i.d0 = true ∨ i.d2 = true → i.counts.head? = some (List.replicate 8 n) → ∃ u, EndsAs (.comeout i) s u ∧ step u = 2 ∧
          rd u pgStrap R.STRAP_CODE_CODE = n / 64 ∧ rd u pgStrap R.STRAP_CODE_COUNT = n ∧ rd u pgStrap R.STRAP_CODE_LEGACY = 0 ∧
          rd u pgStrap R.STRAP_EFFECT_BOOT_SRC = n / 256 ∧ rd u pgRst R.RST_BOOT_SOURCE = n / 256 ∧
          rd u pgStrap R.STRAP_EFFECT_I3C_B = n / 64 % 2 ∧ (∀ k < 32, rd u (pgLink k) R.LINK_CTRL_LANE_112 = n / 128 % 2) ∧
          (i.d0 = false → rd u pgRst R.RST_STATUS_PATH = 1 ∧ err u pgRst 3) ∧
          (∀ r < 64, admitOf u r = 100) ∧ ∀ d < 4, vOf u d = max 780 (vminOf s d) % 2 ^ R.PWR_VSET.width) ∧
        (i.d0 = true ∨ i.d2 = true → (∀ r ∈ i.counts.take 5, r.length ≠ 8 ∨ ∃ c ∈ r, min 1023 c / 64 ≠ min 1023 (r.headD 0) / 64) →
          ∃ u, EndsAs (.comeout i) s u ∧ step u = 2 ∧ rd u pgStrap R.STRAP_CODE_CODE = 14 ∧ rd u pgRst R.RST_BOOT_SOURCE = 3 ∧
            err u pgStrap 0 ∧ safe u)) ∧
      (nextStep s = 3 → ∃ u, EndsAs (.comeout i) s u ∧ step u = 3 ∧
        rd u pgFuse R.FUSE_CE_COUNT = (rd s pgFuse R.FUSE_CE_COUNT + i.fuseRows) % 2 ^ R.FUSE_CE_COUNT.width ∧
        (i.fuseBad = true → err u pgFuse 0 ∧ safe u ∧ rd u pgRst R.RST_BOOT_MONITOR = 1)) ∧
      (nextStep s = 4 → rd s pgQuay R.QUAY_STATUS_READY = 1 → rd s pgRst R.RST_BOOT_MONITOR = 0 →
        let a := rd s pgRst R.RST_BOOT_FAILS
        let src := rd s pgRst R.RST_BOOT_SOURCE
        let m := s.factory.fwMain % 2
        let started (k : Nat) (u : State) : Prop := rd u pgMgmt R.MGMT_STATUS_FW_RUNNING = 1 ∧ rd u pgRst R.RST_BOOT_SLOT = k ∧
          u.boot.fw = fwSlot s k ∧ rd u pgMgmt R.MGMT_FW_SVN = oSvn (fwSlot s k) % 2 ^ R.MGMT_FW_SVN.width ∧ step u = 4
        (a < 3 → (src = 0 ∨ src = 1) →
          let slots := if src = 0 then [m, 1 - m, 2].drop a else [2]
          ∃ u, EndsAs (.comeout i) s u ∧ rd u pgRst R.RST_BOOT_FAILS = a + 1 ∧
            (match slots.find? (fun k => fwOk s (fwSlot s k)) with
             | some k => started k u
             | none => step u = step s ∧ err u pgRst 0 ∧
                 rd u pgMgmt R.MGMT_STATUS_FW_RUNNING = rd s pgMgmt R.MGMT_STATUS_FW_RUNNING)) ∧
        (a < 3 → src = 2 → ∃ u, EndsAs (.comeout i) s u ∧ u.boot.mailbox = true ∧ rd u pgHlink R.HLINK_STATUS_STATE = 2 ∧
          rd u pgRst R.RST_BOOT_FAILS = a + 1 ∧ step u = step s) ∧
        (3 ≤ a → ∃ u, EndsAs (.comeout i) s u ∧ err u pgRst 1 ∧ safe u ∧ rd u pgRst R.RST_BOOT_FAILS = a ∧ step u = 4 ∧
          (if fwOk s (fwSlot s 2) = true then started 2 u else rd u pgRst R.RST_BOOT_MONITOR = 1))) ∧
      (nextStep s = 5 → ∃ u, EndsAs (.comeout i) s u ∧ step u = 5 ∧
        (∀ k < 8, rd u (pgMemc k) R.MEMC_STATUS_SELF_REFRESH = 0 ∧ rd u (pgMemc k) R.MEMC_STATUS_TRAINED = 1) ∧
        (∀ c ∈ i.badChans, c < 256 → chState s c < 2 → mapGet false u.chDead c = true ∧ chState u c = 1) ∧
        (i.badChans = [] → { u with regs := s.regs } = s)) ∧
      (nextStep s = 6 → ∃ u, EndsAs (.comeout i) s u ∧ step u = 6 ∧ { u with regs := s.regs } = s) ∧
      (nextStep s = 7 →
        (i.rngOk = true → i.secOk = true → i.badH = [] → i.badV = [] → ∃ u, EndsAs (.comeout i) s u ∧ step u = 7 ∧
          rd u pgRng R.RNG_STATUS_KAT_DONE = 1 ∧ rd u pgRng R.RNG_STATUS_KAT_PASS = 1 ∧
          (∀ d < 4, rd u (pgDie d) R.DIE_STATUS_SELFTEST_DONE = 1 ∧ rd u (pgCanal d) R.CANAL_STATUS_BRIDGE_H = 1 ∧
            rd u (pgCanal d) R.CANAL_STATUS_BRIDGE_V = 1 ∧ (i.badCores = [] → rd u (pgDie d) R.DIE_SELFTEST_FAILS = 0)) ∧
          ∀ c : CoreIx, i.badCores = [c] → rd u (pgDie (dieOfCore c)) R.DIE_SELFTEST_FAILS = 1 ∧
            (spareUsed s c = false → spareUsed u c = true ∧
              rdi u (pgDie (dieOfCore c)) R.DIE_REPAIR_COL (halfRowOf c % 64) = c.val % 64) ∧
            (spareUsed s c = true → (auditOf u c).st = 4)) ∧
        (i.rngOk = false → ∃ u, EndsAs (.comeout i) s u ∧ step u = 7 ∧ err u pgRng 0 ∧ safe u)) ∧
      (nextStep s = 8 → rd s pgHlink R.HLINK_STATUS_STATE ≠ 3 →
        (∀ v full, i.hlink = some (v, full) → ∃ u, EndsAs (.comeout i) s u ∧ step u = 8 ∧ rd u pgHlink R.HLINK_STATUS_STATE = 3 ∧
          rd u pgHlink R.HLINK_STATUS_VERSION = v % 2 ^ R.HLINK_STATUS_VERSION.width ∧ rd u pgHlink R.HLINK_STATUS_RATE_224 = b2n full) ∧
        (i.hlink = none → ∃ u, EndsAs (.comeout i) s u ∧ step u = 8 ∧ rd u pgHlink R.HLINK_STATUS_STATE = 0 ∧ err u pgHlink 1)) ∧
      (nextStep s = 9 → linksSettled s = true → ∃ u, EndsAs (.comeout i) s u ∧ step u = 9 ∧ rd u pgRst R.RST_STATUS_COMEOUT = 0 ∧
        (u.stopAll = true ↔ rd s pgEmb R.EMB_STATUS_SAFE = 1) ∧ u.lastCause = rd s pgRst R.RST_CAUSE ∧
        (∀ k, 1 ≤ k → k ≤ 4 → s.rst.reach = k → rd u pgRst R.RST_LAST_REACH = 4 - k ∧ u.comeouts = s.comeouts + 1)))

/-- Boot: an image of the host's that verifies starts the firmware, and any other is BOOT_IMAGE_BAD; a length that
does not come ends the attempt; FW_OK and FAILS_CLR clear FAILS; KICK restarts the watchdog; RET_DATA reads and writes
the retained SRAM at RET_ADDR, which advances, a write clears SEALED, and a seal holds the SRAM's CRC (R456, R463,
R472, R480). -/
def Obligations.BootControls : Prop :=
  (∀ (len : Nat) (img : List Byte) (s : State), s.boot.mailbox = true → rd s pgRst R.RST_STATUS_COMEOUT = 1 →
    let o := (objNats img).take len
    ∃ t, exec (.hostBootImage len img) s = .next t ∧ t.boot.mailbox = false ∧ rd t pgHlink R.HLINK_STATUS_STATE = 0 ∧
      (if fwOk s o = true ∧ len ≤ 2 ^ 24 - 8 then rd t pgMgmt R.MGMT_STATUS_FW_RUNNING = 1 ∧ rd t pgRst R.RST_BOOT_SLOT = 3 ∧
          t.boot.fw = o ∧ rd t pgMgmt R.MGMT_FW_VERSION = oVersion o % 2 ^ R.MGMT_FW_VERSION.width ∧ rd t pgRst R.RST_STATUS_STEP = 4
        else bitSet (rd t pgRst R.HEADER_ERR_STAT_ERR) 0 = true ∧ rd t pgRst R.RST_STATUS_STEP = rd s pgRst R.RST_STATUS_STEP ∧
          rd t pgMgmt R.MGMT_STATUS_FW_RUNNING = rd s pgMgmt R.MGMT_STATUS_FW_RUNNING)) ∧
  (∀ s : State, s.boot.mailbox = true → ∃ t, exec .bootMailboxTimeout s = .next t ∧ t.boot.mailbox = false ∧
    rd t pgHlink R.HLINK_STATUS_STATE = 0 ∧ { t with regs := s.regs, boot := s.boot } = s) ∧
  (∀ s : State, Reaches .mgmt pgRst s →
    (∃ t, exec .fwOk s = .next t ∧ rd t pgRst R.RST_BOOT_FW_OK = 1 ∧ rd t pgRst R.RST_BOOT_FAILS = 0 ∧
      { t with regs := s.regs, reply := s.reply } = s) ∧
    exec .kick s = .next (answered 0 0 s)) ∧
  (∀ s : State, Reaches .host pgRst s → ∃ t, exec .failsClr s = .next t ∧ rd t pgRst R.RST_BOOT_FAILS = 0 ∧
    { t with regs := s.regs, reply := s.reply } = s) ∧
  (∀ (p : Path) (s : State), Reaches p pgRst s →
    let a := rd s pgRst R.RST_RET_ADDR
    (∀ v : Word, ∃ t, exec (.retData p true v) s = .next t ∧ mapGet 0 t.retained a = v.toNat ∧
      (∀ b, b ≠ a → mapGet 0 t.retained b = mapGet 0 s.retained b) ∧ rd t pgRst R.RST_RET_STATUS_SEALED = 0 ∧
      rd t pgRst R.RST_RET_ADDR = (a + 1) % 2 ^ R.RST_RET_ADDR.width ∧
      { t with regs := s.regs, retained := s.retained, reply := s.reply } = s) ∧
    (∀ v : Word, ∃ t, exec (.retData p false v) s = .next t ∧ t.reply = ⟨mapGet 0 s.retained a % 2 ^ 32, 0, false⟩ ∧
      rd t pgRst R.RST_RET_ADDR = (a + 1) % 2 ^ R.RST_RET_ADDR.width ∧ t.retained = s.retained) ∧
    ∃ t, exec (.seal p) s = .next t ∧ t.boot.sealing = true ∧ { t with boot := s.boot, reply := s.reply } = s) ∧
  ∀ s : State, s.boot.sealing = true → ∃ t, exec .sealComplete s = .next t ∧ t.boot.sealing = false ∧
    rd t pgRst R.RST_RET_STATUS_SEALED = 1 ∧
    rd t pgRst R.RST_RET_CRC = crc32c ((List.range 16384).flatMap (fun i => bytesOf 4 (mapGet 0 s.retained i))) % 2 ^ 32 ∧
    t.retained = s.retained

/-! ### Fuses, attestation and debug -/

/-- Fuse programming: PROG blows only a bit that its signed object admits; SVN_ADVANCE raises the floors at most to
the running versions, once FW_OK is set; enrolment takes the first owner slot that is free; the bits asked for are
blown when programming completes, and no other. Attestation: a report takes the next index once and carries the nonce
that the host wrote; certificates are the stored ones; a request that cannot be served is refused; at completion the
bytes stand in device DRAM. A debug token that verifies for this module unlocks debug, any other is an error, and
either takes a fresh nonce (R464, R467, R468, R470, R473 to R478, R482, R483). -/
def Obligations.FusesAttestationAndDebug : Prop :=
  ((∀ s : State, Reaches .mgmt pgFuse s → rd s pgFuse R.FUSE_PROG_STATUS_BUSY = 0 →
     (∀ (b : Nat) (o : List Byte), ∃ t, exec (.prog .mgmt b o) s = .next t ∧
       (if (revokeAdmits s (objNats o) (b % 4096) || policyAdmitsBit s (objNats o) (b % 4096)) = true
         then t.boot.prog = [b % 4096] ∧ rd t pgFuse R.FUSE_PROG_STATUS_BUSY = 1
         else t.boot.prog = s.boot.prog ∧ bitSet (rd t pgFuse R.HEADER_ERR_STAT_ERR) 1 = true)) ∧
     (∀ v : Word, bitSet v.toNat 31 = true →
       let f := min (min 64 (bitsOf v.toNat 0 7)) (rd s pgMgmt R.MGMT_FW_SVN)
       let g := min (min 64 (bitsOf v.toNat 8 7)) (s.quayDir.foldl (fun a e => max a e.2.svn) 0)
       ∃ t, exec (.svnAdvance .mgmt v) s = .next t ∧
         (rd s pgRst R.RST_BOOT_FW_OK = 0 → t.boot.prog = s.boot.prog ∧ bitSet (rd t pgFuse R.HEADER_ERR_STAT_ERR) 1 = true) ∧
         (rd s pgRst R.RST_BOOT_FW_OK = 1 → rd t pgFuse R.FUSE_PROG_STATUS_BUSY = 1 ∧
           ∀ b, b ∈ t.boot.prog ↔ (∃ k < f, b = 1552 + k ∧ bitSet (rd s pgFuse R.FUSE_SVN_FW) k = false) ∨
             ∃ k < g, b = 1616 + k ∧ bitSet (rd s pgFuse R.FUSE_SVN_IMG) k = false))) ∧
   (∀ (q : EnrolReq) (s : State), rd s pgMgmt R.MGMT_STATUS_FW_RUNNING = 1 → rd s pgFuse R.FUSE_PROG_STATUS_BUSY = 0 →
     let key := (objNats q.ecdsa).take 48 ++ (objNats q.hss).take 48
     (∀ slot, (rd s pgFuse R.FUSE_CFG_OWNER_SET = slot ∧ slot < 2 ∨ rd s pgFuse R.FUSE_CFG_OWNER_SET = 2 ∧ slot = 0) →
       ∃ t, exec (.ownerEnrol q) s = .next t ∧ rd t pgFuse R.FUSE_PROG_STATUS_BUSY = 1 ∧
         t.boot.prog = (bitsOfBytes key).map (fun b => 16 + 768 * slot + b) ++ [1680 + slot, 9]) ∧
     (rd s pgFuse R.FUSE_CFG_OWNER_SET = 3 → ∃ t, exec (.ownerEnrol q) s = .next t ∧ t.boot.prog = s.boot.prog ∧
       bitSet (rd t pgSec R.HEADER_ERR_STAT_ERR) 2 = true)) ∧
   ∀ s : State, rd s pgFuse R.FUSE_PROG_STATUS_BUSY = 1 →
     (∃ t, exec (.fuseProgComplete true) s = .next t ∧ rd t pgFuse R.FUSE_PROG_STATUS_BUSY = 0 ∧ t.boot.prog = [] ∧
       (∀ e ∈ [(R.FUSE_CFG_HOST_CLOSED, 3, 6), (R.FUSE_CFG_QP, 9, 3), (R.FUSE_CFG_REVOKED, 12, 4), (R.FUSE_SVN_FW, 1552, 64),
           (R.FUSE_SVN_IMG, 1616, 64), (R.FUSE_CFG_OWNER_SET, 1680, 2)],
         ∀ k < e.2.2, bitSet (rd t pgFuse e.1) k = (bitSet (rd s pgFuse e.1) k || s.boot.prog.contains (e.2.1 + k))) ∧
       (∀ k < 768, bitSet (mapGet 0 t.factory.keys (48 + k / 32)) (k % 32) =
         (bitSet (mapGet 0 s.factory.keys (48 + k / 32)) (k % 32) || s.boot.prog.contains (16 + k))) ∧
       (∀ k < 768, bitSet (mapGet 0 t.factory.keys (72 + k / 32)) (k % 32) =
         (bitSet (mapGet 0 s.factory.keys (72 + k / 32)) (k % 32) || s.boot.prog.contains (784 + k)))) ∧
     ∃ t, exec (.fuseProgComplete false) s = .next t ∧ rd t pgFuse R.FUSE_PROG_STATUS_BUSY = 0 ∧ t.boot.prog = [] ∧
       bitSet (rd t pgFuse R.HEADER_ERR_STAT_ERR) 2 = true) ∧
  ((∀ (p : Path) (s : State), Reaches p pgSec s → rd s pgSec R.SEC_STATUS_BUSY = 0 →
     let a := rd s pgSec R.SEC_ATT_ADDR
     let q := rd s pgSec R.SEC_LMS_NEXT
     (s.factory.lmsOut = false → attPlace s 6092 = true → ReadsSound s a 32 → ∃ t bs, exec (.attReport p) s = .next t ∧
       t.boot.att = some (a, bs) ∧ bs.length = 6092 ∧ bs.take 48 = bytesOf 4 1 ++ bytesOf 4 6092 ++ bytesOf 8 q ++ dramRead s a 32 ∧
       rd t pgSec R.SEC_STATUS_BUSY = 1 ∧ rd t pgSec R.SEC_ATT_RESULT_CODE = 0 ∧
       rd t pgSec R.SEC_SIGS = (rd s pgSec R.SEC_SIGS + 1) % 2 ^ R.SEC_SIGS.width ∧
       (q + 1 < 2 ^ 40 → rd t pgSec R.SEC_LMS_NEXT = q + 1) ∧ (q + 1 = 2 ^ 40 → t.factory.lmsOut = true) ∧
       (q < 2 ^ 40 → rd s pgSec R.SEC_LMS_RESERVED ≤ q → rd t pgSec R.SEC_LMS_RESERVED = min (q + 256) (2 ^ 40 - 1)) ∧ t.dram = s.dram) ∧
     (s.factory.lmsOut = true → ∃ t, exec (.attReport p) s = .next t ∧ rd t pgSec R.SEC_ATT_RESULT_CODE = 2 ∧
       t.boot.att = s.boot.att ∧ bitSet (rd t pgSec R.HEADER_ERR_STAT_ERR) 3 = true) ∧
     (s.factory.lmsOut = false → attPlace s 6092 = false → ∃ t, exec (.attReport p) s = .next t ∧
       rd t pgSec R.SEC_ATT_RESULT_CODE = 2 ∧ t.boot.att = s.boot.att ∧ rd t pgSec R.SEC_LMS_NEXT = q) ∧
     (∃ t, exec (.attCertificates p) s = .next t ∧ t.dram = s.dram ∧ rd t pgSec R.SEC_LMS_NEXT = q ∧
       if attPlace s s.factory.certs.flatten.length = true then
         t.boot.att = some (a, s.factory.certs.flatten) ∧ rd t pgSec R.SEC_STATUS_BUSY = 1
       else t.boot.att = s.boot.att ∧ rd t pgSec R.SEC_ATT_RESULT_CODE = 2) ∧
     ∃ t, exec (.dbgUnlock p) s = .next t ∧ (∃ n, s.free ≤ n ∧ n < t.free ∧
         rd t pgSec R.SEC_DBG_NONCE = Config.nonce n % 2 ^ R.SEC_DBG_NONCE.width) ∧
       (if (match tokenAt s with | some o => tokenOk s o | none => false) = true then rd t pgSec R.SEC_STATUS_DEBUG_UNLOCKED = 1
        else rd t pgSec R.SEC_STATUS_DEBUG_UNLOCKED = rd s pgSec R.SEC_STATUS_DEBUG_UNLOCKED ∧
          bitSet (rd t pgSec R.HEADER_ERR_STAT_ERR) 0 = true)) ∧
   ∀ (s : State) (a : Nat) (bs : List Nat), s.boot.att = some (a, bs) → Apart s (spanOf a bs.length) → (∀ b ∈ bs, b < 256) →
     ∃ u, EndsAs .attComplete s u ∧ u.boot.att = none ∧ dramRead u a bs.length = bs ∧ DramBut a bs.length s u ∧
       rd u pgSec R.SEC_STATUS_BUSY = 0 ∧ rd u pgSec R.SEC_ATT_RESULT_CODE = 1 ∧
       rd u pgSec R.SEC_ATT_RESULT_LENGTH = (bs.length + 63) / 64 % 2 ^ R.SEC_ATT_RESULT_LENGTH.width)

/-! ### Ports of the module -/

/-- The TAP: IDCODE and BYPASS come into force at every level, EXTEST where debug is open, else BYPASS. The I3C target
takes a dynamic address once, at its static address or by ENTDAA, and STATE answers its byte. The firmware's poll
raises HEARTBEAT; the host link that drops retrains with HLINK_DOWN; one MSI-X message goes out for the records of a
hold-off. A bridge that loses lock carries no more traffic for either of its dies, and an uncorrectable word of the
management SRAM cannot be repaired: each is device-fatal, with safe mode and ALERT_N; a corrected word is counted
(R53, R54, R399, R400, R467, R502, R503, R507 to R509). -/
def Obligations.PortsAndDeviceErrors : Prop :=
  (∀ s : State,
     (s.tap ≠ 3 → exec .idcode s = .next { s with tap := 1, tapOut := Config.idcode } ∧ exec .bypass s = .next { s with tap := 0 } ∧
       exec .extest s = .next { s with tap := if debugOpen s then 2 else 0 }) ∧
     (s.tap = 3 → s.rst.asserted = [10] → s.rst.held = true → s.rst.pend ≠ 0 →
       ∃ t, exec .bypass s = .next t ∧ t.tap = 0 ∧ ComesOut s.rst.pend t) ∧
     (mainOn s = true → s.i3cAddr = none → ∀ da < 128,
       exec (.entdaa da) s = .next { s with i3cAddr := some da } ∧
       exec (.setdasa (0x3A + rd s pgStrap R.STRAP_EFFECT_I3C_B) da) s = .next { s with i3cAddr := some da }) ∧
     (mainOn s = false ∨ rd s pgMgmt R.MGMT_STATUS_FW_RUNNING = 1 → ∃ b, exec .i3cState s = .next { s with i3cRead := [b] } ∧
       (rd s pgPwr R.PWR_STATUS_STATE < 4 → rd s pgEmb R.EMB_STATUS_SAFE < 2 → rd s pgMgmt R.MGMT_STATUS_FW_RUNNING < 2 →
         b < 64 ∧ b % 4 = rd s pgPwr R.PWR_STATUS_STATE ∧ bitSet b 2 = s.pins.coolant ∧ bitSet b 3 = alertN s ∧
         bitSet b 4 = decide (rd s pgEmb R.EMB_STATUS_SAFE = 1) ∧ bitSet b 5 = decide (rd s pgMgmt R.MGMT_STATUS_FW_RUNNING = 1))) ∧
     (rd s pgMgmt R.MGMT_STATUS_FW_RUNNING = 1 → ∃ t, exec .mailboxPoll s = .next t ∧
       rd t pgMgmt R.MGMT_HEARTBEAT = (rd s pgMgmt R.MGMT_HEARTBEAT + 1) % 2 ^ R.MGMT_HEARTBEAT.width ∧ t.dram = s.dram ∧ t.cores = s.cores) ∧
     (rd s pgHlink R.HLINK_STATUS_STATE = 3 → ∃ t, exec .hlinkDown s = .next t ∧ bitSet (rd t pgHlink R.HEADER_ERR_STAT_ERR) 0 = true ∧
       rd t pgHlink R.HLINK_STATUS_STATE = 3) ∧
     (s.msiHold = true → ∃ t, exec .msiXMessage s = .next t ∧ t.msiDue = false ∧
       (s.msiDue = true → rd s pgHlink R.HLINK_MSI_VEC_MASK = 0 → t.msiHold = true ∧
         t.msiSent = s.msiSent ++ [rd s pgHlink R.HLINK_MSI_VEC_VECTOR]) ∧
       (s.msiDue = false → t.msiHold = false ∧ t.msiSent = s.msiSent) ∧
       { t with msiDue := s.msiDue, msiHold := s.msiHold, msiSent := s.msiSent } = s)) ∧
  ((∀ (d : DieIx) (vert : Bool) (s : State),
     let f := if vert then R.CANAL_STATUS_BRIDGE_V else R.CANAL_STATUS_BRIDGE_H
     let o := if vert then [2, 3, 0, 1] else [1, 0, 3, 2]
     rd s (pgCanal d) f ≠ 0 → ∃ u, EndsAs (.bridgeLockLost d vert) s u ∧ rd u (pgCanal d) f = 0 ∧
       rd u (pgCanal (o.getD d.val 0)) f = 0 ∧ bitSet (rd u (pgCanal d) R.HEADER_ERR_STAT_ERR) 2 = true ∧
       rd u pgEmb R.EMB_STATUS_SAFE = 1 ∧ (rd s pgEmb R.EMB_STATUS_SAFE = 0 → u.stopAll = true ∧ alertN u = true)) ∧
   ∀ s : State, mainOn s = true → s.rst.held = false →
     (∃ u, EndsAs (.mgmtMemoryError true) s u ∧ bitSet (rd u pgMgmt R.HEADER_ERR_STAT_ERR) 1 = true ∧
       rd u pgEmb R.EMB_STATUS_SAFE = 1 ∧ (rd s pgEmb R.EMB_STATUS_SAFE = 0 → u.stopAll = true ∧ alertN u = true)) ∧
     ∃ u, EndsAs (.mgmtMemoryError false) s u ∧ bitSet (rd u pgMgmt R.HEADER_ERR_STAT_ERR) 0 = true ∧
       rd u pgMgmt R.MGMT_MGMT_CE_COUNT = satAdd R.MGMT_MGMT_CE_COUNT.width (rd s pgMgmt R.MGMT_MGMT_CE_COUNT) 1 ∧
       u.stopAll = s.stopAll ∧ u.dram = s.dram)

/-! ### Resets, retained memory and every step -/

/-- RESET_N resets the module: every register field that a MODULE reset or a narrower one clears is at its after-reset
value, and power-on does the same for every field outside the ones that keep RST.CAUSE and the rail's own status; a
RESET_N while another reset is held changes neither that reset nor what it cleared (R61, R446, R447, R448). -/
def Obligations.ResetsClearTheirFields : Prop :=
  ∀ s : State,
    (Quiet s →
      (∃ t, exec (.resetN true) s = .next t ∧ HasReset 4 2 s t ∧
        ∀ (p : Page) (f : RegField) (n : Nat), f ∈ fieldsOf p.cls → fieldFiled (fieldKey p f n) = some (p, f) →
          reachRank (fieldReach p f) ≤ 2 → rdi t p f n = resetOf f n) ∧
      ∃ t, exec .powerOn s = .next t ∧ HasReset 0 4 s t ∧ rd t pgRst R.RST_CAUSE = 1 ∧ rd t pgAon R.AON_STATUS_AUX_OK = 1 ∧
        ∀ (p : Page) (f : RegField) (n : Nat), f ∈ fieldsOf p.cls → fieldFiled (fieldKey p f n) = some (p, f) →
          reachRank (fieldReach p f) ≤ 4 → fieldKey p f n ≠ fieldKey pgRst R.RST_CAUSE 0 →
          fieldKey p f n ≠ fieldKey pgAon R.AON_STATUS_AUX_OK 0 → rdi t p f n = resetOf f n) ∧
    (s.rst.held = true → 2 ≤ s.rst.pend → rd s pgRst R.RST_STATUS_COMEOUT = 0 → s.rst.asserted.contains 4 = false →
      ∃ t, exec (.resetN true) s = .next t ∧ t.rst = { s.rst with asserted := s.rst.asserted ++ [4] } ∧
        { t with rst := s.rst, regs := s.regs } = s)

/-- The retained SRAM: SEAL begins the CRC-32C of the whole SRAM, which its completion leaves in RET_CRC with SEALED;
a later write clears SEALED; step 2 of a SUPPLY or MODULE come-out sets VALID where the CRC of a sealed SRAM matches,
else clears it and raises RET_CRC; a FULL reset zeroes the SRAM and clears SEALED. SEAL and its end are two commands
(the model's choice, log 2; R453, R463). -/
def Obligations.RetainedSramIsSealed : Prop :=
  ∀ s : State,
    let crc (t : State) : Nat := crc32c ((List.range 16384).flatMap (fun i => bytesOf 4 (mapGet 0 t.retained i)))
    (∀ p : Path, Reaches p pgRst s →
      (∃ t, exec (.seal p) s = .next t ∧ t.boot.sealing = true ∧ t.retained = s.retained ∧ t.regs = s.regs) ∧
      ∀ v : Word, ∃ t, exec (.retData p true v) s = .next t ∧ rd t pgRst R.RST_RET_STATUS_SEALED = 0 ∧
        mapGet 0 t.retained (rd s pgRst R.RST_RET_ADDR) = v.toNat) ∧
    (s.boot.sealing = true → ∃ t, exec .sealComplete s = .next t ∧ rd t pgRst R.RST_RET_STATUS_SEALED = 1 ∧
      rd t pgRst R.RST_RET_CRC = crc s % 2 ^ 32 ∧ t.retained = s.retained ∧ t.dram = s.dram ∧ t.cores = s.cores) ∧
    (∀ i : ComeoutInput, rd s pgRst R.RST_STATUS_COMEOUT = 1 → s.rst.reach = 2 ∨ s.rst.reach = 3 → nextStep s = 2 →
      s.rst.again = 0 → s.pins.main = true → s.boot.mailbox = false → i.d0 = true ∨ i.d2 = true →
      rd s pgRst R.RST_RET_STATUS_SEALED = 1 → ∃ u, EndsAs (.comeout i) s u ∧ u.retained = s.retained ∧
        rd u pgRst R.RST_RET_STATUS_SEALED = 1 ∧
        (if crc s = rd s pgRst R.RST_RET_CRC then rd u pgRst R.RST_RET_STATUS_VALID = 1
         else rd u pgRst R.RST_RET_STATUS_VALID = 0 ∧ bitSet (rd u pgRst R.HEADER_ERR_STAT_ERR) 2 = true)) ∧
    (Quiet s → ∃ t, exec .powerOn s = .next t ∧ t.retained = [] ∧ rd t pgRst R.RST_RET_STATUS_SEALED = 0)

/-- A step with no command waiting is one local tick of 10 ns (the model's choice, log 1): TICK advances by one, the
32.768 kHz count of the always-on domain carries its fraction, and nothing of cores, engines, links, device DRAM, quay
store or host memory changes (R54, R55). -/
def Obligations.IdleStepsTick : Prop :=
  ∀ s : State, s.pending = [] → ∃ t, step s = .next t ∧ t.pending = [] ∧ t.dram = s.dram ∧ t.cores = s.cores ∧
    t.host = s.host ∧ t.quay = s.quay ∧ t.engines = s.engines ∧ t.links = s.links ∧
    (s.rst.held = false → rd s pgRst R.RST_STATUS_COMEOUT = 0 → rd s pgPwr R.PWR_STATUS_STATE ≠ 3 →
      rd t pgMgmt R.MGMT_TICK = (rd s pgMgmt R.MGMT_TICK + 1) % 2 ^ R.MGMT_TICK.width ∧ t.rst = s.rst) ∧
    (s.rst.held = true → 2 ≤ s.rst.pend → rd t pgMgmt R.MGMT_TICK = rd s pgMgmt R.MGMT_TICK) ∧
    (s.rst.held = false →
      if 100000000 ≤ s.aonPart + 32768 then t.aonPart = s.aonPart + 32768 - 100000000 ∧
        rd t pgAon R.AON_TIME = (rd s pgAon R.AON_TIME + 1) % 2 ^ R.AON_TIME.width
      else t.aonPart = s.aonPart + 32768 ∧ rd t pgAon R.AON_TIME = rd s pgAon R.AON_TIME) ∧
    (s.rst.held = true → s.rst.pend = 4 → t = s)

/-- The state after power-on: every memory is in its canonical form with nothing listed, no command waits, every
register reads as its table's after-reset value, and the FULL reset of the power-on source is held, with RST.CAUSE 1
(R446 to R448, R480). -/
def Obligations.ResetIsLegal : Prop :=
  StaysLegal State.reset ∧ Memory.wf State.reset = true ∧ State.reset.pending = [] ∧ State.reset.rst.asserted = [0] ∧
    State.reset.rst.held = true ∧ State.reset.rst.pend = 4 ∧ rd State.reset pgRst R.RST_CAUSE = 1 ∧
    (∀ (p : Page) (f : RegField) (n : Nat), rdi State.reset p f n = resetOf f n) ∧
    (∀ a, mapGet 0 State.reset.retained a = 0) ∧
    ∃ t, exec .resetRelease State.reset = .next t ∧ ComesOut 4 t

/-- What every step keeps: the quay store and host memory in canonical form, every reset held, under way or next of
one of the five reaches, the TAP on one of its instructions, a dynamic address of seven bits (R208, R448, R450, R467,
R503). -/
def Obligations.StepsStayLegal : Prop := ∀ s t : State, StaysLegal s → step s = .next t → StaysLegal t
end

