-- ==== Sys2Proof/Laws/SMap.lean ====
section
/-!
SUPPORT. The laws of sparse maps: what a key reads as after a change at the same or at another key, and that a change
keeps the canonical form. None needs the form as a premise but those that conclude it.
-/

namespace Sys2Proof.Machine

universe u

variable {β : Type u}

/-- A read with a default is the listed value, if any, else the default. -/
theorem mapGet_eq_find (d : β) (m : List (Nat × β)) (k : Nat) : mapGet d m k = (mapFind m k).getD d := by
  induction m with
  | nil => rfl
  | cons e m ih => obtain ⟨a, w⟩ := e; simp only [mapGet, mapFind]; split <;> simp [ih]

theorem mapFind_del_ne (m : List (Nat × β)) (k j : Nat) (h : j ≠ k) : mapFind (mapDel m k) j = mapFind m j := by
  induction m with
  | nil => rfl
  | cons e m ih =>
    obtain ⟨a, v⟩ := e
    simp only [mapDel, mapFind]
    split
    · subst_vars; simp [ih, Ne.symm h]
    · simp [mapFind, ih]

@[simp] theorem mapFind_del_self (m : List (Nat × β)) (k : Nat) : mapFind (mapDel m k) k = none := by
  induction m with
  | nil => rfl
  | cons e m ih => obtain ⟨a, w⟩ := e; simp only [mapDel]; split <;> simp [mapFind, *]

theorem mapFind_ins_ne (m : List (Nat × β)) (k j : Nat) (v : β) (h : j ≠ k) : mapFind (mapIns m k v) j = mapFind m j := by
  induction m with
  | nil => simp [mapIns, mapFind, Ne.symm h]
  | cons e m ih => obtain ⟨a, w⟩ := e; simp only [mapIns]; split <;> simp [mapFind, ih, Ne.symm h]

theorem mapFind_ins_self (m : List (Nat × β)) (k : Nat) (v : β) (h : mapFind m k = none) :
    mapFind (mapIns m k v) k = some v := by
  induction m with
  | nil => simp [mapIns, mapFind]
  | cons e m ih =>
    obtain ⟨a, w⟩ := e
    simp only [mapFind] at h
    split at h
    · cases h
    · simp only [mapIns]; split <;> simp [mapFind, *]

theorem mapFind_put_ne (m : List (Nat × β)) (k j : Nat) (v : β) (h : j ≠ k) : mapFind (mapPut m k v) j = mapFind m j := by
  simp [mapPut, mapFind_ins_ne, mapFind_del_ne, h]

@[simp] theorem mapFind_put_self (m : List (Nat × β)) (k : Nat) (v : β) : mapFind (mapPut m k v) k = some v := by
  simp [mapPut, mapFind_ins_self]

theorem mapFind_drop (m : List (Nat × β)) (p : Nat → Bool) (k : Nat) :
    mapFind (mapDrop m p) k = if p k then none else mapFind m k := by
  induction m with
  | nil => simp [mapDrop, mapFind]
  | cons e m ih =>
    obtain ⟨a, v⟩ := e
    simp only [mapDrop] at ih
    by_cases ha : a = k
    · subst ha; cases hp : p a <;> simp [mapDrop, mapFind, hp] at *; exact ih
    · cases hp : p a <;> simp [mapDrop, mapFind, hp, ha, ih]

variable [DecidableEq β]

theorem mapFind_set_ne (d : β) (m : List (Nat × β)) (k j : Nat) (v : β) (h : j ≠ k) :
    mapFind (mapSet d m k v) j = mapFind m j := by
  unfold mapSet; split <;> simp [mapFind_del_ne, mapFind_ins_ne, h]

/-- A key reads as what was written to it last. -/
@[simp] theorem mapGet_set_self (d : β) (m : List (Nat × β)) (k : Nat) (v : β) : mapGet d (mapSet d m k v) k = v := by
  rw [mapGet_eq_find]; unfold mapSet; split
  · subst_vars; simp
  · simp [mapFind_ins_self]

/-- Every other key reads as before, whatever its default. -/
theorem mapGet_set_ne (d d' : β) (m : List (Nat × β)) (k j : Nat) (v : β) (h : j ≠ k) :
    mapGet d (mapSet d' m k v) j = mapGet d m j := by
  simp [mapGet_eq_find, mapFind_set_ne, h]

end Sys2Proof.Machine
end

