-- ==== Sys2Proof/Laws/State.lean ====
section
/-!
SUPPORT. One lemma per field and update of the state: what a read gives after a named update.
-/

namespace Sys2Proof.Machine

/-! ### Register fields -/

@[simp] theorem rdi_wri_self (p : Page) (f : RegField) (n v : Nat) (s : State) : rdi (wri p f n v s) p f n = v % 2 ^ f.width := by
  simp [rdi, wri]

theorem rdi_wri_ne (p q : Page) (f g : RegField) (n m v : Nat) (s : State) (h : fieldKey q g m ≠ fieldKey p f n) :
    rdi (wri p f n v s) q g m = rdi s q g m := by
  simp [rdi, wri, mapGet_set_ne, h]

@[simp] theorem rd_wr_self (p : Page) (f : RegField) (v : Nat) (s : State) : rd (wr p f v s) p f = v % 2 ^ f.width := by
  simp [rd, wr]

theorem rd_wr_ne (p q : Page) (f g : RegField) (v : Nat) (s : State) (h : fieldKey q g 0 ≠ fieldKey p f 0) :
    rd (wr p f v s) q g = rd s q g := by
  simp [rd, wr, rdi_wri_ne, h]

@[simp] theorem bump_eq (p : Page) (f : RegField) (d : Nat) (s : State) : rd (bump p f d s) p f = (rd s p f + d) % 2 ^ f.width := by
  simp [bump]

/-- A register update changes no other field of the state. -/
theorem wri_only_regs (p : Page) (f : RegField) (n v : Nat) (s : State) : { wri p f n v s with regs := s.regs } = s := rfl

/-- A register update leaves every other filed field as it was. -/
theorem wri_keeps (p : Page) (f : RegField) (n v : Nat) (s : State) (key : Nat) (h : key ≠ fieldKey p f n) :
    mapFind (wri p f n v s).regs key = mapFind s.regs key := mapFind_set_ne _ _ _ _ _ h

/-! ### Cores -/

@[simp] theorem coreOf_setCore (c : Nat) (k : Core) (s : State) : coreOf (setCore c k s) c = k := mapGet_set_self ..

theorem coreOf_setCore_ne (c d : Nat) (k : Core) (s : State) (h : d ≠ c) : coreOf (setCore c k s) d = coreOf s d :=
  mapGet_set_ne _ _ _ _ _ _ h

@[simp] theorem coreOf_modCore (c : Nat) (f : Core → Core) (s : State) : coreOf (modCore c f s) c = f (coreOf s c) := by
  simp [modCore]

@[simp] theorem coreOf_wri (p : Page) (f : RegField) (n v : Nat) (s : State) (c : Nat) : coreOf (wri p f n v s) c = coreOf s c := rfl

@[simp] theorem coreOf_wr (p : Page) (f : RegField) (v : Nat) (s : State) (c : Nat) : coreOf (wr p f v s) c = coreOf s c := rfl

@[simp] theorem rd_setCore (c : Nat) (k : Core) (s : State) (p : Page) (f : RegField) : rd (setCore c k s) p f = rd s p f := rfl

@[simp] theorem rd_modCore (c : Nat) (g : Core → Core) (s : State) (p : Page) (f : RegField) : rd (modCore c g s) p f = rd s p f := rfl

@[simp] theorem rdi_modCore (c : Nat) (g : Core → Core) (s : State) (p : Page) (f : RegField) (n : Nat) :
    rdi (modCore c g s) p f n = rdi s p f n := rfl

/-! ### Units -/

@[simp] theorem sluiceOf_setSluice (r : Nat) (k : Sluice) (s : State) : sluiceOf (setSluice r k s) r = k := mapGet_set_self ..

@[simp] theorem engOf_setEng (e : Nat) (k : Engine) (s : State) : engOf (setEng e k s) e = k := mapGet_set_self ..

@[simp] theorem linkOf_setLink (k : Nat) (l : LinkSt) (s : State) : linkOf (setLink k l s) k = l := mapGet_set_self ..

@[simp] theorem auditOf_setAudit (c : Nat) (a : AuditSt) (s : State) : auditOf (setAudit c a s) c = a := mapGet_set_self ..

@[simp] theorem ctxOf_setCtx (n : Nat) (x : Ctx) (s : State) : ctxOf (setCtx n x s) n = some x := mapFind_put_self ..

/-! ### Fields that an update does not name -/

@[simp] theorem wri_dram (p : Page) (f : RegField) (n v : Nat) (s : State) : (wri p f n v s).dram = s.dram := rfl
@[simp] theorem wri_cores (p : Page) (f : RegField) (n v : Nat) (s : State) : (wri p f n v s).cores = s.cores := rfl
@[simp] theorem wri_pending (p : Page) (f : RegField) (n v : Nat) (s : State) : (wri p f n v s).pending = s.pending := rfl
@[simp] theorem wri_links (p : Page) (f : RegField) (n v : Nat) (s : State) : (wri p f n v s).links = s.links := rfl
@[simp] theorem wri_ctxs (p : Page) (f : RegField) (n v : Nat) (s : State) : (wri p f n v s).ctxs = s.ctxs := rfl
@[simp] theorem wri_rst (p : Page) (f : RegField) (n v : Nat) (s : State) : (wri p f n v s).rst = s.rst := rfl
@[simp] theorem bindAt_putBind (i : Nat) (b : Binding) (s : State) : bindAt (putBind i b s) i = some b := mapFind_put_self ..
@[simp] theorem wri_binds (p : Page) (f : RegField) (n v : Nat) (s : State) : (wri p f n v s).binds = s.binds := rfl
@[simp] theorem wri_hostPoison (p : Page) (f : RegField) (n v : Nat) (s : State) : (wri p f n v s).hostPoison = s.hostPoison := rfl
@[simp] theorem wri_metUe (p : Page) (f : RegField) (n v : Nat) (s : State) : (wri p f n v s).metUe = s.metUe := rfl
@[simp] theorem wri_pinHeld (p : Page) (f : RegField) (n v : Nat) (s : State) : (wri p f n v s).pinHeld = s.pinHeld := rfl
@[simp] theorem wri_behind (p : Page) (f : RegField) (n v : Nat) (s : State) : (wri p f n v s).behind = s.behind := rfl
@[simp] theorem wri_mcast (p : Page) (f : RegField) (n v : Nat) (s : State) : (wri p f n v s).mcast = s.mcast := rfl
@[simp] theorem wri_mcastVia (p : Page) (f : RegField) (n v : Nat) (s : State) : (wri p f n v s).mcastVia = s.mcastVia := rfl
@[simp] theorem wri_crcDenied (p : Page) (f : RegField) (n v : Nat) (s : State) : (wri p f n v s).crcDenied = s.crcDenied := rfl
@[simp] theorem wri_quayWord0 (p : Page) (f : RegField) (n v : Nat) (s : State) : (wri p f n v s).quayWord0 = s.quayWord0 := rfl
@[simp] theorem wri_quayWord1 (p : Page) (f : RegField) (n v : Nat) (s : State) : (wri p f n v s).quayWord1 = s.quayWord1 := rfl
@[simp] theorem wri_polDue (p : Page) (f : RegField) (n v : Nat) (s : State) : (wri p f n v s).polDue = s.polDue := rfl
@[simp] theorem setCore_regs (c : Nat) (k : Core) (s : State) : (setCore c k s).regs = s.regs := rfl
@[simp] theorem setCore_dram (c : Nat) (k : Core) (s : State) : (setCore c k s).dram = s.dram := rfl
@[simp] theorem setCore_pending (c : Nat) (k : Core) (s : State) : (setCore c k s).pending = s.pending := rfl
@[simp] theorem setSluice_regs (r : Nat) (k : Sluice) (s : State) : (setSluice r k s).regs = s.regs := rfl
@[simp] theorem setEng_regs (e : Nat) (k : Engine) (s : State) : (setEng e k s).regs = s.regs := rfl
@[simp] theorem setLink_regs (k : Nat) (l : LinkSt) (s : State) : (setLink k l s).regs = s.regs := rfl
@[simp] theorem setCtx_regs (n : Nat) (x : Ctx) (s : State) : (setCtx n x s).regs = s.regs := rfl

end Sys2Proof.Machine
end

