-- ==== Sys2Proof/Laws/Core.lean ====
section
/-!
SUPPORT. What issue on a core can do: an undisturbed issue runs the instruction's body, a check that finds nothing goes
on, and a retirement changes the core and its event counters alone.
-/

namespace Sys2Proof.Machine

theorem foldUpTo_induct {σ : Type} (P : σ → Prop) (n : Nat) (f : Nat → σ → σ) (h : ∀ i s, i < n → P s → P (f i s)) :
    ∀ s, P s → P (foldUpTo n f s) := by
  intro s hs
  unfold foldUpTo
  have hl : ∀ i ∈ List.range n, i < n := by simp
  generalize List.range n = l at hl
  induction l generalizing s with
  | nil => exact hs
  | cons a l ih => exact ih _ (h _ _ (hl a (by simp)) hs) (fun i hi => hl i (by simp [hi]))

theorem coreAlone_refl (c : Nat) (s : State) : CoreAlone c s s := ⟨rfl, fun _ _ => rfl, fun _ _ => rfl⟩

theorem coreAlone_trans {c : Nat} {s t u : State} (h : CoreAlone c s t) (g : CoreAlone c t u) : CoreAlone c s u := by
  obtain ⟨a1, a2, a3⟩ := h
  obtain ⟨b1, b2, b3⟩ := g
  refine ⟨?_, fun d h => (b2 d h).trans (a2 d h), fun k h => (b3 k h).trans (a3 k h)⟩
  unfold SameButCores at *
  rw [← b1] at a1
  exact a1

theorem setCore_alone (c : Nat) (k : Core) (s : State) : CoreAlone c s (setCore c k s) :=
  ⟨rfl, fun _ h => coreOf_setCore_ne _ _ _ _ h, fun _ _ => rfl⟩

/-- Counting a core's event leaves everything but the core's own counters. -/
theorem countCore_alone (c e d : Nat) (s t : State) (h : CoreAlone c s t) :
    CoreAlone c s (countCore c e d t) ∧ coreOf (countCore c e d t) c = coreOf t c := by
  have hc : countCore c e d t = foldUpTo 32 (fun i u =>
      if selMode (pgCore c) (rdi u (pgCore c) R.CORE_EVT_SEL i) = 1 ∧
          selCounts (pgCore c) (rdi u (pgCore c) R.CORE_EVT_SEL i) e 0 (coreOf t c).ctx then
        bumpi (pgCore c) R.CORE_EVT_CNT i d u else u) t := rfl
  rw [hc]
  refine foldUpTo_induct (fun u => CoreAlone c s u ∧ coreOf u c = coreOf t c) _ _ ?_ _ ⟨h, rfl⟩
  rintro i u hi ⟨⟨h1, h2, h3⟩, h4⟩
  split
  · refine ⟨⟨h1, h2, ?_⟩, h4⟩
    intro key hk
    have : key ≠ fieldKey (pgCore c) R.CORE_EVT_CNT i := by
      rintro rfl
      simp [isCounter, pgCore, counterRows] at hk
      exact hk i hi rfl
    exact (mapFind_set_ne _ _ _ _ _ this).trans (h3 key hk)
  · exact ⟨⟨h1, h2, h3⟩, h4⟩

/-- With nothing armed, a check on a core's page answers what it found. -/
theorem checkFor_quiet (c bit : Nat) (found : Bool) (s : State) (h : rd s (pgCore c) R.HEADER_ERR_INJ_ARM = 0) :
    checkFor (pgCore c) bit found s = (found, s) := by
  have : injArmed s (pgCore c) bit = false := by
    simp only [injArmed, headPage, pgCore, reduceCtorEq, if_false] at *
    rw [h]
    rfl
  simp [checkFor, this]

/-- A check that finds nothing goes on. -/
theorem coreCheck_quiet (c bit : Nat) (w : DWord) (s : State) (ok : State → State)
    (h : rd s (pgCore c) R.HEADER_ERR_INJ_ARM = 0) : coreCheck c bit w false s ok = ok s := by
  simp [coreCheck, checkFor_quiet _ _ _ _ h]

/-- An undisturbed issue runs the instruction's body, a passed breakpoint spent. -/
theorem issue_runs (c : CoreIx) (w : DWord) (body : State → State) (s : State) (h : Issues c s) :
    issue false c w body s = body (modCore c (fun k => { k with bpPass := false }) s) := by
  obtain ⟨h1, h2, h3, h4, h5⟩ := h
  have hb : (!(coreOf s c).bpPass && rd s (pgCore c) R.CORE_DBG_BP_EN == 1 &&
      rd s (pgCore c) R.CORE_DBG_BP_PC == (coreOf s c).seq.pc) = false := by
    rcases h2 with h | h | h <;> simp [h]
  unfold issue
  simp only [h1, hb, Bool.not_true, Bool.not_false, Bool.true_and, if_false, Bool.false_eq_true, h4,
    decide_eq_false (Nat.not_lt.mpr h3)]
  rw [coreCheck_quiet _ _ _ _ _ (by exact h5), checkFor_quiet _ _ _ _ (by exact h5)]
  simp

/-- A retirement after an undisturbed issue: the core changed and moved on, all else kept but its event counters. -/
theorem retire_alone (c : CoreIx) (f : Core → Core) (s : State) :
    let t := retire c f (modCore c (fun k => { k with bpPass := false }) s)
    CoreAlone c s t ∧ coreOf t c = stepPc (f (atIssue s c)) := by
  have h : CoreAlone c s (Sys2Proof.Machine.advance c f (modCore c (fun k => { k with bpPass := false }) s)) :=
    coreAlone_trans (setCore_alone _ _ _) (setCore_alone _ _ _)
  have g := countCore_alone c 1 1 s _ h
  exact ⟨g.1, g.2.trans (by simp [Sys2Proof.Machine.advance, modCore, atIssue])⟩

end Sys2Proof.Machine
end

