-- ==== Sys2Proof/Laws/Memory.lean ====
section
/-!
SUPPORT. Every operation on a memory keeps its canonical form: cells in rising order of address, none listed that reads
as it would unlisted.
-/

namespace Sys2Proof.Machine

/-! ### Cell lists -/

theorem keysAbove_mono {β : Type} {k j : Nat} {m : List (Nat × β)} (h : k ≤ j) (hm : keysAbove j m = true) :
    keysAbove k m = true := by
  induction m with
  | nil => rfl
  | cons e m ih => simp [keysAbove] at *; exact ⟨by omega, ih hm.2⟩

theorem keysAbove_filter {β : Type} {k : Nat} {m : List (Nat × β)} (p : Nat × β → Bool) (hm : keysAbove k m = true) :
    keysAbove k (m.filter p) = true := by
  induction m with
  | nil => rfl
  | cons e m ih =>
    simp only [keysAbove, Bool.and_eq_true, List.filter_cons] at *
    split <;> simp_all [keysAbove]

theorem mapDel_filter {β : Type} (m : List (Nat × β)) (k : Nat) : mapDel m k = m.filter (fun e => decide (e.1 ≠ k)) := by
  induction m with
  | nil => rfl
  | cons e m ih => simp only [mapDel, List.filter_cons]; split <;> simp_all

theorem keysAbove_ins {β : Type} {k j : Nat} {v : β} {m : List (Nat × β)} (h : j < k) (hm : keysAbove j m = true) :
    keysAbove j (mapIns m k v) = true := by
  induction m with
  | nil => simp [mapIns, keysAbove, h]
  | cons e m ih => simp only [keysAbove, Bool.and_eq_true, mapIns] at *; split <;> simp_all [keysAbove]

/-- Dropped cells leave the form, also where the unlisted values of dropped addresses change. -/
theorem cellsWf_filter {d e : Nat → Byte} {m : List Host.Cell} (p : Host.Cell → Bool) (hm : cellsWf d m = true)
    (h : ∀ c ∈ m, p c = true → e c.1 = d c.1) : cellsWf e (m.filter p) = true := by
  induction m with
  | nil => rfl
  | cons c m ih =>
    simp only [cellsWf, Bool.and_eq_true, List.filter_cons] at *
    have ih' := ih hm.2 (fun c hc => h c (by simp [hc]))
    split
    · rename_i hp
      simp only [cellsWf, Bool.and_eq_true]
      refine ⟨⟨keysAbove_filter p hm.1.1, ?_⟩, ih'⟩
      rw [h c (by simp) hp]; exact hm.1.2
    · exact ih'

theorem cellsWf_drop {d e : Nat → Byte} {m : List Host.Cell} (p : Nat → Bool) (hm : cellsWf d m = true)
    (h : ∀ a, p a = false → e a = d a) : cellsWf e (mapDrop m p) = true :=
  cellsWf_filter _ hm (fun c _ hc => h c.1 (by simpa using hc))

theorem cellsWf_ins {d : Nat → Byte} {m : List Host.Cell} {k : Nat} {v : Byte} (hm : cellsWf d m = true) (hv : v ≠ d k)
    (hk : ∀ c ∈ m, c.1 ≠ k) : cellsWf d (mapIns m k v) = true := by
  induction m with
  | nil => simp [mapIns, cellsWf, keysAbove, hv]
  | cons c m ih =>
    obtain ⟨a, w⟩ := c
    have hm0 := hm
    simp only [cellsWf, Bool.and_eq_true, mapIns] at *
    have ha : a ≠ k := hk (a, w) (by simp)
    split
    · simp only [cellsWf, Bool.and_eq_true, keysAbove, decide_eq_true_eq] at *
      exact ⟨⟨⟨by assumption, keysAbove_mono (by omega) hm.1.1⟩, hv⟩, hm⟩
    · simp only [cellsWf, Bool.and_eq_true]
      exact ⟨⟨keysAbove_ins (by omega) hm.1.1, hm.1.2⟩, ih hm.2 (fun c hc => hk c (by simp [hc]))⟩

/-- Writing a byte keeps the form. -/
theorem cellsWf_set {d : Nat → Byte} {m : List Host.Cell} {k : Nat} {v : Byte} (hm : cellsWf d m = true) :
    cellsWf d (mapSet (d k) m k v) = true := by
  have hd : cellsWf d (mapDel m k) = true := by rw [mapDel_filter]; exact cellsWf_filter _ hm (fun _ _ _ => rfl)
  unfold mapSet
  split
  · exact hd
  · refine cellsWf_ins hd ‹_› ?_
    intro c hc; rw [mapDel_filter] at hc; simpa using (List.mem_filter.mp hc).2

theorem foldl_keeps {α σ : Type} (P : σ → Prop) (f : σ → α → σ) (h : ∀ s a, P s → P (f s a)) :
    ∀ (l : List α) (s : σ), P s → P (l.foldl f s)
  | [], _, hs => hs
  | a :: l, s, hs => foldl_keeps P f h l (f s a) (h s a hs)

/-! ### Device DRAM -/

/-- Device DRAM in canonical form. -/
def DramWf (s : State) : Prop := cellsWf (dramUnlisted s) s.dram = true

theorem dramWf_of_eq {s t : State} (h : DramWf s) (hd : t.dram = s.dram) (ha : t.dramAny = s.dramAny) : DramWf t := by
  have : dramUnlisted t = dramUnlisted s := by funext q; simp [dramUnlisted, ha]
  unfold DramWf; rw [this, hd]; exact h

theorem putByte_wf (a b : Nat) (s : State) (h : DramWf s) : DramWf (putByte a b s) := by
  unfold putByte
  split
  · split
    · exact h
    · exact cellsWf_set (d := dramUnlisted s) h
  · exact h

theorem putBytes_wf (bs : List Nat) : ∀ (a : Nat) (s : State), DramWf s → DramWf (putBytes a bs s) := by
  induction bs with
  | nil => exact fun _ _ h => h
  | cons b bs ih => exact fun a s h => ih _ _ (putByte_wf a b s h)

theorem countE_dram (p : Page) (e src d : Nat) (c : Option Nat) (s : State) :
    (countE p e src d c s).dram = s.dram ∧ (countE p e src d c s).dramAny = s.dramAny := by
  unfold countE
  split
  · exact ⟨rfl, rfl⟩
  · split
    · exact ⟨rfl, rfl⟩
    · unfold foldUpTo
      refine foldl_keeps (fun t : State => t.dram = s.dram ∧ t.dramAny = s.dramAny) _ ?_ _ _ ⟨rfl, rfl⟩
      intro t i ht
      dsimp only
      split
      · exact ht
      · exact ht

theorem countWr_wf (a n k : Nat) (s : State) (h : DramWf s) : DramWf (countWr a n k s) := by
  unfold countWr
  split
  · exact h
  · exact dramWf_of_eq h (countE_dram ..).1 (countE_dram ..).2

theorem markBlock_wf (a n k : Nat) (p : Bool) (s : State) (h : DramWf s) : DramWf (markBlock a n p k s) := by
  unfold markBlock
  split
  · exact h
  · split
    · exact dramWf_of_eq h rfl rfl
    · split
      · exact dramWf_of_eq h rfl rfl
      · exact h

/-- A write to device DRAM keeps the form. -/
theorem dramWrite_wf (a : Nat) (bs : List Nat) (p : Bool) (s : State) (h : DramWf s) : DramWf (dramWrite a bs p s) :=
  dramWf_of_eq (foldl_keeps DramWf _ (fun t b ht => countWr_wf _ _ b _ (markBlock_wf _ _ b p t ht)) _ _
    (putBytes_wf bs a s h)) rfl rfl

theorem dramPutWord_wf (a v : Nat) (s : State) (h : DramWf s) : DramWf (dramPutWord a v s) := dramWrite_wf _ _ _ _ h

/-- A block left with free bytes. -/
theorem blockFree_wf (q i : Nat) (s : State) (h : DramWf s) : DramWf (blockFree q i s) := by
  show cellsWf (dramUnlisted (blockFree q i s)) (mapDrop s.dram (fun a => a / 64 == q)) = true
  refine cellsWf_drop _ h ?_
  intro a ha
  have hq : a / 64 ≠ q := by simpa using ha
  simp [dramUnlisted, blockFree, mapGet_set_ne _ _ _ _ _ _ hq]

theorem dramScramble_wf (a n : Nat) (s : State) (h : DramWf s) : DramWf (dramScramble a n s) := by
  unfold dramScramble foldUpTo
  refine foldl_keeps DramWf _ ?_ _ _ h
  intro t i ht
  dsimp only
  have hw := dramWrite_wf (a + 64 * i) (List.replicate 64 0) false t ht
  split
  · exact dramWf_of_eq (blockFree_wf _ _ _ hw) rfl rfl
  · exact hw

/-- Whole blocks returned to zeros. -/
theorem dramDrop_wf (s : State) (hit : Nat → Bool) (any : Nat → Bool) (hb : ∀ a, any (a / 64) = hit a) (h : DramWf s) :
    DramWf { s with dram := mapDrop s.dram hit, dramAny := mapDrop s.dramAny any } := by
  refine cellsWf_drop _ h ?_
  intro a ha
  have : mapGet 0 (mapDrop s.dramAny any) (a / 64) = mapGet 0 s.dramAny (a / 64) := by
    simp [mapGet_eq_find, mapFind_drop, hb, ha]
  simp [dramUnlisted, this]

/-- The sections of a released set zeroed. -/
theorem zeroSects_wf (mask : Nat) (s : State) (h : DramWf s) : DramWf (zeroSects mask s) :=
  dramWf_of_eq (dramDrop_wf s _ _ (fun a => by rw [Nat.div_div_eq_div_mul]) h) rfl rfl

/-- Whole blocks zeroed for a record. -/
theorem zeroBytes_wf (a n : Nat) (s : State) (ha : a % 64 = 0) (hn : n % 64 = 0) (h : DramWf s) : DramWf (zeroBytes a n s) := by
  unfold zeroBytes
  dsimp only
  refine dramWf_of_eq (dramDrop_wf s _ _ ?_ h) rfl rfl
  intro q
  have h1 : q / 64 * 64 / 4096 = q / 4096 := by omega
  simp only [h1]
  split
  · rename_i g hg
    have hm := List.mem_of_find?_eq_some hg
    simp only [List.mem_filterMap, Option.map_eq_some_iff] at hm
    obtain ⟨i, -, c, -, rfl⟩ := hm
    apply decide_eq_decide.mpr
    dsimp only
    omega
  · rfl

/-- The channels that a map-out takes away. -/
theorem mapoutDrop_wf (chans : List Nat) (s : State) (h : DramWf s) :
    DramWf { s with dram := mapDrop s.dram (fun k => chans.contains (k / 2 ^ 31)),
                    dramAny := mapDrop s.dramAny (fun b => chans.contains (b * 64 / 2 ^ 31)) } :=
  dramDrop_wf s _ _ (fun q => by rw [show q / 64 * 64 / 2 ^ 31 = q / 2 ^ 31 by omega]) h

/-! ### Scratch -/

/-- A core's scratch in canonical form. -/
def ScrWf (k : Core) : Prop := cellsWf (scrUnlisted k) k.scr = true

theorem scrPut_wf (bs : List Nat) : ∀ (a : Nat) (k : Core), ScrWf k → ScrWf (scrPut a bs k) := by
  induction bs with
  | nil => exact fun _ _ h => h
  | cons b bs ih => exact fun a k h => ih _ _ (cellsWf_set (d := scrUnlisted k) h)

/-- A write to scratch keeps the form. -/
theorem scrWrite_wf (a : Nat) (bs : List Nat) (p : Bool) (k : Core) (h : ScrWf k) : ScrWf (scrWrite a bs p k) := by
  unfold scrWrite
  dsimp only
  refine foldl_keeps ScrWf _ ?_ _ _ (scrPut_wf bs a k h)
  exact fun _ _ h => h

theorem scrWriteMarked_wf (a : Nat) (bs : List Nat) (bad : List Bool) (k : Core) (h : ScrWf k) :
    ScrWf (scrWriteMarked a bs bad k) := by
  unfold scrWriteMarked
  refine foldl_keeps ScrWf _ ?_ _ _ (scrWrite_wf a bs false k h)
  intro k i hk
  split
  · exact hk
  · exact hk

/-! ### Host memory and the quay store -/

theorem hostPut_wf (bs : List Nat) : ∀ (o : Nat) (s : State), cellsWf (fun _ => 0#8) s.host = true →
    cellsWf (fun _ => 0#8) (hostPut o bs s).host = true := by
  induction bs with
  | nil => exact fun _ _ h => h
  | cons b bs ih => exact fun o s h => ih _ _ (cellsWf_set (d := fun _ => 0#8) h)

theorem quayPut_wf (bs : List Nat) : ∀ (o : Nat) (s : State), cellsWf (fun _ => 0#8) s.quay = true →
    cellsWf (fun _ => 0#8) (quayPut o bs s).quay = true := by
  induction bs with
  | nil => exact fun _ _ h => h
  | cons b bs ih => exact fun o s h => ih _ _ (cellsWf_set (d := fun _ => 0#8) h)

/-- The pages that a commit frees leave the form. -/
theorem quayClean_wf (m : List Host.Cell) (p : Nat → Bool) (h : cellsWf (fun _ => 0#8) m = true) :
    cellsWf (fun _ => 0#8) (mapDrop m p) = true := cellsWf_drop p h (fun _ _ => rfl)

/-! ### The machine -/

/-- After power-on every memory is in canonical form. -/
theorem reset_memory_wf : Memory.wf State.reset = true := rfl

end Sys2Proof.Machine
end

