-- ==== Sys2Proof/Tests/Slice0.lean ====
section
/-!
SUPPORT. The model's own tests: what the well-formedness checks refuse, one step on small states with results worked out
by hand from the rules, and for each statement that has hypotheses a state and operands that meet them together.
-/

namespace Sys2Proof.Tests

open Machine

set_option Elab.async false

/-! ### Small states -/

/-- A module that has come out of reset with its firmware and host link up, debug open, and section 0 of device DRAM over all
256 channels. -/
def live : State :=
  wr pgMgmt R.MGMT_STATUS_FW_RUNNING 1 (wr pgHlink R.HLINK_STATUS_STATE 3 (wr pgFuse R.FUSE_CFG_DEBUG_LEVEL 3 (wr (pgMemc 0) R.MEMC_SECT_MODE 1
    { State.reset with stopAll := false, pins := ⟨true, false, false, true⟩, rst := { State.reset.rst with asserted := [], pend := 0, held := false } })))

/-- A segment of 8 indices. -/
def seg8 : Seg := ⟨0, 0, 0, 8, false, 0⟩

/-- A core that runs a segment, with 5 in X1, 7 in X2 and all ones in X3. -/
def busy : Core := { Core.zero with cur := some 0, res := [(0, seg8)], seq := ⟨[(1, 5#64), (2, 7#64), (3, BitVec.ofNat 64 (2 ^ 64 - 1))], [], [], 0⟩ }

/-- The live module with core 0 as given. -/
def on (k : Core) : State := { live with cores := [(0, k)] }

/-- A register field set. -/
def withReg (p : Page) (f : RegField) (v : Nat) (s : State) : State := wr p f v s

/-- A core word of a class and operation with fields given as (lowest bit, value). -/
def word (cls op : Nat) (fs : List (Nat × Nat)) : DWord := BitVec.ofNat 64 (cls + op * 16 + (fs.map (fun f => f.2 * 2 ^ f.1)).sum)

/-- What holds of the next state that a command answers; false where it stops. -/
def after (o : Host.Outcome State Fault Refusal) (f : State → Bool) : Bool :=
  match o with
  | .next t => f t
  | _ => false

theorem after_next {o : Host.Outcome State Fault Refusal} {f : State → Bool} (h : after o f = true) : ∃ t, o = .next t := by
  cases o with
  | next t => exact ⟨t, rfl⟩
  | fault _ => cases h
  | refused _ => cases h

/-- An address found, from a Boolean check. -/
theorem found {o : Option Nat} {p : Nat → Bool} (h : o.any p = true) : ∃ q, o = some q ∧ p q = true := by
  cases o with
  | none => cases h
  | some q => exact ⟨q, rfl, h⟩

theorem mapGet_unlisted {β : Type} (d : β) (k : Nat) : ∀ m : List (Nat × β), (∀ e ∈ m, e.1 ≠ k) → mapGet d m k = d
  | [], _ => rfl
  | e :: m, h => by
    rw [mapGet, if_neg (h e (List.mem_cons_self ..))]
    exact mapGet_unlisted d k m (fun x hx => h x (List.mem_cons_of_mem _ hx))

/-- No injection is armed where no register of any page at ERR_INJ.ARM is listed. -/
theorem uninjected {s : State} (h : s.regs.all (fun e => e.1 % 2 ^ 20 != 0x2C * 64 + 8) = true) : Uninjected s := by
  intro p b
  have hk : ∀ e ∈ s.regs, e.1 ≠ fieldKey (headPage p) R.HEADER_ERR_INJ_ARM 0 := by
    intro e he hc
    have h1 := List.all_eq_true.mp h e he
    have h2 : fieldKey (headPage p) R.HEADER_ERR_INJ_ARM 0 % 2 ^ 20 = 0x2C * 64 + 8 := by
      simp only [fieldKey, wordKey, R.HEADER_ERR_INJ_ARM]; omega
    rw [hc, h2] at h1
    exact absurd h1 (by decide)
  have hr : rd s (headPage p) R.HEADER_ERR_INJ_ARM = 0 := mapGet_unlisted _ _ _ hk
  simp [injArmed, hr]

/-! ### What is not well formed -/

theorem test_wf_core_word : Instr.wf (.segend 0 (word 0 2 [])) = false ∧ Instr.wf (.segend 0 (word 0 1 [])) = true := by decide +kernel
theorem test_wf_nop_word : Instr.wf (.nop 0 (word 3 0 [])) = false ∧ Instr.wf (.nop 0 (word 3 14 [])) = true ∧
    Instr.wf (.nop 0 (word 5 1 [(37, 10)])) = false ∧ Instr.wf (.nop 0 (word 15 0 [])) = true := by decide +kernel
theorem test_wf_vector_word : Instr.wf (.sqrt 0 (word 5 0 [(37, 12)])) = false ∧ Instr.wf (.sqrt 0 (word 5 0 [(37, 13)])) = true := by
  decide +kernel
theorem test_wf_value : Instr.wf (.regWrite .host 0 4 (2 ^ 32)) = false ∧ Instr.wf (.regWrite .host 0 4 (2 ^ 32 - 1)) = true := by
  decide +kernel
theorem test_wf_address : Instr.wf (.rcRead .host (2 ^ 48) 4) = false ∧ Instr.wf (.rcRead .host (2 ^ 48 - 1) 4) = true := by
  decide +kernel

/-- A train of one body. -/
def train1 (type op vc : Nat) (b : FrameBody) : Train := ⟨type, op, vc, false, false, 0, 0, 1, 0, 0, 0, 0, 0, 0, [b], [], true⟩

theorem test_wf_body : Instr.wf (.write 0 (train1 0 0 0 ⟨2, [1#8], false⟩)) = false ∧
    Instr.wf (.write 0 (train1 0 0 0 ⟨1, [1#8], false⟩)) = true := by decide +kernel

/-! ### The core -/

/-- R77, R78: a command whose word does not spell its row stops. -/
theorem test_malformed : exec (.add 0 (word 3 1 [])) live = .fault .malformedCommand := rfl

theorem witness_issues : Issues 0 (on busy) ∧ Issues 0 (on { busy with seq := { busy.seq with pc := 4095 } }) := by
  unfold Issues; decide +kernel

/-- R77, R114: a reserved CLASS, a reserved FUNC, a NOP, an ADD and a BR with bits outside their fields. -/
theorem test_illegal_words :
    (let bad (o : Host.Outcome State Fault Refusal) (w : DWord) : Bool := after o (fun t =>
      (coreOf t 0).faulted && rd t (pgCore 0) R.CORE_FAULT_INSN == w.toNat && rd t (pgCore 0) R.CORE_FAULT_PC_VALID == 1 &&
        bitSet (rd t (pgCore 0) R.HEADER_ERR_STAT_ERR) 0)
    let s := on { busy with g := 3 }
    let n (w : DWord) : Bool := bad (exec (.nop 0 w) s) w
    n (word 10 0 []) && n (word 15 15 []) && n (word 0 7 []) && n (word 9 1 []) && n (word 5 0 [(37, 14)]) && n (word 5 1 [(37, 11)]) &&
      n (word 5 2 [(37, 4)]) && n (word 0 0 [(8, 1)]) && bad (exec (.add 0 (word 3 0 [(8, 1)])) s) (word 3 0 [(8, 1)]) &&
      bad (exec (.br 0 (word 0 3 [(24, 1)])) s) (word 0 3 [(24, 1)])) = true := by decide +kernel

/-- R80: SUB with a register and with the immediate −1; a result for X0 is discarded. -/
theorem test_sub :
    (after (exec (.sub 0 (word 3 1 [(12, 4), (17, 1), (22, 2)])) (on busy)) (fun t => xget (coreOf t 0) 4 == BitVec.ofInt 64 (-2) && (coreOf t 0).seq.pc == 1) &&
     after (exec (.sub 0 (word 3 1 [(12, 4), (17, 1), (27, 1), (28, 2 ^ 32 - 1)])) (on busy)) (fun t => xget (coreOf t 0) 4 == 6#64) &&
     after (exec (.sub 0 (word 3 1 [(12, 0), (17, 1), (22, 2)])) (on busy)) (fun t => (coreOf t 0).seq.x == busy.seq.x)) = true := by
  decide +kernel

/-- R80: SAR keeps the sign; the shift count is taken modulo 64. -/
theorem test_sar : after (exec (.sar 0 (word 3 7 [(12, 4), (17, 3), (27, 1), (28, 67)])) (on busy))
    (fun t => xget (coreOf t 0) 4 == xget busy 3) = true := by decide +kernel

theorem witness_ScalarRegistersAndOperations :
    Spelled 3 10 [(0, 8), (12, 16), (28, 32)] (word 3 10 [(12, 31), (17, 31), (22, 31)]) ∧
    Spelled 3 11 [(0, 8), (12, 16), (28, 32)] (word 3 11 [(27, 1), (28, 2 ^ 32 - 1)]) := by unfold Spelled; decide +kernel

/-- R82, R87: a branch to the last index of the image, taken and not taken. -/
theorem witness_BranchesGoToTheirTarget :
    Spelled 0 6 [(0, 8), (12, 22)] (word 0 6 [(12, 7), (24, 3), (29, 1)]) ∧ (on busy |> fun s => (coreOf s 0).cur = some 0 ∧
      mapFind (coreOf s 0).res 0 = some seg8) ∧ seg8.idx ≤ 7 ∧ 7 < seg8.idx + seg8.len ∧
    after (exec (.brlt 0 (word 0 6 [(12, 7), (24, 3), (29, 1)])) (on busy)) (fun t => (coreOf t 0).seq.pc == 7) = true ∧
    after (exec (.brlt 0 (word 0 6 [(12, 7), (24, 1), (29, 3)])) (on busy)) (fun t => (coreOf t 0).seq.pc == 1) = true := by
  unfold Spelled; decide +kernel

/-- R86: a loop of COUNT 2 inside one that ends where it ends; with COUNT 0 the body is passed over. -/
theorem witness_HardwareLoopsRun :
    let k : Core := { busy with seq := { busy.seq with loops := [⟨0, 5, 2⟩, ⟨0, 5, 2⟩, ⟨0, 5, 2⟩] } }
    Spelled 1 0 [(0, 8), (12, 36)] (word 1 0 [(12, 2), (36, 5)]) ∧ Spelled 1 1 [(0, 8), (12, 5), (36, 12)] (word 1 1 [(12, 1), (36, 5)]) ∧
    k.seq.loops.length < 4 ∧ k.seq.pc < 5 ∧ (∀ l ∈ k.seq.loops.head?, 5 ≤ l.last) ∧
    after (exec (.loop 0 (word 1 0 [(12, 2), (36, 5)])) (on k)) (fun t => (coreOf t 0).seq.loops.length == 4 && (coreOf t 0).seq.pc == 1) = true ∧
    after (exec (.loopr 0 (word 1 1 [(12, 0), (36, 4)])) (on k)) (fun t => (coreOf t 0).seq.loops.length == 3 && (coreOf t 0).seq.pc == 5) = true := by
  unfold Spelled; decide +kernel

/-- R89: WRAP of a window that ends at 0x4_0000 and of one a byte longer; AG 6; OP 6. -/
theorem witness_GeneratorsAreSet :
    let w := word 2 3 [(12, 5), (18, 0x3FFFF), (36, 1)]
    Spelled 2 3 [(0, 8), (12, 3), (18, 37)] w ∧ fld w 12 3 < 6 ∧ fld w 18 18 + fld w 36 19 ≤ 0x40000 ∧
    after (exec (.wrap 0 w) (on busy)) (fun t => (agOf (coreOf t 0) 5).wbase == 0x3FFFF && (agOf (coreOf t 0) 5).wsize == 1 &&
      !(coreOf t 0).faulted) = true ∧
    after (exec (.wrap 0 (word 2 3 [(12, 5), (18, 0x3FFFF), (36, 2)])) (on busy)) (fun t => (coreOf t 0).faulted) = true ∧
    after (exec (.reset 0 (word 2 4 [(12, 6)])) (on busy)) (fun t => (coreOf t 0).faulted) = true ∧
    after (exec (.nop 0 (word 2 6 [])) (on busy)) (fun t => (coreOf t 0).faulted) = true := by
  unfold Spelled; decide +kernel

/-- A core with X4 = 0x3FFF8, the last 8 bytes of scratch, X5 = 0x3FFC0, and a byte 0x80 at 0x3FFFF. -/
def atTop : Core :=
  { busy with scr := [(0x3FFFF, 0x80#8)], seq := { busy.seq with x := busy.seq.x ++ [(4, 0x3FFF8#64), (5, 0x3FFC0#64)] } }

/-- R81: a signed byte and a doubleword at the top of scratch, little-endian. -/
theorem test_ld :
    let w := word 3 12 [(12, 6), (17, 4), (22, 6), (25, 0), (27, 1), (29, 7)]
    Spelled 3 12 [(0, 8), (12, 13), (25, 4), (29, 19)] w ∧ startAddr atTop (fld w 22 3) (fld w 17 5) + signedOf 19 (fld w 29 19) = 0x3FFFF ∧
    ScratchSound atTop 0x3FFF8 8 ∧ after (exec (.ld 0 w) (on atTop)) (fun t => xget (coreOf t 0) 6 == BitVec.ofInt 64 (-128)) = true ∧
    after (exec (.ld 0 (word 3 12 [(12, 6), (17, 4), (22, 6), (25, 3)])) (on atTop)) (fun t => xget (coreOf t 0) 6 == 0x8000000000000000#64) = true := by
  unfold Spelled ScratchSound; decide +kernel

/-- R81, R105: ST of four bytes and VST of 64 end at the top of scratch; the byte before stays. -/
theorem witness_ScratchLoadsAndStores :
    let w := word 3 13 [(12, 2), (17, 4), (22, 6), (25, 2), (29, 4)]
    let v := word 5 5 [(12, 1), (17, 5), (22, 6)]
    Spelled 3 13 [(0, 8), (12, 13), (25, 4), (29, 19)] w ∧ Spelled 5 5 [(0, 11), (12, 13)] v ∧ Spelled 5 4 [(0, 11), (12, 13)] (word 5 4 [(22, 6)]) ∧
    startAddr atTop 6 5 = 0x3FFC0 ∧ ScratchSound atTop 0x3FFC0 64 ∧ wCc v ≤ atTop.g ∧
    after (exec (.st 0 w) (on atTop)) (fun t => scrRead (coreOf t 0) 0x3FFFB 5 == [0, 7, 0, 0, 0]) = true ∧
    after (exec (.vst 0 v) (on atTop)) (fun t => scrRead (coreOf t 0) 0x3FFFF 1 == [0]) = true := by
  unfold Spelled ScratchSound; decide +kernel

/-- R56, R57, R81: the core's own page by LD with SPACE 1, and register accesses by address at both shapes, refused and
reserved. -/
theorem witness_RegisterAccess :
    let w := word 3 12 [(12, 6), (22, 6), (25, 2), (28, 1), (29, 0x18)]
    let s := on busy
    Spelled 3 12 [(0, 8), (12, 13), (25, 4), (29, 19)] w ∧ startAddr busy (fld w 22 3) (fld w 17 5) + signedOf 19 (fld w 29 19) = 0x18 ∧
    pageAt 0 = some (pgCore 0, 0) ∧ pageAt 0x1000 = some (pgArray 0, 0x1000) ∧ pathUp .mgmt live = true ∧
    pathAllows .mgmt (pgCore 0) live = true ∧ accessShape (2 * 2 ^ 40) 4 = true ∧ accessShape (2 * 2 ^ 40 + 2) 4 = false ∧
    pathUp .host live = true ∧ pathIgnores .mgmt (pgCore 0) 0x10 = false ∧ pageAt 0x0BFFFFFC = none ∧
    after (exec (.ld 0 w) s) (fun t => !(coreOf t 0).faulted && (coreOf t 0).seq.pc == 1) = true ∧
    after (exec (.rcRead .mgmt (2 * 2 ^ 40 + 2) 4) s) (fun t => t.reply == ⟨0, 1, false⟩) = true ∧
    after (exec (.rcRead .host (2 * 2 ^ 40 + 0x0BFFFFFC) 4) s) (fun t => t.reply == ⟨0, 2, false⟩) = true := by
  unfold Spelled; decide +kernel

/-- R83 to R85: SEGEND frees the core; SWP with YIELD turns to the resident segment of the other role. -/
theorem witness_SegmentsEndAndSwitch :
    let k : Core := { busy with g := 2, res := [(0, seg8), (1, seg8)], saved := [(1, ⟨[], [], [], 6⟩)] }
    let w := word 0 2 [(12, 256), (31, 1)]
    Spelled 0 1 [(0, 8)] (word 0 1 []) ∧ Spelled 0 2 [(0, 8), (12, 20)] w ∧ fld w 21 8 + fld w 12 9 ≤ 256 ∧
    after (exec (.segend 0 (word 0 1 [])) (on busy)) (fun t => (coreOf t 0).cur == none && (coreOf t 0).g == 0) = true ∧
    after (exec (.swp 0 w) (on k)) (fun t => (coreOf t 0).cur == some 1 && (coreOf t 0).seq.pc == 6 && (coreOf t 0).liveKib == 256 &&
      mapFind (coreOf t 0).saved 0 == some { busy.seq with pc := 1 }) = true := by
  unfold Spelled; decide +kernel

/-- R90, R92: BOOK down from 3 to 2, up to 5 with WAIT; a hint of class 2. -/
theorem witness_BookingAndHints :
    let k : Core := { busy with g := 3 }
    Spelled 9 0 [(0, 8), (12, 4)] (word 9 0 [(12, 2)]) ∧ heavyAbove k 2 = false ∧ Spelled 8 0 [(0, 8), (12, 35)] (word 8 0 [(12, 2), (15, 1), (31, 20)]) ∧
    after (exec (.book 0 (word 9 0 [(12, 2)])) (on k)) (fun t => (coreOf t 0).g == 2 && (sluiceOf t 0).releases.length == 1) = true ∧
    after (exec (.book 0 (word 9 0 [(12, 5), (15, 1)])) (on k)) (fun t => (coreOf t 0).g == 3 && (coreOf t 0).waitBook && (coreOf t 0).seq.pc == 0 &&
      (sluiceOf t 0).waiting.length == 1) = true ∧
    after (exec (.heavy 0 (word 8 0 [(12, 2), (15, 1), (31, 20)])) (on k)) (fun t => (sluiceOf t 0).hints.length == 1) = true := by
  unfold Spelled; decide +kernel

/-- R373, R374: the request at the head is granted, and a release arrives. -/
theorem witness_BookingsAreAskedAndGranted :
    let s := setSluice 0 { sluiceOf (on { busy with req := 1, bookPend := true }) 0 with waiting := [⟨0, false, 0, 1⟩] } (on { busy with req := 1, bookPend := true })
    let q : BookReq := ⟨0, false, 0, 1⟩
    let h := reserveAt s 0 (kOf s 0) (if hinted s 0 q then some q.who else none)
    (sluiceOf s 0).waiting = [q] ∧ s.stopAll = false ∧ (∀ b ∈ (sluiceOf s 0).releases, b.eng ≠ q.eng ∨ b.who ≠ q.who) ∧
    ((ampsAt (kOf s 0) (vOf s 0) (ledgerCal s 0 + deltaCal s 0 q)).add h).le (admitLimit s 0) = true ∧ deltaUa s 0 q ≤ (sluiceOf s 0).bucket ∧
    after (exec (.sluiceGrant 0) s) (fun t => (coreOf t 0).g == 1 && ledgerCls t 0 false 0 == 1) = true ∧
    after (exec (.bookRelease 0) (setSluice 0 { Sluice.zero with releases := [⟨0, false, 0, 0⟩] } live))
      (fun t => (sluiceOf t 0).releases.isEmpty) = true := by
  decide +kernel
/-- A core with X4 the tally at address 8, and slot 3 armed on it at 5. -/
def tallied : Core := { busy with slots := [(3, ⟨8, 5, false, false⟩)], seq := { busy.seq with x := busy.seq.x ++ [(4, 8#64)] } }

/-- R94 to R96, R354: TADD of an immediate −1 to 0 wraps and is seen by the armed slot; TARM, TPOLL, TWAIT and TCANCEL. -/
theorem witness_TalliesOnTheCore :
    let add := word 7 0 [(12, 4), (27, 1), (28, 2 ^ 32 - 1)]
    let arm := word 7 1 [(12, 2), (17, 4), (22, 1)]
    Spelled 7 0 [(0, 8), (12, 15), (27, 33)] add ∧ fld add 22 5 = 0 ∧ xnat tallied 4 % 8 = 0 ∧ xnat tallied 4 < 2 ^ 40 ∧
    backed live 8 8 = true ∧ (locate live 8).any (fun q => !mapGet false live.chDead (q / 2 ^ 31)) = true ∧
    Spelled 7 1 [(0, 8), (12, 2), (17, 10)] arm ∧ mapFind tallied.slots 2 = none ∧ unitsUsed (on tallied) 0 < 1024 ∧
    Spelled 7 2 [(0, 8), (12, 5), (17, 5)] (word 7 2 [(12, 15), (17, 6)]) ∧ Spelled 7 3 [(0, 8), (12, 4), (17, 5)] (word 7 3 [(12, 15), (17, 6)]) ∧
    Spelled 7 4 [(0, 8), (12, 4)] (word 7 4 [(12, 8)]) ∧
    after (exec (.tadd 0 add) (on tallied)) (fun t => dramWord t 8 == 2 ^ 64 - 1 && dramWord t 16 == 0 &&
      mapFind (coreOf t 0).slots 3 == some ⟨8, 5, true, false⟩) = true ∧
    after (exec (.tarm 0 arm) (on tallied)) (fun t => mapFind (coreOf t 0).slots 2 == some ⟨8, 5, false, false⟩) = true ∧
    after (exec (.tpoll 0 (word 7 3 [(12, 15), (17, 6)])) (on tallied)) (fun t => xget (coreOf t 0) 6 == 7#64) = true ∧
    after (exec (.twait 0 (word 7 2 [(12, 15), (17, 6)])) (on tallied)) (fun t => (coreOf t 0).seq.pc == 1 && xget (coreOf t 0) 6 == 7#64 &&
      (coreOf t 0).slots.length == 1) = true ∧
    after (exec (.tcancel 0 (word 7 4 [(12, 8)])) (on tallied)) (fun t => (coreOf t 0).slots.isEmpty) = true := by
  unfold Spelled; decide +kernel

/-- R354: a wait unit that has seen its tally reach the threshold satisfies its slot, on a core and at the fetcher. -/
theorem test_tally_satisfied :
    (let s := { on { busy with slots := [(3, ⟨8, 5, true, false⟩)] } with fwait := [(4 * 63 + 3, ⟨8, 5, true, false⟩)] }
     after (exec (.tallySatisfied (.core 0 3)) s) (fun t => mapFind (coreOf t 0).slots 3 == some ⟨8, 5, true, true⟩) &&
       after (exec (.tallySatisfied (.fetcher 63 3)) s) (fun t => mapFind t.fwait (63 * 4 + 3) == some ⟨8, 5, true, true⟩)) = true := by
  decide +kernel

/-- R97 to R99, R513: a BARGE to the last engine of the die; an NMOVE to the east that ends at the top of scratch; its end. -/
theorem witness_CoreTransfersStart :
    let b := word 6 0 [(12, 5), (17, 6), (20, 15)]
    let k : Core := { atTop with seq := { atTop.seq with x := atTop.seq.x ++ [(6, 4096#64)] } }
    let n := word 6 1 [(12, 3), (16, 6), (26, 0x3F000), (44, 0x3F000)]
    let m : NMove := ⟨0, false, 1, 2, 0x3FFFE, 0x10, none, 0, 0⟩
    let s := on { atTop with nmoves := [m] }
    Spelled 6 0 [(0, 8), (12, 13)] b ∧ startAddr atTop (fld b 17 3) (fld b 12 5) = 0x3FFC0 ∧ engShut (on atTop) 15 = false ∧
    (engOf (on atTop) 15).jobs.length < 32 ∧ ScratchSound atTop 0x3FFC0 64 ∧
    after (exec (.barge 0 b) (on atTop)) (fun t => (engOf t 15).jobs.length == 1 && (coreOf t 0).seq.pc == 1) = true ∧
    Spelled 6 1 [(0, 11), (12, 4), (16, 46)] n ∧ neighbour 0 (fld n 12 3) = some 1 ∧ polderOfCore (on k) 0 = polderOfCore (on k) 1 ∧
    xnat k (fld n 16 5) = 4096 ∧ fld n 26 18 + xnat k (fld n 16 5) ≤ 0x40000 ∧ wCc n ≤ k.g ∧ k.nmoves.length < 2 ∧
    after (exec (.nmove 0 n) (on k)) (fun t => (coreOf t 0).nmoves == [⟨0, false, 1, 4096, 0x3F000, 0x3F000, none, n.toNat, 0⟩]) = true ∧
    (∀ x ∈ wordsOf m.loc m.len, mapGet 0 atTop.scrUpset x = 0) ∧
    after (exec (.nmoveComplete 0 true) s) (fun t => (coreOf t 0).nmoves.isEmpty && scrRead (coreOf t 1) 0x10 3 == [0, 0x80, 0]) = true := by
  unfold Spelled ScratchSound; decide +kernel

/-! ### The vector unit and the array -/

/-- V1 = 1.0, V2 = 2.0, V3 = −2^31 in lane 0, class 7 booked. -/
def vect : Core := { busy with g := 7, v := [(1, BitVec.ofNat 512 0x3F800000), (2, BitVec.ofNat 512 0x40000000), (3, BitVec.ofNat 512 0x80000000)] }

/-- Lane 0 of a vector register after a command on core 0. -/
def lane0 (o : Host.Outcome State Fault Refusal) (r v : Nat) : Bool := after o (fun t => laneOf 32 (vget (coreOf t 0) r) 0 == v)

/-- R106, R107, R108: 1.0 + 2.0, 1/2.0, the sum of 16 lanes, and the integer negative of −2^31. -/
theorem witness_VectorArithmetic :
    wClass (word 5 0 [(8, 7), (12, 4), (17, 1), (22, 2)]) = 5 ∧ wCc (word 5 0 [(8, 7), (12, 4), (17, 1), (22, 2)]) ≤ vect.g ∧
    onlyFields (word 5 0 [(8, 7), (12, 4), (17, 1), (22, 2), (27, 31), (34, 3), (37, 13)]) [(0, 11), (12, 31)] = true ∧
    onlyFields (word 5 1 [(12, 4), (17, 2), (32, 1), (34, 4), (37, 5)]) [(0, 11), (12, 10), (32, 11)] = true ∧
    lane0 (exec (.arithAdd 0 (word 5 0 [(8, 7), (12, 4), (17, 1), (22, 2)])) (on vect)) 4 0x40400000 = true ∧
    lane0 (exec (.rcp 0 (word 5 1 [(12, 4), (17, 2)])) (on vect)) 4 0x3F000000 = true ∧
    lane0 (exec (.reduceSum 0 (word 5 2 [(12, 4), (17, 2)])) (on vect)) 4 0x40000000 = true ∧
    lane0 (exec (.neg 0 (word 5 0 [(12, 4), (17, 3), (32, 2), (37, 7)])) (on vect)) 4 0x80000000 = true := by decide +kernel

theorem test_int32_lanes : (let v (n : Nat) : VReg := BitVec.ofNat 512 n
    let f (k a b c : Nat) : Nat := laneOf 32 (vecArith 2 k 0 (v a) (v b) (v c)) 0
    [f 0 (2 ^ 32 - 1) 2 0, f 1 0 1 0, f 2 (2 ^ 31) 2 0, f 3 3 4 5, f 4 (2 ^ 31) 1 0, f 5 (2 ^ 31) 1 0, f 6 (2 ^ 31) 0 0, f 8 3 3 0, f 9 (2 ^ 31) 0 0,
      f 11 1 2 0, f 11 1 2 9] ==
    [1, 2 ^ 32 - 1, 0, 17, 2 ^ 31, 1, 2 ^ 31, 2 ^ 32 - 1, 2 ^ 32 - 1, 2, 1]) = true := by decide +kernel

/-- R109: a shift by −1 takes lane 15 of VB for lane 0 (2.0 in lane 15), and lane 0 of VA for lane 1. -/
theorem witness_PermuteTakesShiftedLanes :
    let w := word 5 8 [(12, 4), (17, 1), (22, 5), (27, 31)]
    let k : Core := { vect with v := vect.v ++ [(5, BitVec.ofNat 512 (0x40000000 * 2 ^ 480))] }
    onlyFields w [(0, 11), (12, 22)] = true ∧ fld w 32 2 ≠ 3 ∧ signedOf 5 (fld w 27 5) = -1 ∧
    after (exec (.vperm 0 w) (on k)) (fun t => laneOf 32 (vget (coreOf t 0) 4) 0 == 0x40000000 && laneOf 32 (vget (coreOf t 0) 4) 1 == 0x3F800000) = true := by
  decide +kernel

/-- R105, R110, R111: FP32 1.0 to INT32 1; VMOVX of lane 0; VACC of the last 16 entries; VRNG writes. -/
theorem witness_VectorMovesAndConversions :
    let vacc := word 5 7 [(12, 4), (17, 1), (18, 4080)]
    let movx := word 5 9 [(12, 4), (17, 3), (26, 1), (32, 2)]
    onlyFields vacc [(0, 11), (12, 18)] = true ∧ fld vacc 18 12 + 15 ≤ 4095 ∧ (accOf vect 1).st = 0 ∧
    (∀ i < 16, mapGet 0 (accOf vect 1).upset (fld vacc 18 12 + i) = 0) ∧ onlyFields movx [(0, 11), (12, 15), (32, 2)] = true ∧
    after (exec (.vmovx 0 movx) (on vect)) (fun t => xget (coreOf t 0) 4 == BitVec.ofInt 64 (-(2 ^ 31))) = true ∧
    after (exec (.vacc 0 vacc) (on { vect with acc1 := { Acc.zero with ent := [(4095, 9)] } })) (fun t => laneOf 32 (vget (coreOf t 0) 4) 15 == 9) = true ∧
    onlyFields (word 5 6 [(12, 4), (38, 3)]) [(0, 11), (12, 5), (38, 10)] = true ∧
    after (exec (.vrng 0 (word 5 6 [(12, 4)])) (on vect)) (fun t => (coreOf t 0).seq.pc == 1) = true := by decide +kernel

/-- A core set for INT8 by INT8, with A = 2 at 0, B = 3 at 64, K = 1 in X1. -/
def mat : Core :=
  { busy with g := 7, cfg := ⟨8, 8, 0, 0, 0⟩, scr := [(0, 2#8), (64, 3#8)], seq := { busy.seq with x := [(1, 1#64)], ags := [(5, { AGen.zero with base := 64 })] } }

/-- R124 to R126: an MMA of one element enters the queue; with K = 0 it retires; MCFG and AREL. -/
theorem witness_MmaConfigurationAndIssue :
    let w := word 4 0 [(8, 7), (12, 1), (22, 1), (32, 1), (37, 1), (39, 9), (43, 0), (46, 5)]
    Spelled 4 0 [(0, 11), (12, 37)] w ∧ wCc w ≤ mat.g ∧ agAddr (agOf mat 0) = 0 ∧ agAddr (agOf (agUse 0 mat) 5) = 64 ∧
    panelBytes 8 8 1 1 = 64 ∧ panelBytes 8 64 1 1 = 64 ∧ ScratchSound mat 0 64 ∧ (accOf mat 1).st = 0 ∧
    after (exec (.mma 0 w) (on mat)) (fun t => (coreOf t 0).queue.length == 1 && (accOf (coreOf t 0) 1).st == 1 && (accOf (coreOf t 0) 1).tile == 9) = true ∧
    after (exec (.mma 0 w) (on { mat with seq := { mat.seq with x := [] } })) (fun t => (coreOf t 0).queue.isEmpty && (coreOf t 0).seq.pc == 1 &&
      rd t (pgArray 0) R.ARRAY_MMA_COUNT == 1) = true ∧
    Spelled 4 2 [(0, 8), (12, 19)] (word 4 2 [(12, 14), (16, 14)]) ∧ pairLegal 14 14 0 = true ∧
    Spelled 4 3 [(0, 8), (20, 1)] (word 4 3 [(20, 1)]) ∧ inflight mat 1 = 0 ∧
    after (exec (.mcfg 0 (word 4 2 [(12, 14), (16, 14)])) (on mat)) (fun t => (coreOf t 0).cfg == ⟨14, 14, 0, 0, 0⟩) = true := by
  unfold Spelled ScratchSound; decide +kernel

/-- The state after that MMA, and after its completion: 2 × 3 = 6 in entry 0. -/
theorem witness_MmaCompletionAndDrain :
    let w := word 4 0 [(12, 1), (22, 1), (32, 1), (37, 1), (46, 5)]
    let d := word 4 1 [(12, 6), (15, 2), (20, 1), (21, 0), (29, 0)]
    after (exec (.mma 0 w) (on mat)) (fun t => after (exec (.mmaComplete 0 4) t) (fun u =>
      accEnt (accOf (coreOf u 0) 1) 0 == 6 && (coreOf u 0).queue.isEmpty && rd u (pgArray 0) R.ARRAY_MAC_COUNT == 1 &&
      drainMismatch (fld d 21 4) (accOf (coreOf u 0) 1).kind == false &&
      after (exec (.adrain 0 d) u) (fun v => (coreOf v 0).drain.isSome && (accOf (coreOf v 0) 1).st == 2 &&
        after (exec (.adrainComplete 0) v) (fun x => scrRead (coreOf x 0) 0 4 == [6, 0, 0, 0] && (coreOf x 0).drain.isNone &&
          (accOf (coreOf x 0) 1).st == 0)))) = true ∧
    Spelled 4 1 [(0, 11), (12, 35)] d ∧ fld d 12 3 ≠ 7 ∧ fld d 21 4 < 6 ∧ fld d 25 3 < 5 ∧ startAddr mat (fld d 12 3) (fld d 15 5) = 0 := by
  unfold Spelled; decide +kernel
/-! ### Registers and errors -/

/-- A path carries accesses to a page of the live module. -/
theorem witness_reaches : Reaches .host pgRng live ∧ Reaches .mgmt (pgPerf 4) live ∧ Reaches .host (pgCore 8191) live ∧ Reaches .mgmt pgFuse live := by
  unfold Reaches; decide +kernel

/-- R15, R17: AON.CTRL (WL) locked and not; an RO field; ERR_STAT's neighbour MASK. -/
theorem witness_RegisterWritesByKind :
    (R.AON_CTRL_WAKE_PIN_EN, 0) ∈ rowsAt .aon 0x10 ∧ R.AON_CTRL_WAKE_PIN_EN.wb = false ∧ R.AON_CTRL_WAKE_PIN_EN.wl = true ∧
    debugReg .aon 0x10 = false ∧ (∀ u x, fieldShut u pgAon R.AON_CTRL_WAKE_PIN_EN x = false) ∧
    (let w (s : State) := writeReg (fun _ _ _ u => u) pgAon 0x10 2 (2 ^ 32 - 1) s
     rd (w live) pgAon R.AON_CTRL_WAKE_PIN_EN = 0 ∧ rd (w live) pgAon R.AON_CTRL_I3C_WAKE_EN = 1 ∧
     rd (w (wr pgAon R.HEADER_PAGE_LOCK_LOCK 1 live)) pgAon R.AON_CTRL_WAKE_PIN_EN = 1) :=
  ⟨by decide +kernel, rfl, rfl, by decide +kernel, fun _ _ => rfl, by decide +kernel⟩

/-- R65, R67: a WB field of a sluice is held, and its boundary applies it. -/
theorem witness_BufferedWrites :
    ∃ e ∈ rowsAt .sluice 0x10 ++ rowsAt .sluice 0x100 ++ rowsAt .sluice 0x104 ++ rowsAt .sluice 0x108, e.1.wb = true ∧ e.1.kind = .rw ∧ e.1.lo + e.1.width ≤ 32 := by
  decide +kernel

theorem test_boundary_counts :
    after (exec (.wbApply (pgSluice 63) 0) live) (fun t => rd t (pgSluice 63) R.HEADER_BOUNDARY_CNT_COUNT == 1) = true := by decide +kernel

/-- R61 to R64: lock, inject, reset of an idle core, and its end. -/
theorem witness_HeadersActAndErrorsAreRecorded :
    bitSet (capsOf .core) 2 = true ∧ blockIdle live (pgCore 1) = true ∧ pageKey (pgCore 1) ∉ live.inReset ∧ blockIdle (on busy) (pgCore 0) = false ∧
    after (exec (.pageLock .host pgAon) live) (fun t => rd t pgAon R.HEADER_PAGE_LOCK_LOCK == 1) = true ∧
    after (exec (.errInj .mgmt pgAon 0x101#32) live) (fun t => rd t pgAon R.HEADER_ERR_INJ_BIT == 1 && rd t pgAon R.HEADER_ERR_INJ_ARM == 1) = true ∧
    after (exec (.srstReq .host (pgCore 1)) live) (fun t => t.inReset.contains (pageKey (pgCore 1)) &&
      after (exec (.blockResetDone (pgCore 1)) t) (fun u => u.inReset.isEmpty)) = true ∧
    after (exec (.srstReq .host (pgCore 0)) (on busy)) (fun t => rd t (pgCore 0) R.HEADER_SRST_SRST_REFUSED == 1) = true ∧
    after (exec (.errStatClear .host pgAon 3#32) (wr pgAon R.HEADER_ERR_STAT_ERR 7 live)) (fun t => rd t pgAon R.HEADER_ERR_STAT_ERR == 4) = true := by
  decide +kernel

/-- R61, R400: a first error, a second, and a masked one. -/
theorem test_errors_are_recorded :
    (let a := setErr pgAon 30 0x1B01 live
     let b := setErr pgAon 0 0x1B02 a
     let c := setErr pgAon 0 0x1B01 (wr pgAon R.HEADER_ERR_MASK_MASK 1 live)
     rd a pgAon R.HEADER_ERR_STAT_ERR == 2 ^ 30 && rd a pgAon R.HEADER_ERR_FIRST_BIT == 30 && rd a pgAon R.HEADER_ERR_STAT_MULTI == 0 &&
       rd b pgAon R.HEADER_ERR_STAT_MULTI == 1 && rd b pgAon R.HEADER_ERR_FIRST_CODE == 0x1B01 &&
       rd c pgAon R.HEADER_ERR_STAT_ERR == 1 && rd c pgAon R.HEADER_ERR_FIRST_VALID == 0) = true := by decide +kernel

/-- R115: a stopped core steps over the NOP at its pc and stays stopped. -/
theorem witness_DebugStopStepResume :
    let s := wr (pgCore 0) R.CORE_DBG_CTRL_STOP 1 (on { busy with dbgStop := true })
    debugOpen live = true ∧ Spelled 0 0 [(0, 8)] (mapGet 0#64 busy.imem busy.seq.pc) ∧
    Issues 0 (modCore 0 (fun k => { k with dbgStop := false, bpPass := true }) s) ∧
    after (exec (.dbgStep .host 0) s) (fun t => (coreOf t 0).seq.pc == 1 && (coreOf t 0).dbgStop) = true ∧
    after (exec (.dbgResume .host 0) s) (fun t => !(coreOf t 0).dbgStop) = true ∧
    after (exec (.dbgStop .host 0) (on busy)) (fun t => (coreOf t 0).dbgStop) = true := by
  unfold Spelled Issues; decide +kernel

/-- R169: the Philox words of a zero key and counter, from the generator's published vectors. -/
theorem witness_EvaluatorRunsPhilox :
    (∀ i < 4, rdi live pgRng R.RNG_EV_CTR i < 2 ^ 32) ∧
    after (exec (.evGo .host) live) (fun t => rd t pgRng R.RNG_STATUS_EV_BUSY == 1 &&
      after (exec .evComplete t) (fun u => (List.range 4).map (rdi u pgRng R.RNG_EV_OUT) == [0x6627e8d5, 0xe169c58d, 0xbc57ac4c, 0x9b00dbd8])) = true := by
  decide +kernel

/-- A sample of core 0, and a module whose die 0 samples into a ring at 0x10000. -/
def smp : SampleInput := ⟨0, 0, 0, 0, 0, 0, 0, 0⟩
def sampling : State :=
  wr (pgSample 0) R.SAMPLE_BLOCK_MASK 1 (wr (pgSample 0) R.SAMPLE_CLASS_MASK 1 (wr (pgSample 0) R.SAMPLE_BUF_BASE 0x10000
    (wr (pgSample 0) R.SAMPLE_STATUS_ACTIVE 1 (wr (pgSample 0) R.SAMPLE_CTRL_EN 1 live))))

/-- R484 to R493: a selection, FREEZE, the sampler's start, and a sample at the ring's start and one in the same tick. -/
theorem witness_CountersAndSamples :
    counterRows .core = some (R.CORE_EVT_SEL, R.CORE_EVT_CNT, 32) ∧ smpRingOk sampling (pgSample 0) = true ∧ smpEligible sampling 0 smp = true ∧
    mapFind sampling.smpTick 0 ≠ some (tickOf sampling) ∧ (locate live 0x10000).isSome = true ∧
    after (exec (.evtSel .host (pgPerf 4) 15 0x10#32) live) (fun t => rdi t (pgPerf 4) R.PERF_EVT_SEL 15 == 0x10) = true ∧
    after (exec (.freeze .host (pgPerf 0) true) live) (fun t => rd t (pgPerf 0) R.PERF_STATUS_FROZEN == 1) = true ∧
    after (exec (.sampleEnable .host 3 1#32) live) (fun t => rd t (pgSample 3) R.SAMPLE_STATUS_ACTIVE == 1) = true ∧
    after (exec (.sampleTake 0 smp) sampling) (fun t => rd t (pgSample 0) R.SAMPLE_HEAD == 1 && mapGet 0 t.smpSeq 0 == 1 &&
      after (exec (.sampleTake 0 smp) t) (fun u => rd u (pgSample 0) R.SAMPLE_SKIPPED == 1 && rd u (pgSample 0) R.SAMPLE_HEAD == 1)) = true := by
  decide +kernel

/-! ### Memories -/

/-- R186 to R188: 4 symbols corrected and 5 not, in a section of class 0; without backing; a patrol read. -/
theorem witness_DramAndPatrolReads :
    dramShut live = false ∧ locate live 0 = some 0 ∧ locate live (2 ^ 30) = none ∧ classOf live 0 = 0 ∧
    after (exec (.dramRead 0 4 ⟨none, none⟩) live) (fun t => rd t (pgMemc 0) R.MEMC_CE_COUNT == 1 && t.reply == ⟨0, 0, false⟩) = true ∧
    after (exec (.dramRead 63 5 ⟨none, none⟩) live) (fun t => rd t (pgMemc 0) R.MEMC_UE_COUNT == 1 && t.reply.err == 0x0702 && dramPoisoned t 0 64) = true ∧
    after (exec (.dramRead (2 ^ 30) 0 ⟨none, none⟩) live) (fun t => t.reply == ⟨0, 2, false⟩) = true ∧
    after (exec (.scrubRead 0 8) (wr (pgMemc 0) R.MEMC_CTRL_SCRUB_EN 1 live)) (fun t => rd t (pgMemc 0) R.MEMC_SCRUB_UE_COUNT == 1) = true := by
  decide +kernel

/-- R50, R187: a poisoned write ends at its block's end and marks it; a whole clean block clears the mark. -/
theorem witness_DramWritesAndBulkReads :
    let d : List Byte := List.replicate 64 7#8
    (∀ i < 64, (locate live i).any (fun q => !mapGet false live.chDead (q / 2 ^ 31)) = true) ∧
    after (exec (.dramWrite 62 d true ⟨none, none⟩) live) (fun t => dramRead t 61 4 == [0, 7, 7, 0] && dramPoisoned t 0 64 &&
      after (exec (.dramWrite 0 d false ⟨none, none⟩) t) (fun u => dramRead u 0 65 == List.replicate 64 7 ++ [0] && !dramPoisoned u 0 64)) = true := by
  decide +kernel

/-- R190, by hand: 32 members, member 3 mapped out, 8,192 granules lost; granule 3 lives at 253,952, the first granule
past the top, and 35 at the next. -/
theorem witness_RemapAndRelocation :
    [3].Pairwise (· < ·) ∧ (∀ i ∈ [3], i < 32) ∧ remapGranule 32 [3] 3 = some 253952 ∧ remapGranule 32 [3] 35 = some 253953 ∧
    remapGranule 32 [3] 4 = some 4 ∧ remapGranule 32 [3] 253952 = none ∧ ownerGran 32 [3] 253953 = some 35 := by decide +kernel

/-- R191: a request, its GO, the relocation of nothing, and its completion. -/
theorem test_mapout :
    after (exec (.mapoutReq .host 7 31) live) (fun t => chState t 255 == 1 &&
      after (exec (.mapoutGo .host 7) t) (fun u => u.mapQ == [⟨7, [255], 0⟩] &&
        after (exec .mapoutComplete { u with mapQ := [⟨7, [255], 2⟩] }) (fun v => chState v 255 == 2 && v.factory.mapped == [255] &&
          rd v (pgMemc 0) R.MEMC_BACKED_MIB == 522240))) = true := by decide +kernel

/-- R208: a read at the last byte of a page; an uncorrectable one. -/
theorem witness_QuayReadsAndInstalls :
    let s := { wr pgQuay R.QUAY_STATUS_READY 1 live with quay := [(4095, 9#8), (4096, 8#8)] }
    rd s pgQuay R.QUAY_STATUS_READY ≠ 0 ∧ rd s pgMgmt R.MGMT_STATUS_FW_RUNNING ≠ 0 ∧ policyAdmits s 2 = false ∧
    after (exec (.quayRead 4095 64 false .clean ⟨none, none⟩) s) (fun t => t.reply == ⟨9, 0, false⟩ && rd t pgQuay R.QUAY_RD_BYTES == 1) = true ∧
    after (exec (.quayRead 4096 1 false .bad ⟨none, none⟩) s) (fun t => t.reply.err == 0x0902 && mapGet false t.quayBad 1) = true ∧
    after (exec (.quayInstall ⟨0, [], 100⟩) (wr pgFuse R.FUSE_CFG_QP 4 s)) (fun t => bitSet (rd t pgSec R.HEADER_ERR_STAT_ERR) 2 && t.quaySeq == 0) = true := by
  decide +kernel

/-! ### Transfer engines -/

/-- A barge of 4 bytes from 0x100 to 0x2000, and one without bytes that adds to the tally at 0x40. -/
def copy4 : List Nat := [1, 0, 0x100, 0, 0x2000, 0, 4, 0, 1, 0, 0, 0, 0, 0, 0, 0]
def tallyOnly : List Nat := [1 + 2 ^ 8 + 2 ^ 31, 0, 0, 0, 0, 0, 0, 0, 1, 0, 0, 0, 0, 0, 0, 0]
def job (ws : List Nat) (ph : Nat) : BargeJob := ⟨ws, ⟨0, 0, 0, 0, none⟩, ph, 0, 0, false, [], 0, false⟩
def engine (j : BargeJob) : State := setEng 63 ⟨[j], 0, 0⟩ { live with dram := [(0x100, 1#8), (0x103, 4#8)] }

theorem witness_BargesRun :
    descOk copy4 = true ∧ descOk (copy4.set 0 2) = false ∧ bLen copy4 = 4 ∧ bTallyEn copy4 = false ∧ bConvert copy4 = false ∧ bCksum copy4 = false ∧
    srcAway live copy4 = false ∧ dstAway live copy4 = false ∧ bLen tallyOnly = 0 ∧ bTallyEn tallyOnly = true ∧ bTally tallyOnly = 64 ∧
    (∀ n < 4, regionOf (srcAt copy4 n) = (.dram, 0x100 + n) ∧ dstErr live copy4 (dstAt copy4 n) = none ∧ placeAt live (dstAt copy4 n) = (.dram, 4096 * 524288 + n - 4096 * 524288 + 0) ∨
      srcAt copy4 n = 0x100 + n ∧ dstAt copy4 n = 0x2000 + n ∧ dstErr live copy4 (dstAt copy4 n) = none) ∧
    after (exec (.bargeAccept 63) (engine (job copy4 0))) (fun t => (engOf t 63).jobs == [job copy4 1]) = true ∧
    after (exec (.bargeStart 63 0) (engine (job copy4 1))) (fun t => (engOf t 63).jobs == [job copy4 2]) = true ∧
    after (exec (.bargeComplete 63 0) (engine (job copy4 2))) (fun t => (engOf t 63).jobs.isEmpty && dramRead t 0x1FFF 6 == [0, 1, 0, 0, 4, 0] &&
      rd t (pgBarge 63) R.BARGE_DONE == 1) = true ∧
    after (exec (.bargeComplete 63 0) (engine (job tallyOnly 2))) (fun t => dramWord t 64 == 1) = true ∧
    after (exec (.bargeAccept 63) (engine (job (copy4.set 0 2) 0))) (fun t => (engOf t 63).jobs.isEmpty &&
      bitSet (rd t (pgBarge 63) R.HEADER_ERR_STAT_ERR) 0) = true := by
  decide +kernel
/-! ### Links, trains and jobs -/

/-- A training context of job 9 in polder 0, alone on its module, with nothing fetched. -/
def ctx0 : Ctx :=
  { job := 9, polder := 0, typ := 0, noncanon := false, seed := 0, stepBlock := 0x8000, placeBase := 0, coll := ⟨0, 0, 0⟩, lsEn := 0, lsS := 0,
    lsE0 := 0, lsEmin := 0, lsEmax := 0, lsG := 0, lsNskip := 0, saveBase := 0, sects := 1, progressUs := 100,
    rings := [⟨0x10000, 4, 0x20000⟩, ⟨0, 0, 0⟩, ⟨0, 0, 0⟩, ⟨0x11000, 4, 0x20040⟩], gen := 0, tails := [], nextE := [], started := [], slots := [],
    plans := [], admitStep := none, admitIdx := 0, hold := none, swapOut := false, tearReq := false, swapFor := none, halted := false,
    haltCode := 0, prep := false, slotFull := 0, peerBound := 0, reportAt := 0, reportMj := 0, replayStep := 0, replayCnt := 0, marks := [],
    boundary := none, mapHold := none, swapReq := false, waitTick := 0, blockTicks := 0, blockCycle := false, catchUp := [], drain := false,
    place := none, placeNext := none, placeOld := none, verds := [], ups := [], collNext := [] }

/-- The live module with that context as number 5, resident, its polder holding section 0, and link 0 UP; the epoch 3. -/
def jobbed (x : Ctx) : State :=
  wr (pgLink 0) R.LINK_STATUS_STATE 4 (wr (pgLink 0) R.LINK_VC_CREDITS 0xFFFFFFFF (wr pgEmb R.EMB_STATUS_ID_SET 1 (wr pgEmb R.EMB_EPOCH 3
    (wr (pgCtx 5) R.CTX_STATUS_STATE stResident
      { live with ctxs := [(5, x)], polTab := [(0, [1, 0, 0, 1, 0, 0, 0, 0, 0, 0, 0, 0, 0, 0, 0, 0])] }))))

/-- A train of job 9 from module 1 with the given body. -/
def tr (type op vc addr arg : Nat) (bs : List Byte) : Train :=
  ⟨type, op, vc, false, false, 0, 0, 1, 0, 0, 0, addr, 9, arg, (if bs = [] then [] else [⟨bs.length, bs, false⟩]), [], true⟩

/-- R284, R290: a WRITE of three bytes is taken in and served; out of sequence it changes nothing; malformed it is FRAME_BAD. -/
theorem witness_FramesAndTrainsKeepTheirOrder :
    let s := jobbed ctx0
    let t := tr 0 0 1 0x100 0 [1#8, 2#8, 3#8]
    (TakenIn 0 t s ∧ TakenIn 0 { t with dst := 2 } s) ∧ t.dst = myId s ∧ (t.type, t.op) = (0, 0) ∧ (linkOf s 0).encap = [] ∧
    malformed (linkV1 s 0) { t with closed := false } = true ∧ linkV1 s 0 = false ∧ waitsBehind s 0 { t with dst := 2 } = false ∧
    extPlace ⟨16, List.replicate 7 0#8 ++ 0x40#8 :: List.replicate 8 0#8, false⟩ = (0, true) ∧ extPlace ⟨16, List.replicate 16 0#8, false⟩ = (0, false) ∧
    after (exec (.write 0 { t with closed := false }) s) (fun u => bitSet (rd u (pgLink 0) R.HEADER_ERR_STAT_ERR) 5 && (linkOf u 0).rxSeq == 1) = true ∧
    after (exec (.write 0 { t with seq := 4095 }) s) (fun u => (linkOf u 0).rxSeq == 0) = true ∧
    after (exec (.frameForward 0 { t with dst := 2 }) s) (fun u => (linkOf u 0).rxSeq == 1 && u.dram.isEmpty) = true := by
  refine ⟨⟨⟨?_, ?_, ?_, uninjected ?_⟩, ⟨?_, ?_, ?_, uninjected ?_⟩⟩, ?_⟩ <;> decide +kernel

theorem witness_MemoryAndUpdateTrainsAreServed :
    let s := jobbed ctx0
    let t := tr 0 0 1 0x1FE 0 [1#8, 2#8, 3#8]
    ServedHere 0 t 5 ctx0 s ∧ inSections s 0 0x1FE 3 = true ∧ inSections s 0 (2 ^ 30 - 1) 2 = false ∧ granBacked s 0x1FE 3 = true ∧
    tallyAligned 0x40 = true ∧
    after (exec (.write 0 t) s) (fun u => dramRead u 0x1FD 5 == [0, 1, 2, 3, 0] && (linkOf u 0).rxSeq == 1) = true ∧
    after (exec (.tallyAdd (.frame 0 (tr 1 0 4 0x40 (2 ^ 64 - 1) []))) s) (fun u => dramWord u 0x40 == 2 ^ 64 - 1) = true ∧
    after (exec (.tallyAdd (.host 0x40 7#64)) s) (fun u => dramWord u 0x40 == 7 && u.reply == ⟨0, 0, false⟩) = true ∧
    after (exec (.gatherData 0 (tr 0 5 1 0x100 0 [9#8])) s) (fun u => dramRead u 0x100 2 == [9, 0]) = true := by
  unfold ServedHere; decide +kernel

/-- R199: a READ_RESP lands for the barge that awaits it, and the WRITE_ACK of another ends its wait. -/
theorem test_read_resp :
    (let j : BargeJob := { job copy4 3 with tag := ⟨5, 0, 0, 9, none⟩, xid := 77, todo := 4 }
     after (exec (.readResp 0 (tr 0 2 1 0x2000 77 [1#8, 2#8])) (setEng 2 ⟨[j], 0, 0⟩ (jobbed ctx0)))
      (fun u => dramRead u 0x2000 3 == [1, 2, 0] && ((engOf u 2).jobs.map (fun j => j.todo)) == [2])) = true := by decide +kernel

/-- R306, R307: a queue pair at 0x4000 with one RDMA WRITE of 8 bytes. -/
def qpState : State :=
  let s := wr (pgLink 20) R.LINK_ETH_QP_BASE 0x4000 (wr (pgLink 20) R.LINK_ETH_QP_COUNT 1 (wr (pgLink 20) R.LINK_STATUS_STATE 5 (jobbed ctx0)))
  dramPutWord 0x5008 0x100 (dramPutWord 0x5010 8 (dramPutWord 0x4000 (1 + 2 + 5 * 8 + 4 * 2 ^ 9) (dramPutWord 0x4008 0x5000 (dramPutWord 0x4010 0x6000 (dramPutWord 0x6000 1
    (dramPutWord 0x5028 0x7000 s))))))

theorem witness_QueuePairsWork :
    let s := setQp 20 0 ⟨1, 0⟩ qpState
    qpReady qpState 20 0 = true ∧ qpWaits s 20 0 = true ∧ wf (qpRequest s 20 0) 0 0 2 = 0 ∧ qpAccess s 20 0 0x100 8 = true ∧
    after (exec (.qpPoll 20 0) qpState) (fun t => (qpOf t 20 0).tail == 1) = true ∧
    after (exec (.rdmaWrite 20 0) s) (fun t => (qpOf t 20 0).busy == 1 &&
      after (exec (.rdmaComplete 20 0 .done) t) (fun u => (qpOf u 20 0).busy == 0 && dramWord u 0x7000 == 1 && bitsOf (dramWord u 0x4018) 0 32 == 1)) = true ∧
    after (exec (.ethRequestIn 20) s) (fun t => rd t (pgLink 20) R.LINK_BAD_FRAMES == 1) = true := by decide +kernel

/-- R275 to R278: a link trains to FENCED; a lost lane takes it DOWN. -/
theorem witness_LinksTrainAndAreKept :
    let s := wr (pgLink 3) R.LINK_CTRL_ENABLE 1 (wr pgRst R.RST_STATUS_STEP 9 live)
    rd s (pgLink 3) R.LINK_CTRL_ENABLE ≠ 0 ∧ phyReady s = true ∧ pageKey (pgLink 3) ∉ s.inReset ∧ linkState s 3 = 0 ∧
    Uninjected (jobbed ctx0) ∧ linkEmb (jobbed ctx0) 0 = true ∧ classed 0 = false ∧
    after (exec (.linkTrainStart 3) s) (fun a => after (exec (.signalDetect 3) a) (fun b => after (exec (.equalisationComplete 3) b) (fun c =>
      after (exec (.fecLock 3) c) (fun d => linkState d 3 == 2 &&
        after (exec (.caps 3 (BitVec.ofNat 64 (localCaps d 3)) 0#64) d) (fun e => linkState e 3 == 3 && rd e (pgLink 3) R.LINK_STATUS_VERSION == 2 &&
          rd e (pgLink 3) R.LINK_STATUS_RATE_224 == 1 && after (exec (.laneLoss 3) e) (fun f => linkState f 3 == 0)))))) = true ∧
    after (exec (.fecUe 0 0 ⟨1, 2⟩) (jobbed ctx0)) (fun t => rd t (pgLink 0) R.LINK_FEC_UE_CW == 1 && (linkOf t 0).nak == some 0) = true ∧
    after (exec (.credit 0 ⟨[1, 0, 0, 0, 0, 0, 0, 0], 0, none, []⟩) (jobbed ctx0)) (fun t => linkState t 0 == 0 &&
      bitSet (rd t (pgLink 0) R.HEADER_ERR_STAT_ERR) 4) = true := by
  refine ⟨?_, ?_, ?_, ?_, uninjected ?_, ?_⟩ <;> decide +kernel

/-- An EMB message from module 1 of job 9 in epoch 3. -/
def msg (op subject aux arg : Nat) : EmbMsg := ⟨op, 1, 0, 9, 0, 3, subject, aux, arg, []⟩

/-- R410 to R415: the election, a probe, a loss, and a warden's decision. -/
theorem witness_WardensAndLosses :
    let s := jobbed ctx0
    let w := wr pgEmb R.EMB_STATUS_WARDEN 1 s
    EmbTaken 0 (msg 3 7 0 0) w ∧ embOn s = true ∧ isWarden w = true ∧ (msg 3 7 0 0).dst = myId s ∧
    after (exec .electionTimeout { s with emb := { s.emb with contend := some 4 } }) (fun t => isWarden t && rd t pgEmb R.EMB_EPOCH == 4) = true ∧
    after (exec (.warden 0 { msg 2 0 0 0 with epoch := 4 }) s) (fun t => rd t pgEmb R.EMB_WARDEN_ID == 1 && rd t pgEmb R.EMB_EPOCH == 4) = true ∧
    after (exec (.hello 0 (msg 0 1 1 0)) s) (fun t => (linkOf t 0).heard && (linkOf t 0).joined && (linkOf t 0).warden == 1) = true ∧
    after (exec (.loss 0 (msg 3 7 2 0)) w) (fun t => t.emb.losses == [⟨7, [1], 0, false, [2]⟩] &&
      after (exec (.moduleLost 7) t) (fun u => u.emb.losses.isEmpty && rd u pgEmb R.EMB_DECISIONS == 1)) = true ∧
    after (exec (.lost 0 (msg 6 7 0 0)) s) (fun t => t.emb.lost.contains 7) = true := by
  refine ⟨⟨?_, ?_, ?_, ?_, uninjected ?_⟩, ?_⟩ <;> decide +kernel

/-- R417 to R433: HALT, ROLLBACK, REPLAY and a RECOVER without a spare, at a member of a job of two modules. -/
def place2 : Place := ⟨0x3000, 1, 0, [⟨1, 0, 0, true, false, 1, 0⟩, ⟨0, 0, 0, true, false, 0, 0⟩], [], 0⟩
theorem witness_JobsRecover :
    let x := { ctx0 with place := some place2 }
    let s := jobbed x
    EmbTaken 0 (msg 13 0 0 0) s ∧ embCtx s (msg 13 0 0 0) = some (5, x) ∧ isRoot s x = false ∧ 1 ≤ rd s pgEmb R.EMB_REPLAY_MAX ∧ memberOfModule place2 1 ≠ none ∧
    spareOf s place2 1 = none ∧
    after (exec (.halt 0 (msg 13 0 0x0704 0)) s) (fun t => (t.ctxs.map (fun e => (e.2.halted, e.2.haltCode))) == [(true, 0x0704)]) = true ∧
    after (exec (.rollback 0 (msg 14 0 0 0)) s) (fun t => (t.ctxs.map (fun e => e.2.hold.isSome)) == [true]) = true ∧
    after (exec (.replay 0 (msg 11 0 0 0)) s) (fun t => (t.ctxs.map (fun e => (e.2.replayCnt, e.2.admitStep))) == [(1, some 0)]) = true ∧
    after (exec (.recover 0 (msg 8 1 0 0)) s) (fun t => bitSet (rd t pgEmb R.HEADER_ERR_STAT_ERR) 9) = true := by
  refine ⟨⟨?_, ?_, ?_, ?_, uninjected ?_⟩, ?_⟩ <;> decide +kernel
/-! ### Device DRAM of the live module -/

/-- Section 0 lies over all 256 channels, all sound, and no injection is armed. -/
def Flat (s : State) : Prop :=
  sectOf s 0 = ⟨1, 0, 0, 0⟩ ∧ failedMembers s ⟨1, 0, 0, 0⟩ = [] ∧ s.chDead = [] ∧ s.dramSyms = [] ∧ Uninjected s

/-- Where a byte of section 0 lives (R182), by hand. -/
def flat (a : Nat) : Nat := a / 4096 % 256 * 2 ^ 31 + (a / 4096 / 256 * 4096 + a % 4096)

theorem locate_flat {s : State} (h : Flat s) {a : Nat} (ha : a < 2 ^ 30) : locate s a = some (flat a) := by
  obtain ⟨h1, h2, -, -⟩ := h
  have hz : a / 2 ^ 30 = 0 := Nat.div_eq_of_lt ha
  have h3 : a % 2 ^ 30 = a := Nat.mod_eq_of_lt ha
  simp only [locate, hz, h1, h2, modeK, remapGranule, placeOf, memberOf, flat, h3]
  simp
  omega

theorem flat_inj {a b : Nat} (h : flat a = flat b) (ha : a < 2 ^ 30) (hb : b < 2 ^ 30) : a = b := by unfold flat at h; omega

theorem works_flat {s : State} (h : Flat s) {a : Nat} (ha : a < 2 ^ 30) :
    ∃ q, locate s a = some q ∧ mapGet false s.chDead (q / 2 ^ 31) = false := ⟨_, locate_flat h ha, by rw [h.2.2.1]; rfl⟩

theorem places_flat {s : State} (h : Flat s) {a n : Nat} (ha : a + n ≤ 2 ^ 30) : Places s a n := by
  refine ⟨fun i hi => works_flat h (by omega), fun i hi j hj e => ?_⟩
  rw [locate_flat h (by omega), locate_flat h (by omega)] at e
  have := flat_inj (Option.some.inj e) (by omega) (by omega)
  omega

theorem reads_flat {s : State} (h : Flat s) {a n : Nat} (ha : a + n ≤ 2 ^ 30) : ReadsSound s a n :=
  ⟨h.2.2.2.2, fun i hi => ⟨_, locate_flat h (a := a + i) (by omega), by rw [h.2.2.2.1]; rfl, by rw [h.2.2.1]; rfl⟩⟩

theorem poison_flat {s : State} (h : Flat s) (hp : s.dramPoison = []) (a n : Nat) : dramPoisoned s a n = false := by
  simp only [dramPoisoned, List.any_eq_false]
  intro i _
  split
  · simp [symsBad, hp, h.2.2.1, h.2.2.2.1, mapGet]
  · simp

theorem apart_flat {s : State} (h : Flat s) {l : List Nat} (hl : ∀ a ∈ l, a < 2 ^ 30) (hn : l.Nodup) : Apart s l := by
  refine ⟨fun a ha => works_flat h (hl a ha), ?_⟩
  rw [List.nodup_map_iff_inj_on hn]
  intro a ha b hb e
  rw [locate_flat h (hl a ha), locate_flat h (hl b hb)] at e
  exact flat_inj (Option.some.inj e) (hl a ha) (hl b hb)

/-- Spans in ascending order that do not meet. -/
theorem spans_nodup : ∀ (l : List (Nat × Nat)), l.Pairwise (fun x y => x.1 + x.2 ≤ y.1 ∨ y.1 + y.2 ≤ x.1) →
    (l.flatMap (fun x => spanOf x.1 x.2)).Nodup
  | [], _ => by simp
  | x :: l, h => by
    rw [List.pairwise_cons] at h
    rw [List.flatMap_cons, List.nodup_append]
    refine ⟨?_, spans_nodup l h.2, ?_⟩
    · exact (List.nodup_range).map (fun i j e => by simpa using e)
    · intro a ha b hb e
      subst e
      simp only [spanOf, List.mem_map, List.mem_range, List.mem_flatMap] at ha hb
      obtain ⟨i, hi, rfl⟩ := ha
      obtain ⟨y, hy, j, hj, e⟩ := hb
      have := h.1 y hy
      omega

theorem spans_below {l : List (Nat × Nat)} {z : Nat} (h : ∀ x ∈ l, x.1 + x.2 ≤ z) : ∀ a ∈ l.flatMap (fun x => spanOf x.1 x.2), a < z := by
  intro a ha
  simp only [spanOf, List.mem_flatMap, List.mem_map, List.mem_range] at ha
  obtain ⟨x, hx, i, hi, rfl⟩ := ha
  have := h x hx
  omega

/-- The spans listed have places apart in section 0. -/
theorem apart_spans {s : State} (h : Flat s) (l : List (Nat × Nat)) (h1 : ∀ x ∈ l, x.1 + x.2 ≤ 2 ^ 30)
    (h2 : l.Pairwise (fun x y => x.1 + x.2 ≤ y.1 ∨ y.1 + y.2 ≤ x.1)) : Apart s (l.flatMap (fun x => spanOf x.1 x.2)) :=
  apart_flat h (spans_below h1) (spans_nodup l h2)

theorem live_flat : Flat live := ⟨by decide +kernel, by decide +kernel, rfl, rfl, uninjected (by decide +kernel)⟩

/-- R94, R187: the places that a tally and a block of the live module have. -/
theorem witness_places : Places live 8 8 ∧ Places live (2 ^ 30 - 64) 64 ∧ ReadsSound live 0 128 :=
  ⟨places_flat live_flat (by decide), places_flat live_flat (by decide), reads_flat live_flat (by decide)⟩

/-! ### Power and cooling -/

theorem live_uninjected : Uninjected live := uninjected (by decide +kernel)

def rails (p : Nat) : List RailSample := List.replicate 24 ⟨800, 5, p⟩

/-- R370, R381, R382, R392: telemetry at 2,400.0 W and just above; SLOWDOWN_N; the 12th and 13th margin requests; the board
at its limit. -/
theorem witness_PowerSamplesAct :
    powerOn live = true ∧ railsFree live = true ∧ ((rails 6000).take 4).map (fun x => x.p) = [6000, 6000, 6000, 6000] ∧
    after (exec (.telemetrySample (rails 6000)) live) (fun t => rdi t pgPwr R.PWR_RAIL_P 23 == 6000 && rd t pgPwr R.HEADER_ERR_STAT_ERR == 0) = true ∧
    after (exec (.telemetrySample (rails 6001)) live) (fun t => bitSet (rd t pgPwr R.HEADER_ERR_STAT_ERR) 1 && admitOf t 63 == admitMin live) = true ∧
    after (exec (.slowdownN true) live) (fun t => t.pins.slowdown && vOf t 3 == vminOf live 3) = true ∧
    after (exec (.marginReq .mgmt 5) (wr (pgSluice 5) R.SLUICE_FLOOR_TRIM 11 live)) (fun t => rd t (pgSluice 5) R.SLUICE_FLOOR_TRIM == 12 &&
      after (exec (.marginReq .mgmt 5) t) (fun u => rd u (pgSluice 5) R.SLUICE_FLOOR_TRIM == 12 && bitSet (rd u (pgSluice 5) R.HEADER_ERR_STAT_ERR) 1)) = true ∧
    after (exec (.inletSample (-8)) live) (fun t => rd t pgPwr R.PWR_INLET_T == 0xFFF8) = true ∧
    after (exec (.boardOvertemp (boardLimit live)) live) (fun t => alertN t && rd t pgAon R.AON_STATUS_BOARD_HOT == 1) = true := by
  decide +kernel

/-- R388, R389: 64 sensors at 50 °C, the last at 60; one that disagrees with its quad; 105 °C and 110 °C. -/
theorem witness_PowerAndThermalSamplesAct :
    let ts (x : Int) : List Int := List.replicate 60 400 ++ [x, x, x, x]
    (ts 0).length = 64 ∧
    after (exec (.thermalSample 2 (List.replicate 63 400 ++ [480])) live) (fun t => rd t (pgTherm 2) R.THERM_MAX_SENSOR == 63 &&
      rd t (pgTherm 2) R.THERM_MAX_T == 480 && rd t (pgTherm 2) R.THERM_BAD_MASK == 0) = true ∧
    after (exec (.thermalSample 2 (List.replicate 63 400 ++ [521])) live) (fun t => rd t (pgTherm 2) R.THERM_BAD_MASK == 2 ^ 63 &&
      rd t (pgTherm 2) R.THERM_MAX_SENSOR == 0) = true ∧
    after (exec (.thermalSample 0 (ts 840)) live) (fun t => rd t (pgTherm 0) R.THERM_STATUS_AT_LIMIT == 1 && !t.stopAll) = true ∧
    after (exec (.thermalSample 0 (ts 880)) live) (fun t => t.stopAll && alertN t && bitSet (rd t (pgTherm 0) R.HEADER_ERR_STAT_ERR) 1) = true := by
  decide +kernel

/-- A module in standby whose coolant flows. -/
def standby : State := wr pgAon R.AON_CTRL_I3C_WAKE_EN 1 (wr pgPwr R.PWR_STATUS_STATE 2 { live with pins := { live.pins with coolant := true } })
def still : Meter := ⟨[], [], [], []⟩

/-- R390, R394, R395: IDLE asked for and reached, left at the WAKE pin; STANDBY left by I3C; coolant too hot, lost and back. -/
theorem witness_PowerStatesAndCoolant :
    let s := { live with pins := { live.pins with coolant := true } }
    after (exec (.stateReqIdle .host) s) (fun a => pendOffs a pgPwr == [(0x10, 1)] && a.power.target == none) = true ∧
    after (exec .powerTransitionDone { s with power := { s.power with target := some 1 } }) (fun c => rd c pgPwr R.PWR_STATUS_STATE == 1) = true ∧
    after (exec (.wake true) (wr pgPwr R.PWR_STATUS_STATE 1 s)) (fun d => d.power.target == some 0 && rd d pgAon R.AON_WAKE_CAUSE == 1) = true ∧
    after (exec .i3cWake standby) (fun t => rd t pgRst R.RST_STATUS_COMEOUT == 1 && nextStep t == 5) = true ∧
    after (exec .coolantTemp (wr pgPwr R.PWR_INLET_T 441 s)) (fun t => t.stopAll && bitSet (rd t pgPwr R.HEADER_ERR_STAT_ERR) 3) = true ∧
    after (exec .coolantTemp (wr pgPwr R.PWR_INLET_T 440 s)) (fun t => !t.stopAll) = true ∧
    after (exec .coolantLoss s) (fun t => t.stopAll && bitSet (rd t pgPwr R.HEADER_ERR_STAT_ERR) 2 && !t.pins.coolant) = true ∧
    after (exec .coolantOkAsserted { standby with pins := { standby.pins with coolant := false }, power := { standby.power with wake := some 1 } })
      (fun t => t.power.target == some 0 && t.power.wake == none) = true := by
  decide +kernel

/-- R67, R389: the control window acts on a state request that waits. -/
theorem witness_state_request :
    let s := { live with pend := [(wordKey pgPwr 0x10, 1)] }
    powerOn s = true ∧ pendOffs s pgPwr = [(0x10, 1)] ∧ s.power.target = none ∧ rd s pgPwr R.PWR_STATUS_STATE = 0 ∧
    rd s pgSched R.SCHED_STATUS_RUNNING = 0 ∧ s.cores = [] ∧ (∀ r < 64, pendOffs s (pgSluice r) = []) ∧ (∀ d < 4, pendOffs s (pgTherm d) = []) := by
  decide +kernel

/-- R67, R378, R379, R393: a hint is placed at its pre-position point, and a control window may come. -/
theorem witness_HintsAndControlWindowsAct :
    let h : Hint := ⟨0, 4, 100, 200, 300, false, false⟩
    let live := { live with power := { live.power with ran := true } }
    let s := setSluice 0 { sluiceOf live 0 with hints := [h] } live
    powerOn live = true ∧ loopOn s = true ∧ h ∈ (sluiceOf s 0).hints ∧ h.placed = false ∧ (∀ g ∈ (sluiceOf s 0).hints, g.placed = false → h.pre ≤ g.pre) ∧
    pendAt live pgPwr 0x10 = none ∧ loopOn live = true ∧ live.pins.slowdown = false ∧ (∀ d < 4, rd live (pgTherm d) R.THERM_STATUS_AT_LIMIT = 0) ∧
    after (exec (.prePosition 0) s) (fun t => (sluiceOf t 0).hints.all (fun g => g.placed)) = true := by
  decide +kernel

/-! ### Resets, the come-out and boot -/

/-- R446 to R451: RESET_N asserts and releases, with and without another source; a SW reset with the wrong key; 48 V loss. -/
theorem witness_SourcesAssertAndRelease :
    Quiet live ∧ mainOn live = true ∧ debugOpen live = true ∧ Reaches .host pgRst live ∧ rd (wr pgEmb R.EMB_CAPTURE_ARMED 0 live) pgEmb R.EMB_CAPTURE_ARMED = 0 ∧
    Quiet (wr pgEmb R.EMB_CAPTURE_ARMED 0 live) ∧
    after (exec (.resetN true) live) (fun t => t.rst.held && t.rst.pend == 2 && t.rst.asserted == [4] && rd t pgRst R.RST_CAUSE == 0x11 &&
      after (exec (.resetN false) t) (fun u => rd u pgRst R.RST_STATUS_COMEOUT == 1 && u.rst.reach == 2) &&
      after (exec (.mainBrownout true) t) (fun u => after (exec (.resetN false) u) (fun v => v.rst.held && v.rst.asserted == [2])) &&
      after (exec .resetRelease t) (fun u => rd u pgRst R.RST_STATUS_COMEOUT == 1)) = true ∧
    after (exec (.swResetCompute .host 0xA4) live) (fun t => t == answered 0 0 live) = true ∧
    after (exec (.swResetCompute .host 0xA5) live) (fun t => t.rst.held && t.rst.pend == 1) = true ∧
    after (exec (.powerLoss true) live) (fun t => t.boot.pfail && t.rst.pend == 3 && !t.rst.held) = true ∧
    after (exec (.resetN true) (wr pgRst R.RST_STATUS_COMEOUT 1 live)) (fun t => t.rst.again == 4 && t.rst.pend == 0) = true := by
  unfold Quiet Reaches; decide +kernel

/-- R446 to R448: the fields of the quay page clear with a MODULE reset; a reset held stays as it is at RESET_N. -/
theorem witness_ResetsClearTheirFields :
    let s := { live with rst := { live.rst with held := true, pend := 3, asserted := [3] } }
    Quiet live ∧ s.rst.held = true ∧ 2 ≤ s.rst.pend ∧ rd s pgRst R.RST_STATUS_COMEOUT = 0 ∧ s.rst.asserted.contains 4 = false ∧
    R.CORE_DBG_CTRL_STOP ∈ fieldsOf .core ∧ fieldFiled (fieldKey (pgCore 8191) R.CORE_DBG_CTRL_STOP 0) = some (pgCore 8191, R.CORE_DBG_CTRL_STOP) ∧
    reachRank (fieldReach (pgCore 8191) R.CORE_DBG_CTRL_STOP) ≤ 2 ∧
    after (exec (.resetN true) (wr (pgCore 8191) R.CORE_DBG_CTRL_STOP 1 live)) (fun t => rd t (pgCore 8191) R.CORE_DBG_CTRL_STOP == 0) = true := by
  unfold Quiet; decide +kernel

/-- R408, R409, R440, R441: a capture at 0x40000; the power-fail record. -/
theorem witness_RecordsAreKept :
    let s := wr pgEmb R.EMB_CAPTURE_BASE 0x40000 { live with rst := { live.rst with capture := some ⟨6, 99, 7, 2⟩ } }
    s.rst.capture = some ⟨6, 99, 7, 2⟩ ∧ rd s pgEmb R.EMB_CAPTURE_BASE = 0x40000 ∧ 0x40000 % 64 = 0 ∧ s.rst.pend = 0 ∧
    after (exec .powerFailRecord { live with boot := { live.boot with pfail := true }, rst := { live.rst with pend := 3, asserted := [3] }, pins := { live.pins with main := false } })
      (fun t => t.rst.held && t.dram.isEmpty && t.factory.pfail.take 1 == [1]) = true := by
  decide +kernel

theorem witness_apart : Apart live (spanOf 0x40000 4096) := by
  simpa using apart_spans live_flat [(0x40000, 4096)] (by decide) (by decide)

/-- A come-out whose steps before `k` are complete, of reach `r`. -/
def coming (k r : Nat) : State :=
  wr pgRst R.RST_STATUS_COMEOUT 1 (wr pgRst R.RST_STATUS_STEP (k - 1) { live with rst := { live.rst with reach := r }, pins := ⟨true, false, false, true⟩ })

def fine : ComeoutInput := ⟨[List.replicate 8 0], false, false, false, true, true, 0, false, false, false, false, [], [], true, true, [], [], some (6, true), []⟩

/-- R453 to R460: every step of a come-out from the first, with nothing amiss; both paths failed; a boot with three fails. -/
theorem witness_ComeOutStepsComplete :
    nextStep (coming 1 4) = 1 ∧ nextStep (coming 2 2) = 2 ∧ (coming 2 2).pins.main = true ∧ (coming 9 2).pins.coolant = true ∧ (coming 4 2).boot.mailbox = false ∧
    linksSettled (coming 9 2) = true ∧ rd (wr pgHlink R.HLINK_STATUS_STATE 0 (coming 8 2)) pgHlink R.HLINK_STATUS_STATE ≠ 3 ∧
    after (exec (.comeout fine) (coming 1 4)) (fun t => rd t pgRst R.RST_STATUS_STEP == 1) = true ∧
    after (exec (.comeout fine) (coming 2 2)) (fun t => rd t pgRst R.RST_STATUS_STEP == 2 && rd t pgStrap R.STRAP_CODE_CODE == 0) = true ∧
    after (exec (.comeout { fine with d0 := false, d2 := false }) (coming 2 2)) (fun t => t.rst.bothFail && t.rst.held) = true ∧
    after (exec (.comeout fine) (coming 3 2)) (fun t => rd t pgRst R.RST_STATUS_STEP == 3) = true ∧
    after (exec (.comeout fine) (wr pgRst R.RST_BOOT_FAILS 3 (wr pgQuay R.QUAY_STATUS_READY 1 (coming 4 2))))
      (fun t => bitSet (rd t pgRst R.HEADER_ERR_STAT_ERR) 1 && rd t pgEmb R.EMB_STATUS_SAFE == 1) = true ∧
    after (exec (.comeout { fine with badChans := [255] }) (coming 5 2)) (fun t => rd t pgRst R.RST_STATUS_STEP == 5 && chState t 255 == 1) = true ∧
    after (exec (.comeout fine) (coming 6 2)) (fun t => rd t pgRst R.RST_STATUS_STEP == 6) = true ∧
    after (exec (.comeout { fine with badCores := [8191] }) (coming 7 2)) (fun t => rd t pgRst R.RST_STATUS_STEP == 7 && spareUsed t 8191) = true ∧
    after (exec (.comeout fine) (wr pgHlink R.HLINK_STATUS_STATE 0 (coming 8 2))) (fun t => rd t pgRst R.RST_STATUS_STEP == 8 &&
      rd t pgHlink R.HLINK_STATUS_VERSION == 6) = true ∧
    after (exec (.comeout fine) (coming 9 2)) (fun t => rd t pgRst R.RST_STATUS_COMEOUT == 0 && rd t pgRst R.RST_LAST_REACH == 2 && !t.stopAll) = true := by
  decide +kernel

/-- R463, R472: RET_DATA at the last word, an image that does not verify, a seal under way. -/
theorem witness_BootControls :
    let s := wr pgRst R.RST_STATUS_COMEOUT 1 { live with boot := { live.boot with mailbox := true } }
    Reaches .mgmt pgRst live ∧ Reaches .host pgRst live ∧
    after (exec (.hostBootImage 4 []) s) (fun t => !t.boot.mailbox && bitSet (rd t pgRst R.HEADER_ERR_STAT_ERR) 0) = true ∧
    after (exec .bootMailboxTimeout s) (fun t => !t.boot.mailbox) = true ∧
    after (exec (.retData .mgmt true 5#32) (wr pgRst R.RST_RET_ADDR 16383 live)) (fun t => mapGet 0 t.retained 16383 == 5) = true ∧
    after (exec .failsClr (wr pgRst R.RST_BOOT_FAILS 2 live)) (fun t => rd t pgRst R.RST_BOOT_FAILS == 0) = true := by
  unfold Reaches; decide +kernel

/-- R463: a seal asked for; step 2 of a MODULE come-out with the SRAM sealed. -/
theorem witness_RetainedSramIsSealed :
    let s := wr pgRst R.RST_RET_STATUS_SEALED 1 (coming 2 2)
    Quiet live ∧ Reaches .host pgRst live ∧ rd s pgRst R.RST_STATUS_COMEOUT = 1 ∧ s.rst.reach = 2 ∧ nextStep s = 2 ∧ s.rst.again = 0 ∧
    rd s pgRst R.RST_RET_STATUS_SEALED = 1 ∧ after (exec (.seal .host) live) (fun t => t.boot.sealing) = true := by
  unfold Quiet Reaches; decide +kernel

/-- R464, R473: a bit that nothing signed admits, an SVN_ADVANCE before FW_OK, and fuses blown. -/
theorem witness_FusesAttestationAndDebug :
    let s := wr pgFuse R.FUSE_PROG_STATUS_BUSY 1 { live with boot := { live.boot with prog := [3, 783, 1679, 1681] } }
    Reaches .mgmt pgFuse live ∧ rd live pgFuse R.FUSE_PROG_STATUS_BUSY = 0 ∧ Reaches .host pgSec live ∧ rd live pgSec R.SEC_STATUS_BUSY = 0 ∧
    live.factory.lmsOut = false ∧ attPlace live 6092 = true ∧
    after (exec (.prog .mgmt 3 []) live) (fun t => t.boot.prog.isEmpty && bitSet (rd t pgFuse R.HEADER_ERR_STAT_ERR) 1) = true ∧
    after (exec (.svnAdvance .mgmt 0x80000001#32) live) (fun t => t.boot.prog.isEmpty && bitSet (rd t pgFuse R.HEADER_ERR_STAT_ERR) 1) = true ∧
    after (exec (.ownerEnrol ⟨[], []⟩) live) (fun t => t.boot.prog == [1680, 9]) = true ∧
    after (exec (.fuseProgComplete true) s) (fun t => bitSet (rd t pgFuse R.FUSE_CFG_HOST_CLOSED) 0 && bitSet (rd t pgFuse R.FUSE_SVN_IMG) 63 &&
      rd t pgFuse R.FUSE_CFG_OWNER_SET == 2 && mapGet 0 t.factory.keys 71 == 2 ^ 31) = true ∧
    after (exec (.attReport .host) { live with factory := { live.factory with lmsOut := true } }) (fun t => rd t pgSec R.SEC_ATT_RESULT_CODE == 2) = true ∧
    after (exec .attComplete { live with boot := { live.boot with att := some (0x40000, [7, 8]) } }) (fun t => dramRead t 0x40000 3 == [7, 8, 0] &&
      rd t pgSec R.SEC_ATT_RESULT_LENGTH == 1) = true := by
  unfold Reaches; decide +kernel

/-- R467, R502, R503, R507 to R509: the TAP, the I3C target, the mailbox, the host link, MSI-X, a bridge, the SRAM. -/
theorem witness_PortsAndDeviceErrors :
    let s := wr (pgCanal 2) R.CANAL_STATUS_BRIDGE_V 1 { live with msiHold := true, msiDue := true }
    s.tap ≠ 3 ∧ mainOn s = true ∧ s.i3cAddr = none ∧ rd s pgHlink R.HLINK_STATUS_STATE = 3 ∧ s.rst.held = false ∧
    after (exec .extest s) (fun t => t.tap == 2) = true ∧ after (exec (.entdaa 127) s) (fun t => t.i3cAddr == some 127) = true ∧
    after (exec (.setdasa 0x3A 1) s) (fun t => t.i3cAddr == some 1) = true ∧
    after (exec .i3cState s) (fun t => t.i3cRead.length == 1) = true ∧
    after (exec .hlinkDown s) (fun t => bitSet (rd t pgHlink R.HEADER_ERR_STAT_ERR) 0) = true ∧
    after (exec .msiXMessage s) (fun t => t.msiHold && t.msiSent.length == 1) = true ∧
    after (exec (.bridgeLockLost 2 true) s) (fun t => rd t (pgCanal 2) R.CANAL_STATUS_BRIDGE_V == 0 && rd t pgEmb R.EMB_STATUS_SAFE == 1 && t.stopAll) = true ∧
    after (exec (.mgmtMemoryError false) s) (fun t => rd t pgMgmt R.MGMT_MGMT_CE_COUNT == 1 && !t.stopAll) = true := by
  decide +kernel

/-- A tick of the live module; the state after power-on keeps what every step keeps. -/
theorem witness_IdleStepsTick :
    live.pending = [] ∧ live.rst.held = false ∧ after (step live) (fun t => rd t pgMgmt R.MGMT_TICK == 1 && t.aonPart == 32768) = true ∧
    after (step { live with aonPart := 100000000 - 32768 }) (fun t => rd t pgAon R.AON_TIME == 1 && t.aonPart == 0) = true := by decide +kernel

theorem witness_StepsStayLegal : StaysLegal State.reset ∧ ∃ t, step State.reset = .next t := by
  refine ⟨?_, after_next (f := fun _ => true) (by decide +kernel)⟩
  refine ⟨by decide +kernel, by decide +kernel, by decide +kernel, by decide +kernel, by decide +kernel, by decide +kernel, ?_⟩
  intro a h
  exact absurd h (by rw [show State.reset.i3cAddr = none from rfl]; simp)

/-! ### Streams and steps -/

/-- Doublewords put at addresses of device DRAM. -/
def store (l : List (Nat × Nat)) (s : State) : State := l.foldl (fun t e => dramPutWord e.1 e.2 t) s

/-- The module of job 9 with its schedule running and polder 0, of block 0 and section 0, switched to context 5. -/
def running (x : Ctx) : State :=
  wr pgSched R.SCHED_STATUS_RUNNING 1
    { jobbed x with polTab := [(0, [1, 1, 0, 1, 0, 0, 0, 0, 0, 0, 0, 0, 4, 0, 0, 0])], pols := [(0, ⟨some 5, none, 0, 0, 0, 0⟩)] }

/-- Stream 0 shows one entry: a segment of one word, from 0x30000 to index 4095, on core 0. -/
def fwd : State := store [(0x20000, 1), (0x10000, 1), (0x10008, 4095 * 2 ^ 32), (0x10010, 0x30000 + 2 ^ 48), (0x10018, 2 ^ 16 + 2 ^ 24)] (running { ctx0 with tails := [(0, 1)] })

/-- R350 to R352: a tail read; the segment at the head starts on its core; one that has ended advances the head. -/
theorem witness_StreamsAreFetched :
    let x := { ctx0 with tails := [(0, 1)] }
    let ws := entryWords fwd x 0 0
    let e : Started := ⟨0, 0, 0, 0, 1, 1, 0x40, true, 0, false, 0, false, 0, 0, 0, 0, [], false, false⟩
    fetchOn fwd 5 x = true ∧ (ringOf x 0).log2n ≠ 0 ∧ dramWord fwd (ringOf x 0).tail = 1 ∧ headOf fwd 5 0 = 0 ∧ nextOf x 0 < tailOf x 0 ∧
    segOk fwd x ws = true ∧ tagBad x ws = false ∧ wf ws 4 0 48 = 0 ∧ holdLets x none = true ∧ tagged ws = false ∧ rectCores ws = [0] ∧
    coreTakes fwd 5 0 0 = true ∧
    after (exec (.tailRead 5 0) fwd) (fun t => t.ctxs.map (fun e => e.2.tails) == [[(0, 1)]]) = true ∧
    after (exec (.tailRead 5 0) (store [(0x20000, 17)] fwd)) (fun t => bitSet (rd t (pgCtx 5) R.HEADER_ERR_STAT_ERR) 2) = true ∧
    after (exec (.segmentStart 5 0) fwd) (fun t => (coreOf t 0).cur == some 0 && (coreOf t 0).ctx == some 5 && xnat (coreOf t 0) 3 == 5) = true ∧
    after (exec (.segmentEnd 5 0) (running { x with started := [e] })) (fun t => dramWord t 0x40 == 1 && headOf t 5 0 == 1 && dramWord t 0x20008 == 1) = true := by
  decide +kernel

theorem fwd_flat : Flat fwd := ⟨by decide +kernel, by decide +kernel, by decide +kernel, by decide +kernel, uninjected (by decide +kernel)⟩

/-- The reads and the places that the statement about streams asks for. -/
theorem witness_stream_places :
    ReadsSound fwd 0x20000 8 ∧ ReadsSound fwd 0x10000 64 ∧ ReadsSound fwd 0x30000 8 ∧ Apart fwd (spanOf 0x40 8 ++ spanOf (0x20000 + 8) 8) := by
  refine ⟨reads_flat fwd_flat (by decide), reads_flat fwd_flat (by decide), reads_flat fwd_flat (by decide), ?_⟩
  simpa using apart_spans fwd_flat [(0x40, 8), (0x20008, 8)] (by decide) (by decide)

/-- The placement of one member, this module, that owns every shard. -/
def alone : Place := ⟨0x3000, 1, 0, [⟨0, 0, 0, true, false, 0, 0⟩], [], 0⟩

/-- Step 0 of 5 micro-batches in the ring, planned next; its tally at 0x9000, its reports at 0x60000. -/
def steps (x : Ctx) : State :=
  store [(0x20040, 1), (0x11000, 5 * 2 ^ 32), (0x8000, 2 ^ 2 + 2 ^ 20), (0x8020, 0x60000), (0x8030, 0x9000)] (running x)

/-- R248 to R250, R263, R270: a step planned, a micro-batch admitted, a boundary passed, a hold that waits. -/
theorem witness_StepsArePlannedAndPass :
    let x := { ctx0 with place := some alone, tails := [(3, 1)] }
    let s := steps x
    let ws := entryWords s x 3 0
    let y := { ctx0 with place := some alone, plans := [⟨0, 5, 0, 5⟩], admitStep := some 0, admitIdx := 4 }
    fetchOn s 5 x = true ∧ nextOf x 3 < tailOf x 3 ∧ steerMode s x ≠ 2 ∧ stepDescOk s x ws = true ∧ x.placeNext = none ∧
    placeFor x (wf ws 0 0 32) = some alone ∧ wf (dramWords s alone.addr 8) 4 0 48 = 0 ∧ namesMe s alone = true ∧ rankOf s alone = some 0 ∧
    reportAddr s x 0 = 0x60000 ∧ bitsOf (blockWord s x 6) 0 48 = 0x9000 ∧
    holdLets y (some 0) = true ∧ 0 < mbLimit (steps y) y ∧ mapFind y.slots 0 = none ∧ fetchOn (steps y) 5 y = true ∧
    after (exec (.admission 5) (steps y)) (fun t => t.ctxs.map (fun e => (e.2.slots, e.2.admitIdx)) == [([(0, ⟨0, 4, [], false⟩)], 5)]) = true ∧
    stepLe 0 (lastReport s x) = true ∧ bindsPassed s 5 0 = true ∧ Reaches .host (pgCtx 5) s ∧
    after (exec (.stepBoundary 5) (running { ctx0 with boundary := some 0 })) (fun t => t.ctxs.map (fun e => e.2.boundary) == [some 1]) = true ∧
    after (exec (.stepHold .host 5 true) s) (fun t => pendingRd t (pgCtx 5) R.CTX_CTRL_HOLD 0 == 1 && rd t (pgCtx 5) R.CTX_CTRL_HOLD == 0) = true := by
  unfold Reaches; decide +kernel

theorem test_step_plan :
    after (exec (.stepPlan 5) (steps { ctx0 with place := some alone, tails := [(3, 1)] })) (fun t => dramWord t 0x9000 == 1 && dramWord t 0x60000 == 2 ^ 32 &&
      dramWord t 0x60008 == 5 + 5 * 2 ^ 41 && headOf t 5 3 == 1) = true := by decide +kernel

theorem steps_flat : Flat (steps { ctx0 with place := some alone, tails := [(3, 1)] }) :=
  ⟨by decide +kernel, by decide +kernel, by decide +kernel, by decide +kernel, uninjected (by decide +kernel)⟩

theorem witness_plan_places :
    let s := steps { ctx0 with place := some alone, tails := [(3, 1)] }
    ReadsSound s 0x11000 64 ∧ ReadsSound s (0x3000 + 32) 8 ∧
    Apart s (spanOf 0x60000 128 ++ spanOf 0x8000 256 ++ spanOf 0x9000 8 ++ spanOf (0x20040 + 8) 8) := by
  refine ⟨reads_flat steps_flat (by decide), reads_flat steps_flat (by decide), ?_⟩
  simpa [List.append_assoc] using apart_spans steps_flat [(0x60000, 128), (0x8000, 256), (0x9000, 8), (0x20048, 8)] (by decide) (by decide)

/-! ### Update engines and collectives -/

/-- A descriptor of one group of one block, with one shard at 0x100000 and its generation word at 0x50000. -/
def desc1 : BindDesc :=
  { ctx := 5, mw := false, nmom := 0, fact := false, groups := [⟨0, 0, true, 0⟩], total := 1, prog := [], hyper := 0, table := 0,
    shards := [⟨0, 1, false, 0x100000, 0x50000⟩], slots := 1, mod := 0, mirror := 0, pool := 0x80000 }

/-- A binding of it with nothing under way. -/
def bound1 : Binding :=
  { desc := desc1, phase := 0, nodes := [], series := [], got := [], heldN := [], heldG := [], restore := [], mirWait := [], roots := [],
    sums := ⟨0, false, 0, 0, 0, 0, 0, 0, false⟩, up := false, todo := [], updStep := 1, zs := [], since := 0, updSq := 0, crcs := [], passed := 0, hasPassed := false,
    mirLost := false, migOut := [], migSent := [], migIn := [], ckptWait := [], spare := false, fastStep := none, fastOff := [], stalled := [], freed := false }

/-- The module of job 9 with that binding as number 0 of stack 0. -/
def binding (b : Binding) (x : Ctx) : State := { steps x with binds := [(0, b)] }

/-- R222: a descriptor of zeros is refused; one with an empty shard table and a microprogram of one END binds: its header
at 0x2000, its group table after it, the image at 0x2400 and the slots in section 1, in mode 3 of stack 0. -/
def descAt : State :=
  store [(0x2000, 5 + 2 ^ 12), (0x2008, 0x2400 + 2 * 2 ^ 48), (0x2018, 0x2800), (0x2020, 2 ^ 30 + 2 ^ 48), (0x2050, 1), (0x2400, 0x1FF + 0x1FF * 2 ^ 9 + 0x1FF * 2 ^ 18 + 2 ^ 27)]
    (wri (pgMemc 0) R.MEMC_SECT_MODE 1 3 (steps ctx0))

theorem witness_BindingsAreMade :
    let off := R.UPD_BIND_DESC.off
    let s := { wri (pgUpd 0) R.UPD_BIND_CTRL_VALID 0 1 descAt with pend := [(wordKey (pgUpd 0) off, 0x2000)] }
    let z := { s with pend := [(wordKey (pgUpd 0) off, 0xA000)] }
    let mine (o : Nat) : Bool := decide (0x100 ≤ o ∧ o < 0x180)
    let w := applySel (pgUpd 0) mine s
    bindAt s 0 = none ∧ (pendOffs s (pgUpd 0)).any (fun e => mine e.1) = true ∧ urd w R.UPD_BIND_CTRL_VALID 0 = 1 ∧ urd w R.UPD_BIND_DESC 0 = 0x2000 ∧
    descGood w 0 0x2000 = true ∧ progOk (readDesc w 0x2000).prog 0 false = true ∧ ctxOf w 5 = some ctx0 ∧ (readDesc w 0x2000).ctx = 5 ∧
    updMaxLets w 0 0 = true ∧ interrupted w (readDesc w 0x2000) = [] ∧
    after (exec (.bind 0 0) s) (fun t => (bindAt t 0).isSome && bitSet (rd t (pgUpd 0) R.UPD_STATUS_BOUND) 0 && urd t R.UPD_BIND_STEP 0 == 1) = true ∧
    after (exec (.bind 0 0) z) (fun t => (bindAt t 0).isNone && bitSet (rd t (pgUpd 0) R.HEADER_ERR_STAT_ERR) 0) = true := by
  decide +kernel

/-- R231, R239: the update of a frozen part may run; the commit of the last part. -/
theorem witness_ShardPartsAreUpdated :
    let b := { bound1 with phase := 4, todo := [(0, 0)] }
    let c := { b with crcs := [((0, 0), 7)] }
    let m := { bound1 with migOut := [(0, 0)] }
    let x := { ctx0 with place := some alone, placeNext := some { alone with eff := 1 } }
    let h : Shard := ⟨0, 1, false, 0x100000, 0x50000⟩
    bindAt (binding b ctx0) 0 = some b ∧ shardOf b.desc 0 = some h ∧ mayUpdate (binding b ctx0) 0 b 0 0 = true ∧ partBlocks desc1 0 0 = [0] ∧
    genAt h 0 = 0x50000 ∧ recAt desc1 h 0 = 0x100000 ∧ recStride desc1 = 12288 ∧ (groupAt desc1 0).frozen = true ∧
    c.crcs.any (fun e => e.1 == (0, 0)) = true ∧
    (0, 0) ∈ m.migOut ∧ (0, 0) ∉ m.migSent ∧ gwUpd (genWord (binding m x) h 0) = false ∧ stepLe (stepPrev 1) (gwGen (genWord (binding m x) h 0)) = true := by
  decide +kernel

theorem binding_flat : Flat (binding { bound1 with phase := 4, todo := [(0, 0)] } ctx0) :=
  ⟨by decide +kernel, by decide +kernel, by decide +kernel, by decide +kernel, uninjected (by decide +kernel)⟩

theorem witness_shard_places :
    let s := binding { bound1 with phase := 4, todo := [(0, 0)] } ctx0
    Apart s (spanOf 0x50000 8 ++ [0].flatMap (fun j => spanOf (0x100000 + j * 12288) 12288)) ∧ ReadsSound s 0x100000 12288 ∧
      dramPoisoned s 0x100000 12288 = false := by
  refine ⟨?_, reads_flat binding_flat (by decide), poison_flat binding_flat (by decide +kernel) _ _⟩
  simpa using apart_spans binding_flat [(0x50000, 8), (0x100000, 12288)] (by decide) (by decide)

/-- R159, R164, R228, R229: a child's verdict is kept; contributions late, early, and of the step being reduced. -/
theorem witness_VerdictsAndContributionsAreTaken :
    let p : Place := { alone with members := [⟨0, 0, 0, true, false, 0, 0⟩, ⟨1, 0, 0, true, false, 0, 0⟩] }
    let x := { ctx0 with place := some p }
    let s := binding bound1 x
    let v := tr 0 12 2 0 0 []
    let n := tr 6 0 0 0 0 []
    TakenIn 0 v s ∧ ServedHere 0 v 5 x s ∧ placeFor x 0 = some p ∧ memberIdx s p = some 0 ∧
    (childrenOf p 0).find? (fun c => moduleOf p c == v.src) = some 1 ∧ lowestOpen s x = 1 ∧ bindFor s 5 (nV n) = some 0 ∧
    shardOf bound1.desc (nV n) = some ⟨0, 1, false, 0x100000, 0x50000⟩ ∧ gwGen (genWord s ⟨0, 1, false, 0x100000, 0x50000⟩ (nU n)) = 0 ∧
    stepLe n.step 0 = true ∧ stepLe 1 0 = false ∧ planOf x 1 = none ∧ reduceWaits s 0 5 bound1 ⟨0, 1, false, 0x100000, 0x50000⟩ 0 = false ∧
    after (exec (.verdictUp 0 v) s) (fun t => t.ctxs.map (fun e => e.2.ups.map (fun u => u.1)) == [[1]]) = true ∧
    after (exec (.node 0 n) s) (fun t => urd t R.UPD_BIND_LATE_DROP 0 == 1) = true ∧
    after (exec (.node 0 { n with step := 1, stepValid := true }) s) (fun t => t.binds.map (fun e => e.2.heldN.length) == [1]) = true := by
  refine ⟨⟨?_, ?_, ?_, uninjected ?_⟩, ?_, ?_⟩
  · decide +kernel
  · decide +kernel
  · decide +kernel
  · decide +kernel
  · unfold ServedHere; decide +kernel
  · decide +kernel

/-- R159: two siblings of a tree of two leaves. -/
theorem test_siblings :
    (let l : Node := ⟨0, 0, 0, 0, 0, [0x3F800000], false, 0⟩
     let r : Node := ⟨0, 0, 0, 0, 1, [0x40000000], false, 0⟩
     let s := binding bound1 ctx0
     [placeNode 0 2 1 40 r (placeNode 0 2 1 40 l s), placeNode 0 2 1 40 l (placeNode 0 2 1 40 r s)].all (fun t =>
       t.binds.map (fun e => e.2.nodes) == [[⟨0, 0, 0, 64, 0, [0x40400000], false, 0⟩]] && dramRead t 0x80000 4 == [0, 0, 0x40, 0x40])) = true := by
  decide +kernel

/-- R300, R301: an entry of a ring of 16 taken, without a binding, and with one. -/
theorem witness_CollectivesAreSent :
    let x := { ctx0 with coll := ⟨0x12000, 4, 0x20080⟩, plans := [⟨0, 1, 0, 1⟩], place := some alone }
    let s := store [(0x20080, 1)] (binding bound1 x)
    let ws := dramWords s 0x12000 16
    let e : CollEntry := ⟨5, 0, ws, some 0, false, [], []⟩
    let g : CollEntry := ⟨5, 0, [1, 2 ^ 40, 0, 0, 0, 0, 0, 0, 0, 0, 0, 0, 0, 0, 0, 0], some 1, false, [], []⟩
    ctxState s 5 = stResident ∧ x.coll.log2n ≠ 0 ∧ collNextOf x 0 = 0 ∧ 0 < dramWord s x.coll.tail ∧ (collsOfDie s 0).length < 16 ∧ collOk s 5 x ws = true ∧
    collOk { s with binds := [] } 5 x ws = false ∧ collWaiting { s with colls := [e] } 5 0 = some e ∧ collDesc s 5 = some desc1 ∧
    placeFor x (wf ws 0 16 32) = some alone ∧ sendBacked s e desc1 (lgOf s x) = true ∧ groupShards desc1 (wf ws 0 8 8) = [0] ∧
    collWaiting { s with colls := [g] } 5 1 = some g ∧ collCc g ≤ (engOf s (collEng (g.idx % 4))).cls ∧ wf g.words 0 2 1 = 0 ∧ wf g.words 1 40 24 = 1 ∧
    after (exec (.collEntryTake 5) s) (fun t => t.colls == [e] && t.ctxs.map (fun c => c.2.collNext) == [[(0, 4)]]) = true ∧
    after (exec (.collEntryTake 5) { s with binds := [] }) (fun t => bitSet (rd t (pgCtx 5) R.HEADER_ERR_STAT_ERR) 7) = true := by
  decide +kernel

/-- R228, R229: a contribution of zeros to the step being reduced, and the slot at the base of the pool. -/
theorem witness_ContributionsWait :
    let p : Place := { alone with members := [⟨0, 0, 0, true, false, 0, 0⟩, ⟨1, 0, 0, true, false, 0, 0⟩] }
    let x := { ctx0 with place := some p, plans := [⟨1, 1, 0, 1⟩] }
    let s := binding bound1 x
    let n : Train := { tr 6 0 0 0 0 [] with step := 1, stepValid := true, bodies := ⟨224, List.replicate 224 0#8, false⟩ :: List.replicate 15 ⟨252, List.replicate 252 0#8, false⟩ ++
      [⟨92, List.replicate 92 0#8, false⟩] }
    (carries s n 0 = true ∧ (trainSeqs n).all (seqFresh (linkOf s 0)) = true ∧ malformed (linkV1 s 0) n = false) ∧ ServedHere 0 n 5 x s ∧
    planOf x 1 = some ⟨1, 1, 0, 1⟩ ∧ n.step = stepNext 0 ∧ reduceWaits s 0 5 bound1 ⟨0, 1, false, 0x100000, 0x50000⟩ 0 = false ∧
    0 < bound1.desc.slots ∧ (bodyWords n).length = nodeWords (lgOf s x) n ∧ bound1.got = [] ∧ bound1.desc.pool % 64 = 0 := by
  unfold ServedHere; decide +kernel

theorem bound_flat : Flat (binding bound1 ctx0) :=
  ⟨by decide +kernel, by decide +kernel, by decide +kernel, by decide +kernel, uninjected (by decide +kernel)⟩

theorem witness_pool_places : Places (binding bound1 ctx0) 0x80000 4096 ∧ ReadsSound (binding bound1 ctx0) 0x80000 4096 :=
  ⟨places_flat bound_flat (by decide), reads_flat bound_flat (by decide)⟩

/-- A descriptor's reads meet no error. -/
theorem witness_descriptor_reads : BackedSound (binding bound1 ctx0) 0x2000 96 := by
  refine ⟨bound_flat.2.2.2.2, fun i hi q hq => ?_⟩
  rw [bound_flat.2.2.2.1, bound_flat.2.2.1]
  exact ⟨rfl, rfl⟩

/-! ### Register accesses and the debug commands -/

/-- R64, R69, R115, R503: a page locked, a bit cleared and one armed, a link reset, a core stopped and stepped, a read of an
odd half of a counter, and the I3C target's read and write. -/
theorem witness_EveryCommandCompletes :
    Instr.wf (.rcRead .host (2 ^ 41 + 0x0C00_0014) 8) = true ∧ Reaches .host pgRst live ∧ Reaches .host (pgCore 8191) live ∧ Reaches .mgmt (pgLink 31) live ∧
    debugOpen live = true ∧ rd live pgRst R.HEADER_PAGE_LOCK_LOCK = 0 ∧ bitSet (capsOf .link) 2 = true ∧ blockIdle live (pgLink 31) = true ∧
    (coreOf (on { busy with dbgStop := true }) 0).dbgStop = true ∧ (pageAt 0x0C00_0014).isSome = true ∧ i3cServed live = true ∧
    pathUp .host live = true ∧ accessShape (2 ^ 41 + 0x0C00_0014) 4 = true ∧ accessShape (2 ^ 41 + 0x0C00_0014) 8 = false ∧
    after (exec (.pageLock .host pgRst) live) (fun t => rd t pgRst R.HEADER_PAGE_LOCK_LOCK == 1) = true ∧
    after (exec (.errStatClear .host pgRst 0xFFFFFFFF#32) (wr pgRst R.HEADER_ERR_STAT_ERR 0x7FFFFFFF live)) (fun t => rd t pgRst R.HEADER_ERR_STAT_ERR == 0) = true ∧
    after (exec (.errInj .host pgRst 0x103#32) live) (fun t => injArmed t pgRst 3 && !injArmed t pgRst 2) = true ∧
    after (exec (.srstReq .mgmt (pgLink 31)) live) (fun t => t.inReset.contains (pageKey (pgLink 31))) = true ∧
    after (exec (.dbgStop .host 0) (on busy)) (fun t => (coreOf t 0).dbgStop) = true ∧
    after (exec (.dbgResume .host 0) (on { busy with dbgStop := true })) (fun t => !(coreOf t 0).dbgStop) = true := by
  unfold Reaches; decide +kernel

/-! ### Weight locks -/

/-- Lock 0 of context 5 in mode `mode`, its ring at 0x40000, its tallies from 0x50000, chamber A in state `a`. -/
def locked (mode a bound : Nat) : State :=
  [(R.WLOCK_LOCK_CTRL_CONTEXT, 5), (R.WLOCK_LOCK_CTRL_MODE, mode), (R.WLOCK_LOCK_CTRL_VALID, bound), (R.WLOCK_LOCK_CH_A_BASE, 0x100000),
    (R.WLOCK_LOCK_CH_B_BASE, 0x200000), (R.WLOCK_LOCK_CH_LEN, 0x1000), (R.WLOCK_LOCK_RING_BASE, 0x40000), (R.WLOCK_LOCK_RING_LOG2N, 4),
    (R.WLOCK_LOCK_TAIL_TALLY, 0x50000), (R.WLOCK_LOCK_RET_A_TALLY, 0x50040), (R.WLOCK_LOCK_RET_B_TALLY, 0x50080), (R.WLOCK_LOCK_PASS_BASE, 0x500C0),
    (R.WLOCK_LOCK_REWRITE_TALLY, 0x50100), (R.WLOCK_LOCK_DONE_TALLY, 0x50140), (R.WLOCK_LOCK_IP_LAYERS, 1), (R.WLOCK_LOCK_STATUS_STATE_A, a)].foldl
      (fun t e => wri pgWlock e.1 0 e.2 t) (wr pgWlock R.WLOCK_STATUS_BOUND bound (jobbed ctx0))

theorem locked_uninjected : Uninjected (locked 0 0 0) ∧ Uninjected (locked 0 3 1) ∧ Uninjected (locked 1 3 1) :=
  ⟨uninjected (by decide +kernel), uninjected (by decide +kernel), uninjected (by decide +kernel)⟩

/-- R328 to R337: VALID that binds and one without a ring; FILL, READY, a gate opened; an entry admitted, a layer granted. -/
theorem witness_WeightLocks :
    let s := { locked 0 0 0 with pend := [(wordKey pgWlock 0x100, 1 + 5 * 2 ^ 8)] }
    let z := wri pgWlock R.WLOCK_LOCK_RING_LOG2N 0 13 s
    let g := { locked 0 2 1 with pend := [(wordKey pgWlock 0x100, 1 + 4 + 5 * 2 ^ 8)] }
    let a := store [(0x50000, 1)] (wri pgWlock R.WLOCK_LOCK_STATUS_ACTIVE 0 1 (locked 0 3 1))
    let i := wri pgWlock R.WLOCK_LOCK_STATUS_BARRIER 0 1 (locked 1 3 1)
    (pendOffs s pgWlock).any (fun e => lockOff 0 e.1) = true ∧ lockBound s 0 = false ∧ lockCfgOk (applySel pgWlock (lockOff 0) s) 0 = true ∧
    lockCfgOk (applySel pgWlock (lockOff 0) z) 0 = false ∧ (∀ e ∈ pendOffs g pgWlock, lockDiscards g 0 e.1 = false) ∧ Reaches .host pgWlock s ∧
    chamber (applySel pgWlock (lockOff 0) g) 0 0 = 2 ∧ lockBound a 0 = true ∧ a.wlStop = [] ∧ dramWord a 0x50000 = admitted a 0 + 1 ∧
    admitOk (admitWords a 0 0) = true ∧ passOf i 0 0 = wl i R.WLOCK_LOCK_ADMITTED_A 0 ∧ dramWord i 0x50140 < 1 ∧
    after (exec (.wlockBind 0) s) (fun t => lockBound t 0 && chamber t 0 0 == 0) = true ∧
    after (exec (.wlockBind 0) z) (fun t => !lockBound t 0 && bitSet (rd t pgWlock R.HEADER_ERR_STAT_ERR) 0) = true ∧
    after (exec (.fill .host 0 0) (locked 0 0 1)) (fun t => chamber t 0 0 == 1) = true ∧
    after (exec (.ready .host 0 0) (locked 0 1 1)) (fun t => chamber t 0 0 == 2) = true ∧
    after (exec (.abandon .host 0 0) (locked 0 3 1)) (fun t => chamber t 0 0 == 3 && bitSet (rd t pgWlock R.HEADER_ERR_STAT_ERR) 0) = true ∧
    after (exec (.gateApply 0) g) (fun t => wl t R.WLOCK_LOCK_STATUS_ACTIVE 0 == 1 && chamber t 0 0 == 3 && wl t R.WLOCK_LOCK_GEN 0 == 1) = true ∧
    after (exec (.tailTallyRead 0) a) (fun t => dramWord t 0x40010 == 2 ^ 32 && dramWord t 0x40018 == 0x100000 && dramWord t 0 == 1) = true ∧
    after (exec (.ipStart .host 0) (locked 1 3 1)) (fun t => wl t R.WLOCK_LOCK_STATUS_BARRIER 0 == 1) = true ∧
    after (exec (.tailTallyRead 0) i) (fun t => wl t R.WLOCK_LOCK_IP_NEXT 0 == 1 && dramWord t 0x50100 == 1) = true := by
  unfold Reaches; decide +kernel

/-! ### Polders, contexts and the schedule -/

/-- A polder table of zeros at 0x40000 to be read, and one whose first entry has a reserved bit. -/
def tables (w : Nat) : State := store [(0x40000, w)] (wr pgSched R.SCHED_POLDER_BASE 0x40000 { live with polDue := true })

theorem witness_polder_tables :
    Uninjected (tables 0) ∧ (tables 0).polDue = true ∧
    live.polDue = false := by
  refine ⟨uninjected (by decide +kernel), ?_, ?_⟩ <;> decide +kernel

/-- R347, R348: a descriptor at 0x40000, general, of polder 0 and section 0, its mask at 0x48000. -/
def described : State :=
  store [(0x40000, 9 + 2 * 2 ^ 24), (0x40018, 0x3000), (0x40020, 0x12000 + 4 * 2 ^ 48), (0x40028, 0x20080), (0x40030, 2), (0x40038, 0x100000),
    (0x40040, 0x48000), (0x48000, 1)]
    (wr pgSched R.SCHED_CREATE_DESC 0x40000 { live with polTab := [(0, [1, 0, 0, 1, 0, 0, 0, 0, 0, 0, 0, 0, 0, 0, 0, 0])] })

theorem witness_TablesAndContextsAreMade :
    let ws := dramWords described 0x40000 32
    Uninjected described ∧ Reaches .host pgSched described ∧ ctxDescOk described ws (maskOf (dramWords described 0x48000 8)) = true ∧ ctxOf described 0 = none ∧
    backed described 0x48000 64 = true ∧ dramPoisoned described 0x48000 64 = false ∧
    after (exec (.createGo .host) described) (fun t => ctxState t 0 == stSwapped && rd t pgSched R.SCHED_CREATE_RESULT_CODE == 1 &&
      (ctxOf t 0).isSome && rdi t pgSched R.SCHED_POLDER_GEN 0 == 1) = true ∧
    after (exec (.createGo .host) (wr pgSched R.SCHED_CREATE_DESC 0x40004 described)) (fun t => rd t pgSched R.SCHED_CREATE_RESULT_CODE == 3 && t.ctxs.isEmpty) = true := by
  unfold Reaches
  refine ⟨uninjected (by decide +kernel), ?_⟩
  decide +kernel

/-- The schedule of polder 0 with a slot `i` of context 5, guaranteed. -/
def slotted (i st : Nat) : State :=
  wr (pgCtx 5) R.CTX_STATUS_STATE st (wri pgSched R.SCHED_SLOT_VALID i 1 (wri pgSched R.SCHED_SLOT_CONTEXT i 5 (wri pgSched R.SCHED_SLOT_GUARANTEED i 1
    (wr pgSched R.SCHED_STATUS_RUNNING 1 (jobbed { ctx0 with saveBase := 0x100000 })))))

/-- R355 to R359: the last slot of the table, its context resident and not; a switch point; a switch's end. -/
theorem witness_SlotsSwitchContexts :
    let s := slotted 255 stResident
    let x := { ctx0 with saveBase := 0x100000 }
    let p := setPol 0 { polOf s 0 with cur := some 5, phase := 1, nomAt := 0 } s
    let q := setPol 0 { polOf s 0 with next := some 5, phase := 2 } s
    Uninjected p ∧ s.stopAll = false ∧ rd s pgSched R.SCHED_CTRL_SWAP_POLICY ≠ 2 ∧ (polOf s 0).slot = 256 ∧
    (∀ j < 255, rdi s pgSched R.SCHED_SLOT_VALID j ≠ 1) ∧ ctxOf p 5 = some x ∧ p.cores = [] ∧ polderCores q 0 = [] ∧ slotCtx q 0 = none ∧
    after (exec (.slotStart 0) s) (fun t => (polOf t 0).slot == 255 && (polOf t 0).next == some 5 && (polOf t 0).phase == 1) = true ∧
    after (exec (.slotStart 0) (slotted 0 stSwapped)) (fun t => bitSet (rd t (pgCtx 5) R.HEADER_ERR_STAT_ERR) 6) = true ∧
    after (exec (.switchPointReached 0) p) (fun t => (polOf t 0).phase == 2) = true ∧
    after (exec (.switchComplete 0) q) (fun t => (polOf t 0).cur == some 5 && (polOf t 0).phase == 0) = true := by
  refine ⟨uninjected (by decide +kernel), ?_⟩
  decide +kernel

/-- R344, R356, R361: a cycle starts the schedule; a slot shorter than 1,000 ticks is dropped; a swap out and in. -/
theorem witness_CyclesTurnAndSwapsRun :
    let s := { jobbed ctx0 with pend := [(wordKey pgSched 0x10, 1)] }
    let z := { jobbed ctx0 with pend := [(wordKey pgSched 0x800, 2 ^ 7)] }
    let w := wr (pgCtx 5) R.CTX_STATUS_STATE stSwapping (jobbed ctx0)
    let o := wr (pgCtx 5) R.CTX_STATUS_STATE stSwapping (jobbed { ctx0 with swapOut := true })
    Uninjected z ∧ pendOffs s pgSched = [(0x10, 1)] ∧ (∀ e ∈ pendOffs z pgSched, slotOff e.1 = true) ∧ ((pendOffs z pgSched).map (fun e => e.1)).Nodup ∧
    Reaches .host (pgCtx 5) s ∧ rd s (pgCtx 5) R.CTX_CTRL_PIN = 0 ∧
    ctxState w 5 = stSwapping ∧ ctxState o 5 = stSwapping ∧ (polOf o 0).cur ≠ some 5 ∧
    after (exec (.swapOut .host 5) (jobbed ctx0)) (fun t => t.ctxs.map (fun e => e.2.swapReq) == [true]) = true ∧
    after (exec (.swapComplete 5) w) (fun t => ctxState t 5 == stResident) = true := by
  unfold Reaches
  refine ⟨uninjected (by decide +kernel), ?_⟩
  decide +kernel

/-- R363 to R365: a teardown, its drain and its scrub. -/
theorem witness_ContextsAreTornDown :
    let s := { jobbed ctx0 with cores := [(7, { busy with ctx := some 5, g := 3 })] }
    let d := wr (pgCtx 5) R.CTX_STATUS_STATE stTearing s
    let c := wr (pgCtx 5) R.CTX_STATUS_STATE stScrubbing (store [(0x100, 1)] s)
    Reaches .host (pgCtx 5) s ∧ ctxState s 5 = stResident ∧ ctx0.polder < 128 ∧ ctxState d 5 = stTearing ∧ d.engines = [] ∧ ctxState c 5 = stScrubbing ∧
    after (exec (.teardown .host 5) s) (fun t => ctxState t 5 == stTearing && (coreOf t 7).stopIssue && (coreOf t 7).g == 0) = true ∧
    after (exec (.teardownDone 5) d) (fun t => ctxState t 5 == stScrubbing) = true ∧
    after (exec (.scrubDone 5) c) (fun t => ctxState t 5 == stEmpty && (ctxOf t 5).isNone && dramWord t 0x100 == 0) = true := by
  unfold Reaches; decide +kernel

/-- R404, R406, R435 to R438: a stall, a lock-up without a capture, an audit that agrees and one that does not. -/
theorem witness_WatchesAndAuditsAct :
    let s := { jobbed { ctx0 with typ := 1 } with pols := [(0, ⟨some 5, none, 0, 0, 0, 0⟩)] }
    let l := wr pgEmb R.EMB_CAPTURE_ARMED 0 s
    ctx0.progressUs ≠ 0 ∧ (polOf s 0).cur = some 5 ∧ isHeld s 5 = false ∧ Quiet l ∧ rd l pgEmb R.EMB_CAPTURE_ARMED = 0 ∧
    (auditOf s 8191).st = 0 ∧ regionOfCore 8191 = 63 ∧ rd s (pgSluice 63) R.SLUICE_FLOOR_TRIM < 12 ∧
    after (exec (.auditCompare 0 ⟨false, [], false, []⟩) { s with audits := [⟨8191, 5, none, 0, 1, 1, [], 0, 8190⟩] }) (fun t => t.audits.isEmpty &&
      rd t pgAudit R.AUDIT_SAMPLED == 1) = true ∧
    after (exec (.auditCompare 0 ⟨false, [(4095, 1)], false, [(4095, 1)]⟩) { s with audits := [⟨8191, 5, none, 0, 1, 1, [], 0, 8190⟩] })
      (fun t => (auditOf t 8191).st == 1 && bitSet (rd t pgAudit R.HEADER_ERR_STAT_ERR) 0 && rd t (pgSluice 63) R.SLUICE_FLOOR_TRIM == 1) = true ∧
    after (exec (.progressStall 5) s) (fun t => bitSet (rd t pgEmb R.HEADER_ERR_STAT_ERR) 4) = true ∧
    after (exec .fabricLockup l) (fun t => t.rst.held && t.rst.pend == 1) = true := by
  unfold Quiet; decide +kernel

end Sys2Proof.Tests
end

section
/-!
SUPPORT. The registers of a page: where the fields of one register lie, that distinct fields are filed under distinct
numbers, and bit fields of a register's word (R12, R14, R57, R60).
-/

namespace Sys2Proof.Machine

/-! ### The register tables -/

/-- The offset of a row's first register. -/
def firstOff (f : RegField) : Nat := f.off + f.n0 * f.stride

/-- The offset of a row's last register. -/
def lastOff (f : RegField) : Nat := f.off + (f.n0 + f.cnt - 1) * f.stride

/-- A row lies in its register's first word, in its page, is not empty, and is buffered at CTRL or past the header
alone. -/
def rowPlaced (f : RegField) : Bool :=
  decide (f.lo < 32) && decide (0 < f.width) && decide (lastOff f < 16384) &&
    (!f.wb || f.off == 0x10 && f.stride == 0 || decide (0x40 ≤ f.off))

/-- Of two rows of a class in the order of its table, the first lies below the second in every register that both have a
field of; the FUSE page's KEY_WORD gives way to the registers that share its offsets (R482). -/
def rowsApart (c : Cls) (f g : RegField) : Bool :=
  decide (f.lo + f.width ≤ g.lo) || decide (lastOff f < firstOff g) || decide (lastOff g < firstOff f) ||
    (f.stride == g.stride && f.off % f.stride != g.off % f.stride) ||
    (c == .fuse && f.stride != 0 && decide (0x180 ≤ firstOff g) && decide (lastOff g < 0x18C))

theorem fieldsOf_placed (c : Cls) : ∀ f ∈ fieldsOf c, rowPlaced f = true := by cases c <;> decide +kernel

theorem fieldsOf_apart (c : Cls) : (fieldsOf c).Pairwise (fun f g => rowsApart c f g = true) := by
  cases c <;> decide +kernel

/-! ### The fields of one register -/

theorem regAt_single {f : RegField} (h : f.stride = 0) {b n : Nat} : regAt f b = some n ↔ b = f.off ∧ n = 0 := by
  simp [regAt, h, eq_comm]

theorem regAt_strided {f : RegField} (h : f.stride ≠ 0) {b n : Nat} :
    regAt f b = some n ↔ b = f.off + n * f.stride ∧ f.n0 ≤ n ∧ n < f.n0 + f.cnt := by
  have hpos := Nat.pos_of_ne_zero h
  simp only [regAt, h, if_false, Option.ite_none_right_eq_some, Option.some.injEq]
  constructor
  · rintro ⟨⟨hlo, hhi, hmod⟩, rfl⟩
    have hdiv : (b - f.off) / f.stride * f.stride = b - f.off := Nat.div_mul_cancel (Nat.dvd_of_mod_eq_zero hmod)
    exact ⟨by omega, (Nat.le_div_iff_mul_le hpos).mpr (by omega), (Nat.div_lt_iff_lt_mul hpos).mpr (by omega)⟩
  · rintro ⟨rfl, hlo, hhi⟩
    have := Nat.mul_le_mul_right f.stride hlo
    have := Nat.mul_lt_mul_of_pos_right hhi hpos
    rw [Nat.add_sub_cancel_left, Nat.mul_mod_left, Nat.mul_div_cancel _ hpos]
    exact ⟨⟨by omega, by omega, rfl⟩, rfl⟩

theorem regAt_eq_some {f : RegField} {b n : Nat} (h : regAt f b = some n) :
    b = f.off + n * f.stride ∧ firstOff f ≤ b ∧ b ≤ lastOff f := by
  by_cases h0 : f.stride = 0
  · obtain ⟨rfl, -⟩ := (regAt_single h0).mp h
    simp [firstOff, lastOff, h0]
  · obtain ⟨rfl, hlo, hhi⟩ := (regAt_strided h0).mp h
    have := Nat.mul_le_mul_right f.stride hlo
    have := Nat.mul_le_mul_right f.stride (Nat.le_sub_one_of_lt hhi)
    unfold firstOff lastOff
    exact ⟨rfl, by omega, by omega⟩

theorem mem_rowsAt {c : Cls} {b n : Nat} {f : RegField} : (f, n) ∈ rowsAt c b ↔
    f ∈ fieldsOf c ∧ regAt f b = some n ∧ (c = .fuse → 0x180 ≤ b → b < 0x18C → f.stride = 0) := by
  simp only [rowsAt, List.mem_filter, List.mem_filterMap, Option.map_eq_some_iff, Prod.mk.injEq]
  constructor
  · rintro ⟨⟨g, hg, m, hm, rfl, rfl⟩, hf⟩
    refine ⟨hg, hm, ?_⟩
    rintro rfl h1 h2
    simpa [h1, h2] using hf
  · rintro ⟨hg, hm, hf⟩
    refine ⟨⟨f, hg, n, hm, rfl, rfl⟩, ?_⟩
    simp only [Bool.not_eq_true', Bool.and_eq_false_imp, Bool.and_eq_true, beq_iff_eq, decide_eq_true_eq, bne_eq_false_iff_eq,
      and_imp]
    exact hf

theorem rowsAt_offset {c : Cls} {b n : Nat} {f : RegField} (h : (f, n) ∈ rowsAt c b) : f.off + n * f.stride = b :=
  (regAt_eq_some (mem_rowsAt.mp h).2.1).1.symm

theorem rowsAt_placed {c : Cls} {b n : Nat} {f : RegField} (h : (f, n) ∈ rowsAt c b) :
    f.lo < 32 ∧ 0 < f.width ∧ b < 16384 ∧ (f.wb = true → b = 0x10 ∨ 0x40 ≤ b) := by
  obtain ⟨hf, hb, -⟩ := mem_rowsAt.mp h
  have hp := fieldsOf_placed c f hf
  simp only [rowPlaced, Bool.and_eq_true, Bool.or_eq_true, Bool.not_eq_true', decide_eq_true_eq, beq_iff_eq] at hp
  obtain ⟨⟨⟨hlo, hw⟩, hend⟩, hwb⟩ := hp
  obtain ⟨hoff, -, hlast⟩ := regAt_eq_some hb
  refine ⟨hlo, hw, by omega, fun h => ?_⟩
  obtain (hn | ⟨h10, h0⟩) | h40 := hwb
  · simp [h] at hn
  · left; simp [hoff, h10, h0]
  · right; omega

/-- The fields of a register stand in rising order and do not overlap. -/
theorem rowsAt_rise (c : Cls) (b : Nat) : (rowsAt c b).Pairwise (fun e e' => e.1.lo + e.1.width ≤ e'.1.lo) := by
  have happ : (rowsAt c b).Pairwise (fun e e' => rowsApart c e.1 e'.1 = true) := by
    refine (List.Pairwise.filterMap _ ?_ (fieldsOf_apart c)).filter _
    rintro f g hfg _ hf _ hg
    obtain ⟨_, -, rfl⟩ := Option.map_eq_some_iff.mp hf
    obtain ⟨_, -, rfl⟩ := Option.map_eq_some_iff.mp hg
    exact hfg
  refine happ.imp_of_mem ?_
  rintro ⟨f, n⟩ ⟨g, m⟩ hf hg hfg
  obtain ⟨-, hfb, hfuse⟩ := mem_rowsAt.mp hf
  obtain ⟨-, hgb, -⟩ := mem_rowsAt.mp hg
  obtain ⟨hf1, hf2, hf3⟩ := regAt_eq_some hfb
  obtain ⟨hg1, hg2, hg3⟩ := regAt_eq_some hgb
  simp only [rowsApart, Bool.or_eq_true, Bool.and_eq_true, decide_eq_true_eq, beq_iff_eq, bne_iff_ne] at hfg
  obtain (((h | h) | h) | ⟨h, hne⟩) | ⟨⟨⟨rfl, hs⟩, h1⟩, h2⟩ := hfg
  · exact h
  · omega
  · omega
  · have hfm : b % f.stride = f.off % f.stride := by rw [hf1, Nat.add_mul_mod_self_right]
    have hgm : b % f.stride = g.off % f.stride := by rw [hg1, h, Nat.add_mul_mod_self_right]
    exact absurd (hfm.symm.trans hgm) hne
  · exact absurd (hfuse rfl (by omega) (by omega)) hs

theorem rowsAt_lo_nodup (c : Cls) (b : Nat) : ((rowsAt c b).map (fun e => e.1.lo)).Nodup := by
  refine List.pairwise_map.mpr ((rowsAt_rise c b).imp_of_mem ?_)
  rintro ⟨f, n⟩ ⟨g, m⟩ hf - hle
  have := (rowsAt_placed hf).2.1
  simp only at hle ⊢
  omega

theorem rowsAt_nodup (c : Cls) (b : Nat) : (rowsAt c b).Nodup := (rowsAt_lo_nodup c b).of_map _

/-- Two fields of a register that begin at the same bit are one. -/
theorem rowsAt_lo_inj {c : Cls} {b n m : Nat} {f g : RegField} (hf : (f, n) ∈ rowsAt c b) (hg : (g, m) ∈ rowsAt c b)
    (h : f.lo = g.lo) : (f, n) = (g, m) := List.inj_on_of_nodup_map (rowsAt_lo_nodup c b) hf hg h

/-! ### Filed fields -/

/-- A field is filed under its page, its register's offset and its lowest bit. -/
theorem fieldKey_row (p : Page) {c : Cls} {b n : Nat} {f : RegField} (h : (f, n) ∈ rowsAt c b) :
    fieldKey p f n = (pageKey p * 16384 + b) * 64 + f.lo := by
  rw [← rowsAt_offset h]; rfl

theorem fieldKey_inj {p : Page} {c : Cls} {b o n m : Nat} {f g : RegField} (hf : (f, n) ∈ rowsAt c b)
    (hg : (g, m) ∈ rowsAt c o) (h : fieldKey p f n = fieldKey p g m) : (f, n) = (g, m) := by
  rw [fieldKey_row p hf, fieldKey_row p hg] at h
  have hlf := (rowsAt_placed hf).1
  have hlg := (rowsAt_placed hg).1
  obtain rfl : b = o := by omega
  exact rowsAt_lo_inj hf hg (by omega)

theorem fieldKey_ne_of_page {p q : Page} {c d : Cls} {b o n m : Nat} {f g : RegField} (hf : (f, n) ∈ rowsAt c b)
    (hg : (g, m) ∈ rowsAt d o) (h : pageKey p ≠ pageKey q) : fieldKey p f n ≠ fieldKey q g m := by
  obtain ⟨hlf, -, hbf, -⟩ := rowsAt_placed hf
  obtain ⟨hlg, -, hbg, -⟩ := rowsAt_placed hg
  rw [fieldKey_row p hf, fieldKey_row q hg]
  omega

/-- A field of a page is not filed under the number of a header field at another offset. -/
theorem fieldKey_ne_head (p : Page) {b o n m : Nat} {f g : RegField} (hf : (f, n) ∈ rowsAt p.cls b)
    (hg : (g, m) ∈ rowsAt (headPage p).cls o) (h : b ≠ o) : fieldKey p f n ≠ fieldKey (headPage p) g m := by
  obtain ⟨hlf, -, hbf, -⟩ := rowsAt_placed hf
  obtain ⟨hlg, -, hbg, -⟩ := rowsAt_placed hg
  rw [fieldKey_row p hf, fieldKey_row _ hg]
  unfold headPage
  split
  · rename_i hc
    simp only [pageKey, hc, clsCode]
    omega
  · omega

end Sys2Proof.Machine
end

section
/-!
SUPPORT. Bit fields of a register's word: what a full-word mask selects, a merge under such a mask, and a field read
out of a word that was put together from fields (R12, R15).
-/

namespace Sys2Proof.Machine

theorem bitsOf_lt (v lo w : Nat) : bitsOf v lo w < 2 ^ w := Nat.mod_lt _ (Nat.two_pow_pos w)

/-- A full-word mask selects the bits of a field that lie in the word. -/
theorem bitsOf_fullMask (lo w : Nat) : bitsOf (2 ^ 32 - 1) lo w = 2 ^ min w (32 - lo) - 1 := by
  refine Nat.eq_of_testBit_eq fun i => ?_
  rw [bitsOf, Nat.testBit_mod_two_pow, Nat.testBit_div_two_pow, Nat.testBit_two_pow_sub_one, Nat.testBit_two_pow_sub_one,
    ← Bool.decide_and]
  exact decide_eq_decide.mpr (by omega)

theorem mergeBits_mask (old v k : Nat) : mergeBits old v (2 ^ k - 1) = old / 2 ^ k * 2 ^ k + v % 2 ^ k := by
  rw [mergeBits, Nat.and_two_pow_sub_one_eq_mod, Nat.and_two_pow_sub_one_eq_mod]
  have := Nat.div_add_mod' old (2 ^ k)
  omega

theorem mergeBits_mask_lt {old k w : Nat} (v : Nat) (hold : old < 2 ^ w) (hk : k ≤ w) : mergeBits old v (2 ^ k - 1) < 2 ^ w := by
  have hw : 2 ^ w = 2 ^ (w - k) * 2 ^ k := by rw [← Nat.pow_add]; congr 1; omega
  have hq : old / 2 ^ k < 2 ^ (w - k) := Nat.div_lt_of_lt_mul (by rw [Nat.mul_comm, ← hw]; exact hold)
  have hr := Nat.mod_lt v (Nat.two_pow_pos k)
  have hle := Nat.mul_le_mul_right (2 ^ k) (Nat.succ_le_of_lt hq)
  rw [mergeBits_mask, hw]
  rw [Nat.succ_mul] at hle
  omega

/-- Fields added above bit `j` leave the bits below it. -/
theorem foldl_fields_above (x : RegField × Nat → Nat) (j : Nat) (l : List (RegField × Nat)) (hl : ∀ e ∈ l, j ≤ e.1.lo) :
    ∀ a, ∃ k, l.foldl (fun a e => a + x e * 2 ^ e.1.lo) a = a + k * 2 ^ j := by
  induction l with
  | nil => exact fun a => ⟨0, by simp⟩
  | cons e l ih =>
    intro a
    obtain ⟨k, hk⟩ := ih (fun e he => hl e (by simp [he])) (a + x e * 2 ^ e.1.lo)
    have hj : 2 ^ e.1.lo = 2 ^ (e.1.lo - j) * 2 ^ j := by
      rw [← Nat.pow_add]; congr 1; have := hl e (by simp); omega
    refine ⟨x e * 2 ^ (e.1.lo - j) + k, ?_⟩
    rw [List.foldl_cons, hk, hj, Nat.add_mul, Nat.mul_assoc, Nat.add_assoc]

/-- A field read out of a word that was put together from fields in rising order is what was put there. -/
theorem bitsOf_foldl_fields (x : RegField × Nat → Nat) (l : List (RegField × Nat))
    (hrise : l.Pairwise (fun e e' => e.1.lo + e.1.width ≤ e'.1.lo)) (hx : ∀ e ∈ l, x e < 2 ^ e.1.width)
    {e : RegField × Nat} (he : e ∈ l) :
    ∀ a, (∀ e ∈ l, a < 2 ^ e.1.lo) → bitsOf (l.foldl (fun a e => a + x e * 2 ^ e.1.lo) a) e.1.lo e.1.width = x e := by
  induction l with
  | nil => cases he
  | cons d l ih =>
    intro a ha
    obtain ⟨hd, hrise⟩ := List.pairwise_cons.mp hrise
    have had := ha d (by simp)
    have hxd := hx d (by simp)
    rw [List.foldl_cons]
    obtain rfl | he := List.mem_cons.mp he
    · obtain ⟨k, hk⟩ := foldl_fields_above x _ l hd (a + x e * 2 ^ e.1.lo)
      rw [hk, bitsOf, Nat.pow_add, ← Nat.mul_assoc, Nat.mul_right_comm, Nat.add_assoc, ← Nat.add_mul,
        Nat.add_mul_div_right _ _ (Nat.two_pow_pos _), Nat.div_eq_of_lt had, Nat.zero_add, Nat.add_mul_mod_self_right,
        Nat.mod_eq_of_lt hxd]
    · refine ih hrise (fun e he => hx e (by simp [he])) he _ fun g hg => ?_
      have hle := Nat.pow_le_pow_right (Nat.zero_lt_two) (hd g hg)
      have hm := Nat.mul_le_mul_right (2 ^ d.1.lo) (Nat.succ_le_of_lt hxd)
      rw [Nat.succ_mul, ← Nat.pow_add, Nat.add_comm d.1.width] at hm
      omega

end Sys2Proof.Machine
end

section
/-!
SUPPORT. A full-word write, field by field: what takes effect on acceptance, and what a buffered field holds until its
boundary (R15, R17, R65, R67, R69).
-/

namespace Sys2Proof.Machine

/-! ### Folds over the fields of a register -/

section Folds

variable {α σ τ : Type} (act : σ → α → σ) (look : σ → τ)

/-- What no step of a fold changes reads as before it. -/
theorem foldl_look_eq {l : List α} (h : ∀ y ∈ l, ∀ s, look (act s y) = look s) (s : σ) : look (l.foldl act s) = look s := by
  induction l generalizing s with
  | nil => rfl
  | cons y l ih => exact (ih (fun z hz => h z (by simp [hz])) _).trans (h y (by simp) s)

/-- What one step of a fold alone changes reads as that step leaves it. -/
theorem foldl_look_once (F : τ → τ) {l : List α} (hl : l.Nodup) {x : α} (hx : x ∈ l) (hself : ∀ s, look (act s x) = F (look s))
    (hother : ∀ y ∈ l, y ≠ x → ∀ s, look (act s y) = look s) (s : σ) : look (l.foldl act s) = F (look s) := by
  induction l generalizing s with
  | nil => cases hx
  | cons y l ih =>
    obtain ⟨hy, hl⟩ := List.nodup_cons.mp hl
    rw [List.foldl_cons]
    obtain rfl | hx := List.mem_cons.mp hx
    · rw [foldl_look_eq act look (fun z hz => hother z (by simp [hz]) (fun e => hy (e ▸ hz))), hself]
    · rw [ih hl hx (fun z hz => hother z (by simp [hz])), hother y (by simp) (fun e => hy (e ▸ hx))]

end Folds

/-! ### The header's fields -/

theorem headPage_cls (p : Page) : (headPage p).cls ≠ .array := by
  unfold headPage
  split
  · exact nofun
  · assumption

theorem rowsAt_header {c : Cls} (hc : c ≠ .array) {f : RegField} (hf : f ∈ R.HEADER_fields) : (f, 0) ∈ rowsAt c f.off := by
  have h0 : f.stride = 0 := (by decide : ∀ f ∈ R.HEADER_fields, f.stride = 0) f hf
  exact mem_rowsAt.mpr ⟨by simp [fieldsOf, hc, hf], by simp [regAt, h0], fun _ _ _ => h0⟩

/-- A write of a header field leaves every field of the page at another offset. -/
theorem rdi_wr_head_ne (p : Page) {b n : Nat} {f h : RegField} (hf : (f, n) ∈ rowsAt p.cls b) (hh : h ∈ R.HEADER_fields)
    (hb : b ≠ h.off) (v : Nat) (s : State) : rdi (wr (headPage p) h v s) p f n = rdi s p f n :=
  rdi_wri_ne _ _ _ _ _ _ _ _ (fieldKey_ne_head p hf (rowsAt_header (headPage_cls p) hh) hb)

/-- A write of one field of a page leaves every other. -/
theorem rdi_wri_other (p : Page) {b o n m : Nat} {f g : RegField} (hf : (f, n) ∈ rowsAt p.cls b) (hg : (g, m) ∈ rowsAt p.cls o)
    (hne : (g, m) ≠ (f, n)) (v : Nat) (s : State) : rdi (wri p g m v s) p f n = rdi s p f n :=
  rdi_wri_ne _ _ _ _ _ _ _ _ (fun h => hne (fieldKey_inj hf hg h).symm)

/-! ### Fields that take effect on acceptance -/

/-- What a field's kind makes of a full-word write of `v` over `old` (R15). -/
def kindWritten (f : RegField) (v old : Nat) : Nat :=
  match f.kind with
  | .rw => bitsOf v f.lo f.width
  | .w1c => (old - (old &&& bitsOf v f.lo f.width)) % 2 ^ f.width
  | .ro | .rc | .wo => old

/-- What a field that held `old` holds after a full-word write of `v` to its register (R15, R17, R65). -/
def fieldWritten (f : RegField) (locked : Bool) (v old : Nat) : Nat :=
  if f.wb || f.wl && locked then old else kindWritten f v old

theorem fieldWritten_wb {f : RegField} (h : f.wb = true) (locked : Bool) (v old : Nat) : fieldWritten f locked v old = old := by
  simp [fieldWritten, h]

theorem fieldWritten_locked {f : RegField} (h : f.wl = true) (v old : Nat) : fieldWritten f true v old = old := by
  simp [fieldWritten, h]

theorem fieldWritten_open {f : RegField} {locked : Bool} (hwb : f.wb = false) (hopen : f.wl = true → locked = false) (v old : Nat) :
    fieldWritten f locked v old = kindWritten f v old := by
  have hl : (f.wl && locked) = false := by cases hwl : f.wl <;> simp [hopen, hwl]
  simp [fieldWritten, hwb, hl]

/-- A field's part of a write writes that field or nothing. -/
theorem writeField_cases (p : Page) (locked : Bool) (v m : Nat) (fn : RegField × Nat) (s : State) :
    writeField p locked v m fn s = s ∨ ∃ x, writeField p locked v m fn s = wri p fn.1 fn.2 x s := by
  unfold writeField
  dsimp only
  split
  · exact .inl rfl
  · split
    · split
      · exact .inl rfl
      · exact .inr ⟨_, rfl⟩
    · exact .inr ⟨_, rfl⟩
    all_goals exact .inl rfl

theorem fullMask_fits {f : RegField} (hfit : f.lo + f.width ≤ 32) : bitsOf (2 ^ 32 - 1) f.lo f.width = 2 ^ f.width - 1 := by
  rw [bitsOf_fullMask, Nat.min_eq_left (by omega)]

theorem fullMask_ne_zero {f : RegField} (hfit : f.lo + f.width ≤ 32) (hw : 0 < f.width) :
    bitsOf (2 ^ 32 - 1) f.lo f.width ≠ 0 := by
  have := Nat.one_lt_two_pow hw.ne'
  rw [fullMask_fits hfit]
  omega

theorem rdi_writeField_self (p : Page) (locked : Bool) (v n : Nat) {f : RegField} (hfit : f.lo + f.width ≤ 32) (hw : 0 < f.width)
    (hshut : ∀ u x, fieldShut u p f x = false) (habs : fieldAbsent p f = false) (s : State) :
    rdi (writeField p locked v (2 ^ 32 - 1) (f, n) s) p f n = fieldWritten f locked v (rdi s p f n) := by
  have hm := fullMask_ne_zero hfit hw
  unfold writeField fieldWritten kindWritten
  by_cases hskip : (f.wb || f.wl && locked) = true
  · have : f.wb = true ∨ f.wl = true ∧ locked = true := by simpa using hskip
    rw [if_pos hskip, if_pos (by tauto)]
  · have : ¬(f.wb = true ∨ f.wl = true ∧ locked = true) := by simpa using hskip
    rw [if_neg hskip, if_neg (by simp only [habs]; tauto)]
    cases f.kind
    case rw =>
      have hv := bitsOf_lt v f.lo f.width
      simp only [hshut, Bool.false_eq_true, if_false, rdi_wri_self, fullMask_fits hfit, mergeBits_mask,
        Nat.mul_add_mod_self_right, Nat.mod_eq_of_lt hv]
    case w1c =>
      have hv := bitsOf_lt v f.lo f.width
      simp only [rdi_wri_self, fullMask_fits hfit, Nat.and_two_pow_sub_one_eq_mod,
        Nat.mod_eq_of_lt (Nat.and_le_right.trans_lt hv)]
    all_goals rfl

theorem rdi_writeField_other (p : Page) (locked : Bool) (v k : Nat) {b n : Nat} {f : RegField} (hf : (f, n) ∈ rowsAt p.cls b)
    {e : RegField × Nat} (he : e ∈ rowsAt p.cls b) (hne : e ≠ (f, n)) (s : State) :
    rdi (writeField p locked v k e s) p f n = rdi s p f n := by
  obtain h | ⟨x, h⟩ := writeField_cases p locked v k e s
  · rw [h]
  · rw [h, rdi_wri_other p hf he hne]

/-- A write's parts for the fields of a register, in turn. -/
def writeFields (p : Page) (locked : Bool) (b v m : Nat) (s : State) : State :=
  (rowsAt p.cls b).foldl (fun t fn => writeField p locked v m fn t) s

theorem rdi_writeFields (p : Page) (locked : Bool) (v : Nat) {b n : Nat} {f : RegField} (hf : (f, n) ∈ rowsAt p.cls b)
    (hfit : f.lo + f.width ≤ 32) (hshut : ∀ u x, fieldShut u p f x = false) (habs : fieldAbsent p f = false) (s : State) :
    rdi (writeFields p locked b v (2 ^ 32 - 1) s) p f n = fieldWritten f locked v (rdi s p f n) :=
  foldl_look_once _ (fun t => rdi t p f n) _ (rowsAt_nodup _ _) hf
    (rdi_writeField_self p locked v n hfit (rowsAt_placed hf).2.1 hshut habs)
    (fun _ he hne => rdi_writeField_other p locked v _ hf he hne) s

/-! ### Fields that are held -/

/-- The fields of a register that are held until a boundary. -/
def heldRows (p : Page) (b : Nat) : List (RegField × Nat) :=
  (rowsAt p.cls b).filter (fun fn => fn.1.wb && fn.1.kind == .rw && !fieldAbsent p fn.1)

/-- What a write of `v` under `m` would make a held field's pending value. -/
def heldNew (s : State) (p : Page) (v m : Nat) (fn : RegField × Nat) : Nat :=
  mergeBits (pendingRd s p fn.1 fn.2) (bitsOf v fn.1.lo fn.1.width) (bitsOf m fn.1.lo fn.1.width)

/-- Whether a held field takes the write. -/
def heldTaken (s : State) (p : Page) (locked : Bool) (v m : Nat) (fn : RegField × Nat) : Bool :=
  bitsOf m fn.1.lo fn.1.width != 0 && !(fn.1.wl && locked) && !fieldShut s p fn.1 (heldNew s p v m fn)

/-- The pending value of a held field after the write. -/
def heldValue (s : State) (p : Page) (locked : Bool) (v m : Nat) (fn : RegField × Nat) : Nat :=
  if heldTaken s p locked v m fn then heldNew s p v m fn else pendingRd s p fn.1 fn.2

theorem pendValue_eq (s : State) (p : Page) (locked : Bool) (b v m : Nat) : pendValue s p locked b v m =
    if (heldRows p b).any (heldTaken s p locked v m) then
      some ((heldRows p b).foldl (fun a fn => a + heldValue s p locked v m fn * 2 ^ fn.1.lo) 0)
    else none := rfl

/-- A register with a value to hold has a buffered field. -/
theorem buffered_of_pendValue {s : State} {p : Page} {locked : Bool} {b v m w : Nat} (h : pendValue s p locked b v m = some w) :
    ∃ e ∈ rowsAt p.cls b, e.1.wb = true := by
  rw [pendValue_eq, Option.ite_none_right_eq_some, List.any_eq_true] at h
  obtain ⟨⟨e, he, -⟩, -⟩ := h
  rw [heldRows, List.mem_filter, Bool.and_eq_true, Bool.and_eq_true] at he
  exact ⟨e, he.1, he.2.1.1⟩

theorem pendingRd_lt {s : State} {p : Page} {f : RegField} {n : Nat} (h : rdi s p f n < 2 ^ f.width) :
    pendingRd s p f n < 2 ^ f.width := by
  unfold pendingRd
  split
  · split
    · exact bitsOf_lt _ _ _
    · exact h
  · exact h

theorem heldValue_lt {s : State} {p : Page} {e : RegField × Nat} (locked : Bool) (v : Nat) (h : rdi s p e.1 e.2 < 2 ^ e.1.width) :
    heldValue s p locked v (2 ^ 32 - 1) e < 2 ^ e.1.width := by
  unfold heldValue heldNew
  rw [bitsOf_fullMask]
  split
  · exact mergeBits_mask_lt _ (pendingRd_lt h) (Nat.min_le_left _ _)
  · exact pendingRd_lt h

/-- A full-word write to an open buffered field is held for its register, with the written bits at the field's place. -/
theorem pendValue_fullWord {s : State} {p : Page} {locked : Bool} {b n : Nat} (v : Nat) {f : RegField} (hf : (f, n) ∈ rowsAt p.cls b)
    (hwb : f.wb = true) (hkind : f.kind = .rw) (hfit : f.lo + f.width ≤ 32) (hlock : f.wl = true → locked = false)
    (hshut : ∀ u x, fieldShut u p f x = false) (habs : fieldAbsent p f = false)
    (hlt : ∀ q ∈ rowsAt p.cls b, rdi s p q.1 q.2 < 2 ^ q.1.width) :
    ∃ w, pendValue s p locked b v (2 ^ 32 - 1) = some w ∧ bitsOf w f.lo f.width = bitsOf v f.lo f.width := by
  have hheld : (f, n) ∈ heldRows p b := List.mem_filter.mpr ⟨hf, by simp [hwb, hkind, habs]⟩
  have htaken : heldTaken s p locked v (2 ^ 32 - 1) (f, n) = true := by
    have hl : (f.wl && locked) = false := by cases hwl : f.wl <;> simp [hlock, hwl]
    simp only [heldTaken, hshut, hl, bne_iff_ne.mpr (fullMask_ne_zero hfit (rowsAt_placed hf).2.1), Bool.not_false,
      Bool.and_self]
  have hvalue : heldValue s p locked v (2 ^ 32 - 1) (f, n) = bitsOf v f.lo f.width := by
    rw [heldValue, if_pos htaken, heldNew, fullMask_fits hfit, mergeBits_mask,
      Nat.div_eq_of_lt (pendingRd_lt (hlt _ hf)), Nat.mod_eq_of_lt (bitsOf_lt _ _ _), Nat.zero_mul, Nat.zero_add]
  rw [pendValue_eq, if_pos (List.any_eq_true.mpr ⟨_, hheld, htaken⟩)]
  refine ⟨_, rfl, (bitsOf_foldl_fields _ _ ((rowsAt_rise _ _).filter _) ?_ hheld 0 fun e _ => Nat.two_pow_pos _).trans hvalue⟩
  exact fun e he => heldValue_lt locked v (hlt e (List.mem_filter.mp he).1)

theorem rdi_holdPend (p : Page) {b n : Nat} {f : RegField} (hf : (f, n) ∈ rowsAt p.cls b) (hb : b ≠ 0x14) (o v : Nat) (s : State) :
    rdi (holdPend p o v s) p f n = rdi s p f n := by
  unfold holdPend
  dsimp only
  split
  · exact rdi_wr_head_ne p hf (h := R.HEADER_CTRL_PEND_REPLACED) (by decide) hb 1 s
  · rfl

@[simp] theorem pendAt_holdPend (p : Page) (b v : Nat) (s : State) : pendAt (holdPend p b v s) p b = some v :=
  mapFind_put_self ..

/-! ### A write to a register -/

/-- A write without a trigger to a register that is open to writes and neither PAGE_LOCK nor ERR_STAT: the fields that
take effect on acceptance, then the value to be held, if any. -/
theorem writeReg_eq {p : Page} {b : Nat} (hdebug : debugReg p.cls b = false) (hb : b ≠ 0x0C) (hb' : b ≠ 0x20) (v m : Nat) (s : State) :
    writeReg (fun _ _ _ u => u) p b v m s =
      (pendValue s p (rd s (headPage p) R.HEADER_PAGE_LOCK_LOCK == 1) b v m).elim id (holdPend p b)
        (writeFields p (rd s (headPage p) R.HEADER_PAGE_LOCK_LOCK == 1) b v m s) := by
  simp only [writeReg, hdebug, Bool.false_and, Bool.false_eq_true, if_false, hb, hb']
  cases pendValue s p (rd s (headPage p) R.HEADER_PAGE_LOCK_LOCK == 1) b v m <;> rfl

/-- After a full-word write a field holds what its kind makes of the written bits. -/
theorem rdi_writeReg {p : Page} {b n : Nat} {f : RegField} (hf : (f, n) ∈ rowsAt p.cls b) (hfit : f.lo + f.width ≤ 32)
    (hdebug : debugReg p.cls b = false) (hb : b ≠ 0x0C) (hb' : b ≠ 0x20) (hshut : ∀ u x, fieldShut u p f x = false)
    (habs : fieldAbsent p f = false) (v : Nat) (s : State) :
    rdi (writeReg (fun _ _ _ u => u) p b v (2 ^ 32 - 1) s) p f n =
      fieldWritten f (rd s (headPage p) R.HEADER_PAGE_LOCK_LOCK == 1) v (rdi s p f n) := by
  rw [writeReg_eq hdebug hb hb', ← rdi_writeFields p _ v hf hfit hshut habs s]
  cases hw : pendValue s p (rd s (headPage p) R.HEADER_PAGE_LOCK_LOCK == 1) b v (2 ^ 32 - 1) with
  | none => rfl
  | some w =>
    obtain ⟨e, he, hwb⟩ := buffered_of_pendValue hw
    have := (rowsAt_placed he).2.2.2 hwb
    exact rdi_holdPend p hf (by omega) b w _

end Sys2Proof.Machine
end

section
/-!
SUPPORT. Boundaries: which pending values a page holds, what a field reads once they have applied, and what their
application leaves as it was (R59, R65, R67, R485).
-/

namespace Sys2Proof.Machine

/-! ### Lists of pending values -/

theorem mapFind_eq_none {β : Type} {m : List (Nat × β)} {k : Nat} : mapFind m k = none ↔ ∀ v, (k, v) ∉ m := by
  induction m with
  | nil => simp [mapFind]
  | cons e m ih =>
    obtain ⟨a, w⟩ := e
    by_cases ha : a = k
    · simp only [mapFind, ha, if_true, reduceCtorEq, false_iff, not_forall, not_not]
      exact ⟨w, List.mem_cons_self ..⟩
    · simp [mapFind, ha, ih, Ne.symm ha]

theorem mem_of_mapFind {β : Type} {m : List (Nat × β)} {k : Nat} {v : β} (h : mapFind m k = some v) : (k, v) ∈ m := by
  induction m with
  | nil => cases h
  | cons e m ih =>
    obtain ⟨a, w⟩ := e
    by_cases ha : a = k
    · simp_all [mapFind]
    · simp only [mapFind, ha, if_false] at h
      exact List.mem_cons_of_mem _ (ih h)

theorem mem_mapDel {β : Type} {m : List (Nat × β)} {k : Nat} {e : Nat × β} : e ∈ mapDel m k ↔ e ∈ m ∧ e.1 ≠ k := by
  simp [mapDel_filter]

theorem mem_mapIns {β : Type} {m : List (Nat × β)} {k : Nat} {v : β} {e : Nat × β} : e ∈ mapIns m k v ↔ e = (k, v) ∨ e ∈ m := by
  induction m with
  | nil => simp [mapIns]
  | cons d m ih =>
    obtain ⟨a, w⟩ := d
    simp only [mapIns]
    split
    · simp
    · simp only [List.mem_cons, ih]; tauto

theorem wkeyPage_wordKey (p : Page) {o : Nat} (ho : o < 16384) : wkeyPage (wordKey p o) = pageKey p := by
  unfold wkeyPage wordKey; omega

theorem wordKey_mod (p : Page) {o : Nat} (ho : o < 16384) : wordKey p o % 16384 = o := by
  unfold wordKey; omega

theorem mem_pendOffs {s : State} {p : Page} {o v : Nat} : (o, v) ∈ pendOffs s p ↔ o < 16384 ∧ (wordKey p o, v) ∈ s.pend := by
  simp only [pendOffs, List.mem_filterMap, Option.ite_none_right_eq_some, Option.some.injEq, Prod.mk.injEq]
  constructor
  · rintro ⟨⟨k, w⟩, he, hp, rfl, rfl⟩
    refine ⟨Nat.mod_lt _ (by decide), ?_⟩
    have : wordKey p (k % 16384) = k := by
      simp only [wkeyPage] at hp
      unfold wordKey
      omega
    rwa [this]
  · rintro ⟨ho, he⟩
    exact ⟨_, he, wkeyPage_wordKey p ho, wordKey_mod p ho, rfl⟩

theorem pendAt_eq_none {s : State} {p : Page} {o : Nat} (ho : o < 16384) : pendAt s p o = none ↔ ∀ v, (o, v) ∉ pendOffs s p := by
  simp only [pendAt, mapFind_eq_none, mem_pendOffs, ho, true_and]

theorem mem_pendOffs_of_pendAt {s : State} {p : Page} {o v : Nat} (ho : o < 16384) (h : pendAt s p o = some v) :
    (o, v) ∈ pendOffs s p := mem_pendOffs.mpr ⟨ho, mem_of_mapFind h⟩

/-- A held value is the only one of its register. -/
theorem mem_pendOffs_holdPend {p : Page} {b v w : Nat} {s : State} (h : (b, w) ∈ pendOffs (holdPend p b v s) p) : w = v := by
  obtain ⟨-, hm⟩ := mem_pendOffs.mp h
  obtain h | h := mem_mapIns.mp hm
  · exact (Prod.mk.inj h).2
  · exact absurd rfl (mem_mapDel.mp h).2

/-- Where no value is held for its register, a field will read as it does. -/
theorem pendingRd_of_none {s : State} {p : Page} {b n : Nat} {f : RegField} (hf : (f, n) ∈ rowsAt p.cls b)
    (h : pendAt s p b = none) : pendingRd s p f n = rdi s p f n := by
  rw [pendingRd, rowsAt_offset hf, h]

theorem pendingRd_of_some {s : State} {p : Page} {b n v : Nat} {f : RegField} (hf : (f, n) ∈ rowsAt p.cls b)
    (hwb : f.wb = true) (h : pendAt s p b = some v) : pendingRd s p f n = bitsOf v f.lo f.width := by
  rw [pendingRd, rowsAt_offset hf, h]
  exact if_pos hwb

/-! ### One field -/

/-- The rows of an event counter and of its selection lie alike. -/
theorem counterRows_alike {c : Cls} {sel cnt : RegField} {k : Nat} (h : counterRows c = some (sel, cnt, k)) (hs : sel ∈ fieldsOf c) :
    cnt ∈ fieldsOf c ∧ cnt.wb = false ∧ cnt.cls ≠ .header ∧ c ≠ .fuse ∧ sel.stride ≠ 0 ∧ cnt.stride ≠ 0 ∧ cnt.n0 = sel.n0 ∧
      cnt.cnt = sel.cnt := by
  cases c <;> cases h <;> revert hs <;> decide +kernel

/-- The counter of a selection's register is a field of the page too. -/
theorem counter_row {c : Cls} {sel cnt : RegField} {k o n : Nat} (h : counterRows c = some (sel, cnt, k))
    (hs : (sel, n) ∈ rowsAt c o) : ∃ b, (cnt, n) ∈ rowsAt c b := by
  obtain ⟨hsf, hsn, -⟩ := mem_rowsAt.mp hs
  obtain ⟨hcf, -, -, hc, hss, hcs, hn0, hcnt⟩ := counterRows_alike h hsf
  obtain ⟨-, hlo, hhi⟩ := (regAt_strided hss).mp hsn
  exact ⟨_, mem_rowsAt.mpr ⟨hcf, (regAt_strided hcs).mpr ⟨rfl, by omega, by omega⟩, fun h => absurd h hc⟩⟩

/-- A field's application touches it, where it is buffered, and its counter, where it is an event selection. -/
theorem rdi_applyField_ne {p q : Page} {g : RegField} {m : Nat} (v : Nat) (e : RegField × Nat) (s : State)
    (hself : e.1.wb = true → fieldKey q g m ≠ fieldKey p e.1 e.2)
    (hcnt : ∀ cnt k, counterRows p.cls = some (e.1, cnt, k) → fieldKey q g m ≠ fieldKey p cnt e.2) :
    rdi (applyField p v e s) q g m = rdi s q g m := by
  unfold applyField
  dsimp only
  cases hwb : e.1.wb with
  | false => rfl
  | true =>
    simp only [Bool.not_true, Bool.false_eq_true, if_false]
    split
    · rename_i sel cnt k hc
      split
      · rename_i hsel
        exact (rdi_wri_ne _ _ _ _ _ _ _ _ (hcnt cnt k (hsel ▸ hc))).trans (rdi_wri_ne _ _ _ _ _ _ _ _ (hself hwb))
      · exact rdi_wri_ne _ _ _ _ _ _ _ _ (hself hwb)
    · exact rdi_wri_ne _ _ _ _ _ _ _ _ (hself hwb)

/-- A buffered field is not filed as an event counter. -/
theorem fieldKey_ne_counter {p : Page} {b o n : Nat} {f : RegField} {e : RegField × Nat} (hf : (f, n) ∈ rowsAt p.cls b)
    (hwb : f.wb = true) (he : e ∈ rowsAt p.cls o) {cnt : RegField} {k : Nat} (hc : counterRows p.cls = some (e.1, cnt, k)) :
    fieldKey p f n ≠ fieldKey p cnt e.2 := by
  obtain ⟨_, hrow⟩ := counter_row hc he
  obtain ⟨-, hcw, -⟩ := counterRows_alike hc (mem_rowsAt.mp he).1
  intro h
  cases fieldKey_inj hf hrow h
  simp [hwb] at hcw

theorem rdi_applyField_other {p : Page} {b o n : Nat} {f : RegField} {e : RegField × Nat} (v : Nat) (hf : (f, n) ∈ rowsAt p.cls b)
    (hwb : f.wb = true) (he : e ∈ rowsAt p.cls o) (hne : e ≠ (f, n)) (s : State) :
    rdi (applyField p v e s) p f n = rdi s p f n :=
  rdi_applyField_ne v e s (fun _ h => hne (fieldKey_inj hf he h).symm) (fun _ _ hc => fieldKey_ne_counter hf hwb he hc)

theorem rdi_applyField_self {p : Page} {b n : Nat} {f : RegField} (v : Nat) (hf : (f, n) ∈ rowsAt p.cls b) (hwb : f.wb = true)
    (s : State) : rdi (applyField p v (f, n) s) p f n = bitsOf v f.lo f.width := by
  have hval : rdi (wri p f n (bitsOf v f.lo f.width) s) p f n = bitsOf v f.lo f.width := by
    rw [rdi_wri_self, Nat.mod_eq_of_lt (bitsOf_lt _ _ _)]
  unfold applyField
  simp only [hwb, Bool.not_true, Bool.false_eq_true, if_false]
  split
  · rename_i sel cnt k hc
    split
    · rename_i hsel
      exact (rdi_wri_ne _ _ _ _ _ _ _ _ (fieldKey_ne_counter hf hwb hf (hsel ▸ hc))).trans hval
    · exact hval
  · exact hval

/-! ### One register -/

theorem rdi_applyAt_self {p : Page} {b n : Nat} {f : RegField} (v : Nat) (hf : (f, n) ∈ rowsAt p.cls b) (hwb : f.wb = true)
    (s : State) : rdi (applyAt p b v s) p f n = bitsOf v f.lo f.width :=
  foldl_look_once _ (fun t => rdi t p f n) (fun _ => _) (rowsAt_nodup _ _) hf (rdi_applyField_self v hf hwb)
    (fun _ he hne => rdi_applyField_other v hf hwb he hne) s

theorem rdi_applyAt_other {p : Page} {b o n : Nat} {f : RegField} (v : Nat) (hf : (f, n) ∈ rowsAt p.cls b) (hwb : f.wb = true)
    (ho : o ≠ b) (s : State) : rdi (applyAt p o v s) p f n = rdi s p f n := by
  refine foldl_look_eq _ (fun t => rdi t p f n) (fun e he => rdi_applyField_other v hf hwb he ?_) s
  rintro rfl
  exact ho ((rowsAt_offset he).symm.trans (rowsAt_offset hf))

/-! ### A page -/

theorem applySel_all (p : Page) (s : State) :
    applySel p (fun _ => true) s = (pendOffs s p).foldl (fun t e => applyAt p e.1 e.2 t) s := rfl

/-- A buffered field for whose register the listed values agree takes that value. -/
theorem rdi_foldl_applyAt {p : Page} {b n w : Nat} {f : RegField} (hf : (f, n) ∈ rowsAt p.cls b) (hwb : f.wb = true)
    (l : List (Nat × Nat)) (hw : ∀ e ∈ l, e.1 = b → e.2 = w) (hb : ∃ e ∈ l, e.1 = b) (s : State) :
    rdi (l.foldl (fun t e => applyAt p e.1 e.2 t) s) p f n = bitsOf w f.lo f.width := by
  induction l generalizing s with
  | nil => obtain ⟨_, h, -⟩ := hb; cases h
  | cons d l ih =>
    by_cases htl : ∃ e ∈ l, e.1 = b
    · exact ih (fun e he => hw e (by simp [he])) htl _
    · have hdb : d.1 = b := by
        obtain ⟨e, he, heb⟩ := hb
        obtain rfl | he := List.mem_cons.mp he
        · exact heb
        · exact absurd ⟨e, he, heb⟩ htl
      rw [List.foldl_cons, foldl_look_eq _ (fun t => rdi t p f n)
        (fun e he => rdi_applyAt_other e.2 hf hwb (fun heb => htl ⟨e, he, heb⟩)), ← hw d (by simp) hdb, hdb]
      exact rdi_applyAt_self d.2 hf hwb s

/-- Every buffered field whose register holds one value at most takes it. -/
theorem rdi_applySel_wb {p : Page} {b n : Nat} {f : RegField} {s : State} (hf : (f, n) ∈ rowsAt p.cls b) (hwb : f.wb = true)
    (huniq : ∀ e ∈ pendOffs s p, e.1 = b → pendAt s p b = some e.2) :
    rdi (applySel p (fun _ => true) s) p f n = pendingRd s p f n := by
  have hb := (rowsAt_placed hf).2.2.1
  rw [applySel_all]
  cases hp : pendAt s p b with
  | none =>
    rw [pendingRd_of_none hf hp]
    refine foldl_look_eq _ (fun t => rdi t p f n) (fun e he => rdi_applyAt_other e.2 hf hwb ?_) s
    rintro rfl
    exact (pendAt_eq_none hb).mp hp e.2 he
  | some w =>
    rw [pendingRd_of_some hf hwb hp]
    exact rdi_foldl_applyAt hf hwb _ (fun e he heb => Option.some.inj ((huniq e he heb).symm.trans hp))
      ⟨_, mem_pendOffs_of_pendAt hb hp, rfl⟩ s

/-- A boundary gives every buffered field what it was to read once its pending value applies. -/
theorem rdi_boundary_wb {p : Page} {b n : Nat} {f : RegField} {s : State} (hf : (f, n) ∈ rowsAt p.cls b) (hwb : f.wb = true)
    (huniq : ∀ e ∈ pendOffs s p, e.1 = b → pendAt s p b = some e.2) : rdi (boundary p s) p f n = pendingRd s p f n := by
  have hb := (rowsAt_placed hf).2.2.2 hwb
  rw [← rdi_applySel_wb hf hwb huniq]
  exact rdi_wr_head_ne p hf (h := R.HEADER_BOUNDARY_CNT_COUNT) (by decide) (by simp only [R.HEADER_BOUNDARY_CNT_COUNT]; omega) _ _

/-! ### What a boundary leaves as it was -/

/-- A field that no buffered field or event counter of a page is filed with reads the same once pending values of the page
have applied. -/
theorem rdi_applySel_ne {p q : Page} {g : RegField} {m : Nat} (sel : Nat → Bool) (s : State)
    (h : ∀ f n b, (f, n) ∈ rowsAt p.cls b → f.wb = true ∨ (∃ sel k, counterRows p.cls = some (sel, f, k) ∧ sel ∈ fieldsOf p.cls) →
      fieldKey q g m ≠ fieldKey p f n) :
    rdi (applySel p sel s) q g m = rdi s q g m := by
  refine foldl_look_eq _ (fun t => rdi t q g m) (fun e _ t => ?_) s
  split
  · refine foldl_look_eq _ (fun t => rdi t q g m) (fun d hd => ?_) t
    refine fun t => rdi_applyField_ne e.2 d t (fun hwb => h _ _ _ hd (.inl hwb)) (fun cnt k hc => ?_)
    obtain ⟨_, hrow⟩ := counter_row hc hd
    exact h _ _ _ hrow (.inr ⟨d.1, k, hc, (mem_rowsAt.mp hd).1⟩)
  · rfl

theorem rdi_applySel_other_page {p q : Page} {b n : Nat} {f : RegField} (hf : (f, n) ∈ rowsAt q.cls b) (hpq : pageKey q ≠ pageKey p)
    (sel : Nat → Bool) (s : State) : rdi (applySel p sel s) q f n = rdi s q f n :=
  rdi_applySel_ne sel s (fun _ _ _ hg _ => fieldKey_ne_of_page hf hg hpq)

theorem pageKey_array_ne_head {p : Page} (h : p.cls = .array) : pageKey (headPage p) ≠ pageKey p := by
  simp [headPage, pageKey, h, clsCode]

/-- No header field is buffered or counts events. -/
theorem rd_applySel_header {p : Page} {h : RegField} (hh : h ∈ R.HEADER_fields) (sel : Nat → Bool) (s : State) :
    rd (applySel p sel s) (headPage p) h = rd s (headPage p) h := by
  have hrow := rowsAt_header (headPage_cls p) hh
  by_cases hp : p.cls = .array
  · exact rdi_applySel_other_page hrow (pageKey_array_ne_head hp) sel s
  · obtain ⟨hwb, hcls⟩ := (by decide : ∀ h ∈ R.HEADER_fields, h.wb = false ∧ h.cls = .header) h hh
    have hhead : headPage p = p := if_neg hp
    rw [hhead] at hrow ⊢
    refine rdi_applySel_ne sel s fun f n b hf htakes hkey => ?_
    cases fieldKey_inj hrow hf hkey
    obtain hw | ⟨_, _, hc, hs⟩ := htakes
    · simp [hwb] at hw
    · exact (counterRows_alike hc hs).2.2.1 hcls

/-- A boundary counts itself. -/
theorem rd_boundary_count (p : Page) (s : State) : rd (boundary p s) (headPage p) R.HEADER_BOUNDARY_CNT_COUNT =
    (rd s (headPage p) R.HEADER_BOUNDARY_CNT_COUNT + 1) % 2 ^ 32 := by
  rw [boundary, bump_eq, rd_applySel_header (by decide)]
  rfl

/-- `t` is `s` but for register fields, the levels that counters saw and pending values. -/
def SameButApplied (s t : State) : Prop := { t with regs := s.regs, levels := s.levels, pend := s.pend } = s

theorem SameButApplied.trans {s t u : State} (h : SameButApplied s t) (g : SameButApplied t u) : SameButApplied s u := by
  unfold SameButApplied at *
  rw [← g] at h
  exact h

theorem SameButApplied.dram {s t : State} (h : SameButApplied s t) : t.dram = s.dram := by
  unfold SameButApplied at h
  exact (congrArg State.dram h :)

theorem SameButApplied.mapQ {s t : State} (h : SameButApplied s t) : t.mapQ = s.mapQ := by
  unfold SameButApplied at h
  exact (congrArg State.mapQ h :)

theorem applyField_frame (p : Page) (v : Nat) (e : RegField × Nat) (s : State) : SameButApplied s (applyField p v e s) := by
  unfold applyField
  dsimp only
  split
  · rfl
  · split
    · split <;> rfl
    · rfl

theorem applyAt_frame (p : Page) (o v : Nat) (s : State) : SameButApplied s (applyAt p o v s) :=
  (foldl_keeps (SameButApplied s) _ (fun _ e h => h.trans (applyField_frame p v e _)) (rowsAt p.cls o) s rfl).trans rfl

theorem boundary_frame (p : Page) (s : State) : SameButApplied s (boundary p s) :=
  (foldl_keeps (SameButApplied s) _ (fun _ e h => h.trans (applyAt_frame p e.1 e.2 _)) (pendOffs s p) s rfl).trans rfl

/-! ### No value is pending past a boundary -/

theorem mem_pend_foldl_applyAt {p : Page} {x : Nat × Nat} (l : List (Nat × Nat)) (s : State)
    (h : x ∈ (l.foldl (fun t e => applyAt p e.1 e.2 t) s).pend) : x ∈ s.pend ∧ ∀ e ∈ l, x.1 ≠ wordKey p e.1 := by
  induction l generalizing s with
  | nil => exact ⟨h, by simp⟩
  | cons d l ih =>
    obtain ⟨hx, hl⟩ := ih _ h
    obtain ⟨hx, hd⟩ := mem_mapDel.mp (show x ∈ mapDel s.pend (wordKey p d.1) from hx)
    exact ⟨hx, by simpa [hd] using hl⟩

theorem pendOffs_boundary (p : Page) (s : State) : pendOffs (boundary p s) p = [] := by
  refine List.eq_nil_iff_forall_not_mem.mpr ?_
  rintro ⟨o, v⟩ h
  obtain ⟨ho, hm⟩ := mem_pendOffs.mp h
  obtain ⟨hm, hne⟩ := mem_pend_foldl_applyAt (p := p) (pendOffs s p) s hm
  exact hne _ (mem_pendOffs.mpr ⟨ho, hm⟩) rfl

theorem pendAt_boundary {p : Page} {o : Nat} (ho : o < 16384) (s : State) : pendAt (boundary p s) p o = none := by
  rw [pendAt_eq_none ho, pendOffs_boundary]
  simp

end Sys2Proof.Machine
end

section
/-!
SUPPORT. What an error that is recorded on a page changes, and the boundary of a MEMC page with its section table (R61,
R181, R211, R400, R507).
-/

namespace Sys2Proof.Machine

/-! ### Changes on one page -/

/-- Every register of a page but `p` is as it was. -/
abbrev KeepsOthers (p : Page) : State → State → Prop := KeepsRegs (fun key => keyPage key == pageKey p)

theorem KeepsRegs.trans {on : Nat → Bool} {s t u : State} (h : KeepsRegs on s t) (g : KeepsRegs on t u) : KeepsRegs on s u :=
  fun key hk => (g key hk).trans (h key hk)

theorem keyPage_row (p : Page) {c : Cls} {b n : Nat} {f : RegField} (h : (f, n) ∈ rowsAt c b) :
    keyPage (fieldKey p f n) = pageKey p := by
  obtain ⟨hlo, -, hb, -⟩ := rowsAt_placed h
  rw [fieldKey_row p h, keyPage]
  omega

theorem wri_keepsOthers (p : Page) {c : Cls} {b n : Nat} {f : RegField} (h : (f, n) ∈ rowsAt c b) (v : Nat) (s : State) :
    KeepsOthers p s (wri p f n v s) := by
  refine fun key hk => wri_keeps p f n v s key ?_
  rintro rfl
  simp [keyPage_row p h] at hk

theorem rdi_of_keepsOthers {p q : Page} {s t : State} (h : KeepsOthers p s t) {b n : Nat} {f : RegField}
    (hf : (f, n) ∈ rowsAt q.cls b) (hpq : pageKey q ≠ pageKey p) : rdi t q f n = rdi s q f n := by
  rw [rdi, rdi, mapGet_eq_find, mapGet_eq_find, h _ (by simpa [keyPage_row q hf] using hpq)]

/-! ### Recorded errors -/

/-- Recording an error in a page's header leaves every field of the page outside ERR_STAT and ERR_FIRST. -/
theorem rdi_setErr {p : Page} {b n : Nat} {f : RegField} (hf : (f, n) ∈ rowsAt p.cls b) (hstat : b ≠ 0x20) (hfirst : b ≠ 0x28)
    (bit code : Nat) (s : State) : rdi (setErr p bit code s) p f n = rdi s p f n := by
  have hwr {h : RegField} (hh : h ∈ R.HEADER_fields) (ho : h.off = 0x20 ∨ h.off = 0x28) (v : Nat) (u : State) :
      rdi (wr (headPage p) h v u) p f n = rdi u p f n := rdi_wr_head_ne p hf hh (by omega) v u
  unfold setErr
  dsimp only
  split
  · rw [hwr (by decide) (.inl rfl)]
  · split
    · rw [hwr (by decide) (.inl rfl), hwr (by decide) (.inl rfl)]
    · rw [hwr (by decide) (.inr rfl), hwr (by decide) (.inr rfl), hwr (by decide) (.inr rfl), hwr (by decide) (.inl rfl)]

/-- A write of another header field leaves a header field. -/
theorem rd_wr_header_ne (p : Page) {g h : RegField} (hg : g ∈ R.HEADER_fields) (hh : h ∈ R.HEADER_fields) (hne : g ≠ h)
    (v : Nat) (s : State) : rd (wr (headPage p) h v s) (headPage p) g = rd s (headPage p) g :=
  rd_wr_ne _ _ _ _ _ _ fun hk => hne (Prod.mk.inj
    (fieldKey_inj (rowsAt_header (headPage_cls p) hg) (rowsAt_header (headPage_cls p) hh) hk)).1

theorem rd_setErr_err (p : Page) (bit code : Nat) (s : State) : rd (setErr p bit code s) (headPage p) R.HEADER_ERR_STAT_ERR =
    (rd s (headPage p) R.HEADER_ERR_STAT_ERR ||| 2 ^ bit) % 2 ^ 31 := by
  have hwr {h : RegField} (hh : h ∈ R.HEADER_fields) (hne : R.HEADER_ERR_STAT_ERR ≠ h) (v : Nat) (u : State) :=
    rd_wr_header_ne p (g := R.HEADER_ERR_STAT_ERR) (by decide) hh hne v u
  unfold setErr
  dsimp only
  split
  · exact rd_wr_self ..
  · split
    · rw [hwr (by decide) (by decide)]; exact rd_wr_self ..
    · rw [hwr (by decide) (by decide), hwr (by decide) (by decide), hwr (by decide) (by decide)]; exact rd_wr_self ..

theorem bitSet_or_two_pow (x : Nat) {bit w : Nat} (h : bit < w) : bitSet ((x ||| 2 ^ bit) % 2 ^ w) bit = true := by
  have : ((x ||| 2 ^ bit) % 2 ^ w).testBit bit = true := by
    simp [Nat.testBit_mod_two_pow, Nat.testBit_or, Nat.testBit_two_pow_self, h]
  simpa [bitSet, bitOf, Nat.testBit_eq_decide_div_mod_eq] using this

/-- `t` is `s` but for register fields, host memory and the state of the MSI-X messages. -/
def SameButEvents (s t : State) : Prop :=
  { t with regs := s.regs, host := s.host, hostPoison := s.hostPoison, msiHold := s.msiHold, msiDue := s.msiDue,
           msiSent := s.msiSent } = s

theorem SameButEvents.trans {s t u : State} (h : SameButEvents s t) (g : SameButEvents t u) : SameButEvents s u := by
  unfold SameButEvents at *
  rw [← g] at h
  exact h

theorem SameButEvents.dram {s t : State} (h : SameButEvents s t) : t.dram = s.dram := by
  unfold SameButEvents at h
  exact (congrArg State.dram h :)

theorem SameButEvents.mapQ {s t : State} (h : SameButEvents s t) : t.mapQ = s.mapQ := by
  unfold SameButEvents at h
  exact (congrArg State.mapQ h :)

theorem SameButEvents.pend {s t : State} (h : SameButEvents s t) : t.pend = s.pend := by
  unfold SameButEvents at h
  exact (congrArg State.pend h :)

theorem wr_frame (p : Page) (f : RegField) (v : Nat) (s : State) : SameButEvents s (wr p f v s) := rfl

theorem setErr_frame (p : Page) (bit code : Nat) (s : State) : SameButEvents s (setErr p bit code s) := by
  unfold setErr
  dsimp only
  split
  · rfl
  · split <;> rfl

theorem hostPut_frame (bs : List Nat) (o : Nat) (s : State) : SameButEvents s (hostPut o bs s) := by
  induction bs generalizing o s with
  | nil => rfl
  | cons b bs ih =>
    rw [hostPut]
    refine SameButEvents.trans ?_ (ih _ _)
    rfl

theorem hostPut_regs (bs : List Nat) (o : Nat) (s : State) : (hostPut o bs s).regs = s.regs := by
  induction bs generalizing o s with
  | nil => rfl
  | cons b bs ih => exact ih _ _

theorem signalMsi_frame (s : State) : SameButEvents s (signalMsi s) := by
  unfold signalMsi
  split
  · rfl
  · split <;> rfl

theorem signalMsi_regs (s : State) : (signalMsi s).regs = s.regs := by
  unfold signalMsi
  split
  · rfl
  · split <;> rfl

theorem hostEvent_frame (code : Nat) (p : Page) (ctx : Option Nat) (arg : Nat) (s : State) :
    SameButEvents s (hostEvent code p ctx arg s) := by
  unfold hostEvent
  split
  · rfl
  · split
    · exact (setErr_frame _ _ _ s).trans rfl
    · unfold deliverEvent
      dsimp only
      exact ((hostPut_frame _ _ s).trans (wr_frame _ _ _ _)).trans (signalMsi_frame _)

theorem recordErr_frame (p : Page) (bit : Nat) (ctx : Option Nat) (s : State) : SameButEvents s (recordErr p bit ctx s) := by
  unfold recordErr recordCode
  dsimp only
  split
  · exact setErr_frame ..
  · exact (setErr_frame ..).trans (hostEvent_frame ..)

theorem setErr_keepsOthers (p : Page) (bit code : Nat) (s : State) : KeepsOthers (headPage p) s (setErr p bit code s) := by
  have hwr {h : RegField} (hh : h ∈ R.HEADER_fields) (v : Nat) (u : State) : KeepsOthers (headPage p) u (wr (headPage p) h v u) :=
    wri_keepsOthers _ (rowsAt_header (headPage_cls p) hh) v u
  unfold setErr
  dsimp only
  split
  · exact hwr (by decide) _ _
  · split
    · exact (hwr (by decide) _ _).trans (hwr (by decide) _ _)
    · exact (((hwr (by decide) _ _).trans (hwr (by decide) _ _)).trans (hwr (by decide) _ _)).trans (hwr (by decide) _ _)

/-- A host event changes registers of the HLINK page alone. -/
theorem hostEvent_keepsOthers (code : Nat) (p : Page) (ctx : Option Nat) (arg : Nat) (s : State) :
    KeepsOthers pgHlink s (hostEvent code p ctx arg s) := by
  have hlost (v : Nat) (u : State) : KeepsOthers pgHlink u (wr pgHlink R.HLINK_EVQ_LOST v u) :=
    wri_keepsOthers pgHlink (c := .hlink) (b := R.HLINK_EVQ_LOST.off) (by decide) v u
  have hhead (v : Nat) (u : State) : KeepsOthers pgHlink u (wr pgHlink R.HLINK_EVQ_HEAD v u) :=
    wri_keepsOthers pgHlink (c := .hlink) (b := R.HLINK_EVQ_HEAD.off) (by decide) v u
  unfold hostEvent
  split
  · exact hlost _ _
  · split
    · exact (setErr_keepsOthers pgHlink _ _ s).trans (hlost _ _)
    · intro key hk
      rw [deliverEvent, signalMsi_regs, hhead _ _ key hk, hostPut_regs]

/-- Past the header's registers, and on a page that is not HLINK, an error that is recorded changes what its header
keeps of it alone. -/
theorem rdi_recordErr {p : Page} (hp : pageKey p ≠ pageKey pgHlink) {b n : Nat} {f : RegField} (hf : (f, n) ∈ rowsAt p.cls b)
    (hstat : b ≠ 0x20) (hfirst : b ≠ 0x28) (bit : Nat) (ctx : Option Nat) (s : State) :
    rdi (recordErr p bit ctx s) p f n = rdi s p f n := by
  unfold recordErr recordCode
  dsimp only
  split
  · exact rdi_setErr hf hstat hfirst ..
  · rw [rdi_of_keepsOthers (hostEvent_keepsOthers _ _ _ _ _) hf hp, rdi_setErr hf hstat hfirst]

theorem rd_recordErr_err {p : Page} (hp : pageKey (headPage p) ≠ pageKey pgHlink) (bit : Nat) (ctx : Option Nat) (s : State) :
    rd (recordErr p bit ctx s) (headPage p) R.HEADER_ERR_STAT_ERR =
      (rd s (headPage p) R.HEADER_ERR_STAT_ERR ||| 2 ^ bit) % 2 ^ 31 := by
  unfold recordErr recordCode
  dsimp only
  split
  · exact rd_setErr_err ..
  · have hrow := rowsAt_header (headPage_cls p) (f := R.HEADER_ERR_STAT_ERR) (by decide)
    exact (rdi_of_keepsOthers (hostEvent_keepsOthers _ _ _ _ _) hrow hp).trans (rd_setErr_err ..)

end Sys2Proof.Machine
end

section
/-!
SUPPORT. The boundary of a MEMC page: what it discards first, and the section table that it leaves in force (R181, R211).
-/

namespace Sys2Proof.Machine

/-! ### Discarded values -/

theorem pendAt_dropSel (p : Page) (sel : Nat → Bool) {o : Nat} (ho : o < 16384) (s : State) :
    pendAt (dropSel p sel s) p o = if sel o then none else pendAt s p o := by
  simp [pendAt, dropSel, mapFind_drop, wkeyPage_wordKey p ho, wordKey_mod p ho]

theorem mem_pendOffs_dropSel {p : Page} {sel : Nat → Bool} {s : State} {e : Nat × Nat} :
    e ∈ pendOffs (dropSel p sel s) p ↔ e ∈ pendOffs s p ∧ sel e.1 = false := by
  obtain ⟨o, v⟩ := e
  simp only [mem_pendOffs, dropSel, mapDrop, List.mem_filter, and_assoc]
  refine and_congr_right fun ho => and_congr_right fun _ => ?_
  simp [wkeyPage_wordKey p ho, wordKey_mod p ho]

/-- A page's values that agree with what is listed for their registers still do once some are discarded. -/
theorem agree_dropSel {p : Page} {sel : Nat → Bool} {s : State} (h : ∀ e ∈ pendOffs s p, pendAt s p e.1 = some e.2) :
    ∀ e ∈ pendOffs (dropSel p sel s) p, pendAt (dropSel p sel s) p e.1 = some e.2 := by
  intro e he
  obtain ⟨he, hsel⟩ := mem_pendOffs_dropSel.mp he
  rw [pendAt_dropSel p sel (mem_pendOffs.mp he).1, hsel]
  exact h e he

theorem pendingRd_dropSel {p : Page} (sel : Nat → Bool) {b n : Nat} {f : RegField} (hf : (f, n) ∈ rowsAt p.cls b) (s : State) :
    pendingRd (dropSel p sel s) p f n = if sel b then rdi s p f n else pendingRd s p f n := by
  rw [pendingRd, pendingRd, rowsAt_offset hf, pendAt_dropSel p sel (rowsAt_placed hf).2.2.1]
  cases sel b <;> rfl

/-! ### The section table -/

/-- The fields of a section's entry. -/
def sectFields : List RegField := [R.MEMC_SECT_MODE, R.MEMC_SECT_SET, R.MEMC_SECT_CLASS, R.MEMC_SECT_PIECE]

theorem sectFields_row {f : RegField} (hf : f ∈ sectFields) {n : Nat} (hn : n < 512) :
    (f, n) ∈ rowsAt (pgMemc 0).cls (0x800 + n * 4) := by
  obtain ⟨hm, hs, ho, hst, hn0, hcnt⟩ := (by decide +kernel : ∀ f ∈ sectFields, f ∈ fieldsOf .memc ∧ f.stride ≠ 0 ∧ f.off = 0x800 ∧
    f.stride = 4 ∧ f.n0 = 0 ∧ f.cnt = 512) f hf
  exact mem_rowsAt.mpr ⟨hm, (regAt_strided hs).mpr ⟨by rw [ho, hst], by omega, by omega⟩, nofun⟩

theorem sectOff_entry {n : Nat} (hn : n < 512) : sectOff (0x800 + n * 4) = true := by
  simp only [sectOff, decide_eq_true_eq]; omega

theorem sectOf_congr {s t : State} {n : Nat} (h : ∀ f ∈ sectFields, rdi t (pgMemc 0) f n = rdi s (pgMemc 0) f n) :
    sectOf t n = sectOf s n := by
  simp only [sectFields, List.forall_mem_cons] at h
  obtain ⟨h1, h2, h3, h4, -⟩ := h
  simp only [sectOf, h1, h2, h3, h4]

theorem sectOf_eq_pending {s t : State} {n : Nat} (h : ∀ f ∈ sectFields, rdi t (pgMemc 0) f n = pendingRd s (pgMemc 0) f n) :
    sectOf t n = sectPending s n := by
  simp only [sectFields, List.forall_mem_cons] at h
  obtain ⟨h1, h2, h3, h4, -⟩ := h
  simp only [sectOf, sectPending, h1, h2, h3, h4]

theorem sectPending_congr {s t : State} {n : Nat} (h : ∀ f ∈ sectFields, pendingRd t (pgMemc 0) f n = pendingRd s (pgMemc 0) f n) :
    sectPending t n = sectPending s n := by
  simp only [sectFields, List.forall_mem_cons] at h
  obtain ⟨h1, h2, h3, h4, -⟩ := h
  simp only [sectPending, h1, h2, h3, h4]

theorem sectPending_of_none {s : State} (h : ∀ e ∈ pendOffs s (pgMemc 0), sectOff e.1 = false) {n : Nat} (hn : n < 512) :
    sectPending s n = sectOf s n := by
  refine (sectOf_eq_pending fun f hf => ?_).symm
  have hrow := sectFields_row hf hn
  refine (pendingRd_of_none hrow ((pendAt_eq_none (rowsAt_placed hrow).2.2.1).mpr fun v hv => ?_)).symm
  simpa [sectOff_entry hn] using h _ hv

theorem sectPending_dropSel {sel : Nat → Bool} (hsel : ∀ o, sectOff o = true → sel o = false) (s : State) {n : Nat} (hn : n < 512) :
    sectPending (dropSel (pgMemc 0) sel s) n = sectPending s n :=
  sectPending_congr fun f hf => by
    rw [pendingRd_dropSel sel (sectFields_row hf hn), hsel _ (sectOff_entry hn)]
    rfl

theorem sectTableOk_dropSel {sel : Nat → Bool} (hsel : ∀ o, sectOff o = true → sel o = false) (s : State) :
    sectTableOk (dropSel (pgMemc 0) sel s) = sectTableOk s := by
  have : (List.range 512).map (sectPending (dropSel (pgMemc 0) sel s)) = (List.range 512).map (sectPending s) :=
    List.map_congr_left fun n hn => sectPending_dropSel hsel s (List.mem_range.mp hn)
  simp only [sectTableOk, this]

/-- At the boundary of the first MEMC page the whole pending table comes into force. -/
theorem sectOf_boundary {s : State} (h : ∀ e ∈ pendOffs s (pgMemc 0), pendAt s (pgMemc 0) e.1 = some e.2) {n : Nat} (hn : n < 512) :
    sectOf (boundary (pgMemc 0) s) n = sectPending s n := by
  refine sectOf_eq_pending fun f hf => ?_
  have hwb := (by decide : ∀ f ∈ sectFields, f.wb = true) f hf
  exact rdi_boundary_wb (sectFields_row hf hn) hwb (fun e he hb => hb ▸ h e he)

/-- The boundary of another MEMC page leaves the table. -/
theorem sectOf_boundary_other {k : Nat} (hk : k ≠ 0) (s : State) {n : Nat} (hn : n < 512) :
    sectOf (boundary (pgMemc k) s) n = sectOf s n := by
  have hpage : pageKey (pgMemc 0) ≠ pageKey (pgMemc k) := by simpa [pageKey, pgMemc] using hk
  refine sectOf_congr fun f hf => ?_
  have hrow := sectFields_row hf hn
  have hcount := rowsAt_header (headPage_cls (pgMemc k)) (f := R.HEADER_BOUNDARY_CNT_COUNT) (by decide)
  exact (rdi_wri_ne _ _ _ _ _ _ _ _ (fieldKey_ne_of_page hrow hcount hpage)).trans (rdi_applySel_other_page hrow hpage _ s)

/-- A recorded error leaves the table. -/
theorem sectOf_recordErr (bit : Nat) (ctx : Option Nat) (s : State) {n : Nat} (hn : n < 512) :
    sectOf (recordErr (pgMemc 0) bit ctx s) n = sectOf s n :=
  sectOf_congr fun _ hf => rdi_recordErr (by decide) (sectFields_row hf hn) (by omega) (by omega) bit ctx s

/-! ### The boundary -/

/-- A header field but the count of boundaries reads the same past a boundary. -/
theorem rd_boundary_header {p : Page} {h : RegField} (hh : h ∈ R.HEADER_fields) (hne : h ≠ R.HEADER_BOUNDARY_CNT_COUNT) (s : State) :
    rd (boundary p s) (headPage p) h = rd s (headPage p) h :=
  (rd_wr_header_ne p hh (by decide) hne _ _).trans (rd_applySel_header hh _ s)

/-- The boundary of stack `k` refuses the pending section table. -/
def TableRefused (k : Nat) (s : State) : Prop :=
  k = 0 ∧ sectTableOk s = false ∧ ∃ e ∈ pendOffs s (pgMemc 0), sectOff e.1 = true

/-- A state with the refused section table discarded and the refusal recorded. -/
def tableDropped (s : State) : State := recordErr (pgMemc 0) 6 none (dropSel (pgMemc 0) sectOff s)

theorem mapQ_boundary (p : Page) (s : State) : (boundary p s).mapQ = s.mapQ := (boundary_frame p s).mapQ

theorem mapBoundary_idle (k : Nat) {s : State} (h : s.mapQ = []) : mapBoundary k s = s := by simp [mapBoundary, h]

/-- The offset of a pending SCRUB_HOURS of 0. -/
def zeroHours (k : Nat) (s : State) (o : Nat) : Bool := (pendAt s (pgMemc k) 0x114).getD 1 % 256 == 0 && o == 0x114

theorem zeroHours_sect {k : Nat} {s : State} (o : Nat) (ho : sectOff o = true) : zeroHours k s o = false := by
  simp only [sectOff, decide_eq_true_eq] at ho
  have : o ≠ 0x114 := by omega
  simp [zeroHours, this]

theorem dropSel_none (p : Page) {sel : Nat → Bool} (h : ∀ o, sel o = false) (s : State) : dropSel p sel s = s := by
  simp [dropSel, mapDrop, h]

theorem dropSel_zeroHours (k : Nat) (s : State) : dropSel (pgMemc k) (zeroHours k s) s =
    if (pendAt s (pgMemc k) 0x114).getD 1 % 256 = 0 then dropSel (pgMemc k) (fun o => o == 0x114) s else s := by
  split
  · simp [dropSel, zeroHours, *]
  · exact dropSel_none _ (by simp [zeroHours, *]) s

theorem tableRefused_iff (k : Nat) (s : State) : TableRefused k s ↔
    k = 0 ∧ ((pendOffs (dropSel (pgMemc k) (zeroHours k s) s) (pgMemc k)).any (fun e => sectOff e.1) = true ∧
      (!sectTableOk (dropSel (pgMemc k) (zeroHours k s) s)) = true) := by
  refine and_congr_right ?_
  rintro rfl
  rw [sectTableOk_dropSel zeroHours_sect, List.any_eq_true, Bool.not_eq_true', and_comm]
  refine and_congr_left fun _ => exists_congr fun e => ?_
  rw [mem_pendOffs_dropSel, and_assoc]
  exact and_congr_right fun _ => (and_iff_right_of_imp (zeroHours_sect e.1)).symm

/-- Where no map-out waits, a stack's boundary is its page's, with a SCRUB_HOURS of 0 discarded before, and a refused
section table too. -/
theorem memcBoundary_eq (k : Nat) {s : State} (hq : s.mapQ = []) :
    (TableRefused k s → memcBoundary k s = boundary (pgMemc k) (tableDropped (dropSel (pgMemc k) (zeroHours k s) s))) ∧
      (¬TableRefused k s → memcBoundary k s = boundary (pgMemc k) (dropSel (pgMemc k) (zeroHours k s) s)) := by
  rw [tableRefused_iff]
  unfold memcBoundary
  dsimp only
  rw [← dropSel_zeroHours]
  constructor
  · intro h
    rw [if_pos h, mapBoundary_idle]
    · obtain ⟨rfl, -⟩ := h
      rfl
    · rw [mapQ_boundary]
      exact (recordErr_frame _ 6 none _).mapQ.trans hq
  · intro h
    rw [if_neg h, mapBoundary_idle]
    rw [mapQ_boundary]
    exact hq

/-- A stack's boundary is its page's, from a state with the same device DRAM and count of boundaries. -/
theorem memcBoundary_page (k : Nat) {s : State} (hq : s.mapQ = []) : ∃ u, memcBoundary k s = boundary (pgMemc k) u ∧ u.dram = s.dram ∧
    rd u (pgMemc k) R.HEADER_BOUNDARY_CNT_COUNT = rd s (pgMemc k) R.HEADER_BOUNDARY_CNT_COUNT := by
  by_cases hr : TableRefused k s
  · refine ⟨_, (memcBoundary_eq k hq).1 hr, (recordErr_frame _ 6 none _).dram, ?_⟩
    obtain ⟨rfl, -⟩ := hr
    have hrow := rowsAt_header (headPage_cls (pgMemc 0)) (f := R.HEADER_BOUNDARY_CNT_COUNT) (by decide)
    exact rdi_recordErr (by decide) hrow (by decide) (by decide) 6 none _
  · exact ⟨_, (memcBoundary_eq k hq).2 hr, rfl, rfl⟩

theorem agree_tableDropped {s : State} (h : ∀ e ∈ pendOffs s (pgMemc 0), pendAt s (pgMemc 0) e.1 = some e.2) :
    (∀ e ∈ pendOffs (tableDropped s) (pgMemc 0), pendAt (tableDropped s) (pgMemc 0) e.1 = some e.2) ∧
      ∀ e ∈ pendOffs (tableDropped s) (pgMemc 0), sectOff e.1 = false := by
  have hpend : (tableDropped s).pend = (dropSel (pgMemc 0) sectOff s).pend := (recordErr_frame _ 6 none _).pend
  simp only [pendOffs, pendAt, hpend]
  exact ⟨agree_dropSel h, fun e he => (mem_pendOffs_dropSel.mp he).2⟩

/-- The table in force past a stack's boundary: past the first stack's, the pending one where it is valid. -/
theorem sectOf_memcBoundary (k : Nat) {s : State} (hq : s.mapQ = []) (h : ∀ e ∈ pendOffs s (pgMemc k), pendAt s (pgMemc k) e.1 = some e.2)
    {n : Nat} (hn : n < 512) :
    sectOf (memcBoundary k s) n = if k = 0 ∧ sectTableOk s = true then sectPending s n else sectOf s n := by
  by_cases hr : TableRefused k s
  · rw [(memcBoundary_eq k hq).1 hr]
    obtain ⟨rfl, hbad, -⟩ := hr
    obtain ⟨hagree, hnone⟩ := agree_tableDropped (agree_dropSel (sel := zeroHours 0 s) h)
    rw [if_neg (by simp [hbad]), sectOf_boundary hagree hn, sectPending_of_none hnone hn]
    exact sectOf_recordErr 6 none _ hn
  · rw [(memcBoundary_eq k hq).2 hr]
    by_cases hk : k = 0
    · subst hk
      rw [sectOf_boundary (agree_dropSel h) hn, sectPending_dropSel zeroHours_sect s hn]
      split
      · rfl
      · rename_i hok
        refine sectPending_of_none (fun e he => ?_) hn
        by_contra hs
        exact hr ⟨rfl, by simpa using hok, e, he, by simpa using hs⟩
    · rw [sectOf_boundary_other hk _ hn, if_neg (by simp [hk])]
      rfl

/-- A refused table sets ERR_STAT bit 6, SECTION_BAD. -/
theorem sectionBad_of_refused {s : State} (hq : s.mapQ = []) (hr : TableRefused 0 s) :
    bitSet (rd (memcBoundary 0 s) (pgMemc 0) R.HEADER_ERR_STAT_ERR) 6 = true := by
  rw [(memcBoundary_eq 0 hq).1 hr]
  have hkeep := rd_boundary_header (p := pgMemc 0) (h := R.HEADER_ERR_STAT_ERR) (by decide) (by decide)
    (tableDropped (dropSel (pgMemc 0) (zeroHours 0 s) s))
  have hset := rd_recordErr_err (p := pgMemc 0) (by decide) 6 none (dropSel (pgMemc 0) sectOff (dropSel (pgMemc 0) (zeroHours 0 s) s))
  exact (congrArg (bitSet · 6) (hkeep.trans hset)).trans (bitSet_or_two_pow _ (by decide))

end Sys2Proof.Machine
end

section
/-!
CERTIFICATE. Register writes by kind, boundaries and the section table (O18).
-/

namespace Sys2Proof.Machine

/-! ### What the commands of boundaries do -/

/-- What a state comes to is what settling makes of it. -/
theorem comesTo_settled (u : State) : ComesTo u (settled u) := by
  refine ⟨rfl, fun hrest hpoke => ?_⟩
  unfold settled settle
  simp only [hrest, hpoke, if_true]

/-- WB_APPLY of a sluice, a die's THERM page or the HLINK page is the page's boundary. -/
theorem wbApply_page {g : Page} (sub : Nat) (s : State) (hg : pageExists g = true) (hcls : g.cls = .sluice ∨ g.cls = .therm ∨ g.cls = .hlink) :
    wbApply g sub s = boundary g s := by
  obtain ⟨c, i⟩ := g
  obtain rfl | rfl | rfl := hcls
  · simp [wbApply, hg]
  · simp [wbApply, hg]
  · have hi : i = 0 := by simpa [pageExists, pageCount] using hg
    subst hi
    simp [wbApply, hg, pgHlink]

/-- WB_APPLY of a core with no segment running is the boundary of both its pages. -/
theorem wbApply_core (c : CoreIx) {s : State} (hcur : (coreOf s c).cur = none) : wbApply (pgCore c) 0 s = coreBoundary c s := by
  have hg : pageExists (pgCore c) = true := by simp [pageExists, pageCount, pgCore]
  unfold wbApply
  rw [hg]
  simp [pgCore, hcur]

theorem rd_coreBoundary_count (c : Nat) (s : State) : rd (coreBoundary c s) (pgCore c) R.HEADER_BOUNDARY_CNT_COUNT =
    (rd s (pgCore c) R.HEADER_BOUNDARY_CNT_COUNT + 1) % 2 ^ 32 := by
  have harray : rd (applySel (pgArray c) (fun _ => true) s) (pgCore c) R.HEADER_BOUNDARY_CNT_COUNT =
      rd s (pgCore c) R.HEADER_BOUNDARY_CNT_COUNT := rd_applySel_header (p := pgArray c) (by decide) _ s
  rw [← harray]
  exact rd_boundary_count (pgCore c) _

/-! ### The statement -/

/-- A full-word write to an open buffered field is held: the field in force stays, a read shows the written bits, and the
boundary puts them in force with nothing left pending. -/
theorem bufferedWrite_held {g : Page} {b n : Nat} {f : RegField} (v : Nat) {s : State} (hf : (f, n) ∈ rowsAt g.cls b) (hwb : f.wb = true)
    (hkind : f.kind = .rw) (hfit : f.lo + f.width ≤ 32) (hdebug : debugReg g.cls b = false)
    (hopen : f.wl = true → rd s (headPage g) R.HEADER_PAGE_LOCK_LOCK = 0) (hshut : ∀ u x, fieldShut u g f x = false)
    (habs : fieldAbsent g f = false) (hlt : ∀ q ∈ rowsAt g.cls b, rdi s g q.1 q.2 < 2 ^ q.1.width) :
    let t := writeReg (fun _ _ _ u => u) g b v (2 ^ 32 - 1) s
    rdi t g f n = rdi s g f n ∧ pendingRd t g f n = bitsOf v f.lo f.width ∧
      rdi (boundary g t) g f n = bitsOf v f.lo f.width ∧ pendAt (boundary g t) g b = none := by
  intro t
  obtain ⟨-, -, hb, hplace⟩ := rowsAt_placed hf
  have hplace := hplace hwb
  obtain ⟨w, hw, hbits⟩ := pendValue_fullWord v hf hwb hkind hfit
    (fun hwl => show (rd s (headPage g) R.HEADER_PAGE_LOCK_LOCK == 1) = false by rw [hopen hwl]; rfl) hshut habs hlt
  have ht : t = holdPend g b w (writeFields g (rd s (headPage g) R.HEADER_PAGE_LOCK_LOCK == 1) b v (2 ^ 32 - 1) s) := by
    refine (writeReg_eq hdebug (by omega) (by omega) v (2 ^ 32 - 1) s).trans ?_
    rw [hw]
    rfl
  have hpend : pendAt t g b = some w := by rw [ht]; exact pendAt_holdPend ..
  have hshown : pendingRd t g f n = bitsOf v f.lo f.width := (pendingRd_of_some hf hwb hpend).trans hbits
  refine ⟨?_, hshown, ?_, pendAt_boundary hb t⟩
  · refine (rdi_writeReg hf hfit hdebug (by omega) (by omega) hshut habs v s).trans ?_
    exact fieldWritten_wb hwb _ v _
  · rw [rdi_boundary_wb hf hwb, hshown]
    rintro ⟨_, x⟩ he rfl
    rw [ht] at he
    rw [hpend, mem_pendOffs_holdPend he]

/-- Settles O18: each field of a register takes a write by itself (`rdi_writeReg`, `bufferedWrite_held`), and a boundary
gives each buffered field its pending value (`rdi_boundary_wb`), since no two fields of a page are filed alike
(`fieldKey_inj`). The error that its words call SECT_CONFIG is SECTION_BAD, bit 6 of MEMC's ERR_STAT (R181, R211). -/
theorem registerWritesByKind : Obligations.RegisterWritesByKind := by
  unfold Obligations.RegisterWritesByKind
  refine ⟨?_, ⟨?_, ?_, ?_⟩, ?_⟩
  · intro g b v s f n hf hwb hfit hdebug hlock hstat hshut habs t
    have ht : rdi t g f n = _ := rdi_writeReg hf hfit hdebug hlock hstat hshut habs v s
    refine ⟨fun hwl hl => ?_, fun hopen => ?_⟩
    · rw [ht, hl]
      exact fieldWritten_locked hwl v _
    · rw [fieldWritten_open hwb (fun hwl => by rw [hopen hwl]; rfl)] at ht
      refine ⟨fun hk => ?_, fun hk hlt => ?_, fun hrw hw1c => ?_⟩
      · rw [ht, kindWritten, hk]
      · rw [ht, kindWritten, hk]
        exact Nat.mod_eq_of_lt ((Nat.sub_le _ _).trans_lt hlt)
      · rw [ht, kindWritten]
        cases hk : f.kind with
        | rw => exact absurd hk hrw
        | w1c => exact absurd hk hw1c
        | ro | rc | wo => rfl
  · intro g b v s f n hf hwb hkind hfit hdebug hopen hshut habs hlt
    exact bufferedWrite_held v hf hwb hkind hfit hdebug hopen hshut habs hlt
  · intro g sub s hg hcls
    have hhead : headPage g = g := if_neg (by obtain h | h | h := hcls <;> simp [h])
    have hcount := rd_boundary_count g s
    rw [hhead] at hcount
    exact ⟨_, rfl, wbApply_page sub s hg hcls ▸ comesTo_settled _, hcount⟩
  · intro c s hcur
    exact ⟨_, rfl, wbApply_core c hcur ▸ comesTo_settled _, rd_coreBoundary_count c s⟩
  · intro k s htrained hawake hq hagree
    have hrun : exec (.refreshInterval k) s = .next (memcBoundary k s) := congrArg Host.Outcome.next (if_pos ⟨htrained, hawake⟩)
    obtain ⟨u, hu, hdram, hcount⟩ := memcBoundary_page k hq
    refine ⟨_, hrun, ?_, ?_, fun n hn => sectOf_memcBoundary k hq hagree hn, fun hk hbad hsect => ?_, ?_⟩
    · rw [hu, (boundary_frame _ _).dram, hdram]
    · rw [hu, ← hcount]
      exact rd_boundary_count (pgMemc k) u
    · rw [hk]
      exact sectionBad_of_refused hq ⟨rfl, hbad, hsect⟩
    · rw [hu, pendOffs_boundary]

end Sys2Proof.Machine
end

section
/-!
CERTIFICATE. Telemetry samples (O47).
-/

namespace Sys2Proof.Machine

/-- With no register field listed, no error injection is armed. -/
theorem uninjected_of_regs_nil {s : State} (h : s.regs = []) : Uninjected s := by
  intro p b
  have harm : rd s (headPage p) R.HEADER_ERR_INJ_ARM = 0 := by rw [rd, rdi, h]; rfl
  simp [injArmed, harm]

/-- The module after power-on with its reset over: ACTIVE, every register at its after-reset value. -/
def outOfReset : State := { State.reset with rst := { State.reset.rst with held := false, pend := 0 } }

/-- The reports of 24 rails at 1 mV without load. -/
def unloadedRails : List RailSample := List.replicate 24 ⟨1, 0, 0⟩

/-- The PWR page has a VSET for each of its 4 dies; counted on past them, number 176 is where rail 0's V_MV is filed. -/
theorem vset_176_is_rail_0 : fieldKey pgPwr R.PWR_VSET 176 = fieldKey pgPwr R.PWR_RAIL_V_MV 0 := rfl

/-- So a sample far below 2,400 W, which leaves every die's set-point, changes what number 176 reads as. -/
theorem vOf_176_after_telemetry : vOf (telemetry unloadedRails outOfReset) 176 ≠ vOf outOfReset 176 := by decide +kernel

/-- Refutes O47: of a sample of at most 2,400 W it says `∀ d, vOf t d = vOf s d` with no bound on `d`, and number 176 of
VSET is filed with rail 0's V_MV (`vset_176_is_rail_0`), which the sample sets. The 4 dies' set-points do stay. -/
theorem not_powerAndThermalSamplesAct : ¬ Obligations.PowerAndThermalSamplesAct := by
  unfold Obligations.PowerAndThermalSamplesAct
  rintro ⟨⟨hsample, -⟩, -⟩
  obtain ⟨t, ht, -, -, -, hlow⟩ := hsample unloadedRails outOfReset (uninjected_of_regs_nil rfl) rfl rfl
  obtain rfl : telemetry unloadedRails outOfReset = t := Host.Outcome.next.inj ht
  exact vOf_176_after_telemetry ((hlow (by decide)).1 176)

end Sys2Proof.Machine
end

section
/-!
SUPPORT. Where in its page a field is filed: two fields at different places never share a number, whatever their pages
(R57, R60).
-/

namespace Sys2Proof.Machine

/-- Where in a page register `n` of a field is filed. -/
def fieldPlace (f : RegField) (n : Nat) : Nat := (f.off + n * f.stride) * 64 + f.lo

theorem fieldKey_eq_place (p : Page) (f : RegField) (n : Nat) : fieldKey p f n = pageKey p * 1048576 + fieldPlace f n := by
  unfold fieldKey wordKey fieldPlace
  omega

theorem fieldKey_mod {f : RegField} {n : Nat} (h : fieldPlace f n < 1048576) (p : Page) :
    fieldKey p f n % 1048576 = fieldPlace f n := by
  rw [fieldKey_eq_place]
  omega

theorem keyPage_fieldKey {f : RegField} {n : Nat} (h : fieldPlace f n < 1048576) (p : Page) :
    keyPage (fieldKey p f n) = pageKey p := by
  rw [fieldKey_eq_place, keyPage]
  omega

/-- A field at another place than a number's is not filed under it. -/
theorem ne_fieldKey_of_place {key : Nat} {f : RegField} {n : Nat} (h : key % 1048576 ≠ fieldPlace f n % 1048576) (p : Page) :
    key ≠ fieldKey p f n := by
  rintro rfl
  rw [fieldKey_eq_place] at h
  omega

/-- A field reads the same where its number is listed the same. -/
theorem rdi_of_mapFind {s t : State} {p : Page} {f : RegField} {n : Nat}
    (h : mapFind t.regs (fieldKey p f n) = mapFind s.regs (fieldKey p f n)) : rdi t p f n = rdi s p f n := by
  rw [rdi, rdi, mapGet_eq_find, mapGet_eq_find, h]

theorem rd_of_regs {s t : State} (h : t.regs = s.regs) (p : Page) (f : RegField) : rd t p f = rd s p f := by
  rw [rd, rd, rdi, rdi, h]

theorem rdi_of_keepsRegs {on : Nat → Bool} {s t : State} {p : Page} {f : RegField} {n : Nat} (h : KeepsRegs on s t)
    (hoff : on (fieldKey p f n) = false) : rdi t p f n = rdi s p f n := rdi_of_mapFind (h _ hoff)

theorem rd_of_keepsRegs {on : Nat → Bool} {s t : State} {p : Page} {f : RegField} (h : KeepsRegs on s t)
    (hoff : on (fieldKey p f 0) = false) : rd t p f = rd s p f := rdi_of_keepsRegs h hoff

theorem keepsRegs_refl (on : Nat → Bool) (s : State) : KeepsRegs on s s := fun _ _ => rfl

theorem keepsRegs_wri {on : Nat → Bool} {p : Page} {f : RegField} {n : Nat} (h : on (fieldKey p f n) = true) (v : Nat) (s : State) :
    KeepsRegs on s (wri p f n v s) := by
  refine fun key hk => wri_keeps p f n v s key ?_
  rintro rfl
  rw [h] at hk
  cases hk

theorem keepsRegs_mono {on on' : Nat → Bool} {s t : State} (h : KeepsRegs on s t) (hle : ∀ key, on key = true → on' key = true) :
    KeepsRegs on' s t := fun key hk => h key (by
  cases hon : on key with
  | false => rfl
  | true => rw [hle key hon] at hk; cases hk)

end Sys2Proof.Machine
end

section
/-!
CERTIFICATE. A step on an empty queue (O58): what the units of the module count in a local tick, and what they leave.
-/

namespace Sys2Proof.Machine

/-! ### What the units count -/

/-- The place in its page of both clocks, MGMT.TICK and AON.TIME. -/
def clockPlace : Nat := 0x100 * 64

/-- Only register fields, the counts of contexts, the buckets of sluices and the levels seen differ, and no field at the
clocks' place in a page. -/
def OnlyCounts (s t : State) : Prop :=
  { t with regs := s.regs, ctxs := s.ctxs, sluices := s.sluices, levels := s.levels } = s ∧
    KeepsRegs (fun key => key % 1048576 != clockPlace) s t

theorem onlyCounts_refl (s : State) : OnlyCounts s s := ⟨rfl, keepsRegs_refl _ s⟩

theorem OnlyCounts.trans {s t u : State} (h : OnlyCounts s t) (g : OnlyCounts t u) : OnlyCounts s u := by
  obtain ⟨hs, hregs⟩ := h
  obtain ⟨ht, gregs⟩ := g
  refine ⟨?_, hregs.trans gregs⟩
  rw [← ht] at hs
  exact hs

theorem onlyCounts_wri (p : Page) {f : RegField} {n : Nat} (h : fieldPlace f n % 1048576 ≠ clockPlace) (v : Nat) (s : State) :
    OnlyCounts s (wri p f n v s) :=
  ⟨rfl, keepsRegs_wri (by simpa [fieldKey_eq_place] using h) v s⟩

theorem onlyCounts_bump (p : Page) {f : RegField} (h : fieldPlace f 0 % 1048576 ≠ clockPlace) (d : Nat) (s : State) :
    OnlyCounts s (bump p f d s) := onlyCounts_wri p h _ s

theorem onlyCounts_foldl {α : Type} {f : State → α → State} {l : List α} (h : ∀ x ∈ l, ∀ s, OnlyCounts s (f s x)) (s : State) :
    OnlyCounts s (l.foldl f s) := by
  induction l generalizing s with
  | nil => exact onlyCounts_refl s
  | cons x l ih => exact (h x (by simp) s).trans (ih (fun y hy => h y (by simp [hy])) _)

theorem onlyCounts_foldUpTo {n : Nat} {f : Nat → State → State} (h : ∀ i s, OnlyCounts s (f i s)) (s : State) :
    OnlyCounts s (foldUpTo n f s) := onlyCounts_foldl (fun i _ t => h i t) s

/-- The counter of an event selection's register is not at the clocks' place. -/
theorem counter_off_clocks {c : Cls} {sel cnt : RegField} {k b n : Nat} (h : counterRows c = some (sel, cnt, k))
    (hn : regAt sel b = some n) : fieldPlace cnt n % 1048576 ≠ clockPlace := by
  have hlow : sel.stride ≠ 0 ∧ sel.n0 + sel.cnt ≤ 32 ∧ cnt.stride = 8 ∧ 0x100 < cnt.off ∧ cnt.off ≤ 0x800 ∧ cnt.lo = 0 := by
    cases c <;> cases h <;> decide
  obtain ⟨hs, hcnt, hst, hlo, hhi, hbit⟩ := hlow
  obtain ⟨-, -, hlt⟩ := (regAt_strided hs).mp hn
  simp only [fieldPlace, clockPlace, hst, hbit]
  omega

/-- A selection that is listed is of a counter's page and register. -/
theorem counter_of_selection {s : State} {e : Page × Nat × Nat} (h : e ∈ selections s) :
    ∃ sel cnt k b, counterRows e.1.cls = some (sel, cnt, k) ∧ regAt sel b = some e.2.1 := by
  obtain ⟨x, -, hx⟩ := List.mem_filterMap.mp h
  split at hx
  · split at hx
    · rename_i f _ sel cnt k hc
      obtain ⟨hf, hrow⟩ := Option.ite_none_right_eq_some.mp hx
      obtain ⟨n, hn, rfl⟩ := Option.map_eq_some_iff.mp hrow
      exact ⟨sel, cnt, k, _, hc, hf ▸ hn⟩
    · cases hx
  · cases hx

theorem levelTick_counts (p : Page) {cnt : RegField} {i : Nat} (h : fieldPlace cnt i % 1048576 ≠ clockPlace) (sel : Nat) (s : State) :
    OnlyCounts s (levelTick p cnt i sel s) := by
  unfold levelTick
  dsimp only
  split
  · exact onlyCounts_refl s
  · refine OnlyCounts.trans ?_ (onlyCounts_wri p h _ _)
    exact ⟨rfl, keepsRegs_refl _ s⟩

theorem levelsTick_counts (s : State) : OnlyCounts s (levelsTick s) := by
  refine onlyCounts_foldl (fun e he t => ?_) s
  obtain ⟨sel, cnt, k, b, hc, hn⟩ := counter_of_selection he
  rw [hc]
  exact levelTick_counts e.1 (counter_off_clocks hc hn) e.2.2 t

theorem ctxTick_counts (n : Nat) (s : State) : OnlyCounts s (ctxTick n s) := by
  unfold ctxTick
  split
  · exact onlyCounts_refl s
  · exact ⟨rfl, keepsRegs_refl _ s⟩

theorem polTick_counts (p : Nat) (k : PolState) (s : State) : OnlyCounts s (polTick p k s) := by
  have hadd (c : Option Nat) {f : RegField} (hf : fieldPlace f 0 % 1048576 ≠ clockPlace) (n : Nat) (t : State) :
      OnlyCounts t (match c with | some c => bump (pgCtx c) f n t | none => t) := by
    cases c with
    | none => exact onlyCounts_refl t
    | some c => exact onlyCounts_bump _ hf n t
  unfold polTick
  dsimp only
  split
  · exact (hadd k.cur (by decide) _ s).trans (hadd k.next (by decide) _ _)
  · exact hadd k.cur (by decide) _ s

theorem bindTick_counts (i : Nat) (b : Binding) (s : State) : OnlyCounts s (bindTick i b s) := by
  unfold bindTick
  split
  · refine onlyCounts_wri _ ?_ _ s
    simp only [fieldPlace, clockPlace, R.UPD_BIND_MIRROR_WAIT]
    omega
  · split
    · exact onlyCounts_bump _ (by decide) _ s
    · exact onlyCounts_refl s

theorem linkTick_counts (k : Nat) (s : State) : OnlyCounts s (linkTick k s) := by
  unfold linkTick
  split
  · exact onlyCounts_refl s
  · exact onlyCounts_bump _ (by decide) _ s

theorem thermTick_counts (d : Nat) (s : State) : OnlyCounts s (thermTick d s) := by
  unfold thermTick
  split
  · exact onlyCounts_bump _ (by decide) _ s
  · exact onlyCounts_refl s

theorem lockTick_counts {l : Nat} (hl : l < 8) (s : State) : OnlyCounts s (lockTick l s) := by
  unfold lockTick
  split
  · refine onlyCounts_wri _ ?_ _ s
    simp only [fieldPlace, clockPlace, R.WLOCK_HELD_TICKS]
    omega
  · exact onlyCounts_refl s

theorem setSluice_counts (r : Nat) (k : Sluice) (s : State) : OnlyCounts s (setSluice r k s) := ⟨rfl, keepsRegs_refl _ s⟩

theorem sluiceTick_counts (r : Nat) (s : State) : OnlyCounts s (sluiceTick r s) := by
  unfold sluiceTick
  dsimp only
  refine OnlyCounts.trans (OnlyCounts.trans ?_ (onlyCounts_bump _ (f := R.SLUICE_AMP_TICKS) (by decide) _ _)) (setSluice_counts _ _ _)
  split
  · exact onlyCounts_refl s
  · split
    · exact onlyCounts_bump _ (by decide) _ s
    · split
      · exact onlyCounts_bump _ (by decide) _ s
      · exact onlyCounts_refl s

theorem unitsTick_counts (s : State) : OnlyCounts s (unitsTick s) := by
  have hctxs (t : State) : OnlyCounts t (t.ctxs.foldl (fun u e => ctxTick e.1 u) t) :=
    onlyCounts_foldl (fun e _ u => ctxTick_counts e.1 u) t
  have hpols (t : State) : OnlyCounts t (t.pols.foldl (fun u e => polTick e.1 e.2 u) t) :=
    onlyCounts_foldl (fun e _ u => polTick_counts e.1 e.2 u) t
  have hbinds (t : State) : OnlyCounts t (t.binds.foldl (fun u e => bindTick e.1 e.2 u) t) :=
    onlyCounts_foldl (fun e _ u => bindTick_counts e.1 e.2 u) t
  have hlocks (t : State) : OnlyCounts t (foldUpTo 8 lockTick t) :=
    onlyCounts_foldl (fun l hl u => lockTick_counts (List.mem_range.mp hl) u) t
  have hkept := (((levelsTick_counts s).trans (hctxs _)).trans (hpols _)).trans (hbinds _)
  exact (((hkept.trans (onlyCounts_foldUpTo linkTick_counts _)).trans (onlyCounts_foldUpTo thermTick_counts _)).trans
    (hlocks _)).trans (onlyCounts_foldUpTo sluiceTick_counts _)

/-! ### The clocks -/

theorem OnlyCounts.rd_clocks {s t : State} (h : OnlyCounts s t) :
    rd t pgMgmt R.MGMT_TICK = rd s pgMgmt R.MGMT_TICK ∧ rd t pgAon R.AON_TIME = rd s pgAon R.AON_TIME :=
  ⟨rd_of_keepsRegs h.2 (by decide), rd_of_keepsRegs h.2 (by decide)⟩

/-- A FULL reset that is held holds the 32.768 kHz count (R55). -/
theorem aonTick_of_full {s : State} (hheld : s.rst.held = true) (hpend : s.rst.pend = 4) : aonTick s = s :=
  if_pos ⟨hheld, hpend⟩

/-- The 32.768 kHz count, at a whole period (R55). -/
theorem aonTick_carry {s : State} (hheld : s.rst.held = false) (h : 100000000 ≤ s.aonPart + 32768) :
    (aonTick s).aonPart = s.aonPart + 32768 - 100000000 ∧
      rd (aonTick s) pgAon R.AON_TIME = (rd s pgAon R.AON_TIME + 1) % 2 ^ R.AON_TIME.width := by
  have hbump (n : Nat) : (bump pgAon R.AON_TIME 1 { s with aonPart := n }).aonPart = n ∧
      rd (bump pgAon R.AON_TIME 1 { s with aonPart := n }) pgAon R.AON_TIME = (rd s pgAon R.AON_TIME + 1) % 2 ^ R.AON_TIME.width :=
    ⟨rfl, bump_eq ..⟩
  unfold aonTick
  dsimp only
  rw [if_neg (by simp [hheld]), if_pos h]
  exact hbump _

/-- The 32.768 kHz count, inside a period (R55). -/
theorem aonTick_part {s : State} (hheld : s.rst.held = false) (h : ¬ 100000000 ≤ s.aonPart + 32768) :
    (aonTick s).aonPart = s.aonPart + 32768 ∧ rd (aonTick s) pgAon R.AON_TIME = rd s pgAon R.AON_TIME := by
  unfold aonTick
  dsimp only
  rw [if_neg (by simp [hheld]), if_neg h]
  exact ⟨rfl, rd_of_regs rfl _ _⟩

/-- The always-on tick leaves the reset state machine and every register but AON.TIME. -/
theorem aonTick_rst (s : State) : (aonTick s).rst = s.rst := by
  unfold aonTick
  dsimp only
  split
  · rfl
  · split <;> rfl

theorem rd_aonTick {p : Page} {f : RegField} (h : fieldKey p f 0 ≠ fieldKey pgAon R.AON_TIME 0) (s : State) :
    rd (aonTick s) p f = rd s p f := by
  have hbump (u : State) (hu : u.regs = s.regs) : rd (bump pgAon R.AON_TIME 1 u) p f = rd s p f := by
    rw [bump, rd_wr_ne _ _ _ _ _ _ h, rd_of_regs hu]
  unfold aonTick
  dsimp only
  split
  · rfl
  · split
    · exact hbump _ rfl
    · exact rd_of_regs rfl _ _

/-- With no come-out under way its ticks are not counted. -/
theorem comeoutTick_idle {s : State} (h : rd s pgRst R.RST_STATUS_COMEOUT = 0) : comeoutTick s = s := if_neg (by simp [h])

/-- Where the local tick stands, only the always-on count goes on (R54, R55). -/
theorem tick_stopped {s : State} (h : ticksRun s = false) : tick s = aonTick s := by
  unfold tick
  simp [h]

/-- The local tick counts itself and a come-out's ticks, and then the units count. -/
theorem tick_running {s : State} (h : ticksRun s = true) :
    OnlyCounts (comeoutTick (bump pgMgmt R.MGMT_TICK 1 (aonTick s))) (tick s) := by
  unfold tick
  simp only [h, Bool.not_true, Bool.false_eq_true, if_false]
  split
  · exact unitsTick_counts _
  · exact onlyCounts_refl _

/-! ### What a tick leaves -/

/-- The queue, device DRAM, cores, host memory, quay store, engines and links are as they were. -/
structure TickLeaves (s t : State) : Prop where
  pending : t.pending = s.pending
  dram : t.dram = s.dram
  cores : t.cores = s.cores
  host : t.host = s.host
  quay : t.quay = s.quay
  engines : t.engines = s.engines
  links : t.links = s.links

theorem TickLeaves.trans {s t u : State} (h : TickLeaves s t) (g : TickLeaves t u) : TickLeaves s u :=
  ⟨g.pending.trans h.pending, g.dram.trans h.dram, g.cores.trans h.cores, g.host.trans h.host, g.quay.trans h.quay,
    g.engines.trans h.engines, g.links.trans h.links⟩

theorem OnlyCounts.leaves {s t : State} (h : OnlyCounts s t) : TickLeaves s t := by
  obtain ⟨hs, -⟩ := h
  exact ⟨(congrArg State.pending hs :), (congrArg State.dram hs :), (congrArg State.cores hs :), (congrArg State.host hs :),
    (congrArg State.quay hs :), (congrArg State.engines hs :), (congrArg State.links hs :)⟩

theorem OnlyCounts.rst {s t : State} (h : OnlyCounts s t) : t.rst = s.rst := (congrArg State.rst h.1 :)

theorem OnlyCounts.aonPart {s t : State} (h : OnlyCounts s t) : t.aonPart = s.aonPart := (congrArg State.aonPart h.1 :)

theorem aonTick_leaves (s : State) : TickLeaves s (aonTick s) := by
  unfold aonTick
  dsimp only
  split
  · exact ⟨rfl, rfl, rfl, rfl, rfl, rfl, rfl⟩
  · split <;> exact ⟨rfl, rfl, rfl, rfl, rfl, rfl, rfl⟩

theorem comeoutTick_leaves (s : State) : TickLeaves s (comeoutTick s) := by
  unfold comeoutTick
  split <;> exact ⟨rfl, rfl, rfl, rfl, rfl, rfl, rfl⟩

theorem tick_leaves (s : State) : TickLeaves s (tick s) := by
  cases hrun : ticksRun s with
  | false => rw [tick_stopped hrun]; exact aonTick_leaves s
  | true =>
    have hbump : TickLeaves (aonTick s) (bump pgMgmt R.MGMT_TICK 1 (aonTick s)) := ⟨rfl, rfl, rfl, rfl, rfl, rfl, rfl⟩
    exact (((aonTick_leaves s).trans hbump).trans (comeoutTick_leaves _)).trans (tick_running hrun).leaves

theorem comeoutTick_regs (s : State) : (comeoutTick s).regs = s.regs ∧ (comeoutTick s).aonPart = s.aonPart := by
  unfold comeoutTick
  split <;> exact ⟨rfl, rfl⟩

/-- Past the always-on tick, nothing in a local tick changes AON.TIME and its fraction. -/
theorem tick_aonPart (s : State) : (tick s).aonPart = (aonTick s).aonPart := by
  cases hrun : ticksRun s with
  | false => rw [tick_stopped hrun]
  | true => exact (tick_running hrun).aonPart.trans (comeoutTick_regs _).2

theorem tick_time (s : State) : rd (tick s) pgAon R.AON_TIME = rd (aonTick s) pgAon R.AON_TIME := by
  cases hrun : ticksRun s with
  | false => rw [tick_stopped hrun]
  | true =>
    rw [(tick_running hrun).rd_clocks.2, rd_of_regs (comeoutTick_regs _).1, bump, rd_wr_ne _ _ _ _ _ _ (by decide)]

/-- Out of reset and come-out, and not in SLEEP, the local tick advances TICK (R54). -/
theorem tick_advances {s : State} (hheld : s.rst.held = false) (hcome : rd s pgRst R.RST_STATUS_COMEOUT = 0)
    (hsleep : rd s pgPwr R.PWR_STATUS_STATE ≠ 3) :
    rd (tick s) pgMgmt R.MGMT_TICK = (rd s pgMgmt R.MGMT_TICK + 1) % 2 ^ R.MGMT_TICK.width ∧ (tick s).rst = s.rst := by
  have hrun : ticksRun s = true := by simp [ticksRun, hheld, hcome, hsleep]
  have hidle : rd (bump pgMgmt R.MGMT_TICK 1 (aonTick s)) pgRst R.RST_STATUS_COMEOUT = 0 := by
    rw [bump, rd_wr_ne _ _ _ _ _ _ (by decide), rd_aonTick (by decide), hcome]
  have hunits := tick_running hrun
  rw [comeoutTick_idle hidle] at hunits
  refine ⟨?_, hunits.rst.trans (aonTick_rst s)⟩
  rw [hunits.rd_clocks.1, bump_eq, rd_aonTick (by decide)]

/-- While a reset of MODULE reach or wider is held, TICK stands (R54). -/
theorem tick_held {s : State} (hheld : s.rst.held = true) (hpend : 2 ≤ s.rst.pend) : tick s = aonTick s :=
  tick_stopped (by simp [ticksRun, hheld, hpend])

/-- Settles O58: a local tick is the always-on tick and then, where TICK runs, what the units count (`tick_running`), none
of which is at the clocks' place in a page (`unitsTick_counts`). -/
theorem idleStepsTick : Obligations.IdleStepsTick := by
  unfold Obligations.IdleStepsTick
  intro s hpending
  have hstep : step s = .next (tick s) := by
    unfold step
    rw [hpending]
  obtain ⟨hq, hdram, hcores, hhost, hquay, heng, hlinks⟩ := tick_leaves s
  refine ⟨_, hstep, hq.trans hpending, hdram, hcores, hhost, hquay, heng, hlinks, tick_advances, ?_, ?_, ?_⟩
  · intro hheld hpend
    rw [tick_held hheld hpend, rd_aonTick (by decide)]
  · intro hheld
    rw [tick_aonPart, tick_time, ite_prop_iff_and]
    exact ⟨aonTick_carry hheld, aonTick_part hheld⟩
  · intro hheld hpend
    rw [tick_held hheld (by omega), aonTick_of_full hheld hpend]

end Sys2Proof.Machine
end

section
/-!
SUPPORT. Changes of register fields alone, and what an event count changes (R484, R486).
-/

namespace Sys2Proof.Machine

/-- `t` is `s` but for register fields. -/
def OnlyRegs (s t : State) : Prop := { t with regs := s.regs } = s

theorem OnlyRegs.trans {s t u : State} (h : OnlyRegs s t) (g : OnlyRegs t u) : OnlyRegs s u := by
  unfold OnlyRegs at *
  rw [← g] at h
  exact h

/-- What is told by the state apart from its register fields reads the same. -/
theorem OnlyRegs.eq {α : Type} {s t : State} (h : OnlyRegs s t) (look : State → α) (hlook : ∀ u r, look { u with regs := r } = look u) :
    look t = look s := by
  have := congrArg look h
  rwa [hlook] at this

theorem onlyRegs_wri (p : Page) (f : RegField) (n v : Nat) (s : State) : OnlyRegs s (wri p f n v s) := rfl

theorem countE_frame (p : Page) (e src d : Nat) (c : Option Nat) (s : State) : OnlyRegs s (countE p e src d c s) := by
  unfold countE
  split
  · rfl
  · split
    · rfl
    · refine foldl_keeps (OnlyRegs s) _ (fun u i hu => ?_) _ s rfl
      dsimp only
      split
      · exact hu.trans (onlyRegs_wri ..)
      · exact hu

/-- Counting an event changes event counters of its page alone. -/
theorem countE_keeps {on : Nat → Bool} (p : Page) (e src d : Nat) (c : Option Nat) (s : State)
    (h : ∀ sel cnt n, counterRows p.cls = some (sel, cnt, n) → ∀ i < n, on (fieldKey p cnt i) = true) :
    KeepsRegs on s (countE p e src d c s) := by
  unfold countE
  split
  · exact keepsRegs_refl on s
  · rename_i sel cnt n hc
    split
    · exact keepsRegs_refl on s
    · refine foldUpTo_induct (fun u => KeepsRegs on s u) n _ (fun i u hi hu => ?_) s (keepsRegs_refl on s)
      dsimp only
      split
      · exact hu.trans (keepsRegs_wri (h sel cnt n hc i hi) _ u)
      · exact hu

end Sys2Proof.Machine
end

section
/-!
SUPPORT. Where device DRAM lives: a granule lies in one piece, and no write or read moves it (R181, R182, R190).
-/

namespace Sys2Proof.Machine

/-! ### The tables that place an address -/

/-- Whether a number is at the place in a page of a channel-state word or of a section's entry. -/
def tableKey (key : Nat) : Bool :=
  decide (key % 1048576 / 64 = 0x100) || decide (key % 1048576 / 64 = 0x104) || decide (0x800 ≤ key % 1048576 / 64)

/-- No channel state and no section entry differs, on any page. -/
abbrev TablesStand (s t : State) : Prop := KeepsRegs (fun key => !tableKey key) s t

theorem tablesStand_wri {f : RegField} {n : Nat} (h : tableKey (fieldPlace f n) = false) (p : Page) (v : Nat) (s : State) :
    TablesStand s (wri p f n v s) := by
  refine keepsRegs_wri ?_ v s
  have hmod : tableKey (fieldKey p f n) = tableKey (fieldPlace f n) := by
    rw [fieldKey_eq_place, tableKey, tableKey, Nat.mul_add_mod_self_right]
  rw [hmod, h]
  rfl

theorem TablesStand.sectOf_eq {s t : State} (h : TablesStand s t) {n : Nat} (hn : n < 512) : sectOf t n = sectOf s n := by
  refine sectOf_congr fun f hf => rdi_of_keepsRegs h ?_
  obtain ⟨ho, hst, hlo⟩ := (by decide : ∀ f ∈ sectFields, f.off = 0x800 ∧ f.stride = 4 ∧ f.lo < 64) f hf
  simp only [tableKey, fieldKey_eq_place, fieldPlace, ho, hst, Bool.not_eq_false', Bool.or_eq_true, decide_eq_true_eq]
  omega

theorem TablesStand.stackStates_eq {s t : State} (h : TablesStand s t) (k : Nat) : stackStates t k = stackStates s k := by
  have hrd (f : RegField) (hf : tableKey (fieldPlace f 0) = true) : rd t (pgMemc k) f = rd s (pgMemc k) f := by
    refine rd_of_keepsRegs h ?_
    rw [fieldKey_eq_place, tableKey, Nat.mul_add_mod_self_right, ← tableKey, hf]
    rfl
  simp only [stackStates, hrd R.MEMC_CH_STATE_LO (by decide), hrd R.MEMC_CH_STATE_HI (by decide)]

theorem TablesStand.failedMembers_eq {s t : State} (h : TablesStand s t) (e : Sect) : failedMembers t e = failedMembers s e := by
  have hws : (List.range 8).map (stackStates t) = (List.range 8).map (stackStates s) := List.map_congr_left fun k _ => h.stackStates_eq k
  simp only [failedMembers, hws]

/-- The tables place every address. -/
theorem TablesStand.locate_eq {s t : State} (h : TablesStand s t) (a : Nat) : locate t a = locate s a := by
  unfold locate
  dsimp only
  by_cases ha : 0x80_0000_0000 ≤ a
  · rw [if_pos (Or.inl ha), if_pos (Or.inl ha)]
  · rw [h.sectOf_eq (by omega), h.failedMembers_eq]

/-- Equal register fields place every address alike. -/
theorem tablesStand_of_regs {s t : State} (h : t.regs = s.regs) : TablesStand s t := fun _ _ => by rw [h]

/-! ### Granules -/

/-- Addresses of a granule live side by side. -/
theorem locate_add (s : State) {a i : Nat} (h : (a + i) / 4096 = a / 4096) : locate s (a + i) = (locate s a).map (· + i) := by
  have hsect : (a + i) / 2 ^ 30 = a / 2 ^ 30 := by omega
  have hgran : (a + i) % 2 ^ 30 / 4096 = a % 2 ^ 30 / 4096 := by omega
  have hbyte : (a + i) % 4096 = a % 4096 + i := by omega
  have hend : 0x80_0000_0000 ≤ a + i ↔ 0x80_0000_0000 ≤ a := by omega
  have hplace (e : Sect) (g : Nat) : placeOf e g (a % 4096 + i) = placeOf e g (a % 4096) + i := by simp only [placeOf]; omega
  simp only [locate, hsect, hgran, hbyte, hend, hplace, apply_ite (Option.map (· + i)), Option.map_none, Option.map_map,
    Function.comp_def]

/-- A block's place begins a physical block. -/
theorem locate_block {s : State} {a q : Nat} (h : locate s (a / 64 * 64) = some q) : q % 64 = 0 := by
  unfold locate at h
  dsimp only at h
  obtain ⟨-, h⟩ := Option.ite_none_left_eq_some.mp h
  obtain ⟨g, -, rfl⟩ := Option.map_eq_some_iff.mp h
  simp only [placeOf]
  omega

/-- The block of a backed address is backed, and the address keeps its place in it. -/
theorem locate_blockBase {s : State} {a q : Nat} (h : locate s a = some q) :
    ∃ q0, locate s (a / 64 * 64) = some q0 ∧ q = q0 + a % 64 ∧ q0 / 64 = q / 64 := by
  have hadd := locate_add s (a := a / 64 * 64) (i := a % 64) (by omega)
  rw [Nat.div_add_mod' a 64, h] at hadd
  obtain ⟨q0, hq0, hq⟩ := Option.map_eq_some_iff.mp hadd.symm
  have := locate_block hq0
  exact ⟨q0, hq0, hq.symm, by omega⟩

end Sys2Proof.Machine
end

section
/-!
CERTIFICATE. Writes to device DRAM and long reads of it (O25).
-/

namespace Sys2Proof.Machine

/-! ### Long reads -/

theorem dramRead_add (s : State) (a m n : Nat) : dramRead s a (m + n) = dramRead s a m ++ dramRead s (a + m) n := by
  simp only [dramRead, List.range_add, List.map_append, List.map_map, Function.comp_def, Nat.add_assoc]

/-- The bytes of a piece of one granule, located at its start. -/
theorem dramRead_piece (s : State) {a n : Nat} (h : (a + n - 1) / 4096 = a / 4096) : dramRead s a n =
    match locate s a with
    | some q => (List.range n).map (fun i => (dramCell s (q + i)).toNat)
    | none => List.replicate n 0 := by
  have hloc : ∀ i ∈ List.range n, locate s (a + i) = (locate s a).map (· + i) := fun i hi =>
    locate_add s (by have := List.mem_range.mp hi; omega)
  unfold dramRead
  cases hq : locate s a with
  | none =>
    refine List.eq_replicate_iff.mpr ⟨by simp, fun x hx => ?_⟩
    obtain ⟨i, hi, rfl⟩ := List.mem_map.mp hx
    rw [hloc i hi, hq]
    rfl
  | some q =>
    refine List.map_congr_left fun i hi => ?_
    rw [hloc i hi, hq]
    rfl

/-- The piece of `n` bytes from `a` that lies in the `i`-th granule they touch. -/
def pieceAt (a n i : Nat) : Nat × Nat :=
  (max a ((a / 4096 + i) * 4096), min (a + n) ((a / 4096 + i + 1) * 4096) - max a ((a / 4096 + i) * 4096))

theorem granulesOf_eq {a n : Nat} (h : n ≠ 0) :
    granulesOf a n = (List.range ((a + n - 1) / 4096 - a / 4096 + 1)).map (pieceAt a n) := if_neg h

/-- The pieces of the first `k` granules, one after the other, are the bytes up to the `k`-th granule's end. -/
theorem flatMap_pieces (s : State) {a n k : Nat} (hk : k ≤ (a + n - 1) / 4096 - a / 4096 + 1) :
    ((List.range k).map (pieceAt a n)).flatMap (fun g => dramRead s g.1 g.2) =
      dramRead s a (min (a + n) ((a / 4096 + k) * 4096) - a) := by
  induction k with
  | zero =>
    have hzero : min (a + n) ((a / 4096 + 0) * 4096) - a = 0 := by omega
    rw [hzero]
    rfl
  | succ k ih =>
    obtain ⟨x, hx⟩ : ∃ x, x = min (a + n) ((a / 4096 + k) * 4096) - a := ⟨_, rfl⟩
    have hlo : (pieceAt a n k).1 = a + x := by simp only [pieceAt]; omega
    have hlen : min (a + n) ((a / 4096 + (k + 1)) * 4096) - a = x + (pieceAt a n k).2 := by simp only [pieceAt]; omega
    rw [List.range_succ, List.map_append, List.flatMap_append, ih (by omega), ← hx, hlen, dramRead_add]
    simp [hlo]

/-- Long reads, located granule by granule, give the bytes that their addresses name one by one. -/
theorem dramBulk_eq (s : State) (a n : Nat) : dramBulk s a n = dramRead s a n := by
  by_cases hn : n = 0
  · subst hn
    rfl
  have hpieces : dramBulk s a n = (granulesOf a n).flatMap (fun g => dramRead s g.1 g.2) := by
    unfold dramBulk
    refine (List.flatMap_congr fun g hg => ?_).symm
    rw [granulesOf_eq hn, List.mem_map] at hg
    obtain ⟨i, hi, rfl⟩ := hg
    have := List.mem_range.mp hi
    refine dramRead_piece s ?_
    simp only [pieceAt]
    omega
  rw [hpieces, granulesOf_eq hn, flatMap_pieces s le_rfl]
  congr 1
  omega

/-! ### Bytes stored -/

theorem putByte_frame (a b : Nat) (s : State) : { putByte a b s with dram := s.dram } = s := by
  unfold putByte
  split
  · split <;> rfl
  · rfl

theorem putBytes_frame (bs : List Nat) (a : Nat) (s : State) : { putBytes a bs s with dram := s.dram } = s := by
  induction bs generalizing a s with
  | nil => rfl
  | cons b bs ih =>
    have h := ih (a + 1) (putByte a b s)
    have hb := putByte_frame a b s
    rw [← h] at hb
    exact hb

theorem dramCell_putByte {s : State} {a q : Nat} (b : Nat) (hq : locate s a = some q) (hlive : mapGet false s.chDead (q / 2 ^ 31) = false)
    (p : Nat) : dramCell (putByte a b s) p = if p = q then BitVec.ofNat 8 b else dramCell s p := by
  have hput : putByte a b s = { s with dram := mapSet (dramUnlisted s q) s.dram q (BitVec.ofNat 8 b) } := by
    simp only [putByte, hq, hlive, Bool.false_eq_true, if_false]
  rw [hput]
  split
  · subst_vars
    exact mapGet_set_self ..
  · exact mapGet_set_ne _ _ _ _ _ _ ‹_›

/-- `n` bytes from `a` live side by side from place `q`, in channels that work. -/
def LivesAt (s : State) (a n q : Nat) : Prop :=
  ∀ i < n, locate s (a + i) = some (q + i) ∧ mapGet false s.chDead ((q + i) / 2 ^ 31) = false

theorem locate_putByte (a b : Nat) (s : State) (x : Nat) : locate (putByte a b s) x = locate s x :=
  (tablesStand_of_regs (congrArg State.regs (putByte_frame a b s) :)).locate_eq x

theorem dramCell_putBytes (bs : List Nat) {s : State} {a q : Nat} (h : LivesAt s a bs.length q) (p : Nat) :
    dramCell (putBytes a bs s) p =
      if q ≤ p ∧ p < q + bs.length then BitVec.ofNat 8 (bs.getD (p - q) 0) else dramCell s p := by
  induction bs generalizing a q s with
  | nil => simp [putBytes]
  | cons b bs ih =>
    obtain ⟨hq, hlive⟩ := h 0 (by simp)
    simp only [Nat.add_zero] at hq hlive
    have hrest : LivesAt (putByte a b s) (a + 1) bs.length (q + 1) := by
      intro i hi
      have hdead : (putByte a b s).chDead = s.chDead := (congrArg State.chDead (putByte_frame a b s) :)
      rw [locate_putByte, hdead, Nat.add_assoc, Nat.add_assoc, Nat.add_comm 1 i]
      exact h (i + 1) (by simpa using hi)
    rw [putBytes, ih hrest, dramCell_putByte b hq hlive]
    simp only [List.length_cons]
    by_cases hp : p = q
    · subst hp
      simp
    · by_cases hin : q ≤ p ∧ p < q + (bs.length + 1)
      · obtain ⟨j, rfl⟩ : ∃ j, p = q + 1 + j := ⟨p - q - 1, by omega⟩
        have hj : q + 1 + j - q = j + 1 := by omega
        rw [if_pos (by omega), if_pos hin, hj]
        simp
      · rw [if_neg (by omega), if_neg hin, if_neg hp]

/-! ### A write of one block -/

/-- Bytes that work, of one granule, live side by side. -/
theorem livesAt_of_works {s : State} {a n : Nat} (hn : n ≠ 0) (hblock : n ≤ 64 - a % 64) (h : Works s a n) :
    ∃ q, locate s a = some q ∧ LivesAt s a n q := by
  obtain ⟨q, hq, -⟩ := h 0 (by omega)
  refine ⟨q, hq, fun i hi => ?_⟩
  obtain ⟨p, hp, hlive⟩ := h i hi
  have hplace : locate s (a + i) = some (q + i) := by
    rw [locate_add s (by omega), show locate s a = some q from hq]
    rfl
  obtain rfl : p = q + i := Option.some.inj (hp.symm.trans hplace)
  exact ⟨hp, hlive⟩

theorem blocksOf_one {a n : Nat} (hn : n ≠ 0) (hblock : n ≤ 64 - a % 64) : blocksOf a n = [a / 64] := by
  have hlast : (a + n - 1) / 64 - a / 64 + 1 = 1 := by omega
  rw [blocksOf, if_neg hn, hlast]
  simp

theorem markBlock_frame (a n : Nat) (poison : Bool) (blk : Nat) (s : State) :
    { markBlock a n poison blk s with dramPoison := s.dramPoison, dramSyms := s.dramSyms } = s := by
  unfold markBlock
  split
  · rfl
  · split
    · rfl
    · split <;> rfl

theorem dramPoison_markBlock {a n : Nat} (poison : Bool) {s : State} {q : Nat} (hblock : n ≤ 64 - a % 64)
    (hq : locate s a = some q) : mapGet false (markBlock a n poison (a / 64) s).dramPoison (q / 64) =
      if poison then true else if a % 64 = 0 ∧ n = 64 then false else mapGet false s.dramPoison (q / 64) := by
  obtain ⟨q0, hq0, -, hdiv⟩ := locate_blockBase hq
  have hwhole : (a ≤ a / 64 * 64 ∧ a / 64 * 64 + 64 ≤ a + n) ↔ (a % 64 = 0 ∧ n = 64) := by omega
  simp only [markBlock, hq0, hwhole, hdiv]
  cases poison with
  | true => simp only [if_true, mapGet_set_self]
  | false =>
    simp only [Bool.false_eq_true, if_false]
    split
    · simp only [mapGet_set_self]
    · rfl

theorem countWr_frame (a n blk : Nat) (s : State) : OnlyRegs s (countWr a n blk s) := by
  unfold countWr
  split
  · rfl
  · exact OnlyRegs.trans (onlyRegs_wri ..) (countE_frame ..)

/-- Counting a write changes byte and event counters, and no table. -/
theorem countWr_tables (a n blk : Nat) (s : State) : TablesStand s (countWr a n blk s) := by
  unfold countWr
  split
  · exact keepsRegs_refl _ s
  · refine KeepsRegs.trans (t := bump _ R.MEMC_WR_BYTES _ s) (tablesStand_wri (by decide) _ _ s) (countE_keeps _ _ _ _ _ _ ?_)
    intro sel cnt n hc i hi
    obtain ⟨-, rfl, rfl⟩ : R.PERF_EVT_SEL = sel ∧ R.PERF_EVT_CNT = cnt ∧ 16 = n := by
      simpa only [Option.some.injEq, Prod.mk.injEq] using
        (show some (R.PERF_EVT_SEL, R.PERF_EVT_CNT, 16) = some (sel, cnt, n) from hc)
    rw [tableKey, fieldKey_eq_place, Nat.mul_add_mod_self_right, ← tableKey]
    exact (by decide : ∀ j < 16, (!tableKey (fieldPlace R.PERF_EVT_CNT j)) = true) i hi

/-- The state that a write of part of one block leaves, part by part. -/
theorem dramWrite_block {a : Nat} {bs : List Nat} (poison : Bool) (s : State) (hn : bs.length ≠ 0) (hblock : bs.length ≤ 64 - a % 64) :
    dramWrite a bs poison s =
      notifyTally a bs.length (countWr a bs.length (a / 64) (markBlock a bs.length poison (a / 64) (putBytes a bs s))) := by
  rw [dramWrite, blocksOf_one hn hblock]
  rfl

theorem dramCell_congr {s t : State} (hdram : t.dram = s.dram) (hany : t.dramAny = s.dramAny) (q : Nat) : dramCell t q = dramCell s q := by
  simp only [dramCell, dramUnlisted, hdram, hany]

/-- A write of part of one block that works stores its bytes and no others, and marks its block. -/
theorem dramWrite_spec {a q : Nat} {bs : List Nat} (poison : Bool) {s : State} (hn : bs.length ≠ 0) (hblock : bs.length ≤ 64 - a % 64)
    (hq : locate s a = some q) (hlive : LivesAt s a bs.length q) :
    TablesStand s (dramWrite a bs poison s) ∧
    (∀ p, dramCell (dramWrite a bs poison s) p =
      if q ≤ p ∧ p < q + bs.length then BitVec.ofNat 8 (bs.getD (p - q) 0) else dramCell s p) ∧
    mapGet false (dramWrite a bs poison s).dramPoison (q / 64) =
      if poison then true else if a % 64 = 0 ∧ bs.length = 64 then false else mapGet false s.dramPoison (q / 64) := by
  rw [dramWrite_block poison s hn hblock]
  obtain ⟨u, hu⟩ : ∃ u, u = putBytes a bs s := ⟨_, rfl⟩
  obtain ⟨v, hv⟩ : ∃ v, v = markBlock a bs.length poison (a / 64) u := ⟨_, rfl⟩
  obtain ⟨w, hw⟩ : ∃ w, w = countWr a bs.length (a / 64) v := ⟨_, rfl⟩
  have hput := putBytes_frame bs a s
  rw [← hu] at hput
  have hmark := markBlock_frame a bs.length poison (a / 64) u
  rw [← hv] at hmark
  have hcount : OnlyRegs v w := hw ▸ countWr_frame _ _ _ _
  have hus : TablesStand s u := tablesStand_of_regs (congrArg State.regs hput :)
  rw [← hu, ← hv, ← hw]
  refine ⟨?_, fun p => ?_, ?_⟩
  · have hvu : TablesStand u v := tablesStand_of_regs (congrArg State.regs hmark :)
    have hwv : TablesStand v w := hw ▸ countWr_tables _ _ _ _
    exact hus.trans (hvu.trans (hwv.trans (tablesStand_of_regs rfl)))
  · have hdram : w.dram = u.dram := (hcount.eq State.dram fun _ _ => rfl).trans (congrArg State.dram hmark :)
    have hany : w.dramAny = u.dramAny := (hcount.eq State.dramAny fun _ _ => rfl).trans (congrArg State.dramAny hmark :)
    rw [dramCell_congr (s := u) (t := notifyTally a bs.length w) hdram hany, hu]
    exact dramCell_putBytes bs hlive p
  · have hpoison : w.dramPoison = v.dramPoison := hcount.eq State.dramPoison fun _ _ => rfl
    have hupoison : u.dramPoison = s.dramPoison := (congrArg State.dramPoison hput :)
    change mapGet false w.dramPoison (q / 64) = _
    rw [hpoison, hv, dramPoison_markBlock poison hblock ((hus.locate_eq a).trans hq), hupoison]

/-- Bytes read back from where they live side by side. -/
theorem dramRead_of_cells {t : State} {a q : Nat} {bs : List Nat} (hbyte : ∀ b ∈ bs, b < 256)
    (hloc : ∀ i < bs.length, locate t (a + i) = some (q + i))
    (hcell : ∀ i < bs.length, dramCell t (q + i) = BitVec.ofNat 8 (bs.getD i 0)) : dramRead t a bs.length = bs := by
  refine List.ext_getElem (by simp [dramRead]) fun i hi _ => ?_
  have hi' : i < bs.length := by simpa [dramRead] using hi
  have hlt : bs[i] < 256 := hbyte _ (List.getElem_mem hi')
  simp [dramRead, hloc i hi', hcell i hi', hi', Nat.mod_eq_of_lt hlt]

/-- Settles O25: a write of part of one block is bytes put side by side, a mark and a count, and a long read is cut at granules. -/
theorem dramWritesAndBulkReads : Obligations.DramWritesAndBulkReads := by
  unfold Obligations.DramWritesAndBulkReads
  refine ⟨fun a d poison o s hshut => ⟨fun hnone => ?_, fun hd hworks => ?_⟩, dramBulk_eq⟩
  · refine ⟨_, rfl, ?_, ?_⟩
    · simp [doDramWrite, hnone, codeUnmapped]
    · simp only [doDramWrite, hnone, Option.isNone_none, Bool.or_true, if_true]
      exact (recordErr_frame ..).dram
  · obtain ⟨bs, hbs⟩ : ∃ bs, bs = (d.take (64 - a % 64)).map (fun b => b.toNat) := ⟨_, rfl⟩
    rw [← hbs] at hworks ⊢
    have hlen : bs.length = min (64 - a % 64) d.length := by simp [hbs]
    have hd0 : d.length ≠ 0 := by simpa using hd
    have hn : bs.length ≠ 0 := by omega
    obtain ⟨q, hq, hlive⟩ := livesAt_of_works hn (by omega) hworks
    obtain ⟨htab, hcell, hpoison⟩ := dramWrite_spec poison hn (by omega) hq hlive
    have hstep : doDramWrite a d poison o s = { dramWrite a bs poison s with reply := ⟨0, 0, false⟩ } := by
      simp [doDramWrite, hshut, hq, ← hbs]
    refine ⟨{ dramWrite a bs poison s with reply := ⟨0, 0, false⟩ }, congrArg _ hstep, rfl, ?_, fun p hp => ?_, fun q' hq' => ?_⟩
    · have hbyte : ∀ b ∈ bs, b < 256 := by
        subst hbs
        intro b hb
        obtain ⟨x, -, rfl⟩ := List.mem_map.mp hb
        exact x.isLt
      refine dramRead_of_cells (q := q) hbyte (fun i hi => ?_) fun i hi => ?_
      · exact (htab.locate_eq (a + i)).trans (hlive i hi).1
      · exact (hcell (q + i)).trans (by rw [if_pos (by omega), Nat.add_sub_cancel_left])
    · refine (hcell p).trans (if_neg fun hin => ?_)
      refine hp (p - q) (by omega) ?_
      rw [(hlive (p - q) (by omega)).1, Nat.add_sub_cancel' hin.1]
    · obtain rfl : q = q' := Option.some.inj (hq.symm.trans hq')
      exact hpoison

end Sys2Proof.Machine
end

section
/-!
SUPPORT. What a recorded error and a host event change, by field, and what safe mode and the fall of a link change (R61, R277,
R400, R442, R507).
-/

namespace Sys2Proof.Machine

/-! ### Errors stand -/

/-- Whether a number is at the place in a page of ERR_STAT.ERR. -/
def errKey (key : Nat) : Bool := key % 1048576 == fieldPlace R.HEADER_ERR_STAT_ERR 0

/-- Every error that a page's ERR_STAT shows in `s` it shows in `t`. -/
def ErrsStand (s t : State) : Prop :=
  ∀ p bit, bit < 31 → bitSet (rd s p R.HEADER_ERR_STAT_ERR) bit = true → bitSet (rd t p R.HEADER_ERR_STAT_ERR) bit = true

theorem errsStand_refl (s : State) : ErrsStand s s := fun _ _ _ h => h

theorem ErrsStand.trans {s t u : State} (h : ErrsStand s t) (g : ErrsStand t u) : ErrsStand s u :=
  fun p bit hbit hs => g p bit hbit (h p bit hbit hs)

theorem errKey_err (p : Page) : errKey (fieldKey p R.HEADER_ERR_STAT_ERR 0) = true := by
  rw [errKey, fieldKey_mod (by decide)]
  exact beq_self_eq_true _

theorem errsStand_of_regs {s t : State} (h : t.regs = s.regs) : ErrsStand s t := fun p _ _ hs => by rwa [rd_of_regs h]

theorem errsStand_wri {p : Page} {f : RegField} {n : Nat} (h : errKey (fieldKey p f n) = false) (v : Nat) (s : State) :
    ErrsStand s (wri p f n v s) := by
  intro q bit _ hs
  have hkey : fieldKey q R.HEADER_ERR_STAT_ERR 0 ≠ fieldKey p f n := fun he => by
    rw [← he, errKey_err] at h
    cases h
  rwa [show rd (wri p f n v s) q R.HEADER_ERR_STAT_ERR = rd s q R.HEADER_ERR_STAT_ERR from rdi_wri_ne _ _ _ _ _ _ _ _ hkey]

theorem bitSet_or {x y w bit : Nat} (hbit : bit < w) (h : bitSet x bit = true) : bitSet ((x ||| y) % 2 ^ w) bit = true := by
  have hx : x.testBit bit = true := by simpa [bitSet, bitOf, Nat.testBit_eq_decide_div_mod_eq] using h
  have : ((x ||| y) % 2 ^ w).testBit bit = true := by simp [Nat.testBit_mod_two_pow, Nat.testBit_or, hx, hbit]
  simpa [bitSet, bitOf, Nat.testBit_eq_decide_div_mod_eq] using this

/-- A bit joined to a page's errors leaves those that stand. -/
theorem errsStand_wr_err (p : Page) (y : Nat) (s : State) :
    ErrsStand s (wr p R.HEADER_ERR_STAT_ERR (rd s p R.HEADER_ERR_STAT_ERR ||| y) s) := by
  intro q bit hbit hs
  by_cases hkey : fieldKey q R.HEADER_ERR_STAT_ERR 0 = fieldKey p R.HEADER_ERR_STAT_ERR 0
  · have hsame (u : State) : rd u q R.HEADER_ERR_STAT_ERR = rd u p R.HEADER_ERR_STAT_ERR := by rw [rd, rd, rdi, rdi, hkey]
    rw [hsame] at hs ⊢
    rw [rd_wr_self]
    exact bitSet_or (w := 31) hbit hs
  · rwa [rd_wr_ne _ _ _ _ _ _ hkey]

/-! ### Changes of some fields, errors standing -/

/-- Only the fields that `on` tells of may differ, and errors stand. -/
def Leaves (on : Nat → Bool) (s t : State) : Prop := KeepsRegs on s t ∧ ErrsStand s t

theorem leaves_refl (on : Nat → Bool) (s : State) : Leaves on s s := ⟨keepsRegs_refl on s, errsStand_refl s⟩

theorem Leaves.trans {on : Nat → Bool} {s t u : State} (h : Leaves on s t) (g : Leaves on t u) : Leaves on s u :=
  ⟨KeepsRegs.trans h.1 g.1, h.2.trans g.2⟩

theorem leaves_of_regs {on : Nat → Bool} {s t : State} (h : t.regs = s.regs) : Leaves on s t :=
  ⟨fun _ _ => by rw [h], errsStand_of_regs h⟩

theorem leaves_wri {on : Nat → Bool} {p : Page} {f : RegField} {n : Nat} (hon : on (fieldKey p f n) = true)
    (herr : errKey (fieldKey p f n) = false) (v : Nat) (s : State) : Leaves on s (wri p f n v s) :=
  ⟨keepsRegs_wri hon v s, errsStand_wri herr v s⟩

theorem Leaves.mono {on on' : Nat → Bool} {s t : State} (h : Leaves on s t) (hle : ∀ key, on key = true → on' key = true) :
    Leaves on' s t := ⟨keepsRegs_mono h.1 hle, h.2⟩

theorem Leaves.rd_eq {on : Nat → Bool} {s t : State} (h : Leaves on s t) {p : Page} {f : RegField}
    (hoff : on (fieldKey p f 0) = false) : rd t p f = rd s p f := rd_of_keepsRegs h.1 hoff

theorem leaves_foldUpTo {on : Nat → Bool} {n : Nat} {f : Nat → State → State} (h : ∀ i s, i < n → Leaves on s (f i s)) (s : State) :
    Leaves on s (foldUpTo n f s) :=
  foldUpTo_induct (fun u => Leaves on s u) n f (fun i u hi hu => hu.trans (h i u hi)) s (leaves_refl on s)

theorem leaves_foldl {α : Type} {on : Nat → Bool} {f : State → α → State} {l : List α} (h : ∀ s, ∀ a ∈ l, Leaves on s (f s a))
    (s : State) : Leaves on s (l.foldl f s) := by
  induction l generalizing s with
  | nil => exact leaves_refl on s
  | cons a l ih =>
    exact (h s a (List.mem_cons_self ..)).trans (ih (fun u b hb => h u b (List.mem_cons_of_mem _ hb)) _)

/-! ### Recorded errors and host events -/

/-- The fields of a page's header that a recorded error changes. -/
def errFields : List RegField :=
  [R.HEADER_ERR_STAT_ERR, R.HEADER_ERR_STAT_MULTI, R.HEADER_ERR_FIRST_CODE, R.HEADER_ERR_FIRST_BIT, R.HEADER_ERR_FIRST_VALID]

/-- Whether a number is a field that a recorded error or a host event changes: ERR_STAT and ERR_FIRST of some page, or the
event ring's head and lost count. -/
def eventKey (key : Nat) : Bool :=
  errFields.any (fun f => key % 1048576 == fieldPlace f 0) ||
    (keyPage key == pageKey pgHlink && [R.HLINK_EVQ_HEAD, R.HLINK_EVQ_LOST].any (fun f => key % 1048576 == fieldPlace f 0))

theorem eventKey_header {f : RegField} (hf : f ∈ errFields) (p : Page) : eventKey (fieldKey p f 0) = true := by
  have hplace : fieldPlace f 0 < 1048576 := (by decide : ∀ f ∈ errFields, fieldPlace f 0 < 1048576) f hf
  rw [eventKey, fieldKey_mod hplace, Bool.or_eq_true]
  exact Or.inl (List.any_eq_true.mpr ⟨f, hf, beq_self_eq_true _⟩)

theorem setErr_events (p : Page) (bit code : Nat) (s : State) : Leaves eventKey s (setErr p bit code s) := by
  have hwr {f : RegField} (hf : f ∈ errFields) (hne : fieldPlace f 0 ≠ fieldPlace R.HEADER_ERR_STAT_ERR 0) (v : Nat) (u : State) :
      Leaves eventKey u (wr (headPage p) f v u) := by
    refine leaves_wri (eventKey_header hf _) ?_ v u
    rw [errKey, fieldKey_mod ((by decide : ∀ f ∈ errFields, fieldPlace f 0 < 1048576) f hf)]
    simpa using hne
  have hset : Leaves eventKey s (wr (headPage p) R.HEADER_ERR_STAT_ERR (rd s (headPage p) R.HEADER_ERR_STAT_ERR ||| 2 ^ bit) s) :=
    ⟨keepsRegs_wri (eventKey_header (by decide) _) _ s, errsStand_wr_err _ _ s⟩
  unfold setErr
  dsimp only
  split
  · exact hset
  · split
    · exact hset.trans (hwr (by decide) (by decide) _ _)
    · exact ((hset.trans (hwr (by decide) (by decide) _ _)).trans (hwr (by decide) (by decide) _ _)).trans
        (hwr (by decide) (by decide) _ _)

theorem hostEvent_events (code : Nat) (p : Page) (ctx : Option Nat) (arg : Nat) (s : State) :
    Leaves eventKey s (hostEvent code p ctx arg s) := by
  have hlost (v : Nat) (u : State) : Leaves eventKey u (wr pgHlink R.HLINK_EVQ_LOST v u) := leaves_wri (by decide) (by decide) v u
  unfold hostEvent
  split
  · exact hlost _ _
  · split
    · exact (setErr_events pgHlink _ _ s).trans (hlost _ _)
    · unfold deliverEvent
      dsimp only
      exact (leaves_of_regs (hostPut_regs ..)).trans
        ((leaves_wri (p := pgHlink) (f := R.HLINK_EVQ_HEAD) (n := 0) (by decide) (by decide) _ _).trans (leaves_of_regs (signalMsi_regs _)))

theorem recordErr_events (p : Page) (bit : Nat) (ctx : Option Nat) (s : State) : Leaves eventKey s (recordErr p bit ctx s) := by
  unfold recordErr recordCode
  dsimp only
  split
  · exact setErr_events ..
  · exact (setErr_events ..).trans (hostEvent_events ..)

/-- An error that is recorded stands on its page. -/
theorem err_recordErr (p : Page) {bit : Nat} (hbit : bit < 31) (ctx : Option Nat) (s : State) :
    bitSet (rd (recordErr p bit ctx s) (headPage p) R.HEADER_ERR_STAT_ERR) bit = true := by
  have hset (code : Nat) : bitSet (rd (setErr p bit code s) (headPage p) R.HEADER_ERR_STAT_ERR) bit = true := by
    rw [rd_setErr_err]
    exact bitSet_or_two_pow _ hbit
  unfold recordErr recordCode
  dsimp only
  split
  · exact hset _
  · exact (hostEvent_events ..).2 _ bit hbit (hset _)

/-! ### A link that falls -/

/-- `t` is `s` but for register fields, the link engines and the traffic taken from them. -/
def SameButLinks (s t : State) : Prop := { t with regs := s.regs, links := s.links, lostQ := s.lostQ, pinHeld := s.pinHeld } = s

theorem SameButLinks.trans {s t u : State} (h : SameButLinks s t) (g : SameButLinks t u) : SameButLinks s u := by
  unfold SameButLinks at *
  rw [← g] at h
  exact h

theorem sameButLinks_foldUpTo {n : Nat} {f : Nat → State → State} (h : ∀ i s, SameButLinks s (f i s)) (s : State) :
    SameButLinks s (foldUpTo n f s) :=
  foldUpTo_induct (fun u => SameButLinks s u) n f (fun i u _ hu => hu.trans (h i u)) s rfl

theorem sameButLinks_wri (p : Page) (f : RegField) (n v : Nat) (s : State) : SameButLinks s (wri p f n v s) := rfl

theorem sameButLinks_setLink (k : Nat) (l : LinkSt) (s : State) : SameButLinks s (setLink k l s) := rfl

theorem sameButLinks_queues (lost : List Train) (held : List (Nat × Train)) (s : State) :
    SameButLinks s { s with lostQ := lost, pinHeld := held } := rfl

theorem spillLink_frame (k : Nat) (down : Bool) (s : State) : SameButLinks s (spillLink k down s) := by
  unfold spillLink
  dsimp only
  exact (sameButLinks_setLink k _ s).trans (sameButLinks_queues _ _ _)

theorem spillLink_regs (k : Nat) (down : Bool) (s : State) : (spillLink k down s).regs = s.regs := by
  simp only [spillLink, setLink_regs]

/-- The fields that a link loses as it goes DOWN. -/
def linkFallen : List RegField :=
  [R.LINK_STATUS_STATE, R.LINK_STATUS_RATE_224, R.LINK_STATUS_VERSION, R.LINK_STATUS_FEC_528, R.LINK_STATUS_SPREAD_ON,
    R.LINK_STATUS_ORDERED, R.LINK_STATUS_TALLY_OPS, R.LINK_STATUS_EMB_V2, R.LINK_STATUS_RETRYING]

theorem dropLink_frame (k : Nat) (s : State) : SameButLinks s (dropLink k s) := by
  refine foldl_keeps (SameButLinks s) (fun t f => wr (pgLink k) f 0 t) (fun u f hu => hu.trans (sameButLinks_wri ..)) linkFallen _ ?_
  exact (spillLink_frame k true s).trans (sameButLinks_setLink ..)

/-- Whether a number is a field of a native link's page other than its header's errors. -/
def linkKey (key : Nat) : Bool := keyPage key / 8192 == clsCode .link && !errKey key

theorem linkKey_link {f : RegField} (hplace : fieldPlace f 0 < 1048576) (hne : fieldPlace f 0 ≠ fieldPlace R.HEADER_ERR_STAT_ERR 0)
    {k : Nat} (hk : k < 32) : linkKey (fieldKey (pgLink k) f 0) = true := by
  have hpage : pageKey (pgLink k) / 8192 = clsCode .link := by
    simp only [pageKey, pgLink, clsCode]
    omega
  rw [linkKey, keyPage_fieldKey hplace, errKey, fieldKey_mod hplace, hpage]
  simpa using hne

theorem leaves_wr_link {f : RegField} (hplace : fieldPlace f 0 < 1048576) (hne : fieldPlace f 0 ≠ fieldPlace R.HEADER_ERR_STAT_ERR 0)
    {k : Nat} (hk : k < 32) (v : Nat) (s : State) : Leaves linkKey s (wr (pgLink k) f v s) := by
  have hkey := linkKey_link hplace hne hk
  refine leaves_wri hkey ?_ v s
  rw [linkKey, Bool.and_eq_true, Bool.not_eq_true'] at hkey
  exact hkey.2

theorem dropLink_leaves {k : Nat} (hk : k < 32) (s : State) : Leaves linkKey s (dropLink k s) := by
  have hspill : Leaves linkKey s (setLink k LinkSt.zero (spillLink k true s)) :=
    leaves_of_regs ((setLink_regs ..).trans (spillLink_regs ..))
  refine hspill.trans (leaves_foldl (l := linkFallen) (fun u f hf => ?_) _)
  obtain ⟨hplace, hne⟩ := (by decide : ∀ f ∈ linkFallen, fieldPlace f 0 < 1048576 ∧
    fieldPlace f 0 ≠ fieldPlace R.HEADER_ERR_STAT_ERR 0) f hf
  exact leaves_wr_link hplace hne hk 0 u

/-! ### Safe mode -/

/-- Whether a number is a field that what follows on the mark of safe mode changes: those of errors and events, of captures,
the dies' set-points and the native links' fields. -/
def stopKey (key : Nat) : Bool :=
  eventKey key || [R.EMB_CAPTURE_ARMED, R.EMB_CAPTURE_SKIPPED].any (fun f => key == fieldKey pgEmb f 0) ||
    (List.range 4).any (fun d => key == fieldKey pgPwr R.PWR_VSET d) || linkKey key

/-- Whether a number is a field that the entry to safe mode changes. -/
def safeKey (key : Nat) : Bool :=
  stopKey key || [R.EMB_STATUS_SAFE, R.EMB_SAFE_REASON].any (fun f => key == fieldKey pgEmb f 0)

theorem stopKey_of_event {key : Nat} (h : eventKey key = true) : stopKey key = true := by simp [stopKey, h]

theorem stopKey_of_link {key : Nat} (h : linkKey key = true) : stopKey key = true := by simp [stopKey, h]

theorem safeKey_of_stop {key : Nat} (h : stopKey key = true) : safeKey key = true := by simp [safeKey, h]

theorem startCapture_leaves (cause code reach : Nat) (s : State) : Leaves stopKey s (startCapture cause code reach s) :=
  Leaves.trans (t := wr pgEmb R.EMB_CAPTURE_ARMED 0 s) (leaves_wri (by decide) (by decide) 0 s) (leaves_of_regs rfl)

theorem triggerCapture_leaves (cause code reach : Nat) (s : State) : Leaves stopKey s (triggerCapture cause code reach s).2 := by
  unfold triggerCapture
  split
  · exact leaves_refl _ s
  · split
    · exact startCapture_leaves cause code reach s
    · split
      · exact leaves_wri (by decide) (by decide) _ s
      · exact leaves_refl _ s

/-- `t` is `s` but for what safe mode may change. -/
def SameButSafe (s t : State) : Prop :=
  { t with regs := s.regs, host := s.host, hostPoison := s.hostPoison, msiHold := s.msiHold, msiDue := s.msiDue, msiSent := s.msiSent,
           rst := { t.rst with capture := s.rst.capture }, stopAll := s.stopAll, links := s.links, lostQ := s.lostQ,
           pinHeld := s.pinHeld } = s

theorem SameButSafe.trans {s t u : State} (h : SameButSafe s t) (g : SameButSafe t u) : SameButSafe s u := by
  unfold SameButSafe at *
  rw [← g] at h
  exact h

theorem SameButEvents.safe {s t : State} (h : SameButEvents s t) : SameButSafe s t := by
  unfold SameButEvents at h
  unfold SameButSafe
  rw [← h]

theorem SameButLinks.safe {s t : State} (h : SameButLinks s t) : SameButSafe s t := by
  unfold SameButLinks at h
  unfold SameButSafe
  rw [← h]

theorem triggerCapture_frame (cause code reach : Nat) (s : State) : SameButSafe s (triggerCapture cause code reach s).2 := by
  unfold triggerCapture
  split
  · rfl
  · split
    · rfl
    · split <;> rfl

/-- Every link goes DOWN but those whose state is 5. -/
def linksFall (s : State) : State :=
  foldUpTo 32 (fun k t => if rd t (pgLink k) R.LINK_STATUS_STATE = 5 then t else dropLink k t) s

theorem linksFall_frame (s : State) : SameButLinks s (linksFall s) := by
  refine sameButLinks_foldUpTo (fun k u => ?_) s
  split
  · rfl
  · exact dropLink_frame k u

theorem linksFall_leaves (s : State) : Leaves linkKey s (linksFall s) := by
  refine leaves_foldUpTo (fun k u hk => ?_) s
  split
  · exact leaves_refl _ u
  · exact dropLink_leaves hk u

/-- Safe mode marked, with its reason. -/
def safeMarked (reason : Nat) (s : State) : State := wr pgEmb R.EMB_SAFE_REASON reason (wr pgEmb R.EMB_STATUS_SAFE 1 s)

/-- The event of safe mode raised and its capture begun. -/
def safeTold (reason : Nat) (s : State) : State := (triggerCapture 0 reason 0 (hostEvent evSafeMode pgEmb none 0 s)).2

/-- The core rails lowered to 650 mV, with all issue stopped. -/
def railsLow (s : State) : State := foldUpTo 4 (fun d t => wri pgPwr R.PWR_VSET d 650 t) { s with stopAll := true }

theorem enterSafe_eq {reason : Nat} {s : State} (h : rd s pgEmb R.EMB_STATUS_SAFE ≠ 1) :
    enterSafe reason s = linksFall (railsLow (safeTold reason (safeMarked reason s))) := if_neg h

theorem safeMarked_leaves (reason : Nat) (s : State) : Leaves safeKey s (safeMarked reason s) := by
  have hsafe : Leaves safeKey s (wr pgEmb R.EMB_STATUS_SAFE 1 s) := leaves_wri (by decide) (by decide) 1 s
  exact hsafe.trans (leaves_wri (p := pgEmb) (f := R.EMB_SAFE_REASON) (n := 0) (by decide) (by decide) reason _)

theorem safeTold_leaves (reason : Nat) (s : State) : Leaves stopKey s (safeTold reason s) :=
  Leaves.trans ((hostEvent_events ..).mono fun _ => stopKey_of_event) (triggerCapture_leaves ..)

theorem safeTold_frame (reason : Nat) (s : State) : SameButSafe s (safeTold reason s) :=
  SameButSafe.trans (SameButEvents.safe (hostEvent_frame ..)) (triggerCapture_frame ..)

theorem railsLow_leaves (s : State) : Leaves stopKey s (railsLow s) := by
  refine Leaves.trans (t := { s with stopAll := true }) (leaves_of_regs rfl) (leaves_foldUpTo (fun d u hd => ?_) _)
  obtain ⟨hkey, herr⟩ := (by decide : ∀ d < 4, stopKey (fieldKey pgPwr R.PWR_VSET d) = true ∧
    errKey (fieldKey pgPwr R.PWR_VSET d) = false) d hd
  exact leaves_wri hkey herr 650 u

theorem railsLow_frame (s : State) : SameButLinks { s with stopAll := true } (railsLow s) :=
  sameButLinks_foldUpTo (fun d u => sameButLinks_wri pgPwr R.PWR_VSET d 650 u) _

/-- What follows on the mark of safe mode. -/
theorem safeStop_leaves (reason : Nat) (s : State) : Leaves stopKey s (linksFall (railsLow (safeTold reason s))) :=
  (safeTold_leaves reason s).trans ((railsLow_leaves _).trans ((linksFall_leaves _).mono fun _ => stopKey_of_link))

/-- The entry to safe mode changes fields of `safeKey` alone, and clears no error. -/
theorem enterSafe_leaves (reason : Nat) (s : State) : Leaves safeKey s (enterSafe reason s) := by
  by_cases h : rd s pgEmb R.EMB_STATUS_SAFE = 1
  · rw [enterSafe, if_pos h]
    exact leaves_refl _ s
  · rw [enterSafe_eq h]
    exact (safeMarked_leaves reason s).trans ((safeStop_leaves reason _).mono fun _ => safeKey_of_stop)

theorem enterSafe_frame (reason : Nat) (s : State) : SameButSafe s (enterSafe reason s) := by
  by_cases h : rd s pgEmb R.EMB_STATUS_SAFE = 1
  · rw [enterSafe, if_pos h]
    rfl
  · rw [enterSafe_eq h]
    have hmark : SameButSafe s (safeMarked reason s) := rfl
    have hstop (u : State) : SameButSafe u { u with stopAll := true } := rfl
    exact hmark.trans ((safeTold_frame reason _).trans ((hstop _).trans (SameButLinks.safe ((railsLow_frame _).trans (linksFall_frame _)))))

theorem rd_safe_enterSafe (reason : Nat) (s : State) : rd (enterSafe reason s) pgEmb R.EMB_STATUS_SAFE = 1 := by
  by_cases h : rd s pgEmb R.EMB_STATUS_SAFE = 1
  · rwa [enterSafe, if_pos h]
  · rw [enterSafe_eq h, (safeStop_leaves reason _).rd_eq (by decide), safeMarked, rd_wr_ne _ _ _ _ _ _ (by decide)]
    exact rd_wr_self ..

theorem SameButLinks.stopAll {s t : State} (h : SameButLinks s t) : t.stopAll = s.stopAll := by
  unfold SameButLinks at h
  exact (congrArg State.stopAll h :)

theorem stopAll_enterSafe {reason : Nat} {s : State} (h : rd s pgEmb R.EMB_STATUS_SAFE ≠ 1) : (enterSafe reason s).stopAll = true := by
  rw [enterSafe_eq h]
  exact ((railsLow_frame _).trans (linksFall_frame _)).stopAll

theorem SameButSafe.alert {s t : State} (h : SameButSafe s t) : t.alert = s.alert := by
  unfold SameButSafe at h
  exact (congrArg State.alert h :)

theorem SameButSafe.pins {s t : State} (h : SameButSafe s t) : t.pins = s.pins := by
  unfold SameButSafe at h
  exact (congrArg State.pins h :)

/-! ### Device-fatal errors -/

theorem deviceFatal_leaves (code : Nat) (s : State) : Leaves safeKey s (deviceFatal code s) :=
  Leaves.trans (t := { s with alert := true }) (leaves_of_regs rfl) (enterSafe_leaves code _)

theorem deviceFatal_frame (code : Nat) (s : State) : SameButSafe { s with alert := true } (deviceFatal code s) := enterSafe_frame ..

theorem alertN_deviceFatal (code : Nat) (s : State) : alertN (deviceFatal code s) = true := by
  have halert : (deviceFatal code s).alert = true := (deviceFatal_frame code s).alert
  simp [alertN, halert]

theorem rd_safe_deviceFatal (code : Nat) (s : State) : rd (deviceFatal code s) pgEmb R.EMB_STATUS_SAFE = 1 := rd_safe_enterSafe ..

theorem stopAll_deviceFatal {code : Nat} {s : State} (h : rd s pgEmb R.EMB_STATUS_SAFE = 0) : (deviceFatal code s).stopAll = true :=
  stopAll_enterSafe (s := { s with alert := true }) fun h1 => absurd (h.symm.trans h1) (by decide)

end Sys2Proof.Machine
end

section
/-!
CERTIFICATE. The ports, the host link and the errors of the module (O55).
-/

namespace Sys2Proof.Machine

/-! ### What a read of device DRAM by no context changes -/

/-- `t` is `s` but for register fields, events, and what the controllers of device DRAM know of errors. -/
def SameButFetch (s t : State) : Prop :=
  { t with regs := s.regs, host := s.host, hostPoison := s.hostPoison, msiHold := s.msiHold, msiDue := s.msiDue, msiSent := s.msiSent,
           ceLog := s.ceLog, ueLog := s.ueLog, dramSyms := s.dramSyms, metUe := s.metUe } = s

theorem SameButFetch.trans {s t u : State} (h : SameButFetch s t) (g : SameButFetch t u) : SameButFetch s u := by
  unfold SameButFetch at *
  rw [← g] at h
  exact h

theorem SameButEvents.fetch {s t : State} (h : SameButEvents s t) : SameButFetch s t := by
  unfold SameButEvents at h
  unfold SameButFetch
  rw [← h]

theorem OnlyRegs.fetch {s t : State} (h : OnlyRegs s t) : SameButFetch s t := by
  unfold OnlyRegs at h
  unfold SameButFetch
  rw [← h]

/-- Every number but HEARTBEAT's. -/
def offHeartbeat (key : Nat) : Bool := key != fieldKey pgMgmt R.MGMT_HEARTBEAT 0

/-- `t` is `s` after reads of device DRAM: HEARTBEAT is as it was. -/
def Fetched (s t : State) : Prop := KeepsRegs offHeartbeat s t ∧ SameButFetch s t

theorem fetched_refl (s : State) : Fetched s s := ⟨keepsRegs_refl _ s, rfl⟩

theorem fetched_of_regs {s t : State} (hregs : t.regs = s.regs) (h : SameButFetch s t) : Fetched s t :=
  ⟨fun _ _ => by rw [hregs], h⟩

theorem Fetched.trans {s t u : State} (h : Fetched s t) (g : Fetched t u) : Fetched s u := ⟨KeepsRegs.trans h.1 g.1, h.2.trans g.2⟩

theorem Fetched.dram {s t : State} (h : Fetched s t) : t.dram = s.dram := by
  have hsame := h.2
  unfold SameButFetch at hsame
  exact (congrArg State.dram hsame :)

theorem Fetched.cores {s t : State} (h : Fetched s t) : t.cores = s.cores := by
  have hsame := h.2
  unfold SameButFetch at hsame
  exact (congrArg State.cores hsame :)

theorem Fetched.heartbeat {s t : State} (h : Fetched s t) : rd t pgMgmt R.MGMT_HEARTBEAT = rd s pgMgmt R.MGMT_HEARTBEAT :=
  rd_of_keepsRegs h.1 (bne_self_eq_false _)

/-- A field at another place than HEARTBEAT's is not it, on any page. -/
theorem ne_heartbeat {f : RegField} {n : Nat} (h : fieldPlace f n % 1048576 ≠ fieldPlace R.MGMT_HEARTBEAT 0) (p : Page) :
    offHeartbeat (fieldKey p f n) = true := by
  refine bne_iff_ne.mpr (ne_fieldKey_of_place (key := fieldKey p f n) ?_ pgMgmt)
  rw [fieldKey_eq_place, Nat.mul_add_mod_self_right]
  exact h

theorem fetched_wr {f : RegField} (h : fieldPlace f 0 % 1048576 ≠ fieldPlace R.MGMT_HEARTBEAT 0) (p : Page) (v : Nat) (s : State) :
    Fetched s (wr p f v s) := ⟨keepsRegs_wri (ne_heartbeat h p) v s, rfl⟩

theorem fetched_recordErr (p : Page) (bit : Nat) (ctx : Option Nat) (s : State) : Fetched s (recordErr p bit ctx s) := by
  refine ⟨keepsRegs_mono (recordErr_events p bit ctx s).1 fun key hkey => bne_iff_ne.mpr ?_, (recordErr_frame ..).fetch⟩
  rintro rfl
  exact absurd hkey (by decide)

theorem fetched_checkFor (p : Page) (bit : Nat) (found : Bool) (s : State) : Fetched s (checkFor p bit found s).2 := by
  unfold checkFor
  split
  · exact fetched_wr (by decide) _ _ s
  · exact fetched_refl s

theorem fetched_degrade (ch : Nat) (s : State) : Fetched s (degrade ch s) := by
  have hset : Fetched s (setChState ch 1 s) := by
    unfold setChState
    dsimp only
    split
    · exact fetched_wr (by decide) _ _ s
    · exact fetched_wr (by decide) _ _ s
  unfold degrade
  split
  · exact fetched_refl s
  · exact hset.trans ((fetched_wr (f := R.MEMC_STATUS_MAPOUT_PENDING) (by decide) _ _ _).trans (fetched_recordErr ..))

theorem fetched_dramCe (q : Nat) (ctx : Option Nat) (s : State) : Fetched s (dramCe q ctx s) := by
  have hlog (log : List (Nat × List Nat)) (syms : List (Nat × Nat)) : Fetched s { s with ceLog := log, dramSyms := syms } :=
    fetched_of_regs rfl rfl
  have hnote (log : List (Nat × List Nat)) (syms : List (Nat × Nat)) (p : Page) :
      Fetched s (recordErr p 0 ctx (bumpSat p R.MEMC_CE_COUNT 1 { s with ceLog := log, dramSyms := syms })) :=
    (hlog log syms).trans ((fetched_wr (f := R.MEMC_CE_COUNT) (by decide) _ _ _).trans (fetched_recordErr ..))
  unfold dramCe
  dsimp only
  split
  · exact (hnote _ _ _).trans (fetched_degrade ..)
  · exact hnote _ _ _

theorem fetched_lastErr (q a cls : Nat) (s : State) : Fetched s (lastErr q a cls s) := by
  have hwr {f : RegField} (h : fieldPlace f 0 % 1048576 ≠ fieldPlace R.MGMT_HEARTBEAT 0) (v : Nat) (u : State) :=
    fetched_wr h (pgMemc (stackOf q)) v u
  exact (hwr (f := R.MEMC_LAST_ERR_VALID) (by decide) _ s).trans ((hwr (f := R.MEMC_LAST_ERR_CLASS) (by decide) _ _).trans
    ((hwr (f := R.MEMC_LAST_ERR_SYMBOLS) (by decide) _ _).trans ((hwr (f := R.MEMC_LAST_ERR_CH) (by decide) _ _).trans
      (hwr (f := R.MEMC_LAST_ERR_ADDR) (by decide) _ _))))

theorem fetched_dramBadNote (q a cls : Nat) (ctx : Option Nat) (s : State) : Fetched s (dramBadNote q a cls ctx s) := by
  have hlog (log : List (Nat × List (Nat × Nat))) : Fetched s (lastErr q a cls { s with ueLog := log }) :=
    Fetched.trans (t := { s with ueLog := log }) (fetched_of_regs rfl rfl) (fetched_lastErr q a cls _)
  have hcount (p : Page) (u : State) : Fetched u (if cls = 0 then bumpSat p R.MEMC_UE_COUNT 1 u else bumpSat p R.MEMC_DET_COUNT 1 u) := by
    split
    · exact fetched_wr (by decide) _ _ u
    · exact fetched_wr (by decide) _ _ u
  unfold dramBadNote
  dsimp only
  split
  · exact (((hlog _).trans (hcount _ _)).trans (fetched_recordErr ..)).trans (fetched_degrade ..)
  · exact ((hlog _).trans (hcount _ _)).trans (fetched_recordErr ..)

theorem fetched_dramBad (q a cls : Nat) (s : State) : Fetched s (dramBad q a cls none none s) := by
  unfold dramBad
  dsimp only [workStepFatal]
  split
  · exact (fetched_dramBadNote q a cls none s).trans (fetched_of_regs rfl rfl)
  · exact fetched_dramBadNote ..

theorem fetched_decodeBlock (q a n : Nat) (s : State) : Fetched s (decodeBlock q a n none none s).2 := by
  have hbad (syms : List (Nat × Nat)) (u : State) : Fetched u (dramBad q a (classOf s a) none none { u with dramSyms := syms }) :=
    Fetched.trans (t := { u with dramSyms := syms }) (fetched_of_regs rfl rfl) (fetched_dramBad q a _ _)
  obtain ⟨r, hr⟩ : ∃ r, r = checkFor (pgMemc (stackOf q)) (if classOf s a = 0 then 1 else 2)
    (n != 0 && (classOf s a != 0 || decide (4 < n))) s := ⟨_, rfl⟩
  have hcheck : Fetched s r.2 := hr ▸ fetched_checkFor _ _ _ s
  unfold decodeBlock
  simp only [← hr]
  split
  · exact hcheck.trans (hbad _ r.2)
  · split
    · dsimp only
      split
      · exact hcheck.trans ((fetched_checkFor ..).trans (fetched_dramCe ..))
      · exact hcheck.trans (fetched_checkFor ..)
    · exact hcheck

theorem fetched_meetBlock (blk : Nat) (s : State) : Fetched s (meetBlock none none blk s) := by
  unfold meetBlock
  split
  · exact fetched_refl s
  · split
    · exact fetched_dramBad ..
    · split
      · exact fetched_refl s
      · exact fetched_decodeBlock ..

theorem fetched_countRd (a n blk : Nat) (s : State) : Fetched s (countRd a n blk none s) := by
  unfold countRd
  split
  · exact fetched_refl s
  · refine (fetched_wr (f := R.MEMC_RD_BYTES) (by decide) _ _ s).trans ⟨countE_keeps _ _ _ _ _ _ ?_, (countE_frame ..).fetch⟩
    intro sel cnt n hc i hi
    obtain ⟨-, rfl, rfl⟩ : R.PERF_EVT_SEL = sel ∧ R.PERF_EVT_CNT = cnt ∧ 16 = n := by
      simpa only [Option.some.injEq, Prod.mk.injEq] using
        (show some (R.PERF_EVT_SEL, R.PERF_EVT_CNT, 16) = some (sel, cnt, n) from hc)
    exact ne_heartbeat ((by decide : ∀ j < 16, fieldPlace R.PERF_EVT_CNT j % 1048576 ≠ fieldPlace R.MGMT_HEARTBEAT 0) i hi) _

/-- A read for the firmware counts and notes what it meets; it leaves HEARTBEAT, device DRAM and the cores. -/
theorem fetched_dramFetch (a n : Nat) (s : State) : Fetched s (dramFetch a n none none s) := by
  refine foldl_keeps (Fetched s) _ (fun u b hu => ?_) (blocksOf a n) s (fetched_refl s)
  exact hu.trans ((fetched_countRd ..).trans (fetched_meetBlock ..))

/-! ### The TAP -/

theorem tapTo_eq {s : State} (h : s.tap ≠ 3) (i : Nat) : tapTo i s = { s with tap := i } := if_neg fun hc => h hc.1

theorem comesOut_beginComeout (s : State) : ComesOut s.rst.pend (beginComeout s) := by
  refine ⟨?_, rd_wr_self .., rfl, rfl, rfl⟩
  rw [beginComeout, rd_wr_ne _ _ _ _ _ _ (by decide)]
  exact rd_wr_self ..

/-- The debug request was the one source asserted: its release begins the come-out. -/
theorem tapTo_release {s : State} (htap : s.tap = 3) (hasserted : s.rst.asserted = [10]) (hheld : s.rst.held = true)
    (hpend : s.rst.pend ≠ 0) : (tapTo 0 s).tap = 0 ∧ ComesOut s.rst.pend (tapTo 0 s) := by
  obtain ⟨u, hu⟩ : ∃ u : State, u = modRst (fun x => { x with asserted := x.asserted.filter (· != 10) }) { s with tap := 0 } := ⟨_, rfl⟩
  have hrel : tapTo 0 s = beginComeout u := by
    simp [tapTo, releaseSource, tryRelease, modRst, htap, hasserted, hheld, hpend, hu]
  have htap0 : (beginComeout u).tap = u.tap := rfl
  have hpendu : u.rst.pend = s.rst.pend := by rw [hu]; rfl
  rw [hrel, htap0, ← hpendu]
  exact ⟨by rw [hu]; rfl, comesOut_beginComeout u⟩

/-! ### The I3C target -/

theorem entdaa_eq {s : State} (hon : mainOn s = true) (hnone : s.i3cAddr = none) {da : Nat} (hda : da < 128) :
    entdaa da s = { s with i3cAddr := some da } := by
  simp [entdaa, hon, hnone, Nat.mod_eq_of_lt hda]

theorem setdasa_eq {s : State} (hon : mainOn s = true) (hnone : s.i3cAddr = none) {da : Nat} (hda : da < 128) :
    setdasa (0x3A + rd s pgStrap R.STRAP_EFFECT_I3C_B) da s = { s with i3cAddr := some da } := by
  simp [setdasa, i3cStatic, hon, hnone, Nat.mod_eq_of_lt hda]

/-- The state byte's parts, each in its bits (R503). -/
theorem stateByte_bits {s : State} (hstate : rd s pgPwr R.PWR_STATUS_STATE < 4) (hsafe : rd s pgEmb R.EMB_STATUS_SAFE < 2)
    (hfw : rd s pgMgmt R.MGMT_STATUS_FW_RUNNING < 2) :
    stateByte s < 64 ∧ stateByte s % 4 = rd s pgPwr R.PWR_STATUS_STATE ∧ bitSet (stateByte s) 2 = s.pins.coolant ∧
      bitSet (stateByte s) 3 = alertN s ∧ bitSet (stateByte s) 4 = decide (rd s pgEmb R.EMB_STATUS_SAFE = 1) ∧
      bitSet (stateByte s) 5 = decide (rd s pgMgmt R.MGMT_STATUS_FW_RUNNING = 1) := by
  unfold stateByte
  generalize rd s pgPwr R.PWR_STATUS_STATE = st at *
  generalize rd s pgEmb R.EMB_STATUS_SAFE = safe at *
  generalize rd s pgMgmt R.MGMT_STATUS_FW_RUNNING = fw at *
  generalize s.pins.coolant = c
  generalize alertN s = a
  exact (by decide : ∀ st < 4, ∀ safe < 2, ∀ fw < 2, ∀ c a : Bool,
    let b := st + b2n c * 4 + b2n a * 8 + safe * 16 + fw * 32
    b < 64 ∧ b % 4 = st ∧ bitSet b 2 = c ∧ bitSet b 3 = a ∧ bitSet b 4 = decide (safe = 1) ∧ bitSet b 5 = decide (fw = 1))
    st hstate safe hsafe fw hfw c a

theorem i3cState_eq {s : State} (h : mainOn s = false ∨ rd s pgMgmt R.MGMT_STATUS_FW_RUNNING = 1) :
    exec .i3cState s = .next { s with i3cRead := [stateByte s] } := by
  have hserved : (i3cServed s || !mainOn s) = true := by
    unfold i3cServed
    cases hon : mainOn s with
    | false => rfl
    | true =>
      rw [hon] at h
      simp [h.resolve_left Bool.noConfusion]
  exact congrArg _ (if_pos hserved)

/-! ### The firmware's poll, the host link and its messages -/

theorem mailboxPoll_spec {s : State} (h : rd s pgMgmt R.MGMT_STATUS_FW_RUNNING = 1) :
    rd (mailboxPoll s) pgMgmt R.MGMT_HEARTBEAT = (rd s pgMgmt R.MGMT_HEARTBEAT + 1) % 2 ^ R.MGMT_HEARTBEAT.width ∧
      (mailboxPoll s).dram = s.dram ∧ (mailboxPoll s).cores = s.cores := by
  obtain ⟨u, hu, hfetched⟩ : ∃ u, mailboxPoll s = bump pgMgmt R.MGMT_HEARTBEAT 1 u ∧ Fetched s u := by
    unfold mailboxPoll
    rw [if_neg (by omega)]
    refine ⟨_, rfl, ?_⟩
    split
    · exact fetched_dramFetch _ _ s
    · exact fetched_refl s
  rw [hu, bump_eq, hfetched.heartbeat]
  exact ⟨rfl, hfetched.dram, hfetched.cores⟩

theorem hlinkDown_spec {s : State} (h : rd s pgHlink R.HLINK_STATUS_STATE = 3) :
    bitSet (rd (hlinkDown s) pgHlink R.HEADER_ERR_STAT_ERR) 0 = true ∧ rd (hlinkDown s) pgHlink R.HLINK_STATUS_STATE = 3 := by
  rw [hlinkDown, if_pos h]
  exact ⟨err_recordErr pgHlink (by decide) none s, ((recordErr_events ..).rd_eq (by decide)).trans h⟩

theorem msiMessage_spec {s : State} (hhold : s.msiHold = true) :
    (msiMessage s).msiDue = false ∧
      (s.msiDue = true → rd s pgHlink R.HLINK_MSI_VEC_MASK = 0 → (msiMessage s).msiHold = true ∧
        (msiMessage s).msiSent = s.msiSent ++ [rd s pgHlink R.HLINK_MSI_VEC_VECTOR]) ∧
      (s.msiDue = false → (msiMessage s).msiHold = false ∧ (msiMessage s).msiSent = s.msiSent) ∧
      { msiMessage s with msiDue := s.msiDue, msiHold := s.msiHold, msiSent := s.msiSent } = s := by
  rw [msiMessage, if_neg (by simp [hhold])]
  split
  · rename_i hsend
    rw [Bool.and_eq_true] at hsend
    refine ⟨rfl, fun _ _ => ⟨hhold, rfl⟩, fun hno => ?_, ?_⟩
    · rw [hno] at hsend
      exact absurd hsend.1 Bool.noConfusion
    · rfl
  · rename_i hsend
    refine ⟨rfl, fun hdue hmask => absurd ?_ hsend, fun _ => ⟨rfl, rfl⟩, ?_⟩
    · simp [hdue, hmask]
    · rfl

/-! ### Bridges and the management SRAM -/

theorem satAdd_lt (w n d : Nat) : satAdd w n d < 2 ^ w := by
  have := Nat.two_pow_pos w
  simp only [satAdd]
  omega

theorem SameButEvents.stopAll {s t : State} (h : SameButEvents s t) : t.stopAll = s.stopAll := by
  unfold SameButEvents at h
  exact (congrArg State.stopAll h :)

/-- The field of a die's bridge, horizontal or vertical. -/
def bridgeField (vert : Bool) : RegField := if vert then R.CANAL_STATUS_BRIDGE_V else R.CANAL_STATUS_BRIDGE_H

theorem fieldKey_bridge_ne (vert : Bool) {d : Nat} (hd : d < 4) :
    fieldKey (pgCanal d) (bridgeField vert) 0 ≠ fieldKey (pgCanal (bridgePeer d vert)) (bridgeField vert) 0 :=
  (by decide : ∀ vert : Bool, ∀ d < 4,
    fieldKey (pgCanal d) (bridgeField vert) 0 ≠ fieldKey (pgCanal (bridgePeer d vert)) (bridgeField vert) 0) vert d hd

/-- The fields of bridges are none of those that errors and safe mode change. -/
theorem bridge_off (vert : Bool) {d : Nat} (hd : d < 4) : eventKey (fieldKey (pgCanal d) (bridgeField vert) 0) = false ∧
    safeKey (fieldKey (pgCanal d) (bridgeField vert) 0) = false :=
  (by decide : ∀ vert : Bool, ∀ d < 4, eventKey (fieldKey (pgCanal d) (bridgeField vert) 0) = false ∧
    safeKey (fieldKey (pgCanal d) (bridgeField vert) 0) = false) vert d hd

/-- A bridge that loses lock carries no more traffic for either die, and the module stops. -/
theorem bridgeLost_spec {d : Nat} (hd : d < 4) (vert : Bool) {s : State} (hlocked : rd s (pgCanal d) (bridgeField vert) ≠ 0) :
    rd (bridgeLost d vert s) (pgCanal d) (bridgeField vert) = 0 ∧
      rd (bridgeLost d vert s) (pgCanal (bridgePeer d vert)) (bridgeField vert) = 0 ∧
      bitSet (rd (bridgeLost d vert s) (pgCanal d) R.HEADER_ERR_STAT_ERR) 2 = true ∧
      rd (bridgeLost d vert s) pgEmb R.EMB_STATUS_SAFE = 1 ∧
      (rd s pgEmb R.EMB_STATUS_SAFE = 0 → (bridgeLost d vert s).stopAll = true ∧ alertN (bridgeLost d vert s) = true) := by
  have hpeer : bridgePeer d vert < 4 := by unfold bridgePeer; split <;> omega
  obtain ⟨v, hv⟩ : ∃ v, v = wr (pgCanal (bridgePeer d vert)) (bridgeField vert) 0 (wr (pgCanal d) (bridgeField vert) 0 s) := ⟨_, rfl⟩
  obtain ⟨w, hw⟩ : ∃ w, w = recordErr (pgCanal d) 2 none v := ⟨_, rfl⟩
  have hlost : bridgeLost d vert s = deviceFatal (errCode .canal 2) w := by rw [hw, hv]; exact if_neg hlocked
  have hzero : rd v (pgCanal d) (bridgeField vert) = 0 ∧ rd v (pgCanal (bridgePeer d vert)) (bridgeField vert) = 0 := by
    rw [hv, rd_wr_ne _ _ _ _ _ _ (fieldKey_bridge_ne vert hd), rd_wr_self, rd_wr_self]
    exact ⟨Nat.zero_mod _, Nat.zero_mod _⟩
  have hnoted : Leaves eventKey v w := hw ▸ recordErr_events _ _ _ _
  have hkept {e : Nat} (he : e < 4) : rd (bridgeLost d vert s) (pgCanal e) (bridgeField vert) = rd v (pgCanal e) (bridgeField vert) := by
    rw [hlost, (deviceFatal_leaves _ w).rd_eq (bridge_off vert he).2, hnoted.rd_eq (bridge_off vert he).1]
  refine ⟨(hkept hd).trans hzero.1, (hkept hpeer).trans hzero.2, ?_, ?_, fun hsafe => ?_⟩
  · rw [hlost]
    exact (deviceFatal_leaves _ w).2 _ 2 (by decide) (hw ▸ err_recordErr (pgCanal d) (by decide) none v)
  · rw [hlost]
    exact rd_safe_deviceFatal _ w
  · rw [hlost]
    refine ⟨stopAll_deviceFatal ?_, alertN_deviceFatal _ w⟩
    have hne {e : Nat} (he : e < 4) : fieldKey pgEmb R.EMB_STATUS_SAFE 0 ≠ fieldKey (pgCanal e) (bridgeField vert) 0 := fun hkey => by
      have hoff := (bridge_off vert he).2
      rw [← hkey] at hoff
      exact absurd hoff (by decide)
    rw [hnoted.rd_eq (by decide), hv, rd_wr_ne _ _ _ _ _ _ (hne hpeer), rd_wr_ne _ _ _ _ _ _ (hne hd), hsafe]

/-- An uncorrectable word of the management SRAM cannot be repaired: the module stops. -/
theorem mgmtMemory_bad {s : State} (hon : mainOn s = true) (hheld : s.rst.held = false) :
    bitSet (rd (mgmtMemory true s) pgMgmt R.HEADER_ERR_STAT_ERR) 1 = true ∧ rd (mgmtMemory true s) pgEmb R.EMB_STATUS_SAFE = 1 ∧
      (rd s pgEmb R.EMB_STATUS_SAFE = 0 → (mgmtMemory true s).stopAll = true ∧ alertN (mgmtMemory true s) = true) := by
  have heq : mgmtMemory true s = deviceFatal (errCode .mgmt 1) (recordErr pgMgmt 1 none s) := by simp [mgmtMemory, hon, hheld]
  rw [heq]
  refine ⟨(deviceFatal_leaves _ _).2 _ 1 (by decide) (err_recordErr pgMgmt (by decide) none s), rd_safe_deviceFatal .., fun hsafe => ?_⟩
  exact ⟨stopAll_deviceFatal (((recordErr_events ..).rd_eq (by decide)).trans hsafe), alertN_deviceFatal ..⟩

/-- A corrected word of the management SRAM is counted. -/
theorem mgmtMemory_corrected {s : State} (hon : mainOn s = true) (hheld : s.rst.held = false) :
    bitSet (rd (mgmtMemory false s) pgMgmt R.HEADER_ERR_STAT_ERR) 0 = true ∧
      rd (mgmtMemory false s) pgMgmt R.MGMT_MGMT_CE_COUNT =
        satAdd R.MGMT_MGMT_CE_COUNT.width (rd s pgMgmt R.MGMT_MGMT_CE_COUNT) 1 ∧
      (mgmtMemory false s).stopAll = s.stopAll ∧ (mgmtMemory false s).dram = s.dram := by
  have heq : mgmtMemory false s = recordErr pgMgmt 0 none (bumpSat pgMgmt R.MGMT_MGMT_CE_COUNT 1 s) := by
    simp [mgmtMemory, hon, hheld]
  rw [heq]
  refine ⟨err_recordErr pgMgmt (by decide) none _, ?_, (recordErr_frame ..).stopAll, (recordErr_frame ..).dram⟩
  rw [(recordErr_events ..).rd_eq (by decide), bumpSat, rd_wr_self]
  exact Nat.mod_eq_of_lt (satAdd_lt ..)

/-- The die at the other end of a bridge, as the statement lists them. -/
theorem bridgePeer_eq (vert : Bool) {d : Nat} (hd : d < 4) :
    (if vert then [2, 3, 0, 1] else [1, 0, 3, 2]).getD d 0 = bridgePeer d vert :=
  (by decide : ∀ vert : Bool, ∀ d < 4, (if vert then [2, 3, 0, 1] else [1, 0, 3, 2]).getD d 0 = bridgePeer d vert) vert d hd

/-- Settles O55: each port and each error of the module by the lemma about its command. -/
theorem portsAndDeviceErrors : Obligations.PortsAndDeviceErrors := by
  unfold Obligations.PortsAndDeviceErrors
  refine ⟨fun s => ⟨fun htap => ?_, fun htap hasserted hheld hpend => ?_, fun hon hnone da hda => ?_, fun hserved => ?_, fun hfw => ?_,
    fun hup => ?_, fun hhold => ?_⟩, fun d vert s => ?_, fun s hon hheld => ⟨?_, ?_⟩⟩
  · have hidcode : exec .idcode s = .next { tapTo 1 s with tapOut := Config.idcode } := rfl
    have hbypass : exec .bypass s = .next (tapTo 0 s) := rfl
    have hextest : exec .extest s = .next (tapTo (if debugOpen s then 2 else 0) s) := rfl
    rw [hidcode, hbypass, hextest, tapTo_eq htap, tapTo_eq htap, tapTo_eq htap]
    exact ⟨rfl, rfl, rfl⟩
  · exact ⟨tapTo 0 s, rfl, tapTo_release htap hasserted hheld hpend⟩
  · exact ⟨congrArg _ (entdaa_eq hon hnone hda), congrArg _ (setdasa_eq hon hnone hda)⟩
  · exact ⟨stateByte s, i3cState_eq hserved, stateByte_bits⟩
  · exact ⟨mailboxPoll s, rfl, mailboxPoll_spec hfw⟩
  · exact ⟨hlinkDown s, rfl, hlinkDown_spec hup⟩
  · exact ⟨msiMessage s, rfl, msiMessage_spec hhold⟩
  · intro f o hlocked
    refine ⟨bridgeLost d vert s, ⟨_, rfl, comesTo_settled _⟩, ?_⟩
    rw [show o.getD d.val 0 = bridgePeer d vert from bridgePeer_eq vert d.isLt]
    exact bridgeLost_spec d.isLt vert hlocked
  · exact ⟨mgmtMemory true s, ⟨_, rfl, comesTo_settled _⟩, mgmtMemory_bad hon hheld⟩
  · exact ⟨mgmtMemory false s, ⟨_, rfl, comesTo_settled _⟩, mgmtMemory_corrected hon hheld⟩

end Sys2Proof.Machine
end

section
/-!
SUPPORT. What the control window leaves: the power state and its transition are the state request's alone (R379 to R395).
-/

namespace Sys2Proof.Machine

/-! ### The power state kept -/

/-- Every number but those of PWR's STATUS.STATE and STATUS.TRANSITION. -/
def offState (key : Nat) : Bool :=
  key != fieldKey pgPwr R.PWR_STATUS_STATE 0 && key != fieldKey pgPwr R.PWR_STATUS_TRANSITION 0

/-- `t` is in the power state of `s`, with the same transition under way, and the errors of `s` stand. -/
def SameState (s t : State) : Prop := Leaves offState s t ∧ t.power.target = s.power.target

theorem sameState_refl (s : State) : SameState s s := ⟨leaves_refl _ s, rfl⟩

theorem SameState.trans {s t u : State} (h : SameState s t) (g : SameState t u) : SameState s u := ⟨h.1.trans g.1, g.2.trans h.2⟩

theorem SameState.state {s t : State} (h : SameState s t) : rd t pgPwr R.PWR_STATUS_STATE = rd s pgPwr R.PWR_STATUS_STATE :=
  h.1.rd_eq (by decide)

theorem SameState.transition {s t : State} (h : SameState s t) :
    rd t pgPwr R.PWR_STATUS_TRANSITION = rd s pgPwr R.PWR_STATUS_TRANSITION := h.1.rd_eq (by decide)

/-- Whether a field lies at another place in its page than STATUS.STATE, STATUS.TRANSITION and ERR_STAT.ERR in theirs. -/
def farField (f : RegField) (n : Nat) : Bool :=
  [R.PWR_STATUS_STATE, R.PWR_STATUS_TRANSITION, R.HEADER_ERR_STAT_ERR].all fun g => fieldPlace f n % 1048576 != fieldPlace g 0

theorem ne_of_farField {f : RegField} {n : Nat} (h : farField f n = true) (p : Page) :
    offState (fieldKey p f n) = true ∧ errKey (fieldKey p f n) = false := by
  simp only [farField, List.all_cons, List.all_nil, Bool.and_true, Bool.and_eq_true, bne_iff_ne] at h
  obtain ⟨hstate, htrans, herr⟩ := h
  have hmod : fieldKey p f n % 1048576 = fieldPlace f n % 1048576 := by rw [fieldKey_eq_place, Nat.mul_add_mod_self_right]
  have hne {g : RegField} (hg : fieldPlace f n % 1048576 ≠ fieldPlace g 0) (hsmall : fieldPlace g 0 < 1048576) :
      fieldKey p f n ≠ fieldKey pgPwr g 0 := ne_fieldKey_of_place (by rw [hmod, Nat.mod_eq_of_lt hsmall]; exact hg) pgPwr
  refine ⟨?_, ?_⟩
  · rw [offState, Bool.and_eq_true, bne_iff_ne, bne_iff_ne]
    exact ⟨hne hstate (by decide), hne htrans (by decide)⟩
  · rw [errKey, hmod]
    exact beq_eq_false_iff_ne.mpr herr

theorem sameState_wri {f : RegField} {n : Nat} (h : farField f n = true) (p : Page) (v : Nat) (s : State) : SameState s (wri p f n v s) :=
  ⟨leaves_wri (ne_of_farField h p).1 (ne_of_farField h p).2 v s, rfl⟩

theorem sameState_modPower {f : PowerSt → PowerSt} {s : State} (h : (f s.power).target = s.power.target) : SameState s (modPower f s) :=
  ⟨leaves_of_regs rfl, h⟩

theorem sameState_recordErr (p : Page) (bit : Nat) (ctx : Option Nat) (s : State) : SameState s (recordErr p bit ctx s) := by
  refine ⟨(recordErr_events p bit ctx s).mono fun key hkey => ?_, ?_⟩
  · rw [offState, Bool.and_eq_true, bne_iff_ne, bne_iff_ne]
    constructor <;> rintro rfl <;> exact absurd hkey (by decide)
  · have h := recordErr_frame p bit ctx s
    unfold SameButEvents at h
    exact congrArg PowerSt.target (congrArg State.power h :)

theorem sameState_checkFor (p : Page) (bit : Nat) (found : Bool) (s : State) : SameState s (checkFor p bit found s).2 := by
  unfold checkFor
  split
  · exact sameState_wri (by decide) _ 0 s
  · exact sameState_refl s

theorem sameState_checked {p : Page} {bit : Nat} {found : Bool} {bad ok : State → State} {s : State}
    (hbad : ∀ u, SameState u (bad u)) (hok : ∀ u, SameState u (ok u)) : SameState s (checked p bit found bad ok s) := by
  unfold checked
  dsimp only
  split
  · exact (sameState_checkFor ..).trans (hbad _)
  · exact (sameState_checkFor ..).trans (hok _)

theorem sameState_foldUpTo {n : Nat} {f : Nat → State → State} (h : ∀ i s, i < n → SameState s (f i s)) (s : State) :
    SameState s (foldUpTo n f s) :=
  foldUpTo_induct (fun u => SameState s u) n f (fun i u hi hu => hu.trans (h i u hi)) s (sameState_refl s)

theorem sameState_foldl {α : Type} {f : State → α → State} {l : List α} (h : ∀ s, ∀ a ∈ l, SameState s (f s a)) (s : State) :
    SameState s (l.foldl f s) := by
  induction l generalizing s with
  | nil => exact sameState_refl s
  | cons a l ih => exact (h s a (List.mem_cons_self ..)).trans (ih (fun u b hb => h u b (List.mem_cons_of_mem _ hb)) _)

theorem farField_counter {c : Cls} {sel cnt : RegField} {n : Nat} (h : counterRows c = some (sel, cnt, n)) {i : Nat} (hi : i < n) :
    farField cnt i = true := by
  have hall : ∀ r ∈ [(R.CORE_EVT_CNT, 32), (R.BARGE_EVT_CNT, 8), (R.LINK_EVT_CNT, 8), (R.PERF_EVT_CNT, 16)], ∀ j < r.2,
      farField r.1 j = true := by decide +kernel
  refine hall (cnt, n) ?_ i hi
  unfold counterRows at h
  split at h <;> cases h <;> simp

theorem sameState_countE (p : Page) (e src d : Nat) (c : Option Nat) (s : State) : SameState s (countE p e src d c s) := by
  unfold countE
  split
  · exact sameState_refl s
  · rename_i sel cnt n hc
    split
    · exact sameState_refl s
    · refine sameState_foldUpTo (fun i u hi => ?_) s
      dsimp only
      split
      · exact sameState_wri (farField_counter hc hi) p _ u
      · exact sameState_refl u

/-! ### Set-points and admission -/

theorem sameState_setV {d : Nat} (hd : d < 4) (v : Nat) (s : State) : SameState s (setV d v s) :=
  sameState_wri ((by decide : ∀ d < 4, farField R.PWR_VSET d = true) d hd) pgPwr v s

theorem sameState_setAdmit {r : Nat} (hr : r < 64) (a : Nat) (s : State) : SameState s (setAdmit r a s) := by
  obtain ⟨hoff, herr⟩ := (by decide +kernel : ∀ r < 64, offState (fieldKey (pgSluice r) R.SLUICE_STATUS_ADMIT 0) = true ∧
    errKey (fieldKey (pgSluice r) R.SLUICE_STATUS_ADMIT 0) = false) r hr
  exact ⟨leaves_wri hoff herr a s, rfl⟩

theorem lt_of_mem_regionsOf {d r : Nat} (hd : d < 4) (hr : r ∈ regionsOf d) : r < 64 := by
  obtain ⟨i, hi, rfl⟩ := List.mem_map.mp hr
  have := List.mem_range.mp hi
  omega

theorem sameState_limitDie {d : Nat} (hd : d < 4) (s : State) : SameState s (limitDie d s) :=
  (sameState_setV hd _ s).trans (sameState_foldl (fun u _ hr => sameState_setAdmit (lt_of_mem_regionsOf hd hr) _ u) _)

theorem sameState_setVs (v : Nat → State → Nat) (s : State) : SameState s (foldUpTo 4 (fun d t => setV d (v d t) t) s) :=
  sameState_foldUpTo (fun d u hd => sameState_setV hd (v d u) u) s

theorem sameState_setAdmits (a : Nat → State → Nat) (s : State) : SameState s (foldUpTo 64 (fun r t => setAdmit r (a r t) t) s) :=
  sameState_foldUpTo (fun r u hr => sameState_setAdmit hr (a r u) u) s

theorem sameState_slowHold (s : State) : SameState s (slowHold s) :=
  (sameState_setVs (fun d _ => vminOf s d) s).trans (sameState_setAdmits (fun r t => min (admitOf t r) (slowAdmit s)) _)

theorem sameState_comeoutHold (s : State) : SameState s (comeoutHold s) :=
  (sameState_setVs (fun d t => max 780 (vminOf t d)) s).trans (sameState_setAdmits (fun _ _ => 100) _)

theorem sameState_raiseDies (line : Frac) {ds : List Nat} (hds : ∀ d ∈ ds, d < 4) (s : State) (stopped : Bool) :
    SameState s (raiseDies line ds (s, stopped)).1 := by
  induction ds generalizing s stopped with
  | nil => exact sameState_refl s
  | cons d ds ih =>
    have hd := hds d (List.mem_cons_self ..)
    have hrest (e : Nat) (he : e ∈ ds) : e < 4 := hds e (List.mem_cons_of_mem _ he)
    unfold raiseDies
    dsimp only
    split
    · refine SameState.trans ?_ (ih hrest _ _)
      split
      · exact sameState_setV hd _ s
      · exact sameState_refl s
    · exact ih hrest _ _

theorem sameState_capLoop (p : Frac) (s : State) : SameState s (capLoop p s).1 := by
  obtain ⟨u, hu⟩ : ∃ u, u = foldUpTo 4 (fun d t => if vmaxOf t d < vOf t d then setV d (max (vmaxOf t d) (vminOf t d)) t else t) s :=
    ⟨_, rfl⟩
  have hceil : SameState s u := by
    rw [hu]
    refine sameState_foldUpTo (fun d t hd => ?_) s
    split
    · exact sameState_setV hd _ t
    · exact sameState_refl t
  unfold capLoop
  rw [← hu]
  refine hceil.trans ?_
  dsimp only
  split
  · split
    · refine SameState.trans ?_ (sameState_setAdmits (fun r t => max (admitOf t r - 5) (admitMin u)) _)
      exact sameState_modPower rfl
    · refine SameState.trans ?_ (sameState_setVs (fun d t => max (vOf t d - 5) (vminOf t d)) _)
      exact sameState_modPower rfl
  · split
    · split
      · exact sameState_setAdmits (fun r t => min (admitOf t r + 5) 100) u
      · exact sameState_raiseDies _ (by decide) u false
    · exact sameState_refl u

/-- The loop's part of a window. -/
def loopStep (p : Frac) (s : State) : State × LoopOut :=
  if !railsFree s then (s, ⟨false, false, false⟩) else if loopOn s then capLoop p s else (comeoutHold s, ⟨false, false, false⟩)

/-- The hold of SLOWDOWN_N at a window. -/
def slowStep (s : State) : State := if slowOn s then slowHold s else s

/-- The dies at their limit at a window. -/
def limitStep (s : State) : State :=
  foldUpTo 4 (fun d t => if rd t (pgTherm d) R.THERM_STATUS_AT_LIMIT = 1 ∧ railsFree t then limitDie d t else t) s

theorem sameState_loopStep (p : Frac) (s : State) : SameState s (loopStep p s).1 := by
  unfold loopStep
  split
  · exact sameState_refl s
  · split
    · exact sameState_capLoop p s
    · exact sameState_comeoutHold s

theorem sameState_slowStep (s : State) : SameState s (slowStep s) := by
  unfold slowStep
  split
  · exact sameState_slowHold s
  · exact sameState_refl s

theorem sameState_limitStep (s : State) : SameState s (limitStep s) := by
  refine sameState_foldUpTo (fun d t hd => ?_) s
  split
  · exact sameState_limitDie hd t
  · exact sameState_refl t

theorem sameState_windowLoop (p : Frac) (s : State) : SameState s (windowLoop p s).1 := by
  unfold windowLoop
  extract_lets x s1 s2 free
  have hloop : SameState s x.1 := sameState_loopStep p s
  have hslow : SameState x.1 s1 := sameState_slowStep x.1
  have hlimit : SameState s1 s2 := sameState_limitStep s1
  clear_value free s2 s1 x
  refine (hloop.trans (hslow.trans hlimit)).trans ?_
  dsimp only
  split
  · exact sameState_modPower rfl
  · exact sameState_refl s2

theorem sameState_ceilings (s : State) : SameState s (ceilings s) := by
  refine sameState_foldUpTo (fun d t hd => ?_) s
  obtain ⟨hoff, herr⟩ := (by decide : ∀ d < 4, offState (fieldKey (pgTherm d) R.THERM_STATUS_THROTTLING 0) = true ∧
    errKey (fieldKey (pgTherm d) R.THERM_STATUS_THROTTLING 0) = false) d hd
  have hwr (v : Nat) (u : State) : SameState u (wr (pgTherm d) R.THERM_STATUS_THROTTLING v u) := ⟨leaves_wri hoff herr v u, rfl⟩
  exact SameState.trans (sameState_modPower rfl) (hwr _ _)

/-! ### Meters, reports, throttle reasons and energy -/

theorem sameState_windowMeters (m : Meter) (s : State) : SameState s (windowMeters m s) :=
  (sameState_foldUpTo (fun r u _ => sameState_wri (f := R.SLUICE_LOCAL) (by decide) (pgSluice r) _ u) s).trans (sameState_modPower rfl)

theorem sameState_windowReports (s : State) : SameState s (windowReports s) := by
  have hwr {f : RegField} (h : farField f 0 = true) (v : Nat) (u : State) : SameState u (wr pgPwr f v u) := sameState_wri h pgPwr v u
  exact (hwr (f := R.PWR_CAP_EFF) (by decide) _ s).trans ((hwr (f := R.PWR_P_CTL) (by decide) _ _).trans
    ((hwr (f := R.PWR_P_EST) (by decide) _ _).trans (hwr (f := R.PWR_P_MOD) (by decide) _ _)))

/-- The fields of a throttle reason's event. -/
def throttleFields : List RegField :=
  [R.PWR_THR_DUR, R.PWR_THR_DEPTH_MIN_MV, R.PWR_THR_DEPTH_MIN_ADMIT, R.PWR_THR_START, R.PWR_THR_END, R.PWR_THR_DEPTH_OPEN]

theorem sameState_throttleEvent (marks : List Nat) {r : Nat} (hr : r < 8) (s : State) : SameState s (throttleEvent marks r s) := by
  have hwr {f : RegField} (hf : f ∈ throttleFields) (v : Nat) (u : State) : SameState u (wri pgPwr f r v u) :=
    sameState_wri ((by decide : ∀ f ∈ throttleFields, ∀ r < 8, farField f r = true) f hf r hr) pgPwr v u
  have hdur : SameState s (bumpi pgPwr R.PWR_THR_DUR r 5000 s) := hwr (by decide) _ s
  unfold throttleEvent
  dsimp only
  split
  · split
    · exact hdur.trans ((hwr (by decide) _ _).trans (hwr (by decide) _ _))
    · exact hdur.trans ((hwr (by decide) _ _).trans ((hwr (by decide) _ _).trans ((hwr (by decide) _ _).trans
        ((hwr (by decide) _ _).trans (hwr (by decide) _ _)))))
  · split
    · exact (hwr (by decide) _ _).trans (hwr (by decide) _ _)
    · exact sameState_refl s

theorem sameState_throttle (marks : List Nat) (s : State) : SameState s (throttle marks s) := by
  have hmarks : SameState s (wr pgPwr R.PWR_THR_ACTIVE (marks.foldl (fun a r => a + 2 ^ r) 0) (foldUpTo 8 (throttleEvent marks) s)) :=
    (sameState_foldUpTo (fun _ u hr => sameState_throttleEvent marks hr u) s).trans (sameState_wri (by decide) _ _ _)
  unfold throttle
  dsimp only
  split
  · exact hmarks
  · exact hmarks.trans (sameState_countE ..)

theorem sameState_addEnergy (key nj : Nat) (s : State) : SameState s (addEnergy key nj s) := by
  have hbump {f : RegField} (h : farField f 0 = true) (p : Page) (d : Nat) (u : State) : SameState u (bump p f d u) := sameState_wri h p _ u
  unfold addEnergy
  dsimp only
  split
  · exact SameState.trans (sameState_modPower rfl) (hbump (by decide) _ _ _)
  · split
    · exact SameState.trans (sameState_modPower rfl) (hbump (by decide) _ _ _)
    · exact SameState.trans (sameState_modPower rfl) (hbump (by decide) _ _ _)

theorem sameState_divideEnergy (sh : List (Nat × Option CtxIx × Nat)) (s : State) : SameState s (divideEnergy sh s) :=
  (sameState_addEnergy ..).trans ((sameState_foldl (fun u _ _ => sameState_addEnergy _ _ u) _).trans (sameState_addEnergy ..))

/-! ### Divergence and the margin governor -/

theorem sameState_raiseK (r : Nat) (s : State) : SameState s (raiseK r s) := sameState_wri (by decide) _ _ s

/-- A core rail found suspect. -/
theorem sameState_suspect (d : Nat) (s : State) : SameState s (recordErr pgPwr 0 none (wr pgPwr R.PWR_STATUS_CAP_MODE 1
    (modPower (fun p => { p with suspect := p.suspect ++ [d] }) s))) := by
  refine SameState.trans ?_ (sameState_recordErr pgPwr 0 none _)
  refine SameState.trans ?_ (sameState_wri (f := R.PWR_STATUS_CAP_MODE) (n := 0) (by decide) pgPwr 1 _)
  exact sameState_modPower rfl

theorem sameState_divergeDie (d : Nat) (s : State) : SameState s (divergeDie d s) := by
  unfold divergeDie
  extract_lets est meas below above lo hi s1 s2 noted s3 s4
  have h1 : SameState s s1 := sameState_modPower rfl
  have h2 : SameState s1 s2 := by
    unfold s2
    split
    · exact sameState_refl s1
    · exact sameState_checked (fun u => sameState_suspect d u) (fun u => sameState_refl u)
  have hnoted : SameState s2 noted := sameState_foldl (fun t r _ => sameState_recordErr (pgSluice r) 0 none t) s2
  have h3 : SameState s2 s3 := by
    unfold s3
    split
    · exact hnoted.trans (sameState_modPower rfl)
    · exact sameState_refl s2
  have h4 : SameState s3 s4 := by
    unfold s4
    split
    · exact sameState_refl s3
    · exact sameState_modPower rfl
  exact (h1.trans (h2.trans (h3.trans h4))).trans (sameState_foldl (fun u r _ => sameState_raiseK r u) s4)

theorem sameState_trimStep (r : Nat) (s : State) : SameState s (trimStep r s) := by
  unfold trimStep
  dsimp only
  split
  · exact sameState_recordErr ..
  · exact (sameState_wri (f := R.SLUICE_FLOOR_TRIM) (by decide) _ _ s).trans
      (sameState_wri (f := R.SLUICE_FLOOR_EFFECTIVE) (by decide) _ _ _)

theorem sameState_governor (slack : List Nat) (s : State) : SameState s (governor slack s) := by
  refine sameState_foldUpTo (fun r t _ => ?_) s
  extract_lets low t1 n put
  have hlow : SameState t t1 := sameState_wri (by decide) _ _ t
  have hput (v : Nat) (u : State) : SameState u (put v u) := sameState_modPower rfl
  clear_value put t1 n
  split
  · exact hlow.trans ((hput 0 t1).trans (sameState_trimStep r _))
  · exact hlow.trans (hput n t1)

theorem sameState_windowNext (s : State) : SameState s (windowNext s) := sameState_modPower rfl

/-- Past its boundary, a control window leaves the power state and its transition. -/
theorem sameState_controlWindow (m : Meter) {s : State} (hon : powerOn s = true) : SameState (windowBoundary s) (controlWindow m s) := by
  rw [controlWindow, if_neg (by simp [hon])]
  extract_lets s1 p x s2
  have h1 : SameState (windowBoundary s) s1 :=
    (sameState_windowMeters m _).trans ((sameState_windowReports _).trans (sameState_ceilings _))
  have h2 : SameState s1 s2 := (sameState_windowLoop p s1).trans (sameState_throttle (throttleMarks p x.2 x.1) x.1)
  clear_value s2 s1
  have hdiverge : SameState s2 (if railsFree s2 then foldUpTo 4 divergeDie s2 else s2) := by
    split
    · exact sameState_foldUpTo (fun d u _ => sameState_divergeDie d u) s2
    · exact sameState_refl s2
  refine (h1.trans (h2.trans hdiverge)).trans ?_
  exact (sameState_divideEnergy m.shares _).trans ((sameState_governor m.slack _).trans (sameState_windowNext _))

end Sys2Proof.Machine
end

section
/-!
SUPPORT. Links and power states: what comes UP, is fenced or goes down as a power state is entered keeps the state (R279, R394).
-/

namespace Sys2Proof.Machine

/-! ### Frames sent keep the power state -/

theorem sameState_of_regs {s t : State} (hregs : t.regs = s.regs) (hpower : t.power = s.power) : SameState s t :=
  ⟨leaves_of_regs hregs, congrArg PowerSt.target hpower⟩

theorem sameState_modLink (k : Nat) (f : LinkSt → LinkSt) (s : State) : SameState s (modLink k f s) := sameState_of_regs rfl rfl

theorem sameState_bump {f : RegField} (h : farField f 0 = true) (p : Page) (d : Nat) (s : State) : SameState s (bump p f d s) :=
  sameState_wri h p _ s

theorem sameState_countLink (tx : Bool) (ty job n : Nat) (s : State) : SameState s (countLink tx ty job n s) := by
  unfold countLink
  split
  · exact sameState_refl s
  · split
    · refine sameState_bump ?_ _ n s
      cases tx <;> decide
    · exact sameState_refl s

theorem sameState_freeFrame (k : Nat) (h : Train) (s : State) : SameState s (freeFrame k h s) := by
  unfold freeFrame
  split
  · exact sameState_refl s
  · exact sameState_modLink ..

theorem sameState_bridgeBytes (a b n : Nat) (s : State) : SameState s (bridgeBytes a b n s) := by
  unfold bridgeBytes
  extract_lets s1
  have h1 : SameState s s1 := by
    unfold s1
    split
    · exact sameState_refl s
    · exact sameState_bump (by decide) _ n s
  split
  · exact h1
  · exact h1.trans (sameState_bump (by decide) _ n s1)

theorem sameState_emitFrame (k : Nat) (f : Frame) (s : State) : SameState s (emitFrame k f s) := by
  unfold emitFrame
  extract_lets l vc l' s1 own s2 s3 s4
  have h1 : SameState s s1 := by
    refine SameState.trans ?_ (sameState_bump (by decide) _ 1 _)
    refine SameState.trans ?_ (sameState_bump (by decide) _ f.body.len _)
    exact sameState_of_regs rfl rfl
  have h2 : SameState s1 s2 := by
    unfold s2
    split
    · exact sameState_countLink ..
    · exact sameState_refl s1
  have h3 : SameState s2 s3 := by
    unfold s3
    split
    · exact sameState_refl s2
    · exact (sameState_countE ..).trans (sameState_bump (by decide) _ 1 _)
  have h4 : SameState s3 s4 := by
    unfold s4
    split
    · exact sameState_countE ..
    · exact sameState_refl s3
  exact (h1.trans (h2.trans (h3.trans h4))).trans ((sameState_countE ..).trans (sameState_freeFrame ..))

theorem sameState_pumpFrames (k : Nat) (fs : List Frame) (stuck : List Nat) (s : State) : SameState s (pumpFrames k fs stuck s) := by
  induction fs generalizing stuck s with
  | nil => exact sameState_refl s
  | cons f fs ih =>
    unfold pumpFrames
    dsimp only
    split
    · exact (sameState_emitFrame k f s).trans (ih _ _)
    · exact (sameState_modLink k _ s).trans (ih _ _)

theorem sameState_pump (k : Nat) (s : State) : SameState s (pump k s) :=
  (sameState_modLink k _ s).trans (sameState_pumpFrames k _ [] _)

theorem sameState_putOnLink (came k : Nat) (t : Train) (s : State) : SameState s (putOnLink came k t s) := by
  unfold putOnLink
  extract_lets cls fs n s1
  have h1 : SameState s s1 := by
    unfold s1
    split
    · exact sameState_refl s
    · exact sameState_bridgeBytes ..
  exact h1.trans ((sameState_modLink k _ s1).trans (sameState_pump k _))

theorem sameState_forwardTrain (came : Nat) (t : Train) (s : State) : SameState s (forwardTrain came t s) := by
  have hnote : SameState s (noteMcast t s) := by
    unfold noteMcast
    split
    · exact sameState_of_regs rfl rfl
    · exact sameState_refl s
  unfold forwardTrain
  refine hnote.trans ?_
  generalize noteMcast t s = u
  dsimp only
  split
  · exact sameState_of_regs rfl rfl
  · split
    · exact sameState_putOnLink ..
    · split
      · exact sameState_of_regs rfl rfl
      · exact sameState_of_regs rfl rfl

theorem sameState_retryPinned (s : State) : SameState s (retryPinned s) :=
  SameState.trans (t := { s with pinHeld := [] }) (sameState_of_regs rfl rfl)
    (sameState_foldl (fun u t _ => sameState_forwardTrain t.1 t.2 u) _)

/-! ### Links as a power state leaves them -/

theorem sameState_of_link {s t : State} (h : Leaves linkKey s t) (hpower : t.power = s.power) : SameState s t := by
  refine ⟨h.mono fun key hkey => ?_, congrArg PowerSt.target hpower⟩
  rw [offState, Bool.and_eq_true, bne_iff_ne, bne_iff_ne]
  constructor <;> rintro rfl <;> exact absurd hkey (by decide)

theorem sameState_wr_linkState {k : Nat} (hk : k < 32) (v : Nat) (s : State) : SameState s (wr (pgLink k) R.LINK_STATUS_STATE v s) :=
  sameState_of_link (leaves_wr_link (by decide) (by decide) hk v s) rfl

theorem sameState_tryUp {k : Nat} (hk : k < 32) (s : State) : SameState s (tryUp k s) := by
  unfold tryUp
  split
  · exact (sameState_wr_linkState hk 4 s).trans ((sameState_pump k _).trans (sameState_retryPinned _))
  · exact sameState_refl s

theorem SameButLinks.power {s t : State} (h : SameButLinks s t) : t.power = s.power := by
  unfold SameButLinks at h
  exact (congrArg State.power h :)

theorem sameState_fenceLink {k : Nat} (hk : k < 32) (s : State) : SameState s (fenceLink k s) := by
  unfold fenceLink
  split
  · exact (sameState_of_regs (spillLink_regs k false s) (spillLink_frame k false s).power).trans (sameState_wr_linkState hk 3 _)
  · exact sameState_refl s

theorem sameState_dropLink {k : Nat} (hk : k < 32) (s : State) : SameState s (dropLink k s) :=
  sameState_of_link (dropLink_leaves hk s) (dropLink_frame k s).power

theorem sameState_linksBack (s : State) : SameState s (linksBack s) := sameState_foldUpTo (fun _ u hk => sameState_tryUp hk u) s

theorem sameState_linksIdle (s : State) : SameState s (linksIdle s) := sameState_foldUpTo (fun _ u hk => sameState_fenceLink hk u) s

theorem sameState_linksOff (s : State) : SameState s (linksOff s) := sameState_foldUpTo (fun _ u hk => sameState_dropLink hk u) s

/-- What one step of a fold brings about and no step undoes holds after it. -/
theorem foldl_reaches {α σ : Type} {P : σ → Prop} {f : σ → α → σ} {l : List α} {a : α} (ha : a ∈ l) (hset : ∀ s, P (f s a))
    (hkeep : ∀ s, ∀ b ∈ l, P s → P (f s b)) (s : σ) : P (l.foldl f s) := by
  obtain ⟨l1, l2, rfl⟩ := List.append_of_mem ha
  rw [List.foldl_append, List.foldl_cons]
  have hend : ∀ (l : List α) (u : σ), (∀ b ∈ l, b ∈ l1 ++ a :: l2) → P u → P (l.foldl f u) := by
    intro l
    induction l with
    | nil => exact fun u _ hu => hu
    | cons b l ih =>
      intro u hsub hu
      exact ih _ (fun c hc => hsub c (List.mem_cons_of_mem _ hc)) (hkeep u b (hsub b (List.mem_cons_self ..)) hu)
  exact hend l2 _ (fun b hb => List.mem_append_right _ (List.mem_cons_of_mem _ hb)) (hset _)

theorem foldUpTo_reaches {σ : Type} {P : σ → Prop} {n j : Nat} {f : Nat → σ → σ} (hj : j < n) (hset : ∀ s, P (f j s))
    (hkeep : ∀ i s, i < n → P s → P (f i s)) (s : σ) : P (foldUpTo n f s) :=
  foldl_reaches (f := fun t i => f i t) (List.mem_range.mpr hj) hset (fun u i hi hu => hkeep i u (List.mem_range.mp hi) hu) s

/-- No link is UP once all that were are fenced. -/
theorem linksIdle_fenced {j : Nat} (hj : j < 32) (s : State) : linkState (linksIdle s) j ≠ 4 := by
  have hfence (u : State) : linkState (fenceLink j u) j ≠ 4 := by
    unfold fenceLink
    split
    · have hthree : linkState (wr (pgLink j) R.LINK_STATUS_STATE 3 (spillLink j false u)) j = 3 := rd_wr_self ..
      omega
    · rename_i hdown
      simpa [linkUp] using hdown
  refine foldUpTo_reaches (P := fun u => linkState u j ≠ 4) hj hfence (fun i u _ hu => ?_) s
  by_cases hij : i = j
  · subst hij
    exact hfence u
  · unfold fenceLink
    split
    · have hkey : fieldKey (pgLink j) R.LINK_STATUS_STATE 0 ≠ fieldKey (pgLink i) R.LINK_STATUS_STATE 0 := by
        simp only [fieldKey_eq_place, pageKey, pgLink]
        omega
      have hkept : linkState (wr (pgLink i) R.LINK_STATUS_STATE 3 (spillLink i false u)) j = linkState u j :=
        (rd_wr_ne _ _ _ _ _ _ hkey).trans (rd_of_regs (spillLink_regs i false u) _ _)
      rwa [hkept]
    · exact hu

/-! ### Self-refresh -/

theorem onlyRegs_selfRefresh (s : State) : OnlyRegs s (selfRefresh s) :=
  foldUpTo_induct (fun u => OnlyRegs s u) 8 _ (fun k _ _ hu => hu.trans (onlyRegs_wri (pgMemc k) R.MEMC_STATUS_SELF_REFRESH 0 1 _)) s rfl

/-- Whether a number is a stack's STATUS.SELF_REFRESH. -/
def refreshKey (key : Nat) : Bool := (List.range 8).any fun k => key == fieldKey (pgMemc k) R.MEMC_STATUS_SELF_REFRESH 0

theorem leaves_selfRefresh (s : State) : Leaves refreshKey s (selfRefresh s) := by
  refine leaves_foldUpTo (fun k u hk => ?_) s
  obtain ⟨hon, herr⟩ := (by decide : ∀ k < 8, refreshKey (fieldKey (pgMemc k) R.MEMC_STATUS_SELF_REFRESH 0) = true ∧
    errKey (fieldKey (pgMemc k) R.MEMC_STATUS_SELF_REFRESH 0) = false) k hk
  exact leaves_wri hon herr 1 u

theorem rd_selfRefresh {j : Nat} (hj : j < 8) (s : State) : rd (selfRefresh s) (pgMemc j) R.MEMC_STATUS_SELF_REFRESH = 1 := by
  have hset (u : State) : rd (wr (pgMemc j) R.MEMC_STATUS_SELF_REFRESH 1 u) (pgMemc j) R.MEMC_STATUS_SELF_REFRESH = 1 := rd_wr_self ..
  refine foldUpTo_reaches (P := fun u => rd u (pgMemc j) R.MEMC_STATUS_SELF_REFRESH = 1) hj hset (fun i u _ hu => ?_) s
  by_cases hij : i = j
  · subst hij
    exact hset u
  · have hkey : fieldKey (pgMemc j) R.MEMC_STATUS_SELF_REFRESH 0 ≠ fieldKey (pgMemc i) R.MEMC_STATUS_SELF_REFRESH 0 := by
      simp only [fieldKey_eq_place, pageKey, pgMemc]
      omega
    exact (rd_wr_ne _ _ _ _ _ _ hkey).trans hu

theorem sameState_selfRefresh (s : State) : SameState s (selfRefresh s) := by
  refine ⟨(leaves_selfRefresh s).mono fun key hkey => ?_, (onlyRegs_selfRefresh s).eq (fun u => u.power.target) fun _ _ => rfl⟩
  rw [offState, Bool.and_eq_true, bne_iff_ne, bne_iff_ne]
  constructor <;> rintro rfl <;> exact absurd hkey (by decide)

/-! ### Coolant stops -/

theorem coolantStop_eq (code : Nat) (s : State) :
    coolantStop code s = selfRefresh { deviceFatal code s with stopAll := true, alert := true } := by
  simp only [coolantStop, selfRefresh]

/-- The stop of R390: issue stopped, ALERT_N asserted, safe mode, every stack in self-refresh, and no error cleared. -/
theorem coolantStop_spec (code : Nat) (s : State) :
    (coolantStop code s).stopAll = true ∧ alertN (coolantStop code s) = true ∧ rd (coolantStop code s) pgEmb R.EMB_STATUS_SAFE = 1 ∧
      (∀ k < 8, rd (coolantStop code s) (pgMemc k) R.MEMC_STATUS_SELF_REFRESH = 1) ∧ (coolantStop code s).pins = s.pins ∧
      ErrsStand s (coolantStop code s) := by
  rw [coolantStop_eq]
  obtain ⟨w, hw⟩ : ∃ w : State, w = { deviceFatal code s with stopAll := true, alert := true } := ⟨_, rfl⟩
  have hregs : w.regs = (deviceFatal code s).regs := by rw [hw]
  have hstop : w.stopAll = true := by rw [hw]
  have halert : w.alert = true := by rw [hw]
  have hpins : w.pins = (deviceFatal code s).pins := by rw [hw]
  rw [← hw]
  have honly := onlyRegs_selfRefresh w
  refine ⟨(honly.eq State.stopAll fun _ _ => rfl).trans hstop, ?_, ?_, fun k hk => rd_selfRefresh hk w, ?_, ?_⟩
  · simp [alertN, (honly.eq State.alert fun _ _ => rfl).trans halert]
  · rw [(leaves_selfRefresh w).rd_eq (by decide), rd_of_regs hregs]
    exact rd_safe_deviceFatal code s
  · rw [honly.eq State.pins fun _ _ => rfl, hpins]
    exact (deviceFatal_frame code s).pins
  · exact ((deviceFatal_leaves code s).2.trans (errsStand_of_regs hregs)).trans (leaves_selfRefresh w).2

end Sys2Proof.Machine
end

section
/-!
CERTIFICATE. Power states and coolant (O48).
-/

namespace Sys2Proof.Machine

/-! ### A state request is held -/

theorem rowsAt_pwr_ctrl : rowsAt .pwr 0x10 = [(R.PWR_CTRL_STATE_REQ, 0)] := by decide +kernel

theorem stateReq_row : (R.PWR_CTRL_STATE_REQ, 0) ∈ rowsAt pgPwr.cls 0x10 := by
  rw [show rowsAt pgPwr.cls 0x10 = _ from rowsAt_pwr_ctrl]
  exact List.mem_singleton_self _

theorem status_row {f : RegField} (hf : f ∈ [R.PWR_STATUS_STATE, R.PWR_STATUS_TRANSITION]) : (f, 0) ∈ rowsAt pgPwr.cls 0x18 :=
  (by decide +kernel : ∀ f ∈ [R.PWR_STATUS_STATE, R.PWR_STATUS_TRANSITION], (f, 0) ∈ rowsAt .pwr 0x18) f hf

/-- A write of PWR.CTRL is held, with the state asked for at its place. -/
theorem askState_eq (k : Nat) (s : State) :
    ∃ w, askState k s = holdPend pgPwr 0x10 w s ∧ bitsOf w 0 2 = k % 4 := by
  have hrow : heldRows pgPwr 0x10 = [(R.PWR_CTRL_STATE_REQ, 0)] := by
    rw [heldRows, show rowsAt pgPwr.cls 0x10 = _ from rowsAt_pwr_ctrl]
    rfl
  obtain ⟨locked, hlocked⟩ : ∃ b, b = (rd s (headPage pgPwr) R.HEADER_PAGE_LOCK_LOCK == 1) := ⟨_, rfl⟩
  have htaken : heldTaken s pgPwr locked k (2 ^ 32 - 1) (R.PWR_CTRL_STATE_REQ, 0) = true := rfl
  have hfields : writeFields pgPwr locked 0x10 k (2 ^ 32 - 1) s = s := by
    rw [writeFields, show rowsAt pgPwr.cls 0x10 = _ from rowsAt_pwr_ctrl]
    rfl
  have hmask : bitsOf (2 ^ 32 - 1) R.PWR_CTRL_STATE_REQ.lo R.PWR_CTRL_STATE_REQ.width = 2 ^ 2 - 1 := by decide
  refine ⟨heldNew s pgPwr k (2 ^ 32 - 1) (R.PWR_CTRL_STATE_REQ, 0), ?_, ?_⟩
  · rw [askState, writeReg_eq (by decide) (by decide) (by decide), pendValue_eq, ← hlocked, hrow, hfields]
    have hvalue : heldValue s pgPwr locked k (2 ^ 32 - 1) (R.PWR_CTRL_STATE_REQ, 0) =
        heldNew s pgPwr k (2 ^ 32 - 1) (R.PWR_CTRL_STATE_REQ, 0) := if_pos htaken
    simp only [List.any_cons, htaken, Bool.true_or, if_true, List.foldl_cons, List.foldl_nil, hvalue, Option.elim_some,
      show R.PWR_CTRL_STATE_REQ.lo = 0 from rfl, Nat.zero_add, Nat.pow_zero, Nat.mul_one]
  · rw [heldNew, hmask, mergeBits_mask]
    simp only [bitsOf, show R.PWR_CTRL_STATE_REQ.lo = 0 from rfl, show R.PWR_CTRL_STATE_REQ.width = 2 from rfl]
    omega

theorem askState_spec {p : Path} {s : State} (h : Reaches p pgPwr s) {k : Nat} (hk : k < 4) :
    let t := access p pgPwr (askState k) s
    pendingRd t pgPwr R.PWR_CTRL_STATE_REQ 0 = k ∧ rd t pgPwr R.PWR_CTRL_STATE_REQ = rd s pgPwr R.PWR_CTRL_STATE_REQ ∧
      rd t pgPwr R.PWR_STATUS_STATE = rd s pgPwr R.PWR_STATUS_STATE := by
  intro t
  obtain ⟨hup, hallows, hexists⟩ := h
  obtain ⟨w, hw, hbits⟩ := askState_eq k { s with reply := ⟨0, 0, false⟩ }
  have ht : t = holdPend pgPwr 0x10 w { s with reply := ⟨0, 0, false⟩ } := by
    rw [← hw]
    simp [t, access, hup, hallows, hexists]
  rw [ht]
  refine ⟨?_, ?_, ?_⟩
  · rw [pendingRd_of_some stateReq_row rfl (pendAt_holdPend ..)]
    exact hbits.trans (Nat.mod_eq_of_lt hk)
  · exact (rdi_holdPend pgPwr stateReq_row (by decide) ..).trans (rd_of_regs rfl _ _)
  · exact (rdi_holdPend pgPwr (status_row (by decide)) (by decide) ..).trans (rd_of_regs rfl _ _)

/-! ### The boundary of a control window -/

/-- A boundary leaves the fields of other pages. -/
theorem rdi_boundary_other {p q : Page} (hp : headPage p = p) {b n : Nat} {f : RegField} (hf : (f, n) ∈ rowsAt q.cls b)
    (hpq : pageKey q ≠ pageKey p) (s : State) : rdi (boundary p s) q f n = rdi s q f n := by
  have hcount : fieldKey q f n ≠ fieldKey (headPage p) R.HEADER_BOUNDARY_CNT_COUNT 0 :=
    fieldKey_ne_of_page hf (rowsAt_header (headPage_cls p) (by decide)) (hp.symm ▸ hpq)
  exact (rdi_wri_ne _ _ _ _ _ _ _ _ hcount).trans (rdi_applySel_other_page hf hpq _ s)

/-- A boundary of PWR leaves its STATUS. -/
theorem rd_boundary_status {f : RegField} (hf : f ∈ [R.PWR_STATUS_STATE, R.PWR_STATUS_TRANSITION]) (s : State) :
    rd (boundary pgPwr s) pgPwr f = rd s pgPwr f := by
  have hrow := status_row hf
  have hwb : f.wb = false := (by decide : ∀ f ∈ [R.PWR_STATUS_STATE, R.PWR_STATUS_TRANSITION], f.wb = false) f hf
  have hcount := rdi_wr_head_ne pgPwr (h := R.HEADER_BOUNDARY_CNT_COUNT) hrow (by decide) (by decide)
  refine (hcount _ _).trans (rdi_applySel_ne _ s fun g n b hg htakes hkey => ?_)
  cases fieldKey_inj hrow hg hkey
  obtain hw | ⟨_, _, hc, -⟩ := htakes
  · rw [hwb] at hw
    cases hw
  · cases hc

/-- The pending values of PWR, the sluices and the dies' THERM pages in force. -/
def windowApplied (s : State) : State :=
  foldUpTo 4 (fun d t => boundary (pgTherm d) t) (foldUpTo 64 (fun r t => boundary (pgSluice r) t) (boundary pgPwr s))

theorem windowBoundary_asked {s : State} (h : (pendAt s pgPwr 0x10).isSome = true) :
    windowBoundary s = stateRequest (rd (windowApplied s) pgPwr R.PWR_CTRL_STATE_REQ) (windowApplied s) := if_pos h

theorem windowApplied_frame (s : State) : SameButApplied s (windowApplied s) := by
  have hsluice (u : State) : SameButApplied u (foldUpTo 64 (fun r t => boundary (pgSluice r) t) u) :=
    foldUpTo_induct (fun t => SameButApplied u t) 64 _ (fun r _ _ ht => ht.trans (boundary_frame (pgSluice r) _)) u rfl
  have htherm (u : State) : SameButApplied u (foldUpTo 4 (fun d t => boundary (pgTherm d) t) u) :=
    foldUpTo_induct (fun t => SameButApplied u t) 4 _ (fun d _ _ ht => ht.trans (boundary_frame (pgTherm d) _)) u rfl
  exact (boundary_frame pgPwr s).trans ((hsluice _).trans (htherm _))

/-- Past PWR's own boundary, fields of pages other than SLUICE and THERM read the same. -/
theorem rdi_windowApplied {q : Page} {b n : Nat} {f : RegField} (hf : (f, n) ∈ rowsAt q.cls b)
    (hsluice : pageKey q / 8192 ≠ clsCode .sluice) (htherm : pageKey q / 8192 ≠ clsCode .therm) (s : State) :
    rdi (windowApplied s) q f n = rdi (boundary pgPwr s) q f n := by
  have hs (r : Nat) (hr : r < 64) (u : State) : rdi (boundary (pgSluice r) u) q f n = rdi u q f n := by
    refine rdi_boundary_other rfl hf (fun he => hsluice ?_) u
    rw [he]
    simp only [pageKey, pgSluice, clsCode]
    omega
  have ht (d : Nat) (hd : d < 4) (u : State) : rdi (boundary (pgTherm d) u) q f n = rdi u q f n := by
    refine rdi_boundary_other rfl hf (fun he => htherm ?_) u
    rw [he]
    simp only [pageKey, pgTherm, clsCode]
    omega
  refine foldUpTo_induct (fun t => rdi t q f n = rdi (boundary pgPwr s) q f n) 4 _ (fun d u hd hu => (ht d hd u).trans hu) _ ?_
  exact foldUpTo_induct (fun t => rdi t q f n = rdi (boundary pgPwr s) q f n) 64 _ (fun r u hr hu => (hs r hr u).trans hu) _ rfl

/-- The fields that decide an armed error injection on PWR. -/
theorem injArmed_windowApplied (bit : Nat) (s : State) : injArmed (windowApplied s) pgPwr bit = injArmed s pgPwr bit := by
  have hhead {h : RegField} (hh : h ∈ R.HEADER_fields) (hne : h ≠ R.HEADER_BOUNDARY_CNT_COUNT) :
      rd (windowApplied s) (headPage pgPwr) h = rd s (headPage pgPwr) h :=
    (rdi_windowApplied (q := pgPwr) (rowsAt_header (headPage_cls pgPwr) hh) (by decide) (by decide) s).trans
      (rd_boundary_header (p := pgPwr) hh hne s)
  have hother {q : Page} {b : Nat} {f : RegField} (hf : (f, 0) ∈ rowsAt q.cls b) (hsluice : pageKey q / 8192 ≠ clsCode .sluice)
      (htherm : pageKey q / 8192 ≠ clsCode .therm) (hpwr : pageKey q ≠ pageKey pgPwr) : rd (windowApplied s) q f = rd s q f :=
    (rdi_windowApplied hf hsluice htherm s).trans (rdi_boundary_other rfl hf hpwr s)
  have hlevel : rd (windowApplied s) pgFuse R.FUSE_CFG_DEBUG_LEVEL = rd s pgFuse R.FUSE_CFG_DEBUG_LEVEL :=
    hother (b := R.FUSE_CFG_DEBUG_LEVEL.off) (by decide +kernel) (by decide) (by decide) (by decide)
  have hunlocked : rd (windowApplied s) pgSec R.SEC_STATUS_DEBUG_UNLOCKED = rd s pgSec R.SEC_STATUS_DEBUG_UNLOCKED :=
    hother (b := R.SEC_STATUS_DEBUG_UNLOCKED.off) (by decide +kernel) (by decide) (by decide) (by decide)
  rw [injArmed, injArmed, debugOpen, debugOpen, hhead (h := R.HEADER_ERR_INJ_ARM) (by decide) (by decide),
    hhead (h := R.HEADER_ERR_INJ_BIT) (by decide) (by decide), hlevel, hunlocked]

/-- What the state request of a control window finds: the request in force, all that it depends on as it was. -/
theorem windowApplied_asked {s : State} {v : Nat} (hpend : pendOffs s pgPwr = [(0x10, v)]) :
    windowBoundary s = stateRequest (v % 4) (windowApplied s) := by
  have hat : pendAt s pgPwr 0x10 = some v := by
    cases hx : pendAt s pgPwr 0x10 with
    | none => exact absurd (by rw [hpend]; exact List.mem_singleton_self _) ((pendAt_eq_none (by decide)).mp hx v)
    | some w =>
      have hmem := mem_pendOffs_of_pendAt (by decide) hx
      rw [hpend] at hmem
      obtain ⟨-, rfl⟩ := Prod.mk.inj (List.mem_singleton.mp hmem)
      rfl
  have hreq : rd (windowApplied s) pgPwr R.PWR_CTRL_STATE_REQ = v % 4 := by
    refine (rdi_windowApplied stateReq_row (by decide) (by decide) s).trans ?_
    rw [rdi_boundary_wb stateReq_row rfl, pendingRd_of_some stateReq_row rfl hat]
    · simp [bitsOf, show R.PWR_CTRL_STATE_REQ.lo = 0 from rfl, show R.PWR_CTRL_STATE_REQ.width = 2 from rfl]
    · intro e he _
      rw [hpend] at he
      rw [List.mem_singleton.mp he, hat]
  rw [windowBoundary_asked (by rw [hat]; rfl), hreq]

/-! ### The state request of a control window -/

theorem checkFor_found (p : Page) (bit : Nat) (s : State) : (checkFor p bit true s).1 = true := by
  unfold checkFor
  split <;> rfl

theorem checkFor_quiet_false {p : Page} {bit : Nat} {s : State} (h : injArmed s p bit = false) : checkFor p bit false s = (false, s) :=
  if_neg (by simp [h])

theorem windowApplied_status {f : RegField} (hf : f ∈ [R.PWR_STATUS_STATE, R.PWR_STATUS_TRANSITION]) (s : State) :
    rd (windowApplied s) pgPwr f = rd s pgPwr f :=
  (rdi_windowApplied (status_row hf) (by decide) (by decide) s).trans (rd_boundary_status hf s)

theorem windowApplied_running (s : State) :
    rd (windowApplied s) pgSched R.SCHED_STATUS_RUNNING = rd s pgSched R.SCHED_STATUS_RUNNING := by
  have hrow : (R.SCHED_STATUS_RUNNING, 0) ∈ rowsAt pgSched.cls R.SCHED_STATUS_RUNNING.off := by decide +kernel
  exact (rdi_windowApplied hrow (by decide) (by decide) s).trans (rdi_boundary_other rfl hrow (by decide) s)

theorem SameButApplied.power {s t : State} (h : SameButApplied s t) : t.power = s.power := by
  unfold SameButApplied at h
  exact (congrArg State.power h :)

theorem SameButApplied.cores {s t : State} (h : SameButApplied s t) : t.cores = s.cores := by
  unfold SameButApplied at h
  exact (congrArg State.cores h :)

/-- Whether a request for IDLE is granted in ACTIVE: with the schedule stopped and every core idle (R395). -/
theorem stateMay_idle {s : State} (htarget : s.power.target = none) (hactive : rd s pgPwr R.PWR_STATUS_STATE = 0) :
    stateMay 1 s = (decide (rd s pgSched R.SCHED_STATUS_RUNNING = 0) && s.cores.all (fun e => blockIdle s (pgCore e.1))) := by
  simp [stateMay, htarget, hactive]

theorem blockIdle_core_congr {s t : State} (h : t.cores = s.cores) (c : Nat) : blockIdle t (pgCore c) = blockIdle s (pgCore c) := by
  simp only [blockIdle, pgCore, coreOf, h]

theorem stateRequest_granted {s : State} (htarget : s.power.target = none) (hactive : rd s pgPwr R.PWR_STATUS_STATE = 0)
    (hmay : stateMay 1 s = true) (hquiet : injArmed s pgPwr 4 = false) : stateRequest 1 s = beginState 1 s := by
  simp [stateRequest, checked, hmay, checkFor_quiet_false hquiet, htarget, hactive]

/-- A refused request leaves its error, and the power state. -/
theorem stateRequest_refused {t : Nat} {s : State} (hmay : stateMay t s = false) :
    bitSet (rd (stateRequest t s) pgPwr R.HEADER_ERR_STAT_ERR) 4 = true ∧ SameState s (stateRequest t s) := by
  obtain ⟨u, hu⟩ : ∃ u, u = (checkFor pgPwr 4 true s).2 := ⟨_, rfl⟩
  have hreq : stateRequest t s = stateRefused u := by
    rw [stateRequest, hmay, checked]
    exact (if_pos (checkFor_found pgPwr 4 s)).trans (congrArg stateRefused hu.symm)
  rw [hreq]
  exact ⟨err_recordErr pgPwr (by decide) none u, (hu ▸ sameState_checkFor pgPwr 4 true s).trans (sameState_recordErr ..)⟩

/-- A transition begun: its state is the target, and only the transition's mark and the target differ. -/
theorem beginState_spec (t : Nat) (s : State) : (beginState t s).power.target = some t ∧
    rd (beginState t s) pgPwr R.PWR_STATUS_TRANSITION = 1 ∧ rd (beginState t s) pgPwr R.PWR_STATUS_STATE = rd s pgPwr R.PWR_STATUS_STATE :=
  ⟨rfl, rd_wr_self .., (rd_wr_ne _ _ _ _ _ _ (by decide)).trans (rd_of_regs rfl _ _)⟩

/-- The control window acts on a request for IDLE: with the schedule stopped and every core idle the transition begins. -/
theorem controlWindow_granted (m : Meter) {s : State} {v : Nat} (hquiet : Uninjected s) (hon : powerOn s = true)
    (hpend : pendOffs s pgPwr = [(0x10, v)]) (hv : v % 4 = 1) (htarget : s.power.target = none)
    (hactive : rd s pgPwr R.PWR_STATUS_STATE = 0) (hstopped : rd s pgSched R.SCHED_STATUS_RUNNING = 0)
    (hidle : ∀ e ∈ s.cores, blockIdle s (pgCore e.1) = true) :
    (controlWindow m s).power.target = some 1 ∧ rd (controlWindow m s) pgPwr R.PWR_STATUS_TRANSITION = 1 ∧
      rd (controlWindow m s) pgPwr R.PWR_STATUS_STATE = 0 := by
  have hframe := windowApplied_frame s
  have hmay : stateMay 1 (windowApplied s) = true := by
    rw [stateMay_idle (by rw [hframe.power, htarget]) (by rw [windowApplied_status (by decide), hactive]), windowApplied_running, hstopped,
      hframe.cores]
    simp only [decide_true, Bool.true_and, List.all_eq_true]
    exact fun e he => (blockIdle_core_congr hframe.cores e.1).trans (hidle e he)
  have hbegun : windowBoundary s = beginState 1 (windowApplied s) := by
    rw [windowApplied_asked hpend, hv]
    refine stateRequest_granted ?_ ?_ hmay ?_
    · rw [hframe.power, htarget]
    · rw [windowApplied_status (by decide), hactive]
    · rw [injArmed_windowApplied]
      exact hquiet pgPwr 4
  have hrest := sameState_controlWindow m hon
  obtain ⟨htgt, htrans, hstate⟩ := beginState_spec 1 (windowApplied s)
  rw [hbegun] at hrest
  refine ⟨hrest.2.trans htgt, hrest.transition.trans htrans, ?_⟩
  rw [hrest.state, hstate, windowApplied_status (by decide), hactive]

/-- While the schedule runs a request for IDLE is refused with PWR_STATE. -/
theorem controlWindow_refused (m : Meter) {s : State} {v : Nat} (hon : powerOn s = true) (hpend : pendOffs s pgPwr = [(0x10, v)])
    (hv : v % 4 = 1) (htarget : s.power.target = none) (hactive : rd s pgPwr R.PWR_STATUS_STATE = 0)
    (hrunning : rd s pgSched R.SCHED_STATUS_RUNNING = 1) :
    (controlWindow m s).power.target = none ∧ bitSet (rd (controlWindow m s) pgPwr R.HEADER_ERR_STAT_ERR) 4 = true := by
  have hframe := windowApplied_frame s
  have hmay : stateMay 1 (windowApplied s) = false := by
    rw [stateMay_idle (by rw [hframe.power, htarget]) (by rw [windowApplied_status (by decide), hactive]), windowApplied_running, hrunning]
    rfl
  obtain ⟨herr, hkept⟩ := stateRequest_refused hmay
  rw [← hv, ← windowApplied_asked hpend] at herr hkept
  have hrest := sameState_controlWindow m hon
  refine ⟨?_, hrest.1.2 _ 4 (by decide) herr⟩
  rw [hrest.2, hkept.2, hframe.power, htarget]

/-! ### Transitions that end, and wakes -/

/-- The state that a transition enters, before the links and the stacks follow it. -/
def stateEntered (k : Nat) (s : State) : State :=
  wr pgPwr R.PWR_STATUS_TRANSITION 0 (wr pgPwr R.PWR_STATUS_STATE k (modPower (fun p => { p with target := none }) s))

theorem stateEntered_spec {k : Nat} (hk : k < 4) (s : State) : (stateEntered k s).power.target = none ∧
    rd (stateEntered k s) pgPwr R.PWR_STATUS_TRANSITION = 0 ∧ rd (stateEntered k s) pgPwr R.PWR_STATUS_STATE = k := by
  refine ⟨rfl, rd_wr_self .., ?_⟩
  rw [stateEntered, rd_wr_ne _ _ _ _ _ _ (by decide), rd_wr_self]
  exact Nat.mod_eq_of_lt hk

theorem sameState_enterStandby (s : State) : SameState s (enterStandby s) :=
  SameState.trans (t := { s with cores := [], stopAll := true }) (sameState_of_regs rfl rfl)
    ((sameState_linksOff _).trans (sameState_selfRefresh _))

theorem linksOff_frame (s : State) : SameButLinks s (linksOff s) := sameButLinks_foldUpTo (fun k u => dropLink_frame k u) s

theorem enterStandby_spec (s : State) : (enterStandby s).cores = [] ∧ (enterStandby s).stopAll = true ∧
    (enterStandby s).power.wake = s.power.wake ∧ ∀ j < 8, rd (enterStandby s) (pgMemc j) R.MEMC_STATUS_SELF_REFRESH = 1 := by
  obtain ⟨u, hu⟩ : ∃ u, u = linksOff { s with cores := [], stopAll := true } := ⟨_, rfl⟩
  have hframe : SameButLinks { s with cores := [], stopAll := true } u := hu ▸ linksOff_frame _
  have hcores : u.cores = [] := by
    unfold SameButLinks at hframe
    exact (congrArg State.cores hframe :)
  have hent : enterStandby s = selfRefresh u := hu ▸ rfl
  have honly := onlyRegs_selfRefresh u
  rw [hent]
  refine ⟨(honly.eq State.cores fun _ _ => rfl).trans hcores, (honly.eq State.stopAll fun _ _ => rfl).trans hframe.stopAll, ?_,
    fun j hj => rd_selfRefresh hj u⟩
  exact (honly.eq (fun t => t.power.wake) fun _ _ => rfl).trans (congrArg PowerSt.wake hframe.power)

theorem transitionDone_idle {s : State} (h : s.power.target = some 1) : transitionDone s = linksIdle (stateEntered 1 s) := by
  simp [transitionDone, h, stateEntered]

theorem transitionDone_active {s : State} (h : s.power.target = some 0) (hout : rd s pgRst R.RST_STATUS_COMEOUT = 0) :
    transitionDone s = linksBack (stateEntered 0 s) := by
  simp [transitionDone, h, hout, stateEntered]

theorem transitionDone_standby {s : State} (h : s.power.target = some 2) (hwake : s.power.wake = none) :
    transitionDone s = enterStandby (stateEntered 2 s) := by
  have hnone : (enterStandby (stateEntered 2 s)).power.wake = none := (enterStandby_spec _).2.2.1.trans hwake
  have hretry : transitionDone s = retryWake (enterStandby (stateEntered 2 s)) := by simp [transitionDone, h, stateEntered]
  rw [hretry, retryWake, hnone]

/-- A transition that ends enters its state. -/
theorem transitionDone_spec {s : State} {k : Nat} (htarget : s.power.target = some k)
    (hk : k = 1 ∨ k = 2 ∧ s.power.wake = none ∨ k = 0 ∧ rd s pgRst R.RST_STATUS_COMEOUT = 0) :
    (transitionDone s).power.target = none ∧ rd (transitionDone s) pgPwr R.PWR_STATUS_TRANSITION = 0 ∧
      rd (transitionDone s) pgPwr R.PWR_STATUS_STATE = k ∧
      (k = 2 → (transitionDone s).cores = [] ∧ (transitionDone s).stopAll = true ∧
        ∀ j < 8, rd (transitionDone s) (pgMemc j) R.MEMC_STATUS_SELF_REFRESH = 1) ∧
      (k = 1 → ∀ j < 32, linkState (transitionDone s) j ≠ 4) := by
  have hentered {u : State} (hk4 : k < 4) (h : SameState (stateEntered k s) u) :
      u.power.target = none ∧ rd u pgPwr R.PWR_STATUS_TRANSITION = 0 ∧ rd u pgPwr R.PWR_STATUS_STATE = k := by
    obtain ⟨htgt, htrans, hstate⟩ := stateEntered_spec hk4 s
    exact ⟨h.2.trans htgt, h.transition.trans htrans, h.state.trans hstate⟩
  obtain rfl | ⟨rfl, hwake⟩ | ⟨rfl, hout⟩ := hk
  · rw [transitionDone_idle htarget]
    obtain ⟨htgt, htrans, hstate⟩ := hentered (by decide) (sameState_linksIdle (stateEntered 1 s))
    exact ⟨htgt, htrans, hstate, nofun, fun _ j hj => linksIdle_fenced hj _⟩
  · rw [transitionDone_standby htarget hwake]
    obtain ⟨htgt, htrans, hstate⟩ := hentered (by decide) (sameState_enterStandby (stateEntered 2 s))
    obtain ⟨hcores, hstop, -, hrefresh⟩ := enterStandby_spec (stateEntered 2 s)
    exact ⟨htgt, htrans, hstate, fun _ => ⟨hcores, hstop, hrefresh⟩, nofun⟩
  · rw [transitionDone_active htarget hout]
    obtain ⟨htgt, htrans, hstate⟩ := hentered (by decide) (sameState_linksBack (stateEntered 0 s))
    exact ⟨htgt, htrans, hstate, nofun, nofun⟩

theorem rd_wakeCause (b : Nat) (hb : b < 3) (s : State) : rd (wakeCause b s) pgAon R.AON_WAKE_CAUSE = 2 ^ b := by
  rw [wakeCause, rd_wr_self]
  exact (by decide : ∀ b < 3, 2 ^ b % 2 ^ R.AON_WAKE_CAUSE.width = 2 ^ b) b hb

theorem rd_beginState_cause (t : Nat) (s : State) : rd (beginState t s) pgAon R.AON_WAKE_CAUSE = rd s pgAon R.AON_WAKE_CAUSE :=
  (rd_wr_ne _ _ _ _ _ _ (by decide)).trans (rd_of_regs rfl _ _)

/-- IDLE wakes at the WAKE pin. -/
theorem wakePin_idle {s : State} (hidle : rd s pgPwr R.PWR_STATUS_STATE = 1) (htarget : s.power.target = none) :
    (wakePin true s).pins.wake = true ∧ (wakePin true s).power.target = some 0 ∧
      rd (wakePin true s) pgPwr R.PWR_STATUS_TRANSITION = 1 ∧ rd (wakePin true s) pgAon R.AON_WAKE_CAUSE = 1 := by
  have heq : wakePin true s = beginState 0 (wakeCause 0 { s with pins := { s.pins with wake := true } }) := by
    simp [wakePin, hidle, htarget]
  rw [heq, rd_beginState_cause, rd_wakeCause 0 (by decide)]
  exact ⟨rfl, rfl, (beginState_spec 0 _).2.1, rfl⟩

/-- STANDBY left with the coolant flowing: come-out steps 5 to 9 run. -/
theorem wakeStandby_spec (b : Nat) {s : State} (hcool : s.pins.coolant = true) :
    (wakeStandby b s).power.target = some 0 ∧ (wakeStandby b s).power.wake = none ∧
      rd (wakeStandby b s) pgRst R.RST_STATUS_COMEOUT = 1 ∧ nextStep (wakeStandby b s) = 5 ∧
      (b < 3 → rd (wakeStandby b s) pgAon R.AON_WAKE_CAUSE = 2 ^ b) := by
  obtain ⟨u, hu⟩ : ∃ u, u = modPower (fun p => { p with wake := none, ran := false })
      (modRst (fun x => { x with reach := 0, again := 0, ticks := 0 }) { s with stopAll := true }) := ⟨_, rfl⟩
  have heq : wakeStandby b s = wr pgRst R.RST_STATUS_COMEOUT 1 (wr pgRst R.RST_STATUS_STEP 4 (beginState 0 (wakeCause b u))) := by
    rw [hu, wakeStandby, if_neg (by simp [hcool])]
  have hreach : u.rst.reach = 0 := by rw [hu]; rfl
  have hstep : rd (wakeStandby b s) pgRst R.RST_STATUS_STEP = 4 := by
    rw [heq, rd_wr_ne _ _ _ _ _ _ (by decide)]
    exact rd_wr_self ..
  have hout : (wakeStandby b s).rst.reach = 0 := by
    rw [heq]
    exact hreach
  refine ⟨?_, ?_, ?_, ?_, fun hb => ?_⟩
  · rw [heq]; rfl
  · rw [heq, hu]; rfl
  · rw [heq]
    exact rd_wr_self ..
  · simp [nextStep, hstep, hout]
  · rw [heq, rd_wr_ne _ _ _ _ _ _ (by decide), rd_wr_ne _ _ _ _ _ _ (by decide), rd_beginState_cause, rd_wakeCause b hb]

/-! ### The coolant is back -/

theorem pins_foldUpTo {n : Nat} {f : Nat → State → State} (h : ∀ i u, (f i u).pins = u.pins) (s : State) : (foldUpTo n f s).pins = s.pins :=
  foldUpTo_induct (fun u => u.pins = s.pins) n f (fun i u _ hu => (h i u).trans hu) s rfl

theorem pins_foldl {α : Type} {f : State → α → State} (h : ∀ u a, (f u a).pins = u.pins) (l : List α) (s : State) :
    (l.foldl f s).pins = s.pins :=
  foldl_keeps (fun u => u.pins = s.pins) f (fun u a hu => (h u a).trans hu) l s rfl

theorem SameButEvents.pins {s t : State} (h : SameButEvents s t) : t.pins = s.pins := by
  unfold SameButEvents at h
  exact (congrArg State.pins h :)

theorem unbindLock_pins (l : Nat) (s : State) : (unbindLock l s).pins = s.pins := by
  unfold unbindLock
  split
  · rfl
  · extract_lets s1 s2
    have h2 : s2.pins = s1.pins := pins_foldl (f := fun t f => wri pgWlock f l 0 t) (fun _ _ => rfl) _ s1
    exact ((hostEvent_frame ..).pins).trans h2

theorem ctxsReset_pins (s : State) : (ctxsReset s).pins = s.pins := by
  refine pins_foldl (fun u e => ?_) s.ctxs s
  dsimp only
  split <;> rfl

theorem computeReset_pins (s : State) : (computeReset s).pins = s.pins := by
  unfold computeReset
  extract_lets s0 s1 s2 emb s3
  have h0 : s0.pins = s.pins := (pins_foldUpTo unbindLock_pins _).trans ((onlyRegs_selfRefresh s).eq State.pins fun _ _ => rfl)
  have h1 : s1.pins = s0.pins := ctxsReset_pins _
  have h3 : s3.pins = s1.pins := rfl
  clear_value s3
  refine (pins_foldUpTo (fun k u => ?_) _).trans ((pins_foldUpTo (fun k u => ?_) s3).trans (h3.trans (h1.trans h0)))
  · split <;> rfl
  · exact pins_foldl (f := fun t f => wr (pgLink k) f (rd s (pgLink k) f) t) (fun _ _ => rfl) _ u

theorem supplyReset_pins (r : Reach) (s : State) : (supplyReset r s).pins = s.pins := computeReset_pins s

theorem wakeSleep_pins (b : Nat) (s : State) : (wakeSleep b s).pins = s.pins := by
  unfold wakeSleep
  split
  · rfl
  · exact supplyReset_pins .supply (wakeCause b s)

theorem wakeStandby_pins (b : Nat) (s : State) : (wakeStandby b s).pins = s.pins := by
  unfold wakeStandby
  split <;> rfl

theorem wake_pins (b : Nat) (s : State) : (wake b s).pins = s.pins := by
  unfold wake
  dsimp only
  split
  · split <;> rfl
  · split
    · rfl
    · split
      · exact wakeSleep_pins b s
      · split
        · exact wakeStandby_pins b s
        · rfl

theorem wake_standby {s : State} (hstandby : rd s pgPwr R.PWR_STATUS_STATE = 2) (htarget : s.power.target = none)
    (hout : rd s pgRst R.RST_STATUS_COMEOUT = 0) (hheld : s.rst.held = false) (b : Nat) : wake b s = wakeStandby b s := by
  simp [wake, htarget, hout, hheld, hstandby]

/-- The coolant is back: a wake that waited begins. -/
theorem coolantBack_spec {s : State} (hpend : s.rst.pend = 0) (htarget : s.power.target = none) (hheld : s.rst.held = false)
    (hout : rd s pgRst R.RST_STATUS_COMEOUT = 0) :
    (coolantBack s).pins.coolant = true ∧
      (∀ b, s.power.wake = some b → rd s pgPwr R.PWR_STATUS_STATE = 2 → rd (coolantBack s) pgRst R.RST_STATUS_COMEOUT = 1 ∧
        (coolantBack s).power.target = some 0 ∧ (coolantBack s).power.wake = none) ∧
      (s.power.wake = none → { coolantBack s with pins := s.pins } = s) := by
  obtain ⟨u, hu⟩ : ∃ u : State, u = { s with pins := { s.pins with coolant := true } } := ⟨_, rfl⟩
  have hback : coolantBack s = retryWake u := by simp [coolantBack, hpend, hu]
  have hcool : u.pins.coolant = true := by rw [hu]
  have hregs : u.regs = s.regs := by rw [hu]
  have hrst : u.rst = s.rst := by rw [hu]
  have hpower : u.power = s.power := by rw [hu]
  rw [hback, retryWake, hpower]
  cases hwake : s.power.wake with
  | none => exact ⟨hcool, nofun, fun _ => by rw [hu]⟩
  | some b =>
    refine ⟨?_, fun b' hb hstandby => ?_, nofun⟩
    · exact (congrArg Pins.coolant (wake_pins b u)).trans hcool
    · have heq : wake b u = wakeStandby b u :=
        wake_standby ((rd_of_regs hregs _ _).trans hstandby) (hpower ▸ htarget) ((rd_of_regs hregs _ _).trans hout) (hrst ▸ hheld) b
      obtain ⟨htgt, hnone, hcome, -⟩ := wakeStandby_spec b hcool
      dsimp only
      rw [heq]
      exact ⟨hcome, htgt, hnone⟩

/-! ### The statement -/

/-- Settles O48: a state request waits in CTRL (`askState_eq`) and the window acts on it at its boundary (`windowApplied_asked`);
nothing after the boundary touches the power state (`sameState_controlWindow`). -/
theorem powerStatesAndCoolant : Obligations.PowerStatesAndCoolant := by
  unfold Obligations.PowerStatesAndCoolant
  refine ⟨⟨fun p s hreach e he => ?_, fun m s v hquiet hon hpend hv htarget hactive => ⟨fun hstopped hidle _ _ => ?_, fun hrunning => ?_⟩,
    fun s k htarget hk => ?_, fun s hidle htarget => ?_, fun s hstandby htarget hout hheld hcool hen => ?_⟩,
    fun s => ⟨fun hon hhot => ?_, fun hon hstate hcool hout => ?_, fun hpend htarget hheld hout => ?_⟩⟩
  · obtain ⟨k, hk, hexec, hk4⟩ : ∃ k, e.2 = k ∧ exec e.1 s = .next (access p pgPwr (askState k) s) ∧ k < 4 := by
      simp only [List.mem_cons, List.not_mem_nil, or_false] at he
      obtain rfl | rfl | rfl | rfl := he
      · exact ⟨0, rfl, rfl, by decide⟩
      · exact ⟨1, rfl, rfl, by decide⟩
      · exact ⟨2, rfl, rfl, by decide⟩
      · exact ⟨3, rfl, rfl, by decide⟩
    refine ⟨_, hexec, ?_⟩
    rw [hk]
    exact askState_spec hreach hk4
  · exact ⟨controlWindow m s, rfl, controlWindow_granted m hquiet hon hpend hv htarget hactive hstopped hidle⟩
  · exact ⟨controlWindow m s, rfl, controlWindow_refused m hon hpend hv htarget hactive hrunning⟩
  · exact ⟨transitionDone s, ⟨_, rfl, comesTo_settled _⟩, transitionDone_spec htarget hk⟩
  · exact ⟨wakePin true s, rfl, wakePin_idle hidle htarget⟩
  · have heq : i3cWake s = wakeStandby 1 s := by
      rw [i3cWake, if_pos ⟨hen, by omega⟩, wake_standby hstandby htarget hout hheld]
    obtain ⟨htgt, -, hcome, hnext, hcause⟩ := wakeStandby_spec 1 hcool
    refine ⟨i3cWake s, rfl, ?_⟩
    rw [heq]
    exact ⟨htgt, hcome, hnext, hcause (by decide)⟩
  · obtain ⟨hstop, halert, hsafe, hrefresh, -, herrs⟩ := coolantStop_spec (errCode .pwr 3) (recordErr pgPwr 3 none s)
    have heq : coolantTemp s = coolantStop (errCode .pwr 3) (recordErr pgPwr 3 none s) := if_pos (by simp [hon, hhot])
    refine ⟨coolantTemp s, ⟨_, rfl, comesTo_settled _⟩, ?_⟩
    rw [heq]
    exact ⟨⟨hstop, halert, hsafe, hrefresh⟩, herrs pgPwr 3 (by decide) (err_recordErr pgPwr (by decide) none s)⟩
  · obtain ⟨u, hu⟩ : ∃ u : State, u = { s with pins := { s.pins with coolant := false } } := ⟨_, rfl⟩
    obtain ⟨hstop, halert, hsafe, hrefresh, hpins, herrs⟩ := coolantStop_spec (errCode .pwr 2) (recordErr pgPwr 2 none u)
    have heq : coolantLoss s = coolantStop (errCode .pwr 2) (recordErr pgPwr 2 none u) := by
      rw [hu]
      exact if_neg (by simp [hon, hcool, hout, hstate])
    have hfalse : u.pins.coolant = false := by rw [hu]
    refine ⟨coolantLoss s, ⟨_, rfl, comesTo_settled _⟩, ?_⟩
    rw [heq]
    refine ⟨?_, ⟨hstop, halert, hsafe, hrefresh⟩, herrs pgPwr 2 (by decide) (err_recordErr pgPwr (by decide) none u)⟩
    exact (congrArg Pins.coolant (hpins.trans (recordErr_frame ..).pins)).trans hfalse
  · exact ⟨coolantBack s, rfl, coolantBack_spec hpend htarget hheld hout⟩

end Sys2Proof.Machine
end

section
/-!
SUPPORT. What a reset that takes effect leaves: the units it empties, the register fields that its reach clears, and the
path of a source that asserts on a module at rest (R446, R447, R448). CERTIFICATE. Resets clear their fields (O56).
-/

namespace Sys2Proof.Machine

/-! ### What each reach empties -/

theorem unbindLock_eq {α : Type} {look : State → α} (hregs : ∀ u r, look { u with regs := r } = look u)
    (hevents : ∀ {u t}, SameButEvents u t → look t = look u) (hstop : ∀ u l, look { u with wlStop := l } = look u)
    (l : Nat) (s : State) : look (unbindLock l s) = look s := by
  unfold unbindLock
  split
  · rfl
  · extract_lets s1 s2
    have h2 : look s2 = look s1 := foldl_keeps (fun u => look u = look s1) (fun t f => wri pgWlock f l 0 t)
      (fun u f hu => (hregs u _).trans hu) _ s1 rfl
    calc look (hostEvent evWlUnbound pgWlock _ 0 { s2 with wlStop := s2.wlStop.filter (· != l) })
        = look { s2 with wlStop := s2.wlStop.filter (· != l) } := hevents (hostEvent_frame ..)
      _ = look s2 := hstop ..
      _ = look s1 := h2
      _ = look s := hregs ..

theorem ctxsReset_eq {α : Type} {look : State → α} (hregs : ∀ u r, look { u with regs := r } = look u)
    (hctxs : ∀ u l, look { u with ctxs := l } = look u) (s : State) : look (ctxsReset s) = look s := by
  refine foldl_keeps (fun u => look u = look s) _ (fun u e hu => ?_) s.ctxs s rfl
  have h2 : look (wr (pgCtx e.1) R.CTX_STATUS_RUNNING 0 (wr (pgCtx e.1) R.CTX_STATUS_HELD 0 (setCtx e.1 (ctxReset s e.1 e.2) u))) = look s :=
    (hregs ..).trans ((hregs ..).trans ((hctxs ..).trans hu))
  dsimp only
  split
  · exact (hregs ..).trans h2
  · exact h2

/-- A COMPUTE reset empties the cores, the engines and the bindings, and leaves the reset state machine and device DRAM. -/
theorem computeReset_spec (s : State) :
    (computeReset s).cores = [] ∧ (computeReset s).binds = [] ∧ (computeReset s).engines = [] ∧ (computeReset s).stopAll = true ∧
      (computeReset s).rst = s.rst ∧ (computeReset s).dram = s.dram := by
  unfold computeReset
  extract_lets s0 s1 s2 emb s3
  have h0 {α : Type} (look : State → α) (hregs : ∀ u r, look { u with regs := r } = look u)
      (hevents : ∀ {u t}, SameButEvents u t → look t = look u) (hstop : ∀ u l, look { u with wlStop := l } = look u)
      (hctxs : ∀ u l, look { u with ctxs := l } = look u) : look s1 = look s :=
    calc look s1 = look s0 := (ctxsReset_eq hregs hctxs _).trans (hregs ..)
      _ = look (selfRefresh s) := foldUpTo_induct (fun u => look u = look (selfRefresh s)) 8 unbindLock
            (fun l u _ hu => (unbindLock_eq hregs hevents hstop l u).trans hu) _ rfl
      _ = look s := (onlyRegs_selfRefresh s).eq look hregs
  have hrst : s3.rst = s.rst := h0 State.rst (fun _ _ => rfl) (fun h => by unfold SameButEvents at h; exact (congrArg State.rst h :))
    (fun _ _ => rfl) (fun _ _ => rfl)
  have hdram : s3.dram = s.dram := h0 State.dram (fun _ _ => rfl) SameButEvents.dram (fun _ _ => rfl) (fun _ _ => rfl)
  have h3 : s3.cores = [] ∧ s3.binds = [] ∧ s3.engines = [] ∧ s3.stopAll = true ∧ s3.rst = s.rst ∧ s3.dram = s.dram :=
    ⟨rfl, rfl, rfl, rfl, hrst, hdram⟩
  clear_value s3
  have hlinks : OnlyRegs s3 (foldUpTo 32 (fun k t =>
      [R.LINK_STATUS_RATE_224, R.LINK_STATUS_VERSION, R.LINK_STATUS_FEC_528, R.LINK_STATUS_SPREAD_ON, R.LINK_STATUS_ORDERED,
        R.LINK_STATUS_TALLY_OPS, R.LINK_STATUS_EMB_V2, R.LINK_STATUS_RETRYING, R.LINK_LOCAL_CAPS, R.LINK_PARTNER_CAPS,
        R.LINK_PARTNER_CRED, R.LINK_VC_CREDITS].foldl (fun t f => wr (pgLink k) f (rd s (pgLink k) f) t) t) s3) :=
    foldUpTo_induct (OnlyRegs s3) 32 _ (fun k u _ hu =>
      hu.trans (foldl_keeps (OnlyRegs u) _ (fun v f hv => hv.trans (onlyRegs_wri ..)) _ u rfl)) s3 rfl
  have hall : OnlyRegs s3 _ := foldUpTo_induct (OnlyRegs s3) 32 (fun k t =>
    if rd s (pgLink k) R.LINK_STATUS_STATE = 4 then wr (pgLink k) R.LINK_STATUS_STATE 3 t
    else wr (pgLink k) R.LINK_STATUS_STATE (rd s (pgLink k) R.LINK_STATUS_STATE) t) (fun k u _ hu => by
      split <;> exact hu.trans (onlyRegs_wri ..)) _ hlinks
  obtain ⟨hc, hb, he, hs, hr, hd⟩ := h3
  exact ⟨(hall.eq State.cores fun _ _ => rfl).trans hc, (hall.eq State.binds fun _ _ => rfl).trans hb,
    (hall.eq State.engines fun _ _ => rfl).trans he, (hall.eq State.stopAll fun _ _ => rfl).trans hs,
    (hall.eq State.rst fun _ _ => rfl).trans hr, (hall.eq State.dram fun _ _ => rfl).trans hd⟩

/-! ### Which fields a reach clears -/

/-- A filed field reads its after-reset value where the fields of a reach that clears it have been returned. -/
theorem rdi_of_mapDrop {r : Reach} {t : State} {m : List (Nat × Nat)} (hregs : t.regs = mapDrop m (fun k => true && clearedBy r k))
    {p : Page} {f : RegField} {n : Nat} (hfiled : fieldFiled (fieldKey p f n) = some (p, f))
    (hreach : reachRank (fieldReach p f) ≤ reachRank r) : rdi t p f n = resetOf f n := by
  have hcleared : clearedBy r (fieldKey p f n) = true := by simp [clearedBy, hfiled, hreach]
  rw [rdi, mapGet_eq_find, hregs, mapFind_drop]
  simp [hcleared]

theorem rdi_moduleReset {r : Reach} {s : State} {p : Page} {f : RegField} {n : Nat}
    (hfiled : fieldFiled (fieldKey p f n) = some (p, f)) (hreach : reachRank (fieldReach p f) ≤ reachRank r) :
    rdi (moduleReset r s) p f n = resetOf f n := rdi_of_mapDrop rfl hfiled hreach

theorem rdi_fullReset {s : State} {p : Page} {f : RegField} {n : Nat}
    (hfiled : fieldFiled (fieldKey p f n) = some (p, f)) (hreach : reachRank (fieldReach p f) ≤ 4) :
    rdi (fullReset s) p f n = resetOf f n := rdi_of_mapDrop (r := .full) (m := (computeReset s).regs) rfl hfiled hreach

theorem rdi_modRst (g : ResetSt → ResetSt) (s : State) (p : Page) (f : RegField) (n : Nat) : rdi (modRst g s) p f n = rdi s p f n := rfl

theorem fieldFiled_rstCause : fieldFiled (fieldKey pgRst R.RST_CAUSE 0) = some (pgRst, R.RST_CAUSE) := by decide

theorem fieldFiled_schedRunning :
    fieldFiled (fieldKey pgSched R.SCHED_STATUS_RUNNING 0) = some (pgSched, R.SCHED_STATUS_RUNNING) := by decide

/-- A field that a MODULE reset or a narrower one clears is not RST.CAUSE. -/
theorem fieldKey_ne_rstCause {p : Page} {f : RegField} {n : Nat} (hfiled : fieldFiled (fieldKey p f n) = some (p, f))
    (hreach : reachRank (fieldReach p f) ≤ 2) : fieldKey p f n ≠ fieldKey pgRst R.RST_CAUSE 0 := by
  intro h
  rw [h, fieldFiled_rstCause] at hfiled
  obtain ⟨rfl, rfl⟩ : pgRst = p ∧ R.RST_CAUSE = f := by simpa using hfiled
  exact absurd hreach (by decide)

/-! ### A reset taken on a module at rest -/

/-- What each reach from MODULE on leaves of the units. -/
def UnitsCleared (u t : State) : Prop :=
  t.cores = [] ∧ t.binds = [] ∧ t.engines = [] ∧ t.stopAll = true ∧ t.rst.pend = u.rst.pend ∧ t.rst.asserted = u.rst.asserted ∧
    t.ctxs = [] ∧ t.polTab = [] ∧ t.links = [] ∧ rd t pgSched R.SCHED_STATUS_RUNNING = 0

theorem moduleReset_spec (r : Reach) (hr : 2 ≤ reachRank r) (s : State) :
    UnitsCleared s (moduleReset r s) ∧ (moduleReset r s).dram = s.dram := by
  obtain ⟨hcores, hbinds, hengines, hstop, hrst, hdram⟩ := computeReset_spec s
  exact ⟨⟨hcores, hbinds, hengines, hstop, congrArg ResetSt.pend hrst, congrArg ResetSt.asserted hrst, rfl, rfl, rfl,
    rdi_moduleReset fieldFiled_schedRunning (Nat.le_trans (by decide) hr)⟩, hdram⟩

theorem fullReset_spec (s : State) :
    UnitsCleared s (fullReset s) ∧ (fullReset s).dram = [] ∧ (fullReset s).retained = [] :=
  ⟨(moduleReset_spec .full (by decide) s).1, rfl, rfl⟩

theorem resetPin_quiet {s : State} (hquiet : Quiet s) :
    ∃ v u, u.rst = { s.rst with asserted := joined s 4, pend := 2 } ∧ u.dram = s.dram ∧
      resetPin true s = wr pgRst R.RST_CAUSE v (modRst (fun r => { r with held := true }) (moduleReset .module u)) := by
  obtain ⟨hcomeout, hpend, hheld, hcapture, hsafe⟩ := hquiet
  obtain ⟨cause, hcause⟩ : ∃ c, c = rd s pgRst R.RST_CAUSE ||| 2 ^ 4 := ⟨_, rfl⟩
  obtain ⟨u, hu⟩ : ∃ u : State, u = modRst (fun x => { x with pend := max x.pend 2 })
    (wr pgRst R.RST_CAUSE cause (modRst (fun x => { x with asserted := joined s 4 }) s)) := ⟨_, rfl⟩
  have hrst : u.rst = { s.rst with asserted := joined s 4, pend := 2 } := by
    simp [hu, modRst, wr, wri, hpend]
  have hsafe' : rd u pgEmb R.EMB_STATUS_SAFE = 0 := by
    rw [← hsafe, hu]
    exact rd_wr_ne _ _ _ _ _ _ (by decide)
  refine ⟨rd u pgRst R.RST_CAUSE, u, hrst, by rw [hu]; rfl, ?_⟩
  have hassert : assertSource 4 2 false 0 s = takeHere u := by
    rw [hu, hcause]
    simp [assertSource, hcomeout, hheld, hcapture, joined]
    rfl
  have htake : takeReset u = modRst (fun r => { r with held := true }) (moduleReset .module u) := by
    rw [takeReset, hrst]
    rfl
  rw [resetPin, if_pos rfl, hassert, takeHere, if_neg (by simp [coolantHeld, hsafe']), htake]

theorem powerOnSource_quiet {s : State} (hquiet : Quiet s) :
    ∃ u, u.rst = { s.rst with asserted := joined s 0, pend := 4, capture := none } ∧
      powerOnSource s = wr pgAon R.AON_STATUS_AUX_OK 1 (wr pgRst R.RST_CAUSE 1 (modRst (fun r => { r with held := true }) (fullReset u))) := by
  obtain ⟨hcomeout, hpend, hheld, -, -⟩ := hquiet
  obtain ⟨cause, hcause⟩ : ∃ c, c = rd s pgRst R.RST_CAUSE ||| 2 ^ 0 := ⟨_, rfl⟩
  obtain ⟨u, hu⟩ : ∃ u : State, u = modRst (fun x => { x with capture := none }) (modRst (fun x => { x with pend := max x.pend 4 })
    (wr pgRst R.RST_CAUSE cause (modRst (fun x => { x with asserted := joined s 0 }) s))) := ⟨_, rfl⟩
  have hrst : u.rst = { s.rst with asserted := joined s 0, pend := 4, capture := none } := by
    simp [hu, modRst, wr, wri, hpend]
  have htake : takeReset u = modRst (fun r => { r with held := true }) (fullReset u) := by
    rw [takeReset, hrst]
    rfl
  have hassert : assertSource 0 4 false 0 s = wr pgRst R.RST_CAUSE 1 (takeReset u) := by
    rw [hu, hcause]
    simp [assertSource, hcomeout, hheld, joined]
    rfl
  exact ⟨u, hrst, by rw [powerOnSource, hassert, htake]⟩

/-- A source that asserts under a wider reset that is held joins the asserted ones, and else only RST.CAUSE changes. -/
theorem resetPin_held {s : State} (hheld : s.rst.held = true) (hpend : 2 ≤ s.rst.pend) (hcomeout : rd s pgRst R.RST_STATUS_COMEOUT = 0)
    (hnew : s.rst.asserted.contains 4 = false) :
    (resetPin true s).rst = { s.rst with asserted := s.rst.asserted ++ [4] } ∧ { resetPin true s with rst := s.rst, regs := s.regs } = s := by
  have hmax : max s.rst.pend 2 = s.rst.pend := Nat.max_eq_left hpend
  have hwide : ¬ s.rst.pend < 2 := by omega
  have hassert : assertSource 4 2 false 0 s = modRst (fun x => { x with pend := max x.pend 2 })
      (wr pgRst R.RST_CAUSE (rd s pgRst R.RST_CAUSE ||| 2 ^ 4)
        (modRst (fun x => { x with asserted := if x.asserted.contains 4 then x.asserted else x.asserted ++ [4] }) s)) := by
    simp [assertSource, hcomeout, hheld, hwide]
  rw [resetPin, if_pos rfl, hassert]
  simp only [modRst, wr, wri, hmax, hnew]
  simp

/-! ### The statement -/

/-- Settles O56: the reset that takes effect drops every filed field of its reach (`rdi_moduleReset`), and only RST.CAUSE and
the rail's status are written after it. -/
theorem resetsClearTheirFields : Obligations.ResetsClearTheirFields := by
  unfold Obligations.ResetsClearTheirFields
  refine fun s => ⟨fun hquiet => ⟨⟨resetPin true s, rfl, ?_, fun p f n _ hfiled hreach => ?_⟩,
    ⟨powerOnSource s, rfl, ?_, ?_, ?_, fun p f n _ hfiled hreach hcause haux => ?_⟩⟩,
    fun hheld hpend hcomeout hnew => ⟨resetPin true s, rfl, resetPin_held hheld hpend hcomeout hnew⟩⟩
  · obtain ⟨v, u, hrst, hdram, heq⟩ := resetPin_quiet hquiet
    obtain ⟨⟨hcores, hbinds, hengines, hstop, hpend, hasserted, hctxs, hpol, hlinks, hrunning⟩, hmem⟩ := moduleReset_spec .module (by decide) u
    rw [heq]
    generalize moduleReset .module u = w at *
    refine ⟨rfl, ?_, ?_, hcores, hbinds, hengines, hstop, fun _ => ⟨hctxs, hpol, hlinks, ?_⟩, fun _ => hmem.trans hdram,
      fun h => absurd h (by decide), fun h => absurd h (by decide)⟩
    · exact hpend.trans (congrArg ResetSt.pend hrst)
    · exact hasserted.trans (congrArg ResetSt.asserted hrst)
    · exact (rd_wr_ne _ _ _ _ _ _ (by decide)).trans hrunning
  · obtain ⟨v, u, -, -, heq⟩ := resetPin_quiet hquiet
    rw [heq]
    exact (rdi_wri_ne _ _ _ _ _ _ _ _ (fieldKey_ne_rstCause hfiled hreach)).trans ((rdi_modRst ..).trans (rdi_moduleReset hfiled hreach))
  · obtain ⟨u, hrst, heq⟩ := powerOnSource_quiet hquiet
    obtain ⟨⟨hcores, hbinds, hengines, hstop, hpend, hasserted, hctxs, hpol, hlinks, hrunning⟩, hdram, hretained⟩ := fullReset_spec u
    rw [heq]
    generalize fullReset u = w at *
    refine ⟨rfl, ?_, ?_, hcores, hbinds, hengines, hstop, fun _ => ⟨hctxs, hpol, hlinks, ?_⟩, fun h => absurd h (by decide),
      fun _ => hdram, fun _ => hretained⟩
    · exact hpend.trans (congrArg ResetSt.pend hrst)
    · exact hasserted.trans (congrArg ResetSt.asserted hrst)
    · exact (rd_wr_ne _ _ _ _ _ _ (by decide)).trans ((rd_wr_ne _ _ _ _ _ _ (by decide)).trans hrunning)
  · obtain ⟨u, -, heq⟩ := powerOnSource_quiet hquiet
    rw [heq]
    exact (rd_wr_ne _ _ _ _ _ _ (by decide)).trans (rd_wr_self ..)
  · obtain ⟨u, -, heq⟩ := powerOnSource_quiet hquiet
    rw [heq]
    exact rd_wr_self ..
  · obtain ⟨u, -, heq⟩ := powerOnSource_quiet hquiet
    rw [heq]
    exact (rdi_wri_ne _ _ _ _ _ _ _ _ haux).trans ((rdi_wri_ne _ _ _ _ _ _ _ _ hcause).trans ((rdi_modRst ..).trans (rdi_fullReset hfiled hreach)))

end Sys2Proof.Machine
end

section
/-!
SUPPORT. The header's registers under a write: which rows they have, what a write to each of them does, and the block
reset that SRST.REQ begins (R61 to R64). CERTIFICATE. Headers act and errors are recorded (O19).
-/

namespace Sys2Proof.Machine

/-! ### Writes that overwrite -/

section MapSet

variable {β : Type}

@[simp] theorem mapDel_mapDel (m : List (Nat × β)) (k : Nat) : mapDel (mapDel m k) k = mapDel m k := by
  induction m with
  | nil => rfl
  | cons e m ih =>
    obtain ⟨a, v⟩ := e
    by_cases ha : a = k <;> simp [mapDel, ha, ih]

theorem mapDel_mapIns (m : List (Nat × β)) (k : Nat) (v : β) : mapDel (mapIns m k v) k = mapDel m k := by
  induction m with
  | nil => simp [mapIns, mapDel]
  | cons e m ih =>
    obtain ⟨a, w⟩ := e
    by_cases hlt : k < a
    · simp [mapIns, hlt, mapDel]
    · by_cases ha : a = k <;> simp [mapIns, hlt, mapDel, ha, ih]

theorem mapSet_mapSet [DecidableEq β] (d : β) (m : List (Nat × β)) (k : Nat) (v w : β) :
    mapSet d (mapSet d m k v) k w = mapSet d m k w := by
  have hdel : mapDel (mapSet d m k v) k = mapDel m k := by
    unfold mapSet
    split
    · exact mapDel_mapDel m k
    · rw [mapDel_mapIns, mapDel_mapDel]
  unfold mapSet
  rw [show mapDel (if v = d then mapDel m k else mapIns (mapDel m k) k v) k = mapDel m k from hdel]

end MapSet

theorem wri_wri (p : Page) (f : RegField) (n v w : Nat) (s : State) : wri p f n w (wri p f n v s) = wri p f n w s := by
  simp only [wri, mapSet_mapSet]

/-! ### The header's page and rows -/

theorem headPage_headPage (p : Page) : headPage (headPage p) = headPage p := if_neg (headPage_cls p)

theorem rowsAt_srst {c : Cls} (hc : c ≠ .array) : rowsAt c 0x1C =
    [(R.HEADER_SRST_REQ, 0), (R.HEADER_SRST_IDLE, 0), (R.HEADER_SRST_SRST_REFUSED, 0)] := by
  cases c with
  | array => exact absurd rfl hc
  | _ => decide +kernel

theorem rowsAt_errInj {c : Cls} (hc : c ≠ .array) : rowsAt c 0x2C = [(R.HEADER_ERR_INJ_BIT, 0), (R.HEADER_ERR_INJ_ARM, 0)] := by
  cases c with
  | array => exact absurd rfl hc
  | _ => decide +kernel

theorem fieldShut_header (s : State) (p : Page) {f : RegField} (hf : f.cls = .header) (x : Nat) : fieldShut s p f x = false := by
  have hne {g : RegField} (hg : g.cls ≠ .header) : (f == g) = false := beq_false_of_ne fun h => hg (h ▸ hf)
  unfold fieldShut
  cases p.cls with
  | memc => simp [hne (g := R.MEMC_SCRUB_HOURS) (by decide)]
  | link => simp [hne (g := R.LINK_CTRL_MODE) (by decide)]
  | wlock => simp [hne (g := R.WLOCK_LOCK_CTRL_ACTIVE_REQ) (by decide)]
  | sched => simp [hne (g := R.SCHED_CTRL_SWAP_POLICY) (by decide)]
  | emb => simp [hne (g := R.EMB_MODULE_ID) (by decide)]
  | rng => simp [hne (g := R.RNG_EV_KEY) (by decide), hne (g := R.RNG_EV_CTR) (by decide)]
  | sample => simp [hne (g := R.SAMPLE_BUF_BASE) (by decide), hne (g := R.SAMPLE_BUF_LOG2N) (by decide)]
  | rst => simp [hne (g := R.RST_BOOT_FW_OK) (by decide)]
  | _ => rfl

theorem fieldAbsent_header (p : Page) {f : RegField} (hf : f.cls = .header) : fieldAbsent p f = false := by
  simp [fieldAbsent, hf]

/-! ### Writes with a trigger -/

/-- A write that is permitted, to neither PAGE_LOCK nor ERR_STAT: the fields, the value to be held, then the trigger. -/
theorem writeReg_hook (hook : Page → Nat → Nat → State → State) {p : Page} {b : Nat} {s : State}
    (hopen : debugReg p.cls b = true → debugOpen s = true) (hb : b ≠ 0x0C) (hb' : b ≠ 0x20) (v m : Nat) :
    writeReg hook p b v m s = hook p b (v &&& m)
      ((pendValue s p (rd s (headPage p) R.HEADER_PAGE_LOCK_LOCK == 1) b v m).elim id (holdPend p b)
        (writeFields p (rd s (headPage p) R.HEADER_PAGE_LOCK_LOCK == 1) b v m s)) := by
  have hpass : (debugReg p.cls b && !debugOpen s) = false := by
    cases hreg : debugReg p.cls b
    · rfl
    · simp [hopen hreg]
  simp only [writeReg, hpass, Bool.false_eq_true, if_false, hb, hb']
  cases pendValue s p (rd s (headPage p) R.HEADER_PAGE_LOCK_LOCK == 1) b v m <;> rfl

/-- Nothing of a register without buffered fields is held. -/
theorem pendValue_of_rows {p : Page} {b : Nat} (hrows : ∀ e ∈ rowsAt p.cls b, e.1.wb = false) (s : State) (locked : Bool) (v m : Nat) :
    pendValue s p locked b v m = none := by
  cases hw : pendValue s p locked b v m with
  | none => rfl
  | some w =>
    obtain ⟨e, he, hwb⟩ := buffered_of_pendValue hw
    rw [hrows e he] at hwb
    cases hwb

theorem writeReg_unbuffered (hook : Page → Nat → Nat → State → State) {p : Page} {b : Nat} {s : State}
    (hopen : debugReg p.cls b = true → debugOpen s = true) (hb : b ≠ 0x0C) (hb' : b ≠ 0x20)
    (hrows : ∀ e ∈ rowsAt p.cls b, e.1.wb = false) (v m : Nat) :
    writeReg hook p b v m s =
      hook p b (v &&& m) (writeFields p (rd s (headPage p) R.HEADER_PAGE_LOCK_LOCK == 1) b v m s) := by
  rw [writeReg_hook hook hopen hb hb', pendValue_of_rows hrows]
  rfl

/-- The registers of the header trigger nothing but SRST. -/
theorem topHook_header (p : Page) {b : Nat} (hb : b < 0x40) (hctrl : b ≠ 0x10) (hsrst : b ≠ 0x1C) (x : Nat) (s : State) :
    topHook p b x s = s := by
  have hs : ¬(b = 0x1C ∧ bitSet x 0 = true) := fun h => hsrst h.1
  have hbig (n : Nat) (hn : 0x40 ≤ n) : b ≠ n := by omega
  have hlow (n : Nat) (hn : 0x40 ≤ n) : ¬ n ≤ b := by omega
  rw [topHook, if_neg hs]
  cases p.cls with
  | perf => simp [perfHook, hctrl, hlow]
  | sample => simp [sampleHook, hctrl, hbig]
  | rst => simp [rstHook, hbig]
  | sec => simp [secHook, hbig]
  | wlock => simp [lockHook, hlow]
  | _ => simp [hbig]

/-! ### The header's commands -/

theorem access_of_reaches {p : Path} {g : Page} {s : State} (h : Reaches p g s) (f : State → State) :
    access p g f s = f (answered 0 0 s) := by
  obtain ⟨hup, hallows, hexists⟩ := h
  simp [access, hup, hallows, hexists, answered]

theorem debugReg_low {c : Cls} {b : Nat} (hb : b < 0x40) (hinj : b ≠ 0x2C) : debugReg c b = false := by
  have hcore : b ≠ 0x140 ∧ b ≠ 0x144 ∧ b ≠ 0x1050 := by omega
  simp [debugReg, hinj, hcore]

theorem writeReg_pageLock (g : Page) (s : State) :
    writeReg topHook (headPage g) 0x0C 1 (2 ^ 32 - 1) s = wr (headPage g) R.HEADER_PAGE_LOCK_LOCK 1 s := by
  simp [writeReg, debugReg_low, headPage_headPage, bitSet, bitOf]

theorem writeReg_errStat (g : Page) (m : Word) (s : State) :
    writeReg topHook (headPage g) 0x20 m.toNat (2 ^ 32 - 1) s = clearErrStat (headPage g) m.toNat s := by
  have hword : m.toNat &&& (2 ^ 32 - 1) = m.toNat := by rw [Nat.and_two_pow_sub_one_eq_mod, Nat.mod_eq_of_lt m.isLt]
  rw [writeReg, debugReg_low (by decide) (by decide), headPage_headPage, hword]
  rfl

/-- Clearing ERR_STAT changes fields of the header alone. -/
theorem clearErrStat_frame (h : Page) (v : Nat) (s : State) : OnlyRegs s (clearErrStat h v s) := by
  unfold clearErrStat
  extract_lets e m e' m' s1
  split <;> rfl

theorem rd_clearErrStat_err (g : Page) {v : Nat} {s : State} (hrange : rd s (headPage g) R.HEADER_ERR_STAT_ERR < 2 ^ 31) :
    rd (clearErrStat (headPage g) v s) (headPage g) R.HEADER_ERR_STAT_ERR =
      rd s (headPage g) R.HEADER_ERR_STAT_ERR - (rd s (headPage g) R.HEADER_ERR_STAT_ERR &&& v) := by
  have hwr {h : RegField} (hh : h ∈ R.HEADER_fields) (hne : R.HEADER_ERR_STAT_ERR ≠ h) (v : Nat) (u : State) :=
    rd_wr_header_ne g (g := R.HEADER_ERR_STAT_ERR) (by decide) hh hne v u
  have hself (x : Nat) (hx : x < 2 ^ 31) (u : State) :
      rd (wr (headPage g) R.HEADER_ERR_STAT_ERR x u) (headPage g) R.HEADER_ERR_STAT_ERR = x :=
    (rd_wr_self ..).trans (Nat.mod_eq_of_lt hx)
  unfold clearErrStat
  extract_lets e m e' m' s1
  have h1 : rd s1 (headPage g) R.HEADER_ERR_STAT_ERR = e' :=
    (hwr (h := R.HEADER_ERR_STAT_MULTI) (by decide) (by decide) _ _).trans (hself _ (by omega) _)
  split
  · exact (hwr (h := R.HEADER_ERR_FIRST_VALID) (by decide) (by decide) _ _).trans h1
  · exact h1

theorem rd_clearErrStat_first (h : Page) {v : Nat} {s : State}
    (herr : rd s h R.HEADER_ERR_STAT_ERR - (rd s h R.HEADER_ERR_STAT_ERR &&& v) = 0)
    (hmulti : bitSet v 31 = true ∨ rd s h R.HEADER_ERR_STAT_MULTI = 0) :
    rd (clearErrStat h v s) h R.HEADER_ERR_FIRST_VALID = 0 := by
  have hnone : (if bitSet v 31 then 0 else rd s h R.HEADER_ERR_STAT_MULTI) = 0 := by
    obtain hset | hzero := hmulti
    · simp [hset]
    · simp [hzero]
  simp only [clearErrStat, herr, hnone, and_self, if_true]
  exact rd_wr_self ..

/-! ### Error injection -/

theorem writeReg_errInj_shut {g : Page} {s : State} (hshut : debugOpen s = false) (v : Nat) :
    writeReg topHook (headPage g) 0x2C v (2 ^ 32 - 1) s = s := by
  simp [writeReg, debugReg, hshut]

theorem writeReg_errInj {g : Page} {s : State} (hopen : debugOpen s = true) (v : Nat) :
    writeReg topHook (headPage g) 0x2C v (2 ^ 32 - 1) s =
      writeFields (headPage g) (rd s (headPage g) R.HEADER_PAGE_LOCK_LOCK == 1) 0x2C v (2 ^ 32 - 1) s := by
  have hrows : ∀ e ∈ rowsAt (headPage g).cls 0x2C, e.1.wb = false := by
    rw [rowsAt_errInj (headPage_cls g)]
    decide
  rw [writeReg_unbuffered topHook (fun _ => hopen) (by decide) (by decide) hrows,
    topHook_header _ (by decide) (by decide) (by decide), headPage_headPage]

/-- A field of ERR_INJ on an unlocked page takes the bits written to it. -/
theorem rd_writeReg_errInj {g : Page} {s : State} (hopen : debugOpen s = true) (hlock : rd s (headPage g) R.HEADER_PAGE_LOCK_LOCK = 0)
    (v : Nat) {f : RegField} (hf : f = R.HEADER_ERR_INJ_BIT ∨ f = R.HEADER_ERR_INJ_ARM) :
    rd (writeReg topHook (headPage g) 0x2C v (2 ^ 32 - 1) s) (headPage g) f = bitsOf v f.lo f.width := by
  have hrow : (f, 0) ∈ rowsAt (headPage g).cls 0x2C := by
    rw [rowsAt_errInj (headPage_cls g)]
    simpa using hf
  obtain ⟨hcls, hfit, hkind⟩ : f.cls = .header ∧ f.lo + f.width ≤ 32 ∧ ∀ old, fieldWritten f false v old = bitsOf v f.lo f.width := by
    obtain rfl | rfl := hf
    · exact ⟨rfl, by decide, fun _ => rfl⟩
    · exact ⟨rfl, by decide, fun _ => rfl⟩
  rw [writeReg_errInj hopen, hlock, rd, rdi_writeFields _ _ v hrow hfit (fun u x => fieldShut_header u _ hcls x) (fieldAbsent_header _ hcls)]
  exact hkind _

theorem rd_errInj {g : Page} {s : State} (hopen : debugOpen s = true) (hlock : rd s (headPage g) R.HEADER_PAGE_LOCK_LOCK = 0) (v : Nat) :
    let t := writeReg topHook (headPage g) 0x2C v (2 ^ 32 - 1) s
    rd t (headPage g) R.HEADER_ERR_INJ_BIT = bitsOf v 0 5 ∧ rd t (headPage g) R.HEADER_ERR_INJ_ARM = bitOf v 8 :=
  ⟨rd_writeReg_errInj hopen hlock v (.inl rfl), rd_writeReg_errInj hopen hlock v (.inr rfl)⟩

/-! ### Block reset -/

theorem rd_wr_of_place {f g : RegField} (h : fieldPlace g 0 % 1048576 ≠ fieldPlace f 0 % 1048576) (p q : Page) (v : Nat) (s : State) :
    rd (wr p f v s) q g = rd s q g :=
  rd_wr_ne _ _ _ _ _ _ (ne_fieldKey_of_place (by rw [fieldKey_eq_place]; omega) p)

/-- Whether a block is idle does not depend on SRST_REFUSED. -/
theorem blockIdle_wr_refused (p q : Page) (v : Nat) (s : State) :
    blockIdle (wr p R.HEADER_SRST_SRST_REFUSED v s) q = blockIdle s q := by
  have hrd {g : RegField} (h : fieldPlace g 0 % 1048576 ≠ fieldPlace R.HEADER_SRST_SRST_REFUSED 0 % 1048576) (r : Page) :=
    rd_wr_of_place h p r v s
  unfold blockIdle
  cases q.cls with
  | link => simp only [linkIdle, hrd (g := R.LINK_STATUS_STATE) (by decide)]; rfl
  | sec => simp only [hrd (g := R.SEC_STATUS_BUSY) (by decide)]
  | rng => simp only [hrd (g := R.RNG_STATUS_EV_BUSY) (by decide)]
  | fuse => simp only [hrd (g := R.FUSE_PROG_STATUS_BUSY) (by decide)]
  | sched => simp only [hrd (g := R.SCHED_STATUS_RUNNING) (by decide), hrd (g := R.SCHED_CREATE_RESULT_BUSY) (by decide)]
  | ctx => simp only [ctxState, hrd (g := R.CTX_STATUS_STATE) (by decide)]; rfl
  | rst => simp only [hrd (g := R.RST_STATUS_COMEOUT) (by decide)]; rfl
  | _ => rfl

/-- A field that is read-only or write-only takes nothing. -/
theorem writeField_kept {fn : RegField × Nat} (hkind : fn.1.kind = .ro ∨ fn.1.kind = .wo) (p : Page) (locked : Bool) (v m : Nat) (s : State) :
    writeField p locked v m fn s = s := by
  unfold writeField
  dsimp only
  split
  · rfl
  · obtain h | h := hkind <;> rw [h]

/-- A request of SRST keeps SRST_REFUSED and then acts. -/
theorem writeReg_srst (g : Page) (s : State) :
    ∃ v, writeReg topHook (headPage g) 0x1C 1 (2 ^ 32 - 1) s = srstReq (headPage g) (wr (headPage g) R.HEADER_SRST_SRST_REFUSED v s) := by
  have hrows := rowsAt_srst (headPage_cls g)
  have hwb : ∀ e ∈ rowsAt (headPage g).cls 0x1C, e.1.wb = false := by
    rw [hrows]
    decide
  have hfields (locked : Bool) : ∃ v, writeFields (headPage g) locked 0x1C 1 (2 ^ 32 - 1) s = wr (headPage g) R.HEADER_SRST_SRST_REFUSED v s := by
    rw [writeFields, hrows, List.foldl_cons, writeField_kept (.inr rfl), List.foldl_cons, writeField_kept (.inl rfl), List.foldl_cons, List.foldl_nil, writeField, if_neg (by
      rw [fieldAbsent_header _ rfl]
      simp [R.HEADER_SRST_SRST_REFUSED, bitsOf])]
    exact ⟨_, rfl⟩
  have hdebug : debugReg (headPage g).cls 0x1C = true → debugOpen s = true := by simp [debugReg_low]
  obtain ⟨v, hv⟩ := hfields (rd s (headPage (headPage g)) R.HEADER_PAGE_LOCK_LOCK == 1)
  refine ⟨v, ?_⟩
  rw [writeReg_unbuffered topHook hdebug (by decide) (by decide) hwb, hv]
  rfl

/-- A block in reset: its page is listed and holds no pending value; the answer stays. -/
theorem enterReset_spec (p : Page) (s : State) :
    pageKey p ∈ (enterReset p s).inReset ∧ (∀ k, wkeyPage k = pageKey p → mapFind (enterReset p s).pend k = none) ∧
      (enterReset p s).reply = s.reply := by
  have hbase (u : State) (hin : u.inReset = pageKey p :: s.inReset.filter (· != pageKey p))
      (hpend : u.pend = mapDrop s.pend (fun k => wkeyPage k == pageKey p || (p.cls == .core && wkeyPage k == pageKey (pgArray p.inst))))
      (hreply : u.reply = s.reply) :
      pageKey p ∈ u.inReset ∧ (∀ k, wkeyPage k = pageKey p → mapFind u.pend k = none) ∧ u.reply = s.reply := by
    refine ⟨by simp [hin], fun k hk => ?_, hreply⟩
    rw [hpend, mapFind_drop]
    simp [hk]
  unfold enterReset
  extract_lets mine s1 s2
  cases p.cls with
  | link =>
    have hlink : SameButLinks s2 (dropLink p.inst s2) := dropLink_frame p.inst s2
    unfold SameButLinks at hlink
    exact hbase _ (congrArg State.inReset hlink :) (congrArg State.pend hlink :) (congrArg State.reply hlink :)
  | _ => exact hbase _ rfl rfl rfl

theorem srstReq_idle {g : Page} {s : State} (hcap : bitSet (capsOf (headPage g).cls) 2 = true) (hidle : blockIdle s (headPage g) = true) :
    srstReq (headPage g) s = enterReset (headPage g) s := by
  simp [srstReq, headPage_headPage, hcap, hidle]

theorem srstReq_refused {g : Page} {s : State} (h : bitSet (capsOf (headPage g).cls) 2 = false ∨ blockIdle s (headPage g) = false) :
    srstReq (headPage g) s = wr (headPage g) R.HEADER_SRST_SRST_REFUSED 1 s := by
  rw [srstReq, headPage_headPage]
  exact if_neg (by obtain h | h := h <;> simp [h])

/-- SRST.REQ on an idle block of a class with block reset puts it in reset, and is refused on every other. -/
theorem writeReg_srst_spec (g : Page) (s : State) :
    let u := writeReg topHook (headPage g) 0x1C 1 (2 ^ 32 - 1) s
    (bitSet (capsOf (headPage g).cls) 2 = true → blockIdle s (headPage g) = true →
      pageKey (headPage g) ∈ u.inReset ∧ (∀ k, wkeyPage k = pageKey (headPage g) → mapFind u.pend k = none) ∧ u.reply = s.reply) ∧
    (bitSet (capsOf (headPage g).cls) 2 = false ∨ blockIdle s (headPage g) = false →
      u = wr (headPage g) R.HEADER_SRST_SRST_REFUSED 1 s) := by
  obtain ⟨v, hv⟩ := writeReg_srst g s
  have hidle := blockIdle_wr_refused (headPage g) (headPage g) v s
  refine ⟨fun hcap h => ?_, fun h => ?_⟩
  · rw [hv, srstReq_idle hcap (hidle.trans h)]
    exact enterReset_spec ..
  · rw [hv, srstReq_refused (by rwa [hidle])]
    exact wri_wri ..

/-- The end of a block reset of a page other than a link's. -/
theorem blockResetDone_listed {g : Page} {s : State} (hlink : (headPage g).cls ≠ .link) (hin : pageKey (headPage g) ∈ s.inReset) :
    blockResetDone g s = { s with inReset := s.inReset.filter (· != pageKey (headPage g)) } := by
  simp [blockResetDone, hin, hlink]

/-! ### An error recorded -/

theorem setErr_masked {p : Page} {bit : Nat} {s : State} (hmask : bitSet (rd s (headPage p) R.HEADER_ERR_MASK_MASK) bit = true) (code : Nat) :
    setErr p bit code s = wr (headPage p) R.HEADER_ERR_STAT_ERR (rd s (headPage p) R.HEADER_ERR_STAT_ERR ||| 2 ^ bit) s := if_pos hmask

theorem setErr_further {p : Page} {bit : Nat} {s : State} (hmask : bitSet (rd s (headPage p) R.HEADER_ERR_MASK_MASK) bit = false)
    (hfirst : rd s (headPage p) R.HEADER_ERR_FIRST_VALID = 1) (code : Nat) :
    setErr p bit code s = wr (headPage p) R.HEADER_ERR_STAT_MULTI 1
      (wr (headPage p) R.HEADER_ERR_STAT_ERR (rd s (headPage p) R.HEADER_ERR_STAT_ERR ||| 2 ^ bit) s) := by
  simp only [setErr, hmask, hfirst, Bool.false_eq_true, if_false, if_true]

theorem setErr_first {p : Page} {bit : Nat} {s : State} (hmask : bitSet (rd s (headPage p) R.HEADER_ERR_MASK_MASK) bit = false)
    (hfirst : rd s (headPage p) R.HEADER_ERR_FIRST_VALID ≠ 1) (code : Nat) :
    setErr p bit code s = wr (headPage p) R.HEADER_ERR_FIRST_VALID 1 (wr (headPage p) R.HEADER_ERR_FIRST_BIT bit
      (wr (headPage p) R.HEADER_ERR_FIRST_CODE code
        (wr (headPage p) R.HEADER_ERR_STAT_ERR (rd s (headPage p) R.HEADER_ERR_STAT_ERR ||| 2 ^ bit) s))) := by
  simp only [setErr, hmask, hfirst, Bool.false_eq_true, if_false]

theorem setErr_onlyRegs (p : Page) (bit code : Nat) (s : State) : OnlyRegs s (setErr p bit code s) := by
  unfold setErr
  extract_lets h s1
  split
  · rfl
  · split <;> rfl

/-! ### The statement -/

/-- Settles O19: each register of the header by the lemma about a write to it, and an error by the three cases of `setErr`. -/
theorem headersActAndErrorsAreRecorded : Obligations.HeadersActAndErrorsAreRecorded := by
  unfold Obligations.HeadersActAndErrorsAreRecorded
  refine ⟨fun p g s hreach => ⟨?_, fun m => ?_, fun v => ?_, ?_, fun hlink hin => ?_⟩, fun p bit code s hbit hcode hrange => ?_⟩
  · exact congrArg Host.Outcome.next ((access_of_reaches hreach _).trans (writeReg_pageLock g _))
  · refine ⟨_, rfl, ?_⟩
    rw [access_of_reaches hreach, writeReg_errStat]
    refine ⟨rd_clearErrStat_err (s := answered 0 0 s) g, rd_clearErrStat_first (s := answered 0 0 s) (headPage g), ?_⟩
    have hframe := clearErrStat_frame (headPage g) m.toNat (answered 0 0 s)
    unfold OnlyRegs at hframe
    exact (congrArg (fun u => { u with reply := s.reply }) hframe :)
  · refine ⟨_, rfl, ?_⟩
    rw [access_of_reaches hreach]
    exact ⟨fun hopen hlock => rd_errInj (s := answered 0 0 s) hopen hlock v.toNat, fun hshut => writeReg_errInj_shut (s := answered 0 0 s) hshut v.toNat⟩
  · refine ⟨writeReg topHook (headPage g) 0x1C 1 (2 ^ 32 - 1) (answered 0 0 s), _, rfl, ?_, ?_⟩
    · rw [access_of_reaches hreach]
      exact comesTo_settled _
    · obtain ⟨hidle, hrefused⟩ := writeReg_srst_spec g (answered 0 0 s)
      refine ⟨fun hcap h => ?_, hrefused⟩
      obtain ⟨hin, hpend, -⟩ := hidle hcap h
      exact ⟨hin, hpend⟩
  · refine ⟨_, rfl, ?_⟩
    rw [blockResetDone_listed hlink hin]
    exact comesTo_settled _
  · have hwr {f h : RegField} (hf : f ∈ R.HEADER_fields) (hh : h ∈ R.HEADER_fields) (hne : f ≠ h) (v : Nat) (u : State) :
        rd (wr (headPage p) h v u) (headPage p) f = rd u (headPage p) f := rd_wr_header_ne p hf hh hne v u
    refine ⟨?_, fun hmask => ?_, fun hmask => ⟨fun hfirst => ?_, fun hfirst => ?_⟩, setErr_onlyRegs p bit code s⟩
    · rw [rd_setErr_err]
      exact Nat.mod_eq_of_lt (Nat.or_lt_two_pow hrange (Nat.pow_lt_pow_right (by decide) hbit))
    · rw [setErr_masked hmask]
      exact ⟨hwr (by decide) (by decide) (by decide) _ _, hwr (by decide) (by decide) (by decide) _ _,
        hwr (by decide) (by decide) (by decide) _ _⟩
    · rw [setErr_further hmask hfirst]
      refine ⟨rd_wr_self .., ?_, ?_⟩
      · rw [hwr (by decide) (by decide) (by decide), hwr (by decide) (by decide) (by decide)]
      · rw [hwr (by decide) (by decide) (by decide), hwr (by decide) (by decide) (by decide)]
    · rw [setErr_first hmask hfirst]
      refine ⟨rd_wr_self .., ?_, ?_, ?_⟩
      · rw [hwr (by decide) (by decide) (by decide), hwr (by decide) (by decide) (by decide), rd_wr_self]
        exact Nat.mod_eq_of_lt hcode
      · rw [hwr (by decide) (by decide) (by decide), rd_wr_self]
        exact Nat.mod_eq_of_lt (hbit.trans (by decide))
      · rw [hwr (by decide) (by decide) (by decide), hwr (by decide) (by decide) (by decide), hwr (by decide) (by decide) (by decide),
          hwr (by decide) (by decide) (by decide)]

end Sys2Proof.Machine
end

section
/-!
SUPPORT. A core's accesses to its own page, and accesses by device address (R56, R81, R466, R503). CERTIFICATE. Register
access (O8).
-/

namespace Sys2Proof.Machine

/-! ### What a store to the core's own page can change -/

/-- Whether a filed field lies on one of the two pages of core `c`'s slot. -/
def ownKey (c key : Nat) : Bool := keyPage key == pageKey (pgCore c) || keyPage key == pageKey (pgArray c)

/-- `t` is `s` but for the debug state of core `c` and the fields of its own pages, as far as cores and fields tell. -/
def StoredOwn (c : Nat) (s t : State) : Prop :=
  (∃ stop pass, coreOf t c = { coreOf s c with dbgStop := stop, bpPass := pass }) ∧ (∀ d, d ≠ c → coreOf t d = coreOf s d) ∧
    KeepsRegs (ownKey c) s t

theorem storedOwn_refl (c : Nat) (s : State) : StoredOwn c s s := ⟨⟨_, _, rfl⟩, fun _ _ => rfl, keepsRegs_refl _ _⟩

theorem StoredOwn.trans {c : Nat} {s t u : State} (h : StoredOwn c s t) (g : StoredOwn c t u) : StoredOwn c s u := by
  obtain ⟨⟨stop, pass, hcore⟩, hothers, hregs⟩ := h
  obtain ⟨⟨stop', pass', hcore'⟩, hothers', hregs'⟩ := g
  exact ⟨⟨stop', pass', by rw [hcore', hcore]⟩, fun d hd => (hothers' d hd).trans (hothers d hd), hregs.trans hregs'⟩

/-- A change that leaves cores and fields alone. -/
theorem storedOwn_of_eq (c : Nat) {s t : State} (hcores : t.cores = s.cores) (hregs : t.regs = s.regs) : StoredOwn c s t := by
  refine ⟨⟨(coreOf s c).dbgStop, (coreOf s c).bpPass, ?_⟩, fun d _ => ?_, fun key _ => by rw [hregs]⟩
  · rw [coreOf, hcores]
    rfl
  · rw [coreOf, hcores]
    rfl

/-- One of the pages of a core's slot. -/
def OwnPage (c : Nat) (p : Page) : Prop := p = pgCore c ∨ p = pgArray c

theorem ownPage_own (c o : Nat) : OwnPage c (ownPage c o) := by
  unfold ownPage
  split
  · exact .inr rfl
  · exact .inl rfl

theorem OwnPage.head {c : Nat} {p : Page} (h : OwnPage c p) : headPage p = pgCore c := by
  obtain rfl | rfl := h <;> rfl

theorem OwnPage.owner {c : Nat} {p : Page} (h : OwnPage c p) (o : Nat) : OwnPage c (ownerPage p o) := by
  unfold ownerPage
  split
  · obtain rfl | rfl := h <;> exact .inl rfl
  · exact h

theorem OwnPage.key {c : Nat} {p : Page} (h : OwnPage c p) {b n : Nat} {f : RegField} {cls : Cls} (hf : (f, n) ∈ rowsAt cls b) :
    ownKey c (fieldKey p f n) = true := by
  rw [ownKey, keyPage_row p hf]
  obtain rfl | rfl := h <;> simp

theorem storedOwn_wri {c : Nat} {p : Page} (hp : OwnPage c p) {b n : Nat} {f : RegField} {cls : Cls} (hf : (f, n) ∈ rowsAt cls b)
    (v : Nat) (s : State) : StoredOwn c s (wri p f n v s) :=
  ⟨⟨_, _, rfl⟩, fun _ _ => rfl, keepsRegs_wri (hp.key hf) v s⟩

theorem storedOwn_wr_head {c : Nat} {f : RegField} (hf : f ∈ R.HEADER_fields) (v : Nat) (s : State) :
    StoredOwn c s (wr (pgCore c) f v s) :=
  storedOwn_wri (.inl rfl) (rowsAt_header (c := .core) (by decide) hf) v s

theorem storedOwn_modCore {c : Nat} {f : Core → Core} (hf : ∀ k, ∃ stop pass, f k = { k with dbgStop := stop, bpPass := pass })
    (s : State) : StoredOwn c s (modCore c f s) := by
  obtain ⟨stop, pass, h⟩ := hf (coreOf s c)
  exact ⟨⟨stop, pass, (coreOf_modCore ..).trans h⟩, fun d hd => coreOf_setCore_ne _ _ _ _ hd, keepsRegs_refl _ _⟩

theorem dbgStop_row : (R.CORE_DBG_CTRL_STOP, 0) ∈ rowsAt .core 0x140 := by decide +kernel

theorem storedOwn_dbgCtrl (c x : Nat) (s : State) : StoredOwn c s (dbgCtrl c x s) := by
  unfold dbgCtrl
  split
  · exact (storedOwn_wri (.inl rfl) dbgStop_row 0 s).trans (storedOwn_modCore (fun k => ⟨false, true, rfl⟩) _)
  · exact storedOwn_modCore (fun k => ⟨_, k.bpPass, rfl⟩) s

theorem storedOwn_ownHook (c : Nat) (p : Page) (b x : Nat) (s : State) : StoredOwn c s (ownHook c p b x s) := by
  unfold ownHook
  split
  · exact storedOwn_wr_head (by decide) 1 s
  · split
    · exact storedOwn_dbgCtrl c x s
    · exact storedOwn_refl c s

theorem storedOwn_clearErrStat (c v : Nat) (s : State) : StoredOwn c s (clearErrStat (pgCore c) v s) := by
  unfold clearErrStat
  extract_lets e m e' m' s1
  have h1 : StoredOwn c s s1 := (storedOwn_wr_head (f := R.HEADER_ERR_STAT_ERR) (by decide) e' s).trans (storedOwn_wr_head (by decide) m' _)
  split
  · exact h1.trans (storedOwn_wr_head (by decide) 0 s1)
  · exact h1

theorem storedOwn_writeFields {c : Nat} {p : Page} (hp : OwnPage c p) (locked : Bool) (b v m : Nat) (s : State) :
    StoredOwn c s (writeFields p locked b v m s) := by
  have hstep : ∀ e ∈ rowsAt p.cls b, ∀ u, StoredOwn c u (writeField p locked v m e u) := fun e he u => by
    obtain h | ⟨x, h⟩ := writeField_cases p locked v m e u
    · rw [h]
      exact storedOwn_refl c u
    · rw [h]
      exact storedOwn_wri hp he x u
  unfold writeFields
  generalize rowsAt p.cls b = l at hstep
  induction l generalizing s with
  | nil => exact storedOwn_refl c s
  | cons e l ih => exact (hstep e (by simp) s).trans (ih _ fun d hd => hstep d (by simp [hd]))

theorem storedOwn_holdPend {c : Nat} {p : Page} (hp : OwnPage c p) (b v : Nat) (s : State) : StoredOwn c s (holdPend p b v s) := by
  unfold holdPend
  extract_lets s1
  have h1 : StoredOwn c s s1 := by
    unfold s1
    split
    · rw [hp.head]
      exact storedOwn_wr_head (by decide) 1 s
    · exact storedOwn_refl c s
  exact h1.trans (storedOwn_of_eq c rfl rfl)

theorem storedOwn_writeReg {c : Nat} {p : Page} (hp : OwnPage c p) (b v m : Nat) (s : State) :
    StoredOwn c s (writeReg (ownHook c) p b v m s) := by
  unfold writeReg
  extract_lets h x locked s1 s2
  have h1 : StoredOwn c s s1 := storedOwn_writeFields hp locked b v m s
  have h2 : StoredOwn c s s2 := by
    unfold s2
    split
    · exact h1.trans (storedOwn_holdPend hp b _ s1)
    · exact h1
  have hh : h = pgCore c := hp.head
  split
  · exact storedOwn_refl c s
  · split
    · split
      · rw [hh]
        exact storedOwn_wr_head (by decide) 1 s
      · exact storedOwn_refl c s
    · split
      · rw [hh]
        exact storedOwn_clearErrStat c x s
      · exact h2.trans (storedOwn_ownHook c p b x s2)

theorem storedOwn_writeOff {c : Nat} {p : Page} (hp : OwnPage c p) (path o v : Nat) (s : State) :
    StoredOwn c s (writeOff (ownHook c) path p o v s) := by
  unfold writeOff
  extract_lets q w b
  have hq : OwnPage c q := hp.owner o
  split
  · exact storedOwn_writeReg hq ..
  · split
    · exact storedOwn_refl c s
    · extract_lets n
      split
      · exact storedOwn_writeReg hq ..
      · split
        · exact storedOwn_of_eq c rfl rfl
        · refine StoredOwn.trans ?_ (storedOwn_writeReg hq ..)
          exact storedOwn_of_eq c rfl rfl

theorem storedOwn_writePage {c : Nat} {p : Page} (hp : OwnPage c p) (path o width v : Nat) (s : State) :
    StoredOwn c s (writePage (ownHook c) path p o width v s) := by
  unfold writePage
  extract_lets s1
  have h1 : StoredOwn c s s1 := storedOwn_writeOff hp ..
  split
  · exact h1.trans (storedOwn_writeOff hp ..)
  · exact h1

/-! ### LD and ST with SPACE 1 -/

theorem retire_spec (c : Nat) (f : Core → Core) (s : State) :
    coreOf (retire c f s) c = stepPc (f (noWaits (coreOf s c))) ∧ (∀ d, d ≠ c → coreOf (retire c f s) d = coreOf s d) ∧
      KeepsRegs (isCounter (pgCore c)) s (retire c f s) := by
  obtain ⟨⟨-, hothers, hregs⟩, hcore⟩ :=
    countCore_alone c 1 1 s (Sys2Proof.Machine.advance c f s) (setCore_alone c _ s)
  exact ⟨hcore.trans (coreOf_modCore ..), hothers, hregs⟩

theorem counter_rows : ∀ i < 32, (R.CORE_EVT_CNT, i) ∈ rowsAt .core (R.CORE_EVT_CNT.off + i * R.CORE_EVT_CNT.stride) := by
  decide +kernel

theorem ownKey_of_isCounter {c key : Nat} (h : isCounter (pgCore c) key = true) : ownKey c key = true := by
  obtain ⟨i, hi, hkey⟩ : ∃ i < 32, key = fieldKey (pgCore c) R.CORE_EVT_CNT i := by simpa [isCounter, counterRows, pgCore] using h
  rw [hkey]
  exact OwnPage.key (.inl rfl) (counter_rows i hi)

/-- What the words of LD and ST with SPACE 1 and an aligned offset of the page have in common. -/
theorem ownAccess_runs {c : Nat} {w : DWord} {s : State} {a : Nat} (harm : rd s (pgCore c) R.HEADER_ERR_INJ_ARM = 0) (ha : a < 0x4000)
    (hshape : fld w 25 2 = 2 ∧ a % 4 = 0 ∨ fld w 25 2 = 3 ∧ a % 8 = 0) (ok : State → State) :
    ownAccess c w (a : Int) ok s = ok s := by
  have hin : decide ((a : Int) < 0 ∨ (0x4000 : Int) ≤ a) = false := decide_eq_false (by omega)
  have hok : accessShape a (ldStBytes w) = true := by
    obtain ⟨hn, hmod⟩ | ⟨hn, hmod⟩ := hshape <;> simp [accessShape, ldStBytes, hn, hmod]
  rw [ownAccess, hin, coreCheck_quiet _ _ _ _ _ harm]
  exact if_pos hok

theorem ldSt_legal {op : Nat} {w : DWord} (hag : fld w 22 3 ≠ 7) (hw : Spelled 3 op [(0, 8), (12, 13), (25, 4), (29, 19)] w) :
    ldStIllegal w = false := by
  simp [ldStIllegal, hw.2.2, hag]

theorem xget_xset_self {i : Nat} (hi : i ≠ 0) (v : DWord) (k : Core) : xget (xset i v k) i = v := by
  simp [xget, xset, hi]

/-- The store's debug state does not enter what the sequencer does. -/
theorem agUse_seq (ag : Nat) (k : Core) (stop pass : Bool) :
    (stepPc (agUse ag (noWaits { k with dbgStop := stop, bpPass := pass }))).seq = (stepPc (agUse ag (noWaits k))).seq := by
  unfold agUse
  split <;> rfl

section OwnWords

variable {c : CoreIx} {w : DWord} {s : State} {a : Nat} (hissues : Issues c s) (hag : fld w 22 3 ≠ 7) (hspace : fld w 28 1 = 1)
  (haddr : startAddr (coreOf s c) (fld w 22 3) (fld w 17 5) + signedOf 19 (fld w 29 19) = (a : Int)) (ha : a < 0x4000)
  (hshape : fld w 25 2 = 2 ∧ a % 4 = 0 ∨ fld w 25 2 = 3 ∧ a % 8 = 0)

include haddr

theorem ldStAddr_issued : ldStAddr (coreOf (modCore c (fun k => { k with bpPass := false }) s) c) w = (a : Int) := by
  rw [coreOf_modCore]
  exact haddr

include hissues hag hspace ha hshape

theorem execLd_own (hw : Spelled 3 12 [(0, 8), (12, 13), (25, 4), (29, 19)] w) :
    execLd c w s = .next (
      let r := readPage 2 (ownPage c a) a (ldStBytes w) (modCore c (fun k => { k with bpPass := false }) s)
      retire c (fun k => xset (fld w 12 5) (ldExtend w r.1) (agUse (fld w 22 3) k)) r.2) := by
  obtain ⟨hcls, hop, hfields⟩ := id hw
  have harm : rd (modCore c (fun k => { k with bpPass := false }) s) (pgCore c) R.HEADER_ERR_INJ_ARM = 0 := by
    obtain ⟨-, -, -, -, harm⟩ := hissues
    exact harm
  have hreg : ¬ fld w 28 1 = 0 := by omega
  rw [execLd, coreCmd, hcls, hop, if_pos (by decide), issue_runs c w _ s hissues, doLd, ldSt_legal hag hw, coreCheck_quiet _ _ _ _ _ harm]
  dsimp only
  rw [if_neg hreg, ldStAddr_issued haddr, ownAccess_runs harm ha hshape]
  rfl

theorem execSt_own (hw : Spelled 3 13 [(0, 8), (12, 13), (25, 4), (29, 19)] w) :
    ∃ v, execSt c w s = .next (retire c (agUse (fld w 22 3))
      (writePage (ownHook c) 2 (ownPage c a) a (ldStBytes w) v (modCore c (fun k => { k with bpPass := false }) s))) := by
  obtain ⟨hcls, hop, hfields⟩ := id hw
  have harm : rd (modCore c (fun k => { k with bpPass := false }) s) (pgCore c) R.HEADER_ERR_INJ_ARM = 0 := by
    obtain ⟨-, -, -, -, harm⟩ := hissues
    exact harm
  have hreg : ¬ fld w 28 1 = 0 := by omega
  rw [execSt, coreCmd, hcls, hop, if_pos (by decide), issue_runs c w _ s hissues, doSt, ldSt_legal hag hw, coreCheck_quiet _ _ _ _ _ harm]
  dsimp only
  rw [if_neg hreg, ldStAddr_issued haddr, ownAccess_runs harm ha hshape]
  exact ⟨_, rfl⟩

end OwnWords

/-! ### Accesses by device address -/

theorem regionOf_regs {o : Nat} (h : o < 0x1000_0000) : regionOf (2 * 2 ^ 40 + o) = (.regs, o) := by
  have hmod : (2 * 2 ^ 40 + o) % 2 ^ 40 = o := by omega
  have hdiv : (2 * 2 ^ 40 + o) / 2 ^ 40 = 2 := by omega
  simp only [regionOf, hmod, hdiv, h, if_true]

section DeviceAddress

variable {p : Path} {o width : Nat} {s : State} (ho : o < 0x1000_0000) (hup : pathUp p s = true)

include ho hup

theorem regRead_reserved (hslot : pageAt o = none) : regRead p (2 * 2 ^ 40 + o) width s = answered 0 0x0002 s := by
  simp only [regRead, hup, Bool.not_true, Bool.false_eq_true, if_false, regionOf_regs ho, hslot]
  rfl

variable {g : Page} {off : Nat} (hslot : pageAt o = some (g, off))

include hslot

theorem regRead_closed (hclosed : pathAllows p g s = false) : regRead p (2 * 2 ^ 40 + o) width s = answered 0 0x0002 s := by
  simp only [regRead, hup, Bool.not_true, Bool.false_eq_true, if_false, regionOf_regs ho, hslot, hclosed, Bool.not_false, if_true]
  rfl

variable (hallows : pathAllows p g s = true)

include hallows

theorem regRead_shape (hshape : accessShape (2 * 2 ^ 40 + o) width = false) :
    regRead p (2 * 2 ^ 40 + o) width s = answered 0 0x0001 s := by
  simp only [regRead, hup, Bool.not_true, Bool.false_eq_true, if_false, regionOf_regs ho, hslot, hallows, hshape, Bool.not_false, if_true]
  rfl

variable (hshape : accessShape (2 * 2 ^ 40 + o) width = true)

include hshape

theorem regRead_page : regRead p (2 * 2 ^ 40 + o) width s =
    { (readPage (pathCode p) g off width s).2 with reply := ⟨(readPage (pathCode p) g off width s).1, 0, false⟩ } := by
  simp only [regRead, hup, Bool.not_true, Bool.false_eq_true, if_false, regionOf_regs ho, hslot, hallows, hshape]
  rfl

theorem regWrite_page (hcarried : pathIgnores p g off = false) (v : Nat) : regWrite p (2 * 2 ^ 40 + o) width v s =
    writePage topHook (pathCode p) g off width v (answered 0 0 s) := by
  simp only [regWrite, hup, Bool.not_true, Bool.false_eq_true, if_false, regionOf_regs ho, hslot, hallows, hshape, hcarried]
  rfl

end DeviceAddress

/-! ### The I3C target -/

theorem readRegI3c_page {a : Nat} {s : State} {g : Page} {off : Nat} (hslot : pageAt a = some (g, off)) (hon : mainOn s = true)
    (hserved : i3cServed s = true) (halign : a % 4 = 0) (hmodule : 0x0C00_0000 ≤ a) (hreads : i3cReads g = true) :
    readRegI3c a s = { (readOff 1 g off s).2 with i3cRead := bytesOf 4 (readOff 1 g off s).1 } := by
  simp only [readRegI3c, hon, hserved, hslot, halign, hmodule, hreads, Bool.not_true, Bool.false_eq_true, if_false, and_self, if_true]
  rfl

theorem writeRegI3c_page {a : Nat} {s : State} {g : Page} {off : Nat} (hslot : pageAt a = some (g, off)) (hserved : i3cServed s = true)
    (halign : a % 4 = 0) (hpage : g.cls = .pwr ∨ g.cls = .aon) (v : Nat) : writeRegI3c a v s = writeOff topHook 1 g off (v % 2 ^ 32) s := by
  simp only [writeRegI3c, hserved, hslot, halign, hpage, Bool.not_true, Bool.false_eq_true, if_false, and_self, if_true]

/-! ### The statement -/

/-- Settles O8: a store of a core keeps to its own pages (`storedOwn_writePage`), and an access by device address is the
access to the page's words or an answer alone. -/
theorem registerAccess : Obligations.RegisterAccess := by
  unfold Obligations.RegisterAccess
  refine ⟨fun c w s a hissues hag hspace haddr ha hshape => ⟨fun hw => ?_, fun hw => ?_⟩,
    fun p o width v s g off ho hslot hup => ⟨fun hallows hshape => ⟨?_, ?_, fun hw => ?_, fun hcarried => ⟨?_, ?_, fun hw bit => ?_⟩⟩,
      fun hclosed => ?_, fun hallows hshape => ?_⟩,
    fun p o width s ho hslot hup => congrArg _ (regRead_reserved ho hup hslot),
    fun a v s g off hslot hon hserved halign => ⟨fun hmodule hreads => ?_, fun hpage => ?_⟩⟩
  · refine ⟨_, execLd_own hissues hag hspace haddr ha hshape hw, fun hxd => ?_⟩
    rw [(retire_spec ..).1]
    exact xget_xset_self hxd _ _
  · obtain ⟨v, hv⟩ := execSt_own hissues hag hspace haddr ha hshape hw
    obtain ⟨⟨stop, pass, hcore⟩, hothers, hregs⟩ := storedOwn_writePage (ownPage_own c a) 2 a (ldStBytes w) v
      (modCore c (fun k => { k with bpPass := false }) s)
    obtain ⟨hcore', hothers', hregs'⟩ := retire_spec c (agUse (fld w 22 3))
      (writePage (ownHook c) 2 (ownPage c a) a (ldStBytes w) v (modCore c (fun k => { k with bpPass := false }) s))
    refine ⟨_, hv, ?_, fun d hd => ?_, fun key hcorePage harrayPage => ?_⟩
    · rw [hcore', hcore, agUse_seq, coreOf_modCore]
      rfl
    · exact (hothers' d hd).trans ((hothers d hd).trans (coreOf_setCore_ne _ _ _ _ hd))
    · have hkey : ownKey c key = false := by simp [ownKey, hcorePage, harrayPage]
      have hcount : isCounter (pgCore c) key = false := by
        cases hon : isCounter (pgCore c) key with
        | false => rfl
        | true => rw [ownKey_of_isCounter hon] at hkey; cases hkey
      exact (hregs' key hcount).trans (hregs key hkey)
  · exact congrArg Host.Outcome.next (regRead_page ho hup hslot hallows hshape)
  · exact congrArg Host.Outcome.next (regRead_page ho hup hslot hallows hshape)
  · subst hw
    refine ⟨settled (regRead p (2 * 2 ^ 40 + o) 4 s), rfl, ?_⟩
    rw [regRead_page ho hup hslot hallows hshape]
    exact comesTo_settled _
  · exact ⟨settled _, congrArg (fun u => Host.Outcome.next (settled u)) (regWrite_page ho hup hslot hallows hshape hcarried v), comesTo_settled _⟩
  · exact ⟨settled _, congrArg (fun u => Host.Outcome.next (settled u)) (regWrite_page ho hup hslot hallows hshape hcarried v), comesTo_settled _⟩
  · subst hw
    exact ⟨settled _, congrArg (fun u => Host.Outcome.next (settled u)) (regWrite_page ho hup hslot hallows hshape hcarried _), comesTo_settled _⟩
  · exact congrArg Host.Outcome.next (regRead_closed ho hup hslot hclosed)
  · exact congrArg Host.Outcome.next (regRead_shape ho hup hslot hallows hshape)
  · exact congrArg Host.Outcome.next (readRegI3c_page hslot hon hserved halign hmodule hreads)
  · exact congrArg Host.Outcome.next (writeRegI3c_page hslot hserved halign hpage v)

end Sys2Proof.Machine
end

section
/-!
SUPPORT. What the parts of a control window that follow its loop leave of die 0's set-point (R384 to R393).
-/

namespace Sys2Proof.Machine

/-- A field filed elsewhere in its page than die 0's set-point. -/
def offPoint (f : RegField) (n : Nat) : Bool := fieldPlace f n % 1048576 != fieldPlace R.PWR_VSET 0

theorem vOf_0_wri {f : RegField} {n : Nat} (h : offPoint f n = true) (p : Page) (v : Nat) (s : State) :
    vOf (wri p f n v s) 0 = vOf s 0 := by
  refine rdi_wri_ne _ _ _ _ _ _ _ _ ?_
  rw [offPoint, bne_iff_ne] at h
  refine ne_fieldKey_of_place ?_ p
  rw [fieldKey_eq_place, Nat.mul_add_mod_self_right, Nat.mod_eq_of_lt (by decide)]
  exact h.symm

theorem vOf_0_modPower (f : PowerSt → PowerSt) (s : State) : vOf (modPower f s) 0 = vOf s 0 := rfl

theorem vOf_0_foldUpTo {n : Nat} {f : Nat → State → State} (h : ∀ i < n, ∀ u, vOf (f i u) 0 = vOf u 0) (s : State) :
    vOf (foldUpTo n f s) 0 = vOf s 0 :=
  foldUpTo_induct (fun u => vOf u 0 = vOf s 0) n f (fun i u hi hu => (h i hi u).trans hu) s rfl

theorem vOf_0_foldl {α : Type} {f : State → α → State} (h : ∀ u a, vOf (f u a) 0 = vOf u 0) (l : List α) (s : State) :
    vOf (l.foldl f s) 0 = vOf s 0 :=
  foldl_keeps (fun u => vOf u 0 = vOf s 0) f (fun u a hu => (h u a).trans hu) l s rfl

theorem vOf_0_recordErr (p : Page) (bit : Nat) (ctx : Option Nat) (s : State) : vOf (recordErr p bit ctx s) 0 = vOf s 0 :=
  rdi_of_keepsRegs (recordErr_events p bit ctx s).1 (by decide)

theorem vOf_0_checked {p : Page} {bit : Nat} {found : Bool} {bad ok : State → State} (hbad : ∀ u, vOf (bad u) 0 = vOf u 0)
    (hok : ∀ u, vOf (ok u) 0 = vOf u 0) (s : State) : vOf (checked p bit found bad ok s) 0 = vOf s 0 := by
  have hcheck : vOf (checkFor p bit found s).2 0 = vOf s 0 := by
    unfold checkFor
    split
    · exact vOf_0_wri (by decide) ..
    · rfl
  unfold checked
  dsimp only
  split
  · exact (hbad _).trans hcheck
  · exact (hok _).trans hcheck

theorem vOf_0_countE_perf (e src d : Nat) (c : Option Nat) (s : State) : vOf (countE (pgPerf 4) e src d c s) 0 = vOf s 0 := by
  have hkey := (by decide +kernel : ∀ i < 16, fieldKey pgPwr R.PWR_VSET 0 ≠ fieldKey (pgPerf 4) R.PERF_EVT_CNT i)
  unfold countE
  split
  · rfl
  · rename_i sel cnt n hrows
    obtain ⟨-, rfl, rfl⟩ : R.PERF_EVT_SEL = sel ∧ R.PERF_EVT_CNT = cnt ∧ 16 = n := by simpa [counterRows, pgPerf] using hrows
    split
    · rfl
    · refine vOf_0_foldUpTo (fun i hi u => ?_) s
      dsimp only
      split
      · exact rdi_wri_ne _ _ _ _ _ _ _ _ (hkey i hi)
      · rfl

theorem vOf_0_throttleEvent (marks : List Nat) {r : Nat} (hr : r < 8) (s : State) : vOf (throttleEvent marks r s) 0 = vOf s 0 := by
  have hwr {f : RegField} (hf : f ∈ throttleFields) (v : Nat) (u : State) : vOf (wri pgPwr f r v u) 0 = vOf u 0 :=
    vOf_0_wri ((by decide : ∀ f ∈ throttleFields, ∀ r < 8, offPoint f r = true) f hf r hr) ..
  have hdur : vOf (bumpi pgPwr R.PWR_THR_DUR r 5000 s) 0 = vOf s 0 := hwr (by decide) _ s
  unfold throttleEvent
  dsimp only
  split
  · split
    · rw [hwr (by decide), hwr (by decide), hdur]
    · rw [hwr (by decide), hwr (by decide), hwr (by decide), hwr (by decide), hwr (by decide), hdur]
  · split
    · rw [hwr (by decide), hwr (by decide)]
    · rfl

theorem vOf_0_throttle (marks : List Nat) (s : State) : vOf (throttle marks s) 0 = vOf s 0 := by
  have hmarks : vOf (wr pgPwr R.PWR_THR_ACTIVE (marks.foldl (fun a r => a + 2 ^ r) 0) (foldUpTo 8 (throttleEvent marks) s)) 0 =
      vOf s 0 := (vOf_0_wri (by decide) ..).trans (vOf_0_foldUpTo (fun r hr u => vOf_0_throttleEvent marks hr u) s)
  unfold throttle
  dsimp only
  split
  · exact hmarks
  · exact (vOf_0_countE_perf ..).trans hmarks

theorem vOf_0_raiseK (r : Nat) (s : State) : vOf (raiseK r s) 0 = vOf s 0 := vOf_0_wri (f := R.SLUICE_K) (n := 0) (by decide) ..

theorem vOf_0_suspect (d : Nat) (s : State) : vOf (recordErr pgPwr 0 none (wr pgPwr R.PWR_STATUS_CAP_MODE 1
    (modPower (fun p => { p with suspect := p.suspect ++ [d] }) s))) 0 = vOf s 0 :=
  (vOf_0_recordErr ..).trans (vOf_0_wri (f := R.PWR_STATUS_CAP_MODE) (n := 0) (by decide) ..)

theorem vOf_0_divergeDie (d : Nat) (s : State) : vOf (divergeDie d s) 0 = vOf s 0 := by
  unfold divergeDie
  extract_lets est meas below above lo hi s1 s2 noted s3 s4
  have h2 : vOf s2 0 = vOf s1 0 := by
    unfold s2
    split
    · rfl
    · exact vOf_0_checked (vOf_0_suspect d) (fun _ => rfl) s1
  have hnoted : vOf noted 0 = vOf s2 0 := vOf_0_foldl (fun t r => vOf_0_recordErr (pgSluice r) 0 none t) _ s2
  have h3 : vOf s3 0 = vOf s2 0 := by
    unfold s3
    split
    · exact hnoted
    · rfl
  have h4 : vOf s4 0 = vOf s3 0 := by
    unfold s4
    split
    · rfl
    · exact vOf_0_modPower ..
  have h1 : vOf s1 0 = vOf s 0 := vOf_0_modPower ..
  exact (vOf_0_foldl (fun u r => vOf_0_raiseK r u) _ s4).trans (h4.trans (h3.trans (h2.trans h1)))

theorem vOf_0_addEnergy (key nj : Nat) (s : State) : vOf (addEnergy key nj s) 0 = vOf s 0 := by
  unfold addEnergy
  dsimp only
  split
  · exact vOf_0_wri (by decide) ..
  · split <;> exact vOf_0_wri (by decide) ..

theorem vOf_0_divideEnergy (sh : List (Nat × Option CtxIx × Nat)) (s : State) : vOf (divideEnergy sh s) 0 = vOf s 0 :=
  (vOf_0_addEnergy ..).trans ((vOf_0_foldl (fun u _ => vOf_0_addEnergy _ _ u) _ _).trans (vOf_0_addEnergy ..))

theorem vOf_0_trimStep (r : Nat) (s : State) : vOf (trimStep r s) 0 = vOf s 0 := by
  unfold trimStep
  dsimp only
  split
  · exact vOf_0_recordErr ..
  · exact (vOf_0_wri (by decide) ..).trans (vOf_0_wri (by decide) ..)

theorem vOf_0_governor (slack : List Nat) (s : State) : vOf (governor slack s) 0 = vOf s 0 := by
  refine vOf_0_foldUpTo (fun r _ t => ?_) s
  extract_lets low t1 n put
  have hlow : vOf t1 0 = vOf t 0 := vOf_0_wri (by decide) ..
  have hput (v : Nat) (u : State) : vOf (put v u) 0 = vOf u 0 := rfl
  clear_value put t1 n
  split
  · exact (vOf_0_trimStep r _).trans ((hput 0 t1).trans hlow)
  · exact (hput n t1).trans hlow

/-- A window leaves die 0 where its loop put it. -/
theorem vOf_0_controlWindow (m : Meter) {s : State} (hon : powerOn s = true) :
    let c := ceilings (windowReports (windowMeters m (windowBoundary s)))
    vOf (controlWindow m s) 0 = vOf (windowLoop (pCtl c) c).1 0 := by
  rw [controlWindow, if_neg (by simp [hon])]
  extract_lets s1 p x s2
  have h2 : vOf s2 0 = vOf x.1 0 := vOf_0_throttle ..
  have hdiverge : vOf (if railsFree s2 then foldUpTo 4 divergeDie s2 else s2) 0 = vOf s2 0 := by
    split
    · exact vOf_0_foldUpTo (fun d _ u => vOf_0_divergeDie d u) s2
    · rfl
  calc vOf (windowNext (governor m.slack (divideEnergy m.shares (if railsFree s2 then foldUpTo 4 divergeDie s2 else s2)))) 0
      = vOf (if railsFree s2 then foldUpTo 4 divergeDie s2 else s2) 0 := (vOf_0_modPower ..).trans ((vOf_0_governor ..).trans (vOf_0_divideEnergy ..))
    _ = vOf x.1 0 := hdiverge.trans h2

end Sys2Proof.Machine
end

section
/-!
SUPPORT. P_ctl as a function of region 0's ledger (R379, R383).
-/

namespace Sys2Proof.Machine

/-- Fractions of one denominator add by their numerators. -/
theorem add_same (x y : Int) (d : Nat) : (Frac.mk x d).add ⟨y, d⟩ = ⟨x + y, d⟩ := if_pos rfl

theorem zero_add_frac (y : Int) (d : Nat) : (Frac.ofInt 0).add ⟨y, d⟩ = ⟨y, d⟩ := by
  unfold Frac.add Frac.ofInt
  split
  · rename_i h
    rw [← show (1 : Nat) = d from h, Int.zero_add]
  · simp

theorem foldl_add_same {l : List Nat} {p : Nat → Frac} {g : Nat → Int} {d : Nat} (hp : ∀ r ∈ l, p r = ⟨g r, d⟩) (x : Int) :
    l.foldl (fun (a : Frac) r => a.add (p r)) ⟨x, d⟩ = ⟨x + (l.map g).sum, d⟩ := by
  induction l generalizing x with
  | nil => simp
  | cons r l ih =>
    rw [List.foldl_cons, hp r (by simp), add_same, ih (fun q hq => hp q (by simp [hq])), List.map_cons, List.sum_cons, Int.add_assoc]

/-- The module at its nominal point: every K at 1, every die at 780 mV, no traffic, 1,900 W at input rail 0 and nothing at
another rail, P_ctl in conservative mode, and each region's ledger but region 0's at 128 cores of 20 mA. -/
structure AtNominal (s : State) : Prop where
  scale : ∀ r < 64, kOf s r = 4096
  point : ∀ d < 4, vOf s d = 780
  rails : ∀ n < 24, rdi s pgPwr R.PWR_RAIL_P n = if n = 0 then 19000 else 0
  mode : rd s pgPwr R.PWR_STATUS_CAP_MODE = 1
  ledger : ∀ r < 64, r ≠ 0 → ledgerCal s r = 2560
  count : s.power.count = 0
  traffic : ∀ d < 4, mapGet 0 s.power.traffic d = 0

/-- The amps of a die at the nominal point, with region 0's ledger at `cal`. -/
def nominalAmps (cal d : Nat) : Frac :=
  ⟨((regionsOf d).map fun r => (((if r = 0 then cal else 2560 : Nat) : Int) * 4096 * (780 * 780))).sum, 4096 * 608400⟩

/-- P_ctl at the nominal point, with region 0's ledger at `cal`. -/
def nominalCtl (cal : Nat) : Frac :=
  (Frac.mk 19000 10).max ((modulePower (overDies fun d => ((nominalAmps cal d).mul (.ofInt 780)).add ⟨0, 50⟩) ⟨0, 1⟩).mul ⟨11, 10⟩)

variable {s : State}

theorem AtNominal.dieAmps_eq (h : AtNominal s) {d : Nat} (hd : d < 4) : dieAmps s d 780 (fun _ => 0) = nominalAmps (ledgerCal s 0) d := by
  have hamps : ∀ r ∈ regionsOf d, ampsAt (kOf s r) 780 (ledgerCal s r + 0) =
      ⟨((if r = 0 then ledgerCal s 0 else 2560 : Nat) : Int) * 4096 * (780 * 780), 4096 * 608400⟩ := fun r hr => by
    have hr64 : r < 64 := by
      obtain ⟨i, hi, rfl⟩ := List.mem_map.mp hr
      have := List.mem_range.mp hi
      omega
    have hcal : ledgerCal s r = if r = 0 then ledgerCal s 0 else 2560 := by
      split
      · rename_i h0
        rw [h0]
      · exact h.ledger r hr64 ‹_›
    rw [ampsAt, h.scale r hr64, Nat.add_zero, ← hcal]
    norm_cast
  obtain ⟨r, l, hl⟩ : ∃ r l, regionsOf d = r :: l := ⟨d * 16 + 0, _, rfl⟩
  rw [dieAmps, nominalAmps]
  rw [hl] at hamps ⊢
  rw [List.foldl_cons, hamps r (by simp), List.map_cons, List.sum_cons, zero_add_frac]
  exact foldl_add_same (fun q hq => hamps q (by simp [hq])) _

theorem AtNominal.dieEst_eq (h : AtNominal s) {d : Nat} (hd : d < 4) :
    dieEst s d (vOf s d) (fun _ => 0) = ((nominalAmps (ledgerCal s 0) d).mul (.ofInt 780)).add ⟨0, 50⟩ := by
  rw [dieEst, h.point d hd, trafficUw, h.traffic d hd, Nat.zero_mul]
  exact congrArg (fun a : Frac => (a.mul (.ofInt 780)).add ⟨0, 50⟩) (h.dieAmps_eq hd)

theorem AtNominal.railMean_eq (h : AtNominal s) {n : Nat} (hn : n < 24) : railMean s n = ⟨if n = 0 then 19000 else 0, 1⟩ := by
  rw [railMean, if_pos h.count, h.rails n hn, Frac.ofInt]
  split <;> rfl

theorem foldl_add_congr {l : List Nat} {p q : Nat → Frac} (h : ∀ r ∈ l, p r = q r) (a : Frac) :
    l.foldl (fun (a : Frac) r => a.add (p r)) a = l.foldl (fun (a : Frac) r => a.add (q r)) a :=
  List.foldl_ext _ _ a fun b r hr => by rw [h r hr]

theorem AtNominal.pCtl_of_ledger (h : AtNominal s) {cal : Nat} (hcal : ledgerCal s 0 = cal) : pCtl s = nominalCtl cal := by
  subst hcal
  have hmod : pMod s = ⟨19000, 10⟩ :=
    congrArg (fun a : Frac => a.mul ⟨1, 10⟩) (foldl_add_congr (fun n hn => h.railMean_eq (by have := List.mem_range.mp hn; omega)) _)
  have hrails : otherRails (railMean s) = ⟨0, 1⟩ :=
    foldl_add_congr (q := fun n => ⟨if n = 0 then 19000 else 0, 1⟩) (fun n hn => h.railMean_eq (by
      revert n
      decide)) _
  have hdies : overDies (fun d => dieEst s d (vOf s d) (fun _ => 0)) =
      overDies fun d => ((nominalAmps (ledgerCal s 0) d).mul (.ofInt 780)).add ⟨0, 50⟩ :=
    foldl_add_congr (fun d hd => h.dieEst_eq (List.mem_range.mp hd)) _
  rw [pCtl, if_pos h.mode, hmod, pEst, hrails, hdies, nominalCtl]

end Sys2Proof.Machine
end

section
/-!
SUPPORT. What a window's reports and ceilings leave, and its loop's step down (R379, R383, R388).
-/

namespace Sys2Proof.Machine

/-- What the reports and the ceilings set of a window. -/
def reportKeys : List Nat :=
  [R.PWR_P_MOD, R.PWR_P_EST, R.PWR_P_CTL, R.PWR_CAP_EFF].map (fun f => fieldKey pgPwr f 0) ++
    (List.range 4).map (fun d => fieldKey (pgTherm d) R.THERM_STATUS_THROTTLING 0)

/-- A die's part of the ceilings. -/
def ceilingStep (d : Nat) (t : State) : State :=
  let raw := rd t (pgTherm d) R.THERM_MAX_T
  let hot := if raw = 0x8000 then throttleC t d else signedOf 16 raw
  let c := ceilOf t d
  let c1 := if throttleC t d ≤ hot then max (min c (vOf t d) - 5) (vminOf t d)
    else if hot < throttleC t d - 16 then min (c + 5) (vCeil t)
    else c
  wr (pgTherm d) R.THERM_STATUS_THROTTLING (b2n (decide (c1 < vCeil t))) (modPower (fun p => { p with ceil := mapSet 900 p.ceil d c1 }) t)

theorem ceilings_eq (s : State) : ceilings s = foldUpTo 4 ceilingStep s := rfl

theorem rdi_ceilingStep {d : Nat} {p : Page} {f : RegField} {n : Nat}
    (h : fieldKey p f n ≠ fieldKey (pgTherm d) R.THERM_STATUS_THROTTLING 0) (t : State) : rdi (ceilingStep d t) p f n = rdi t p f n := by
  unfold ceilingStep
  extract_lets raw hot c c1
  clear_value c1
  exact rdi_wri_ne _ _ _ _ _ _ _ _ h

theorem throttling_mem_reportKeys {d : Nat} (hd : d < 4) : fieldKey (pgTherm d) R.THERM_STATUS_THROTTLING 0 ∈ reportKeys :=
  List.mem_append_right _ (List.mem_map.mpr ⟨d, List.mem_range.mpr hd, rfl⟩)

/-- The sluices, the pins, the window's samples and traffic, and whether the schedule has run, are the same. -/
structure SameBooks (s t : State) : Prop where
  sluices : t.sluices = s.sluices
  pins : t.pins = s.pins
  count : t.power.count = s.power.count
  traffic : t.power.traffic = s.power.traffic
  ran : t.power.ran = s.power.ran

theorem SameBooks.trans {s t u : State} (h : SameBooks s t) (g : SameBooks t u) : SameBooks s u :=
  ⟨g.sluices.trans h.sluices, g.pins.trans h.pins, g.count.trans h.count, g.traffic.trans h.traffic, g.ran.trans h.ran⟩

theorem sameBooks_ceilingStep (d : Nat) (s : State) : SameBooks s (ceilingStep d s) := ⟨rfl, rfl, rfl, rfl, rfl⟩

theorem sameBooks_ceilings (s : State) : SameBooks s (ceilings s) :=
  foldUpTo_induct (SameBooks s) 4 ceilingStep (fun d u _ h => h.trans (sameBooks_ceilingStep d u)) s ⟨rfl, rfl, rfl, rfl, rfl⟩

theorem sameBooks_wr (p : Page) (f : RegField) (v : Nat) (s : State) : SameBooks s (wr p f v s) := ⟨rfl, rfl, rfl, rfl, rfl⟩

theorem sameBooks_windowReports (s : State) : SameBooks s (windowReports s) := by
  unfold windowReports
  extract_lets tenth
  exact (((sameBooks_wr ..).trans (sameBooks_wr ..)).trans (sameBooks_wr ..)).trans (sameBooks_wr ..)

theorem rdi_ceilings {p : Page} {f : RegField} {n : Nat} (h : fieldKey p f n ∉ reportKeys) (s : State) :
    rdi (ceilings s) p f n = rdi s p f n := by
  refine foldUpTo_induct (fun u => rdi u p f n = rdi s p f n) 4 ceilingStep (fun d u hd hu => ?_) s rfl
  refine (rdi_ceilingStep (fun heq => h ?_) u).trans hu
  rw [heq]
  exact throttling_mem_reportKeys hd

theorem rdi_windowReports {p : Page} {f : RegField} {n : Nat} (h : fieldKey p f n ∉ reportKeys) (s : State) :
    rdi (windowReports s) p f n = rdi s p f n := by
  have hwr {g : RegField} (hg : g ∈ [R.PWR_P_MOD, R.PWR_P_EST, R.PWR_P_CTL, R.PWR_CAP_EFF]) (v : Nat) (u : State) :
      rdi (wr pgPwr g v u) p f n = rdi u p f n := by
    refine rdi_wri_ne _ _ _ _ _ _ _ _ fun heq => h ?_
    rw [heq]
    exact List.mem_append_left _ (List.mem_map.mpr ⟨g, hg, rfl⟩)
  unfold windowReports
  extract_lets tenth
  rw [hwr (by simp), hwr (by simp), hwr (by simp), hwr (by simp)]

/-- The state in which a window's loop runs. -/
def windowPoint (w : State) : State := ceilings (windowReports w)

theorem rdi_windowPoint {p : Page} {f : RegField} {n : Nat} (h : fieldKey p f n ∉ reportKeys) (w : State) :
    rdi (windowPoint w) p f n = rdi w p f n := (rdi_ceilings h _).trans (rdi_windowReports h w)

theorem sameBooks_windowPoint (w : State) : SameBooks w (windowPoint w) :=
  (sameBooks_windowReports w).trans (sameBooks_ceilings _)

/-- The reported P_ctl, in 0.1 W. -/
theorem pCtl_windowPoint (w : State) :
    rd (windowPoint w) pgPwr R.PWR_P_CTL = min 65535 ((pCtl w).mul (.ofInt 10)).floor % 2 ^ R.PWR_P_CTL.width := by
  have hkey : ∀ d < 4, fieldKey pgPwr R.PWR_P_CTL 0 ≠ fieldKey (pgTherm d) R.THERM_STATUS_THROTTLING 0 := by decide
  have hceil (u : State) : rd (ceilings u) pgPwr R.PWR_P_CTL = rd u pgPwr R.PWR_P_CTL := by
    rw [ceilings_eq]
    exact foldUpTo_induct (fun x => rd x pgPwr R.PWR_P_CTL = rd u pgPwr R.PWR_P_CTL) 4 ceilingStep
      (fun d x hd hx => (rdi_ceilingStep (hkey d hd) x).trans hx) u rfl
  have hread (a b c d : Nat) (u : State) : rd (wr pgPwr R.PWR_P_MOD a (wr pgPwr R.PWR_P_EST b (wr pgPwr R.PWR_P_CTL c
      (wr pgPwr R.PWR_CAP_EFF d u)))) pgPwr R.PWR_P_CTL = c % 2 ^ R.PWR_P_CTL.width := by
    rw [rd_wr_ne _ _ _ _ _ _ (by decide), rd_wr_ne _ _ _ _ _ _ (by decide), rd_wr_self]
  exact (hceil _).trans (hread ..)

/-- Every die is more than 2 °C below its throttle temperature, at the ceiling of 900 mV. -/
structure DiesCool (s : State) : Prop where
  below : ∀ d < 4, signedOf 16 (rd s (pgTherm d) R.THERM_MAX_T) < throttleC s d - 16
  known : ∀ d < 4, rd s (pgTherm d) R.THERM_MAX_T ≠ 0x8000
  vceil : vCeil s = 900
  ceil : ∀ d < 4, ceilOf s d = 900

theorem diesCool_ceilingStep {d : Nat} (hd : d < 4) {s : State} (h : DiesCool s) : DiesCool (ceilingStep d s) := by
  obtain ⟨hbelow, hknown, hvceil, hceil⟩ := h
  have hstep : ceilingStep d s = wr (pgTherm d) R.THERM_STATUS_THROTTLING (b2n (decide (900 < vCeil s)))
      (modPower (fun p => { p with ceil := mapSet 900 p.ceil d 900 }) s) := by
    have hcool := hbelow d hd
    rw [ceilingStep, if_neg (hknown d hd), if_neg (by omega), if_pos hcool, hceil d hd, hvceil]
    rfl
  have hrd {p : Page} {f : RegField} (hkey : fieldKey p f 0 ∉ reportKeys) : rd (ceilingStep d s) p f = rd s p f := by
    refine rdi_ceilingStep (fun heq => hkey ?_) s
    rw [heq]
    exact throttling_mem_reportKeys hd
  have hmax : ∀ e < 4, rd (ceilingStep d s) (pgTherm e) R.THERM_MAX_T = rd s (pgTherm e) R.THERM_MAX_T := fun e he =>
    hrd ((by decide : ∀ e < 4, fieldKey (pgTherm e) R.THERM_MAX_T 0 ∉ reportKeys) e he)
  refine ⟨fun e he => ?_, fun e he => ?_, ?_, fun e he => ?_⟩
  · rw [hmax e he, throttleC, hrd ((by decide : ∀ e < 4, fieldKey (pgTherm e) R.THERM_CTRL_THROTTLE_C 0 ∉ reportKeys) e he)]
    exact hbelow e he
  · rw [hmax e he]
    exact hknown e he
  · rw [vCeil, hrd (by decide)]
    exact hvceil
  · rw [hstep]
    show mapGet 900 (mapSet 900 s.power.ceil d 900) e = 900
    by_cases hed : e = d
    · rw [hed, mapGet_set_self]
    · rw [mapGet_set_ne _ _ _ _ _ _ hed]
      exact hceil e he

theorem diesCool_ceilings {s : State} (h : DiesCool s) : DiesCool (ceilings s) :=
  foldUpTo_induct DiesCool 4 ceilingStep (fun _ _ hd hu => diesCool_ceilingStep hd hu) s h

/-- The loop's step down: every die one 5 mV step lower, but not below its vmin. -/
def stepDown (s : State) : State := foldUpTo 4 (fun d t => setV d (max (vOf t d - 5) (vminOf t d)) t) s

/-- Above the cap, with a set-point above its vmin and none above its ceiling, the loop steps down. -/
theorem loopStep_above {p : Frac} {s : State} (hon : loopOn s = true) (hceil : ∀ d < 4, vOf s d ≤ vmaxOf s d)
    (habove : (capEff s).lt p = true) (hroom : vOf s 0 ≠ vminOf s 0) : ∃ f, (loopStep p s).1 = stepDown (modPower f s) := by
  have hfree : railsFree s = true := by
    rw [loopOn, Bool.and_eq_true, Bool.and_eq_true] at hon
    exact hon.1.1
  have hunder : foldUpTo 4 (fun d t => if vmaxOf t d < vOf t d then setV d (max (vmaxOf t d) (vminOf t d)) t else t) s = s :=
    foldUpTo_induct (· = s) 4 _ (fun d u hd hu => by
      subst hu
      exact if_neg (Nat.not_lt.mpr (hceil d hd))) s rfl
  have hany : ((List.range 4).all fun d => vOf s d == vminOf s d) = false := by
    rw [List.all_eq_false]
    exact ⟨0, by decide, by simpa using hroom⟩
  rw [loopStep, if_neg (by simp [hfree]), if_pos hon, capLoop, hunder]
  dsimp only
  rw [if_pos habove, hany, if_neg (by decide)]
  exact ⟨_, rfl⟩

theorem vOf_0_stepDown (s : State) : vOf (stepDown s) 0 = max (vOf s 0 - 5) (vminOf s 0) % 2 ^ R.PWR_VSET.width := by
  have hother {d : Nat} (h : fieldKey pgPwr R.PWR_VSET 0 ≠ fieldKey pgPwr R.PWR_VSET d) (v : Nat) (u : State) :
      vOf (setV d v u) 0 = vOf u 0 := rdi_wri_ne _ _ _ _ _ _ _ _ h
  rw [stepDown, show foldUpTo 4 (fun d t => setV d (max (vOf t d - 5) (vminOf t d)) t) s = [0, 1, 2, 3].foldl _ s from rfl]
  simp only [List.foldl_cons, List.foldl_nil]
  rw [hother (by decide), hother (by decide), hother (by decide)]
  exact rdi_wri_self ..

/-- With SLOWDOWN_N released, nothing is held. -/
theorem slowStep_released {s : State} (h : s.pins.slowdown = false) : slowStep s = s := if_neg (by simp [slowOn, h])

/-- With no die at its limit, no die is put to vmin. -/
theorem limitStep_cool {s : State} (h : ∀ d < 4, rd s (pgTherm d) R.THERM_STATUS_AT_LIMIT = 0) : limitStep s = s := by
  refine foldUpTo_induct (· = s) 4 _ (fun d u hd hu => ?_) s rfl
  subst hu
  exact if_neg fun hat => absurd (hat.1.symm.trans (h d hd)) (by decide)

theorem pins_setV (d v : Nat) (s : State) : (setV d v s).pins = s.pins := rfl

theorem pins_stepDown (s : State) : (stepDown s).pins = s.pins :=
  foldUpTo_induct (fun u => u.pins = s.pins) 4 _ (fun d u _ hu => (pins_setV d _ u).trans hu) s rfl

theorem atLimit_stepDown {d : Nat} (hd : d < 4) (s : State) :
    rd (stepDown s) (pgTherm d) R.THERM_STATUS_AT_LIMIT = rd s (pgTherm d) R.THERM_STATUS_AT_LIMIT :=
  foldUpTo_induct (fun u => rd u (pgTherm d) R.THERM_STATUS_AT_LIMIT = rd s (pgTherm d) R.THERM_STATUS_AT_LIMIT) 4 _
    (fun e _ he hu => (rdi_wri_ne _ _ _ _ _ _ _ _ ((by decide : ∀ d < 4, ∀ e < 4,
      fieldKey (pgTherm d) R.THERM_STATUS_AT_LIMIT 0 ≠ fieldKey pgPwr R.PWR_VSET e) d hd e he)).trans hu) s rfl

/-- A window's set-points are those that its three steps leave. -/
theorem vOf_windowLoop (p : Frac) (s : State) : vOf (windowLoop p s).1 0 = vOf (limitStep (slowStep (loopStep p s).1)) 0 := by
  unfold windowLoop
  extract_lets x s1 s2 free
  have hx : x = loopStep p s := rfl
  have h1 : s1 = slowStep x.1 := rfl
  have h2 : s2 = limitStep s1 := rfl
  clear_value free s2 s1 x
  subst h2 h1 hx
  dsimp only
  split
  · exact vOf_0_modPower ..
  · rfl

/-- A step down of the loop: above the cap, with a die above its vmin, nothing held and no die at its limit, die 0 goes one
5 mV step down. -/
theorem vOf_0_windowLoop {p : Frac} {s : State} (hon : loopOn s = true) (hslow : s.pins.slowdown = false)
    (hlimit : ∀ d < 4, rd s (pgTherm d) R.THERM_STATUS_AT_LIMIT = 0) (hceil : ∀ d < 4, vOf s d ≤ vmaxOf s d)
    (habove : (capEff s).lt p = true) (hroom : vOf s 0 ≠ vminOf s 0) :
    vOf (windowLoop p s).1 0 = max (vOf s 0 - 5) (vminOf s 0) % 2 ^ R.PWR_VSET.width := by
  obtain ⟨f, hdown⟩ := loopStep_above hon hceil habove hroom
  have hheld : slowStep (stepDown (modPower f s)) = stepDown (modPower f s) :=
    slowStep_released (by rw [pins_stepDown]; exact hslow)
  have hcool : limitStep (stepDown (modPower f s)) = stepDown (modPower f s) :=
    limitStep_cool fun d hd => (atLimit_stepDown hd _).trans (hlimit d hd)
  rw [vOf_windowLoop, hdown, hheld, hcool]
  exact vOf_0_stepDown _

theorem not_mem_reportKeys_scale : ∀ r < 64, fieldKey (pgSluice r) R.SLUICE_K 0 ∉ reportKeys ∧
    fieldKey (pgSluice r) R.SLUICE_CLASS_CORE_MA 0 ∉ reportKeys ∧ fieldKey (pgSluice r) R.SLUICE_FLOOR_EFFECTIVE 0 ∉ reportKeys ∧
    fieldKey (pgSluice r) R.SLUICE_STATUS_ADMIT 0 ∉ reportKeys := by decide +kernel

theorem not_mem_reportKeys_rails : ∀ n < 24, fieldKey pgPwr R.PWR_RAIL_P n ∉ reportKeys := by decide +kernel

/-- The ledger of a region that has nothing booked above class 0. -/
theorem ledgerCal_idle {s : State} {r : Nat} (hcore : (sluiceOf s r).coreCls = []) (heng : (sluiceOf s r).engCls = []) :
    ledgerCal s r = coreCal s r 0 * 128 := by
  simp [ledgerCal, hcore, heng]

/-- The ledger of a region with every core at one class. -/
theorem ledgerCal_full {s : State} {r c : Nat} (hcore : (sluiceOf s r).coreCls = (List.range 128).map (fun i => (i, c)))
    (heng : (sluiceOf s r).engCls = []) : ledgerCal s r = 128 * coreCal s r c := by
  have hsum (l : List Nat) (x a : Nat) : (l.map fun i => (i, c)).foldl (fun a e => a + coreCal s r e.2) a = a + l.length * coreCal s r c := by
    induction l generalizing a with
    | nil => simp
    | cons i l ih => rw [List.map_cons, List.foldl_cons, ih, List.length_cons]; ring
  rw [ledgerCal, hcore, heng, hsum _ 0]
  simp

/-- The reports leave the nominal point, as far as the regions but region 0 have nothing booked above class 0. -/
theorem atNominal_windowPoint {w : State} (h : AtNominal w)
    (hidle : ∀ r < 64, r ≠ 0 → (sluiceOf w r).coreCls = [] ∧ (sluiceOf w r).engCls = []) : AtNominal (windowPoint w) := by
  obtain ⟨hscale, hpoint, hrails, hmode, hledger, hcount, htraffic⟩ := h
  obtain ⟨ssluices, -, scount, straffic, -⟩ := sameBooks_windowPoint w
  have hsluice (r : Nat) : sluiceOf (windowPoint w) r = sluiceOf w r := by rw [sluiceOf, sluiceOf, ssluices]
  refine ⟨fun r hr => ?_, fun d hd => ?_, fun n hn => ?_, ?_, fun r hr h0 => ?_, scount.trans hcount, fun d hd => ?_⟩
  · exact (rdi_windowPoint (not_mem_reportKeys_scale r hr).1 w).trans (hscale r hr)
  · exact (rdi_windowPoint ((by decide : ∀ d < 4, fieldKey pgPwr R.PWR_VSET d ∉ reportKeys) d hd) w).trans (hpoint d hd)
  · exact (rdi_windowPoint (not_mem_reportKeys_rails n hn) w).trans (hrails n hn)
  · exact (rdi_windowPoint (by decide) w).trans hmode
  · obtain ⟨hcore, heng⟩ := hidle r hr h0
    have hcal : coreCal (windowPoint w) r 0 = coreCal w r 0 := rdi_windowPoint (not_mem_reportKeys_scale r hr).2.1 w
    rw [ledgerCal_idle (by rw [hsluice, hcore]) (by rw [hsluice, heng]), hcal, ← ledgerCal_idle hcore heng]
    exact hledger r hr h0
  · rw [straffic]
    exact htraffic d hd

theorem capEff_windowPoint (w : State) : capEff (windowPoint w) = capEff w := by
  have hrd {f : RegField} (h : fieldKey pgPwr f 0 ∉ reportKeys) : rd (windowPoint w) pgPwr f = rd w pgPwr f := rdi_windowPoint h w
  simp only [capEff, inletCap, capW, hostCapW, hrd (f := R.PWR_CAP_W) (by decide), hrd (f := R.PWR_HOST_CAP_W) (by decide),
    hrd (f := R.PWR_INLET_T) (by decide)]

theorem loopOn_windowPoint (w : State) : loopOn (windowPoint w) = loopOn w := by
  have hrd {p : Page} {f : RegField} (h : fieldKey p f 0 ∉ reportKeys) : rd (windowPoint w) p f = rd w p f := rdi_windowPoint h w
  simp only [loopOn, railsFree, hrd (f := R.PWR_STATUS_STATE) (p := pgPwr) (by decide),
    hrd (f := R.EMB_STATUS_SAFE) (p := pgEmb) (by decide), hrd (f := R.RST_STATUS_COMEOUT) (p := pgRst) (by decide),
    (sameBooks_windowPoint w).ran]

theorem ceilOf_wr (p : Page) (f : RegField) (v : Nat) (s : State) (d : Nat) : ceilOf (wr p f v s) d = ceilOf s d := rfl

theorem ceilOf_windowReports (s : State) (d : Nat) : ceilOf (windowReports s) d = ceilOf s d := by
  unfold windowReports
  extract_lets tenth
  rw [ceilOf_wr, ceilOf_wr, ceilOf_wr, ceilOf_wr]

theorem vminOf_windowPoint (w : State) : vminOf (windowPoint w) 0 = vminOf w 0 :=
  List.foldl_ext _ _ _ fun a r hr => congrArg (max a)
    (rdi_windowPoint (not_mem_reportKeys_scale r (lt_of_mem_regionsOf (by decide) hr)).2.2.1 w)

theorem admitOf_windowPoint (w : State) : admitOf (windowPoint w) 0 = admitOf w 0 :=
  rdi_windowPoint (not_mem_reportKeys_scale 0 (by decide)).2.2.2 w

theorem diesCool_windowReports {s : State} (h : DiesCool s) : DiesCool (windowReports s) := by
  obtain ⟨hbelow, hknown, hvceil, hceil⟩ := h
  obtain hkeys := (by decide : ∀ d < 4, fieldKey (pgTherm d) R.THERM_MAX_T 0 ∉ reportKeys ∧
    fieldKey (pgTherm d) R.THERM_CTRL_THROTTLE_C 0 ∉ reportKeys)
  have hmax (d : Nat) (hd : d < 4) : rd (windowReports s) (pgTherm d) R.THERM_MAX_T = rd s (pgTherm d) R.THERM_MAX_T :=
    rdi_windowReports (hkeys d hd).1 s
  have hthrottle (d : Nat) (hd : d < 4) : throttleC (windowReports s) d = throttleC s d :=
    congrArg (fun v : Nat => (clampNat 70 95 v : Int) * 8) (rdi_windowReports (hkeys d hd).2 s)
  refine ⟨fun d hd => ?_, fun d hd => ?_, ?_, fun d hd => (ceilOf_windowReports s d).trans (hceil d hd)⟩
  · rw [hmax d hd, hthrottle d hd]
    exact hbelow d hd
  · rw [hmax d hd]
    exact hknown d hd
  · exact (congrArg (clampNat 650 900) (rdi_windowReports (by decide) s)).trans hvceil

/-- A die at the nominal point stands below its vmax. -/
theorem vOf_le_vmaxOf {s : State} (hpoint : AtNominal s) (hcool : DiesCool s) : ∀ d < 4, vOf s d ≤ vmaxOf s d := fun d hd => by
  rw [hpoint.point d hd, vmaxOf, hcool.vceil, hcool.ceil d hd]
  decide

/-- A cool module at the nominal point with P_ctl above the cap: the window lowers die 0. -/
theorem vOf_0_lowered {m : Meter} {s w : State} (hw : windowMeters m (windowBoundary s) = w) (hon : powerOn s = true)
    (hloop : loopOn w = true) (hslow : w.pins.slowdown = false) (hlimit : ∀ d < 4, rd w (pgTherm d) R.THERM_STATUS_AT_LIMIT = 0)
    (hpoint : AtNominal (windowPoint w)) (hcool : DiesCool (windowPoint w)) (hmin : vminOf w 0 = 650)
    (habove : (capEff (windowPoint w)).lt (pCtl (windowPoint w)) = true) : vOf (controlWindow m s) 0 = 775 := by
  subst hw
  have hv := hpoint.point 0 (by decide)
  have hm := (vminOf_windowPoint (windowMeters m (windowBoundary s))).trans hmin
  refine (vOf_0_controlWindow m hon).trans ?_
  refine (vOf_0_windowLoop ((loopOn_windowPoint _).trans hloop) ?_ (fun d hd => ?_) (vOf_le_vmaxOf hpoint hcool) habove ?_).trans ?_
  · rw [← hslow]
    exact congrArg Pins.slowdown (sameBooks_windowPoint _).pins
  · exact (rdi_windowPoint ((by decide : ∀ d < 4, fieldKey (pgTherm d) R.THERM_STATUS_AT_LIMIT 0 ∉ reportKeys) d hd) _).trans (hlimit d hd)
  · exact fun heq => absurd (hv.symm.trans (heq.trans hm)) (by decide)
  · exact (congrArg₂ (fun v n => max (v - 5) n % 2 ^ R.PWR_VSET.width) hv hm).trans (by decide)

end Sys2Proof.Machine
end

section
/-!
CERTIFICATE. Hints and control windows (O46).
-/

namespace Sys2Proof.Machine

/-- A number of the sluices' CLASS n.CORE_MA, which has 8 registers, counted on past them. -/
def classAtCtl : Nat := 503316474

/-- That number is filed where PWR's P_CTL is. -/
theorem classAtCtl_is_pCtl : fieldKey (pgSluice 0) R.SLUICE_CLASS_CORE_MA classAtCtl = fieldKey pgPwr R.PWR_P_CTL 0 := rfl

/-- The module in ACTIVE with the schedule run: the input rails at 1,900 W, the cap loop in conservative mode, region 0
admitted at 99, and all 128 cores of its ledger at that class. -/
def ledgerAtCtl : State :=
  setSluice 0 { sluiceOf outOfReset 0 with coreCls := (List.range 128).map (fun c => (c, classAtCtl)) }
    (wr (pgSluice 0) R.SLUICE_STATUS_ADMIT 99 (wri pgPwr R.PWR_RAIL_P 0 19000 (wr pgPwr R.PWR_STATUS_CAP_MODE 1
      { outOfReset with power := { outOfReset.power with ran := true } })))

/-- Meters that read nothing. -/
def idleMeter : Meter := ⟨[], [], [], []⟩

/-- The state in which a window has its meters' values. -/
def ledgerMetered : State := windowMeters idleMeter (windowBoundary ledgerAtCtl)

/-- The loop may run, with nothing over it. -/
theorem ledgerAtCtl_open : powerOn ledgerAtCtl = true ∧ pendAt ledgerAtCtl pgPwr 0x10 = none ∧ loopOn ledgerAtCtl = true ∧
    ledgerAtCtl.pins.slowdown = false ∧ ∀ d < 4, rd ledgerAtCtl (pgTherm d) R.THERM_STATUS_AT_LIMIT = 0 := by decide +kernel

theorem ledgerMetered_nominal : AtNominal ledgerMetered where
  scale := by decide +kernel
  point := by decide +kernel
  rails := by decide +kernel
  mode := by decide +kernel
  ledger := by decide +kernel
  count := by decide +kernel
  traffic := by decide +kernel

/-- With P_CTL not yet reported, class 503,316,474 reads as 20 mA, as the others do. -/
theorem ledgerCal_ledgerMetered : ledgerCal ledgerMetered 0 = 2560 := by decide +kernel

theorem pCtl_ledgerMetered : pCtl ledgerMetered = nominalCtl 2560 :=
  ledgerMetered_nominal.pCtl_of_ledger ledgerCal_ledgerMetered

theorem ledgerMetered_cap : capEff ledgerMetered = .ofInt 2000 ∧ hystW ledgerMetered = 20 := by decide +kernel

/-- The dies are cool, the loop may run, and no die is at its limit. -/
theorem ledgerMetered_open : DiesCool ledgerMetered ∧ loopOn ledgerMetered = true ∧ ledgerMetered.pins.slowdown = false ∧
    (∀ d < 4, rd ledgerMetered (pgTherm d) R.THERM_STATUS_AT_LIMIT = 0) ∧ vminOf ledgerMetered 0 = 650 ∧ admitOf ledgerMetered 0 = 99 :=
  ⟨⟨by decide +kernel, by decide +kernel, by decide +kernel, by decide +kernel⟩, by decide +kernel⟩

/-- With P_CTL reported, the ledger of region 0 counts it 128 times. -/
theorem ledgerCal_windowPoint : ledgerCal (windowPoint ledgerMetered) 0 = 128 * 19000 := by
  have hsluice : sluiceOf (windowPoint ledgerMetered) 0 = sluiceOf ledgerMetered 0 := by
    rw [sluiceOf, sluiceOf, (sameBooks_windowPoint ledgerMetered).sluices]
  obtain ⟨hcore, heng⟩ : (sluiceOf ledgerMetered 0).coreCls = (List.range 128).map (fun i => (i, classAtCtl)) ∧
      (sluiceOf ledgerMetered 0).engCls = [] := by decide +kernel
  have hctl : rd (windowPoint ledgerMetered) pgPwr R.PWR_P_CTL = 19000 := by
    rw [pCtl_windowPoint, pCtl_ledgerMetered]
    decide +kernel
  have hcal : coreCal (windowPoint ledgerMetered) 0 classAtCtl = 19000 := by
    rw [coreCal, rdi, classAtCtl_is_pCtl, mapGet_eq_find]
    rw [rd, rdi, mapGet_eq_find] at hctl
    cases hfind : mapFind (windowPoint ledgerMetered).regs (fieldKey pgPwr R.PWR_P_CTL 0) with
    | none =>
      rw [hfind] at hctl
      exact absurd hctl (by decide)
    | some v =>
      rw [hfind] at hctl
      exact hctl
  rw [ledgerCal_full (by rw [hsluice, hcore]) (by rw [hsluice, heng]), hcal]

theorem ledgerMetered_idle : ∀ r < 64, r ≠ 0 → (sluiceOf ledgerMetered r).coreCls = [] ∧ (sluiceOf ledgerMetered r).engCls = [] := by
  decide +kernel

/-- After the reports, P_ctl lies above the cap. -/
theorem pCtl_windowPoint_ledger : pCtl (windowPoint ledgerMetered) = nominalCtl (128 * 19000) :=
  (atNominal_windowPoint ledgerMetered_nominal ledgerMetered_idle).pCtl_of_ledger ledgerCal_windowPoint

/-- What O46 says of a window below the cap less HYST_W with a region's admission below 100: die 0 stays. -/
theorem vOf_0_stays_of_obligation (h : Obligations.HintsAndControlWindowsAct) {m : Meter} {s w : State}
    (hw : windowMeters m (windowBoundary s) = w) (hon : powerOn s = true) (hpend : pendAt s pgPwr 0x10 = none) (hloop : loopOn s = true)
    (hslow : s.pins.slowdown = false) (hlimit : ∀ d < 4, rd s (pgTherm d) R.THERM_STATUS_AT_LIMIT = 0)
    (hceil : ∀ d < 4, vOf (windowPoint w) d ≤ vmaxOf (windowPoint w) d) (hcap : (capEff w).lt (pCtl w) = false)
    (hbelow : (pCtl w).lt ((capEff w).sub (.ofInt (hystW w))) = true) (hadmit : admitOf (windowPoint w) 0 < 100) :
    vOf (controlWindow m s) 0 = vOf (windowPoint w) 0 := by
  subst hw
  unfold Obligations.HintsAndControlWindowsAct at h
  obtain ⟨-, hwindow⟩ := h
  obtain ⟨t, ht, -, -, -, -, -, -, -, -, -, hsteps⟩ := hwindow m s hon
  obtain rfl : controlWindow m s = t := Host.Outcome.next.inj ht
  obtain ⟨-, -, hraise⟩ := hsteps hpend hloop hslow hlimit hceil
  obtain ⟨hkept, -⟩ := hraise hcap hbelow ⟨0, by decide, hadmit⟩
  exact hkept 0 (by decide)

/-- Refutes O46: it compares P_ctl as it was before the window's reports with the cap, for a ledger with classes of any
number, and class 503,316,474 of region 0 is filed with PWR's P_CTL (`classAtCtl_is_pCtl`), which the reports set before the
loop reads the ledger. So at 1,900 W under a cap of 2,000 W the window of `ledgerAtCtl` lowers die 0, where the statement has
every set-point stay. -/
theorem not_hintsAndControlWindowsAct : ¬ Obligations.HintsAndControlWindowsAct := by
  intro h
  obtain ⟨hon, hpend, hloop, hslow, hlimit⟩ := ledgerAtCtl_open
  obtain ⟨hcap, hhyst⟩ := ledgerMetered_cap
  obtain ⟨hcool, hloop', hslow', hlimit', hmin, hadmit⟩ := ledgerMetered_open
  have hpoint := atNominal_windowPoint ledgerMetered_nominal ledgerMetered_idle
  have hcool' : DiesCool (windowPoint ledgerMetered) := diesCool_ceilings (diesCool_windowReports hcool)
  have hadmit' : admitOf (windowPoint ledgerMetered) 0 < 100 := by
    rw [admitOf_windowPoint, hadmit]
    decide
  have hstays := vOf_0_stays_of_obligation h (w := ledgerMetered) rfl hon hpend hloop hslow hlimit (vOf_le_vmaxOf hpoint hcool')
    (by rw [hcap, pCtl_ledgerMetered]; decide +kernel) (by rw [hcap, hhyst, pCtl_ledgerMetered]; decide +kernel) hadmit'
  have hlowered := vOf_0_lowered (w := ledgerMetered) rfl hon hloop' hslow' hlimit' hpoint hcool' hmin
    (by rw [capEff_windowPoint, hcap, pCtl_windowPoint_ledger]; decide +kernel)
  rw [hlowered, hpoint.point 0 (by decide)] at hstays
  exact absurd hstays (by decide)

end Sys2Proof.Machine
end

section
/-!
SUPPORT. A STEP_HOLD waits in CTX.CTRL (R67, R263).
-/

namespace Sys2Proof.Machine

theorem rowsAt_ctx_ctrl : rowsAt .ctx 0x10 = [(R.CTX_CTRL_RUN, 0), (R.CTX_CTRL_PIN, 0), (R.CTX_CTRL_HOLD, 0), (R.CTX_CTRL_POLL_US, 0)] := by
  decide +kernel

theorem heldRows_ctx_ctrl (n : Nat) : heldRows (pgCtx n) 0x10 = rowsAt .ctx 0x10 := by
  rw [heldRows, show rowsAt (pgCtx n).cls 0x10 = _ from rowsAt_ctx_ctrl, rowsAt_ctx_ctrl]
  rfl

/-- A field with none of its bits written keeps its pending value. -/
theorem heldValue_unmasked {s : State} {p : Page} {v m : Nat} {e : RegField × Nat} (locked : Bool)
    (h : bitsOf m e.1.lo e.1.width = 0) : heldValue s p locked v m e = pendingRd s p e.1 e.2 := by
  refine if_neg ?_
  simp [heldTaken, h]

/-- The write of HOLD is held, with the bit at its place. -/
theorem hold_pendValue {n : Nat} (hold : Bool) {s : State} (locked : Bool)
    (hlt : ∀ q ∈ rowsAt .ctx 0x10, rdi s (pgCtx n) q.1 q.2 < 2 ^ q.1.width) :
    ∃ w, pendValue s (pgCtx n) locked 0x10 (b2n hold * 4) 4 = some w ∧ bitsOf w R.CTX_CTRL_HOLD.lo R.CTX_CTRL_HOLD.width = b2n hold := by
  have hmem : (R.CTX_CTRL_HOLD, 0) ∈ heldRows (pgCtx n) 0x10 := by
    rw [heldRows_ctx_ctrl, rowsAt_ctx_ctrl]
    simp
  have htaken : heldTaken s (pgCtx n) locked (b2n hold * 4) 4 (R.CTX_CTRL_HOLD, 0) = true := rfl
  have hmask : bitsOf 4 R.CTX_CTRL_HOLD.lo R.CTX_CTRL_HOLD.width = 2 ^ 1 - 1 := by decide
  have hlt' (e : RegField × Nat) (he : e ∈ rowsAt .ctx 0x10) : pendingRd s (pgCtx n) e.1 e.2 < 2 ^ e.1.width := pendingRd_lt (hlt e he)
  have hvalue : heldValue s (pgCtx n) locked (b2n hold * 4) 4 (R.CTX_CTRL_HOLD, 0) = b2n hold := by
    have hold1 : pendingRd s (pgCtx n) R.CTX_CTRL_HOLD 0 < 2 ^ 1 := hlt' (R.CTX_CTRL_HOLD, 0) (by rw [rowsAt_ctx_ctrl]; simp)
    rw [heldValue, if_pos htaken, heldNew, hmask, mergeBits_mask, Nat.div_eq_of_lt hold1]
    cases hold <;> decide
  rw [pendValue_eq, if_pos (List.any_eq_true.mpr ⟨_, hmem, htaken⟩)]
  refine ⟨_, rfl, (bitsOf_foldl_fields _ _ ((rowsAt_rise _ _).filter _) ?_ hmem 0 fun e _ => Nat.two_pow_pos _).trans hvalue⟩
  intro e he
  have he : e ∈ rowsAt .ctx 0x10 := (List.mem_filter.mp he).1
  by_cases hhold : e = (R.CTX_CTRL_HOLD, 0)
  · rw [hhold, hvalue]
    cases hold <;> decide
  · have hzero : ∀ e ∈ rowsAt .ctx 0x10, e ≠ (R.CTX_CTRL_HOLD, 0) → bitsOf 4 e.1.lo e.1.width = 0 := by
      rw [rowsAt_ctx_ctrl]
      decide
    rw [heldValue_unmasked locked (hzero e he hhold)]
    exact hlt' e he

/-- What STEP_HOLD leaves: the register's value held, and nothing else but the note that it replaced one. -/
theorem stepHold_eq {n : Nat} (hold : Bool) {s : State} (hlt : ∀ q ∈ rowsAt .ctx 0x10, rdi s (pgCtx n) q.1 q.2 < 2 ^ q.1.width) :
    ∃ w, writeReg (fun _ _ _ s => s) (pgCtx n) 0x10 (b2n hold * 4) 4 s = holdPend (pgCtx n) 0x10 w s ∧
      bitsOf w R.CTX_CTRL_HOLD.lo R.CTX_CTRL_HOLD.width = b2n hold := by
  obtain ⟨locked, hlocked⟩ : ∃ b, b = (rd s (headPage (pgCtx n)) R.HEADER_PAGE_LOCK_LOCK == 1) := ⟨_, rfl⟩
  obtain ⟨w, hw, hbits⟩ := hold_pendValue hold locked hlt
  have hfields : writeFields (pgCtx n) locked 0x10 (b2n hold * 4) 4 s = s := by
    rw [writeFields, show rowsAt (pgCtx n).cls 0x10 = _ from rowsAt_ctx_ctrl]
    rfl
  refine ⟨w, ?_, hbits⟩
  rw [writeReg_eq rfl (by decide) (by decide), ← hlocked, hw, hfields]
  rfl

theorem holdPend_frame (p : Page) (o v : Nat) (s : State) : (holdPend p o v s).ctxs = s.ctxs ∧ (holdPend p o v s).reply = s.reply := by
  unfold holdPend
  dsimp only
  split <;> exact ⟨rfl, rfl⟩

theorem stepHold_spec {p : Path} {n : CtxIx} (hold : Bool) {s : State} (hreach : Reaches p (pgCtx n) s)
    (hlt : ∀ q ∈ rowsAt .ctx 0x10, rdi s (pgCtx n) q.1 q.2 < 2 ^ q.1.width) :
    ∃ t, exec (.stepHold p n hold) s = .next t ∧ t.reply = ⟨0, 0, false⟩ ∧ pendingRd t (pgCtx n) R.CTX_CTRL_HOLD 0 = b2n hold ∧
      rd t (pgCtx n) R.CTX_CTRL_HOLD = rd s (pgCtx n) R.CTX_CTRL_HOLD ∧ t.ctxs = s.ctxs := by
  have hrow : (R.CTX_CTRL_HOLD, 0) ∈ rowsAt (pgCtx n).cls 0x10 := by
    rw [show rowsAt (pgCtx n).cls 0x10 = _ from rowsAt_ctx_ctrl]
    simp
  obtain ⟨w, hw, hbits⟩ := stepHold_eq (n := n.val) hold (s := answered 0 0 s) hlt
  obtain ⟨hctxs, hreply⟩ := holdPend_frame (pgCtx n) 0x10 w (answered 0 0 s)
  refine ⟨holdPend (pgCtx n) 0x10 w (answered 0 0 s), ?_, hreply, ?_, ?_, hctxs⟩
  · exact congrArg Host.Outcome.next ((access_of_reaches hreach _).trans hw)
  · exact (pendingRd_of_some hrow rfl (pendAt_holdPend ..)).trans hbits
  · exact (rdi_holdPend (pgCtx n) hrow (by decide) ..).trans (rd_of_regs rfl _ _)

end Sys2Proof.Machine
end

section
/-!
SUPPORT. The next planned micro-batch and the lowest free slot (R250).
-/

namespace Sys2Proof.Machine

theorem stepLe_self (a : Nat) : stepLe a a = true := by
  rw [stepLe, decide_eq_true_eq]
  omega

theorem stepLe_stepNext (a : Nat) : stepLe a (stepNext a) = true := by
  rw [stepLe, stepNext, decide_eq_true_eq]
  omega

theorem stepNext_ne (a : Nat) : stepNext a ≠ a := by
  rw [stepNext]
  omega

/-- Within the range of the step admitted last, the next pair is its next micro-batch. -/
theorem nextPair_within {x : Ctx} {p : Plan} {l : List Plan} (hplans : x.plans = p :: l) (hstep : x.admitStep = some p.step)
    (hidx : x.admitIdx < p.count) : nextPair x = some (p.step, p.first + x.admitIdx, x.admitIdx + 1) := by
  simp [nextPair, hplans, hstep, stepLe_self, hidx]

/-- Past it, the next pair is the first micro-batch of the next step. -/
theorem nextPair_next {x : Ctx} {p q : Plan} {l : List Plan} (hplans : x.plans = p :: q :: l) (hstep : x.admitStep = some p.step)
    (hidx : p.count ≤ x.admitIdx) (hq : q.step = stepNext p.step) (hcount : 0 < q.count) :
    nextPair x = some (q.step, q.first, 1) := by
  simp [nextPair, hplans, hstep, stepLe_self, Nat.not_lt.mpr hidx, hq, stepLe_stepNext, stepNext_ne, hcount]

/-- The lowest free slot within the limit. -/
theorem freeSlot_eq {s : State} {x : Ctx} {f : Nat} (hf : f < mbLimit s x) (hfree : mapFind x.slots f = none)
    (hbusy : ∀ g < f, (mapFind x.slots g).isSome = true) : freeSlot s x = some f := by
  rw [freeSlot, List.find?_range_eq_some]
  refine ⟨by simp [hfree], List.mem_range.mpr hf, fun g hg => ?_⟩
  have := hbusy g hg
  simp_all

/-- The next pair is bound to the lowest free slot. -/
theorem admission_eq {n : Nat} {s : State} {x : Ctx} (hx : ctxOf s n = some x) {t mb i f : Nat} (hpair : nextPair x = some (t, mb, i))
    (hslot : freeSlot s x = some f) (hon : fetchOn s n x = true) (hlets : holdLets x (some t) = true) :
    admission n s = setCtx n { x with slots := mapPut x.slots f ⟨t, mb, [], false⟩, admitStep := some t, admitIdx := i } s := by
  simp [admission, hx, hpair, hslot, hon, hlets]

end Sys2Proof.Machine
end

section
/-!
SUPPORT. What counting a read or a write of device DRAM changes (R211, R362, R487), and a read that meets no error.
-/

namespace Sys2Proof.Machine

/-! ### Counts -/

/-- Where in a page the byte counts of a stack controller and of a context, a PERF page's event counters and a context's
shrink floor are filed. -/
def countKey (key : Nat) : Bool :=
  key % 1048576 == fieldPlace R.CTX_SHRINK_FLOOR 0 || (List.range 16).any (fun i => key % 1048576 == fieldPlace R.PERF_EVT_CNT i)

/-- Only such counts differ. -/
def Counts (s t : State) : Prop := OnlyRegs s t ∧ KeepsRegs countKey s t

theorem counts_refl (s : State) : Counts s s := ⟨rfl, keepsRegs_refl _ s⟩

theorem Counts.trans {s t u : State} (h : Counts s t) (g : Counts t u) : Counts s u := ⟨h.1.trans g.1, h.2.trans g.2⟩

theorem countKey_fieldKey {f : RegField} {n : Nat} (h : fieldPlace f n < 1048576) (p : Page) :
    countKey (fieldKey p f n) = countKey (fieldPlace f n) := by
  rw [countKey, countKey, fieldKey_mod h, Nat.mod_eq_of_lt h]

theorem counts_wr {f : RegField} (h : countKey (fieldPlace f 0) = true) (hfit : fieldPlace f 0 < 1048576) (p : Page) (v : Nat) (s : State) :
    Counts s (wr p f v s) :=
  ⟨onlyRegs_wri .., keepsRegs_wri (by rw [countKey_fieldKey hfit, h]) v s⟩

theorem counts_countE_perf (k e src d : Nat) (ctx : Option Nat) (s : State) : Counts s (countE (pgPerf k) e src d ctx s) := by
  refine ⟨countE_frame .., countE_keeps _ _ _ _ _ _ ?_⟩
  intro sel cnt n hc i hi
  obtain ⟨-, rfl, rfl⟩ : R.PERF_EVT_SEL = sel ∧ R.PERF_EVT_CNT = cnt ∧ 16 = n := by
    simpa only [Option.some.injEq, Prod.mk.injEq] using (show some (R.PERF_EVT_SEL, R.PERF_EVT_CNT, 16) = some (sel, cnt, n) from hc)
  obtain ⟨hcount, hfit⟩ := (by decide : ∀ i < 16, countKey (fieldPlace R.PERF_EVT_CNT i) = true ∧ fieldPlace R.PERF_EVT_CNT i < 1048576) i hi
  rw [countKey_fieldKey hfit, hcount]

theorem counts_countRd (a n blk : Nat) (ctx : Option Nat) (s : State) : Counts s (countRd a n blk ctx s) := by
  unfold countRd
  split
  · exact counts_refl s
  · exact (counts_wr (f := R.MEMC_RD_BYTES) (by decide) (by decide) _ _ s).trans (counts_countE_perf ..)

theorem counts_countWr (a n blk : Nat) (s : State) : Counts s (countWr a n blk s) := by
  unfold countWr
  split
  · exact counts_refl s
  · exact (counts_wr (f := R.MEMC_WR_BYTES) (by decide) (by decide) _ _ s).trans (counts_countE_perf ..)

/-- A field filed elsewhere reads the same where such counts differ. -/
theorem rdi_of_countKey {s t : State} (h : KeepsRegs countKey s t) {f : RegField} {n : Nat} (hfit : fieldPlace f n < 1048576)
    (hoff : countKey (fieldPlace f n) = false) (p : Page) : rdi t p f n = rdi s p f n :=
  rdi_of_keepsRegs h (by rw [countKey_fieldKey hfit, hoff])

theorem tableKey_mod (key : Nat) : tableKey (key % 1048576) = tableKey key := by
  rw [tableKey, tableKey, Nat.mod_mod]

theorem tablesStand_of_countKey {s t : State} (h : KeepsRegs countKey s t) : TablesStand s t := by
  refine keepsRegs_mono h fun key hkey => ?_
  have hplaces : ∀ q ∈ fieldPlace R.CTX_SHRINK_FLOOR 0 :: (List.range 16).map (fieldPlace R.PERF_EVT_CNT), tableKey q = false := by decide
  have hmem : key % 1048576 ∈ fieldPlace R.CTX_SHRINK_FLOOR 0 :: (List.range 16).map (fieldPlace R.PERF_EVT_CNT) := by
    rw [countKey, Bool.or_eq_true, beq_iff_eq, List.any_eq_true] at hkey
    obtain hfloor | ⟨i, hi, hcnt⟩ := hkey
    · exact List.mem_cons.mpr (.inl hfloor)
    · exact List.mem_cons_of_mem _ (List.mem_map.mpr ⟨i, hi, (beq_iff_eq.mp hcnt).symm⟩)
  rw [← tableKey_mod, hplaces _ hmem]
  rfl

theorem injArmed_of_countKey {s t : State} (h : KeepsRegs countKey s t) (p : Page) (bit : Nat) : injArmed t p bit = injArmed s p bit := by
  have hrd {f : RegField} (hfit : fieldPlace f 0 < 1048576) (hoff : countKey (fieldPlace f 0) = false) (q : Page) : rd t q f = rd s q f :=
    rdi_of_countKey h hfit hoff q
  simp only [injArmed, debugOpen, hrd (f := R.HEADER_ERR_INJ_ARM) (by decide) (by decide), hrd (f := R.HEADER_ERR_INJ_BIT) (by decide) (by decide),
    hrd (f := R.FUSE_CFG_DEBUG_LEVEL) (by decide) (by decide), hrd (f := R.SEC_STATUS_DEBUG_UNLOCKED) (by decide) (by decide)]

/-! ### A read that meets no error -/

theorem Counts.readsSound {s t : State} (h : Counts s t) {a n : Nat} (hs : ReadsSound s a n) : ReadsSound t a n := by
  obtain ⟨hinj, hplace⟩ := hs
  refine ⟨fun p b => (injArmed_of_countKey h.2 p b).trans (hinj p b), fun i hi => ?_⟩
  rw [(tablesStand_of_countKey h.2).locate_eq, h.1.eq State.dramSyms fun _ _ => rfl, h.1.eq State.chDead fun _ _ => rfl]
  exact hplace i hi

theorem mem_blocksOf {a n blk : Nat} (h : blk ∈ blocksOf a n) : ∃ i < n, (a + i) / 64 = blk := by
  unfold blocksOf at h
  split at h
  · cases h
  · obtain ⟨j, hj, rfl⟩ := List.mem_map.mp h
    have := List.mem_range.mp hj
    by_cases h0 : j = 0
    · exact ⟨0, by omega, by omega⟩
    · exact ⟨(j + a / 64) * 64 - a, by omega, by omega⟩

/-- A block that is sound meets nothing. -/
theorem meetBlock_sound {s : State} {a n blk : Nat} (hs : ReadsSound s a n) (hblk : blk ∈ blocksOf a n) (ctx step : Option Nat) :
    meetBlock ctx step blk s = s := by
  obtain ⟨hinj, hplace⟩ := hs
  obtain ⟨i, hi, rfl⟩ := mem_blocksOf hblk
  obtain ⟨q, hq, hsyms, hdead⟩ := hplace i hi
  obtain ⟨q0, hq0, -, hdiv⟩ := locate_blockBase hq
  have hch : chOf q0 = q / 2 ^ 31 := by
    unfold chOf
    omega
  rw [meetBlock, hq0]
  dsimp only
  rw [hch, hdead, if_neg (by decide), hdiv, hsyms]
  split
  · rfl
  · unfold decodeBlock
    simp [checkFor_quiet_false (hinj _ _)]

/-- Such a read only counts. -/
theorem counts_dramFetch {s : State} {a n : Nat} (hs : ReadsSound s a n) (ctx step : Option Nat) : Counts s (dramFetch a n ctx step s) := by
  have hfold : ∀ (l : List Nat) (u : State), ReadsSound u a n → (∀ b ∈ l, b ∈ blocksOf a n) →
      Counts u (l.foldl (fun t b => meetBlock ctx step b (countRd a n b ctx t)) u) := by
    intro l
    induction l with
    | nil => exact fun u _ _ => counts_refl u
    | cons b l ih =>
      intro u hu hsub
      have hcount := counts_countRd a n b ctx u
      have hsound := hcount.readsSound hu
      rw [List.foldl_cons, meetBlock_sound hsound (hsub b (by simp))]
      exact hcount.trans (ih _ hsound fun c hc => hsub c (by simp [hc]))
  exact hfold _ s hs fun _ h => h

theorem counts_fetchCtx {s : State} {a len : Nat} (hs : ReadsSound s a len) (n : Nat) : Counts s (fetchCtx n a len s) :=
  (counts_dramFetch hs _ _).trans (counts_wr (f := R.CTX_DRAM_BYTES) (by decide) (by decide) _ _ _)

end Sys2Proof.Machine
end

section
/-!
SUPPORT. What a write to device DRAM stores, wherever its bytes live, and the words read back (R182, R187).
-/

namespace Sys2Proof.Machine

/-! ### Bytes -/

/-- A place that no address of a write lives at keeps its byte. -/
theorem dramCell_putBytes_other (bs : List Nat) {a q : Nat} {s : State} (h : ∀ i < bs.length, locate s (a + i) ≠ some q) :
    dramCell (putBytes a bs s) q = dramCell s q := by
  induction bs generalizing a s with
  | nil => rfl
  | cons b bs ih =>
    have hfirst : dramCell (putByte a b s) q = dramCell s q := by
      cases hp : locate s a with
      | none => simp [putByte, hp]
      | some p =>
        have hpq : q ≠ p := fun heq => h 0 (by simp) (by rw [Nat.add_zero, hp, heq])
        by_cases hdead : mapGet false s.chDead (p / 2 ^ 31) = true
        · rw [putByte, hp]
          exact congrArg (fun t => dramCell t q) (if_pos hdead)
        · rw [dramCell_putByte b hp (by simpa using hdead), if_neg hpq]
    rw [putBytes, ih fun i hi => ?_, hfirst]
    rw [locate_putByte, Nat.add_assoc, Nat.add_comm 1 i]
    exact h (i + 1) (by simpa using hi)

/-- Bytes with a place each are stored. -/
theorem dramCell_putBytes_self (bs : List Nat) {a : Nat} {s : State} (h : Places s a bs.length) {i q : Nat} (hi : i < bs.length)
    (hq : locate s (a + i) = some q) : dramCell (putBytes a bs s) q = BitVec.ofNat 8 (bs.getD i 0) := by
  obtain ⟨hworks, hinj⟩ := h
  induction bs generalizing a s i with
  | nil => cases hi
  | cons b bs ih =>
    have hdead : (putByte a b s).chDead = s.chDead := (congrArg State.chDead (putByte_frame a b s) :)
    have hshift (j : Nat) : locate (putByte a b s) (a + 1 + j) = locate s (a + (j + 1)) := by
      rw [locate_putByte, Nat.add_assoc, Nat.add_comm 1 j]
    rw [putBytes]
    cases i with
    | zero =>
      rw [dramCell_putBytes_other bs fun j hj heq => ?_]
      · obtain ⟨p, hp, hlive⟩ := hworks 0 (by simp)
        obtain rfl : p = q := Option.some.inj (hp.symm.trans hq)
        exact (dramCell_putByte b hp hlive p).trans (if_pos rfl)
      · rw [hshift] at heq
        have := hinj 0 (by simp) (j + 1) (by simpa using hj) (hq.trans heq.symm)
        omega
    | succ i =>
      have hi' : i < bs.length := by simpa using hi
      refine ih hi' (by rw [hshift, hq]) (fun j hj => ?_) fun j hj k hk heq => ?_
      · rw [hshift, hdead]
        exact hworks (j + 1) (by simpa using hj)
      · rw [hshift, hshift] at heq
        have := hinj (j + 1) (by simpa using hj) (k + 1) (by simpa using hk) heq
        omega

/-! ### Writes -/

/-- `t` is `s` with bytes stored from `a`, each where it lives, and the counts of the write. -/
structure Stored (a : Nat) (bs : List Nat) (s t : State) : Prop where
  regs : KeepsRegs countKey s t
  dead : t.chDead = s.chDead
  ctxs : t.ctxs = s.ctxs
  here : ∀ i < bs.length, ∀ q, locate s (a + i) = some q → dramCell t q = BitVec.ofNat 8 (bs.getD i 0)
  there : ∀ q, (∀ i < bs.length, locate s (a + i) ≠ some q) → dramCell t q = dramCell s q

/-- The bytes, the channels and the contexts are the same, and only counts differ among the register fields. -/
structure SameCells (s t : State) : Prop where
  regs : KeepsRegs countKey s t
  dead : t.chDead = s.chDead
  ctxs : t.ctxs = s.ctxs
  dram : t.dram = s.dram
  any : t.dramAny = s.dramAny

theorem SameCells.trans {s t u : State} (h : SameCells s t) (g : SameCells t u) : SameCells s u :=
  ⟨h.regs.trans g.regs, g.dead.trans h.dead, g.ctxs.trans h.ctxs, g.dram.trans h.dram, g.any.trans h.any⟩

theorem Counts.sameCells {s t : State} (h : Counts s t) : SameCells s t :=
  ⟨h.2, h.1.eq State.chDead fun _ _ => rfl, h.1.eq State.ctxs fun _ _ => rfl, h.1.eq State.dram fun _ _ => rfl,
    h.1.eq State.dramAny fun _ _ => rfl⟩

theorem sameCells_markBlock (a n : Nat) (poison : Bool) (blk : Nat) (s : State) : SameCells s (markBlock a n poison blk s) := by
  have h := markBlock_frame a n poison blk s
  exact ⟨fun key _ => by rw [(congrArg State.regs h :)], (congrArg State.chDead h :), (congrArg State.ctxs h :), (congrArg State.dram h :),
    (congrArg State.dramAny h :)⟩

/-- What follows the bytes of a write leaves them. -/
theorem sameCells_dramWrite (a : Nat) (bs : List Nat) (poison : Bool) (s : State) : SameCells (putBytes a bs s) (dramWrite a bs poison s) := by
  have hfold := foldl_keeps (SameCells (putBytes a bs s)) (fun t b => countWr a bs.length b (markBlock a bs.length poison b t))
    (fun u b hu => hu.trans ((sameCells_markBlock ..).trans (counts_countWr ..).sameCells)) (blocksOf a bs.length) (putBytes a bs s)
    (counts_refl _).sameCells
  exact ⟨hfold.regs, hfold.dead, hfold.ctxs, hfold.dram, hfold.any⟩

theorem stored_dramWrite {a : Nat} {bs : List Nat} {s : State} (h : Places s a bs.length) (poison : Bool) :
    Stored a bs s (dramWrite a bs poison s) := by
  obtain ⟨hregs, hdead, hctxs, hdram, hany⟩ := sameCells_dramWrite a bs poison s
  have hput := putBytes_frame bs a s
  have hcell (q : Nat) : dramCell (dramWrite a bs poison s) q = dramCell (putBytes a bs s) q := dramCell_congr hdram hany q
  refine ⟨fun key hkey => ?_, hdead.trans (congrArg State.chDead hput :), hctxs.trans (congrArg State.ctxs hput :), fun i hi q hq => ?_,
    fun q hq => ?_⟩
  · rw [hregs key hkey, (congrArg State.regs hput :)]
  · rw [hcell, dramCell_putBytes_self bs h hi hq]
  · rw [hcell, dramCell_putBytes_other bs hq]

theorem Stored.locate_eq {a : Nat} {bs : List Nat} {s t : State} (h : Stored a bs s t) (b : Nat) : locate t b = locate s b :=
  (tablesStand_of_countKey h.regs).locate_eq b

/-! ### Words -/

/-- No address of `m` bytes from `b` lives where one of `n` bytes from `a` does. -/
def Off (s : State) (a n b m : Nat) : Prop := ∀ i < n, ∀ j < m, locate s (a + i) ≠ locate s (b + j)

/-- Bytes stored elsewhere are not read. -/
theorem Stored.dramRead_other {a b m : Nat} {bs : List Nat} {s t : State} (h : Stored a bs s t) (hoff : Off s a bs.length b m) :
    dramRead t b m = dramRead s b m := by
  refine List.map_congr_left fun j hj => ?_
  rw [h.locate_eq]
  cases hq : locate s (b + j) with
  | none => rfl
  | some q =>
    have hcell := h.there q fun i hi heq => hoff i hi j (List.mem_range.mp hj) (heq.trans hq.symm)
    simp [hcell]

theorem Stored.dramWord_other {a b : Nat} {bs : List Nat} {s t : State} (h : Stored a bs s t) (hoff : Off s a bs.length b 8) :
    dramWord t b = dramWord s b := congrArg ofBytes (h.dramRead_other hoff)

/-- Stored bytes are read back. -/
theorem Stored.dramRead_self {a off m : Nat} {bs : List Nat} {s t : State} (h : Stored a bs s t) (hworks : Works s a bs.length)
    (hbyte : ∀ b ∈ bs, b < 256) (hm : off + m ≤ bs.length) : dramRead t (a + off) m = (bs.drop off).take m := by
  refine List.ext_getElem (by simp [dramRead]; omega) fun j hj _ => ?_
  have hj' : j < m := by simpa [dramRead] using hj
  obtain ⟨q, hq, -⟩ := hworks (off + j) (by omega)
  have hcell := h.here (off + j) (by omega) q hq
  have hlt : bs[off + j] < 256 := hbyte _ (List.getElem_mem _)
  rw [List.getD_eq_getElem _ _ (by omega)] at hcell
  simp [dramRead, Nat.add_assoc, h.locate_eq, hq, hcell, Nat.mod_eq_of_lt hlt]

@[simp] theorem length_bytesOf (n v : Nat) : (bytesOf n v).length = n := by
  induction n generalizing v with
  | zero => rfl
  | succ n ih => simp [bytesOf, ih]

theorem lt_of_mem_bytesOf {n v b : Nat} (h : b ∈ bytesOf n v) : b < 256 := by
  induction n generalizing v with
  | zero => cases h
  | succ n ih =>
    obtain rfl | h := List.mem_cons.mp h
    · omega
    · exact ih h

theorem ofBytes_bytesOf (n v : Nat) : ofBytes (bytesOf n v) = v % 256 ^ n := by
  induction n generalizing v with
  | zero => simp [bytesOf, ofBytes, Nat.mod_one]
  | succ n ih => rw [bytesOf, ofBytes, ih, Nat.pow_succ', Nat.mod_mul]

theorem ofBytes_word (v : Nat) : ofBytes (bytesOf 8 v) = v % 2 ^ 64 := ofBytes_bytesOf 8 v

/-- A stored word is read back. -/
theorem Stored.dramWord_self {a v : Nat} {s t : State} (h : Stored a (bytesOf 8 v) s t) (hworks : Works s a 8) :
    dramWord t a = v % 2 ^ 64 := by
  have hread := h.dramRead_self (off := 0) (m := 8) (by simpa using hworks) (fun b hb => lt_of_mem_bytesOf hb) (by simp)
  rw [dramWord, ← Nat.add_zero a, hread, List.drop_zero, List.take_of_length_le (by simp), ofBytes_word]

/-- The bytes of one word among many. -/
theorem bytes_of_words (l : List Nat) {j : Nat} (hj : j < l.length) :
    ((l.flatMap (bytesOf 8)).drop (8 * j)).take 8 = bytesOf 8 (l.getD j 0) := by
  induction l generalizing j with
  | nil => cases hj
  | cons w l ih =>
    rw [List.flatMap_cons]
    cases j with
    | zero => rw [Nat.mul_zero, List.drop_zero, List.take_append_of_le_length (by simp), List.take_of_length_le (by simp)]; rfl
    | succ j =>
      rw [show 8 * (j + 1) = (bytesOf 8 w).length + 8 * j by rw [length_bytesOf]; omega, List.drop_append, List.drop_of_length_le (by simp),
        List.nil_append]
      simpa using ih (by simpa using hj)

theorem length_words (l : List Nat) : (l.flatMap (bytesOf 8)).length = 8 * l.length := by
  induction l with
  | nil => rfl
  | cons w l ih => rw [List.flatMap_cons, List.length_append, length_bytesOf, ih, List.length_cons]; omega

/-- One of many stored words is read back. -/
theorem Stored.dramWord_words {a j : Nat} {l : List Nat} {s t : State} (h : Stored a (l.flatMap (bytesOf 8)) s t) (hworks : Works s a (8 * l.length))
    (hj : j < l.length) : dramWord t (a + 8 * j) = l.getD j 0 % 2 ^ 64 := by
  have hread := h.dramRead_self (off := 8 * j) (m := 8) (by rwa [length_words]) (fun b hb => by
    obtain ⟨w, -, hw⟩ := List.mem_flatMap.mp hb
    exact lt_of_mem_bytesOf hw) (by rw [length_words]; omega)
  rw [dramWord, hread, bytes_of_words l hj, ofBytes_word]

end Sys2Proof.Machine
end

section
/-!
SUPPORT. Addresses that live apart, and the words of a planned step (R182, R248, R269, R270).
-/

namespace Sys2Proof.Machine

/-! ### Spans that live apart -/

/-- Device DRAM has its places and its working channels in `t` as in `s`. -/
structure SameMap (s t : State) : Prop where
  locate : ∀ a, locate t a = locate s a
  dead : t.chDead = s.chDead

theorem SameMap.trans {s t u : State} (h : SameMap s t) (g : SameMap t u) : SameMap s u :=
  ⟨fun a => (g.locate a).trans (h.locate a), g.dead.trans h.dead⟩

theorem Stored.sameMap {a : Nat} {bs : List Nat} {s t : State} (h : Stored a bs s t) : SameMap s t := ⟨h.locate_eq, h.dead⟩

theorem SameCells.sameMap {s t : State} (h : SameCells s t) : SameMap s t := ⟨(tablesStand_of_countKey h.regs).locate_eq, h.dead⟩

theorem SameMap.places {s t : State} (h : SameMap s t) {a n : Nat} (hp : Places s a n) : Places t a n := by
  obtain ⟨hworks, hinj⟩ := hp
  refine ⟨fun i hi => ?_, fun i hi j hj heq => ?_⟩
  · rw [h.locate, h.dead]
    exact hworks i hi
  · rw [h.locate, h.locate] at heq
    exact hinj i hi j hj heq

theorem SameMap.off {s t : State} (h : SameMap s t) {a n b m : Nat} (ho : Off s a n b m) : Off t a n b m := fun i hi j hj => by
  rw [h.locate, h.locate]
  exact ho i hi j hj

theorem Places.sub {s : State} {a n : Nat} (h : Places s a n) (o m : Nat) (hm : o + m ≤ n) : Places s (a + o) m := by
  obtain ⟨hworks, hinj⟩ := h
  refine ⟨fun i hi => ?_, fun i hi j hj heq => ?_⟩
  · rw [Nat.add_assoc]
    exact hworks (o + i) (by omega)
  · rw [Nat.add_assoc, Nat.add_assoc] at heq
    have := hinj (o + i) (by omega) (o + j) (by omega) heq
    omega

/-- Two parts of one span live apart. -/
theorem Places.off {s : State} {a n : Nat} (h : Places s a n) (o m o' m' : Nat) (hm : o + m ≤ n) (hm' : o' + m' ≤ n)
    (hdisj : o + m ≤ o' ∨ o' + m' ≤ o) : Off s (a + o) m (a + o') m' := fun i hi j hj heq => by
  rw [Nat.add_assoc, Nat.add_assoc] at heq
  have := h.2 (o + i) (by omega) (o' + j) (by omega) heq
  omega

theorem Off.sub {s : State} {a n b m : Nat} (h : Off s a n b m) (o n' o' m' : Nat) (hn : o + n' ≤ n) (hm : o' + m' ≤ m) :
    Off s (a + o) n' (b + o') m' := fun i hi j hj => by
  rw [Nat.add_assoc, Nat.add_assoc]
  exact h (o + i) (by omega) (o' + j) (by omega)

theorem Off.symm {s : State} {a n b m : Nat} (h : Off s a n b m) : Off s b m a n := fun i hi j hj heq => h j hj i hi heq.symm

theorem mem_spanOf {a n i : Nat} (h : i < n) : a + i ∈ spanOf a n := List.mem_map.mpr ⟨i, List.mem_range.mpr h, rfl⟩

theorem Apart.left {s : State} {l m : List Nat} (h : Apart s (l ++ m)) : Apart s l := by
  obtain ⟨hworks, hnodup⟩ := h
  rw [List.map_append] at hnodup
  exact ⟨fun a ha => hworks a (List.mem_append_left _ ha), (List.nodup_append'.mp hnodup).1⟩

theorem Apart.right {s : State} {l m : List Nat} (h : Apart s (l ++ m)) : Apart s m := by
  obtain ⟨hworks, hnodup⟩ := h
  rw [List.map_append] at hnodup
  exact ⟨fun a ha => hworks a (List.mem_append_right _ ha), (List.nodup_append'.mp hnodup).2.1⟩

theorem Apart.places {s : State} {a n : Nat} (h : Apart s (spanOf a n)) : Places s a n := by
  obtain ⟨hworks, hnodup⟩ := h
  refine ⟨fun i hi => hworks _ (mem_spanOf hi), fun i hi j hj heq => ?_⟩
  have := List.inj_on_of_nodup_map hnodup (mem_spanOf hi) (mem_spanOf hj) heq
  omega

theorem Apart.off {s : State} {l m : List Nat} (h : Apart s (l ++ m)) {a n b k : Nat} (ha : ∀ i < n, a + i ∈ l) (hb : ∀ i < k, b + i ∈ m) :
    Off s a n b k := by
  obtain ⟨-, hnodup⟩ := h
  rw [List.map_append] at hnodup
  exact fun i hi j hj heq => (List.nodup_append'.mp hnodup).2.2 (List.mem_map_of_mem (ha i hi))
    (heq ▸ List.mem_map_of_mem (hb j hj))

/-- The spans of a plan: the report at `r`, the step block at `b`, the tally at `t` and the head word at `h`. -/
structure PlanSpans (s : State) (r b t h : Nat) : Prop where
  report : Places s r 128
  block : Places s b 256
  tally : Places s t 8
  head : Places s h 8
  reportBlock : Off s r 128 b 256
  reportTally : Off s r 128 t 8
  reportHead : Off s r 128 h 8
  blockTally : Off s b 256 t 8
  blockHead : Off s b 256 h 8
  tallyHead : Off s t 8 h 8

theorem planSpans {s : State} {r b t h : Nat} (hapart : Apart s (spanOf r 128 ++ spanOf b 256 ++ spanOf t 8 ++ spanOf h 8)) :
    PlanSpans s r b t h := by
  have hself {a n : Nat} : ∀ i < n, a + i ∈ spanOf a n := fun i hi => mem_spanOf hi
  have hlast {l : List Nat} {a n : Nat} : ∀ i < n, a + i ∈ l ++ spanOf a n := fun i hi => List.mem_append_right _ (mem_spanOf hi)
  have h3 := hapart.left
  have h2 := h3.left
  exact ⟨h2.left.places, h2.right.places, h3.right.places, hapart.right.places, h2.off hself hself,
    h3.off (fun i hi => List.mem_append_left _ (mem_spanOf hi)) hself,
    hapart.off (fun i hi => List.mem_append_left _ (List.mem_append_left _ (mem_spanOf hi))) hself,
    h3.off hlast hself, hapart.off (fun i hi => List.mem_append_left _ (hlast i hi)) hself, hapart.off hlast hself⟩

theorem SameMap.planSpans {s u : State} (hmap : SameMap s u) {r b t h : Nat} (hs : PlanSpans s r b t h) : PlanSpans u r b t h := by
  obtain ⟨h1, h2, h3, h4, h5, h6, h7, h8, h9, h10⟩ := hs
  exact ⟨hmap.places h1, hmap.places h2, hmap.places h3, hmap.places h4, hmap.off h5, hmap.off h6, hmap.off h7, hmap.off h8,
    hmap.off h9, hmap.off h10⟩

end Sys2Proof.Machine
end

section
/-!
SUPPORT. A step planned: the plan half of its report, NEXT_STEP, PLAN_TALLY and the head (R248, R269, R270, R349).
-/

namespace Sys2Proof.Machine

/-- `t` is `s` with writes to device DRAM: its places, its contexts and all register fields but counts are the same. -/
structure Wrote (s t : State) : Prop where
  map : SameMap s t
  regs : KeepsRegs countKey s t
  ctxs : t.ctxs = s.ctxs

theorem Wrote.trans {s t u : State} (h : Wrote s t) (g : Wrote t u) : Wrote s u :=
  ⟨h.map.trans g.map, h.regs.trans g.regs, g.ctxs.trans h.ctxs⟩

theorem Stored.wrote {a : Nat} {bs : List Nat} {s t : State} (h : Stored a bs s t) : Wrote s t := ⟨h.sameMap, h.regs, h.ctxs⟩

/-- A word put where it has its place: it is read back, and words that live elsewhere stay. -/
theorem dramPutWord_spec {a : Nat} {s : State} (h : Places s a 8) (v : Nat) :
    Wrote s (dramPutWord a v s) ∧ dramWord (dramPutWord a v s) a = v % 2 ^ 64 ∧
      ∀ b, Off s a 8 b 8 → dramWord (dramPutWord a v s) b = dramWord s b := by
  have hst : Stored a (bytesOf 8 v) s (dramPutWord a v s) := stored_dramWrite (by rwa [length_bytesOf]) false
  exact ⟨hst.wrote, hst.dramWord_self h.1, fun b hb => hst.dramWord_other (by rwa [length_bytesOf])⟩

/-- The plan half of a report, where the report has its place. -/
theorem writePlanHalf_spec {x : Ctx} {p : Plan} {tag r : Nat} {s : State} (hr : reportAddr s x p.step = r) (h : Places s r 128) :
    let u := writePlanHalf x p tag s
    Wrote s u ∧ dramWord u r = (p.step + 2 ^ 32) % 2 ^ 64 ∧ dramWord u (r + 8) = (p.b + p.first * 2 ^ 21 + p.count * 2 ^ 41) % 2 ^ 64 ∧
      dramWord u (r + 88) = tag % 2 ^ 64 ∧ ∀ b, Off s r 128 b 8 → dramWord u b = dramWord s b := by
  intro u
  obtain ⟨c, hc⟩ : ∃ c, c = p.b + p.first * 2 ^ 21 + p.count * 2 ^ 41 := ⟨_, rfl⟩
  obtain ⟨d, hd⟩ : ∃ d, d = p.step + 2 ^ 32 := ⟨_, rfl⟩
  obtain ⟨l, hl⟩ : ∃ l, l = c :: (List.range 14).map (fun i => if i + 2 = 11 then tag else 0) := ⟨_, rfl⟩
  have hlen : l.length = 15 := by simp [hl]
  obtain ⟨w, hw⟩ : ∃ w, w = dramWrite (r + 8) (l.flatMap (bytesOf 8)) false s := ⟨_, rfl⟩
  have hu : u = dramPutWord r d w := by
    subst hw hl hc hd hr
    rfl
  rw [← hc, ← hd]
  have hbody : Places s (r + 8) 120 := h.sub 8 120 (by decide)
  have hst : Stored (r + 8) (l.flatMap (bytesOf 8)) s w := hw ▸ stored_dramWrite (by rw [length_words, hlen]; exact hbody) false
  have hword {j : Nat} (hj : j < 15) : dramWord w (r + 8 + 8 * j) = l.getD j 0 % 2 ^ 64 :=
    hst.dramWord_words (by rw [hlen]; exact hbody.1) (by omega)
  have hkept {b : Nat} (hb : Off s (r + 8) 120 b 8) : dramWord w b = dramWord s b := hst.dramWord_other (by rwa [length_words, hlen])
  have hfirst : Places w r 8 := hst.sameMap.places (h.sub 0 8 (by decide))
  have hoff (o : Nat) (ho : 8 ≤ o ∧ o + 8 ≤ 128) : Off w r 8 (r + o) 8 :=
    hst.sameMap.off (h.off 0 8 o 8 (by decide) ho.2 (.inl (by omega)))
  obtain ⟨hwrote, hself, hother⟩ := dramPutWord_spec hfirst d
  rw [← hu] at hwrote hself hother
  refine ⟨hst.wrote.trans hwrote, hself, ?_, ?_, fun b hb => ?_⟩
  · rw [hother _ (hoff 8 (by decide)), hword (j := 0) (by decide), hl]
    rfl
  · rw [hother _ (hoff 88 (by decide)), hword (j := 10) (by decide), hl]
    rfl
  · exact (hother b (hst.sameMap.off (hb.sub 0 8 0 8 (by decide) (by decide)))).trans (hkept (hb.sub 8 120 0 8 (by decide) (by decide)))

theorem dramWord_lt (s : State) (a : Nat) : dramWord s a < 2 ^ 64 := by
  have hbytes : ∀ l : List Nat, (∀ b ∈ l, b < 256) → ofBytes l < 256 ^ l.length := by
    intro l
    induction l with
    | nil => simp [ofBytes]
    | cons b l ih =>
      intro h
      have hb := h b (by simp)
      have := ih fun c hc => h c (by simp [hc])
      rw [ofBytes, List.length_cons, Nat.pow_succ]
      omega
  have hlt : ∀ b ∈ dramRead s a 8, b < 256 := by
    intro b hb
    obtain ⟨i, -, rfl⟩ := List.mem_map.mp hb
    split
    · exact (dramCell s _).isLt
    · decide
  have hlen : (dramRead s a 8).length = 8 := by simp [dramRead]
  have := hbytes _ hlt
  rwa [hlen] at this

/-- A low field put in a word leaves a word. -/
theorem putBits_low_lt {w n v : Nat} (hw : w < 2 ^ 64) (hn : n ≤ 64) : putBits w 0 n v < 2 ^ 64 := by
  have hdiv : w / 2 ^ n < 2 ^ (64 - n) := Nat.div_lt_of_lt_mul (by rw [← Nat.pow_add]; convert hw using 2; omega)
  have hv := Nat.mod_lt v (Nat.two_pow_pos n)
  have hle := Nat.mul_le_mul_right (2 ^ n) (Nat.succ_le_of_lt hdiv)
  have hpow : 2 ^ (64 - n) * 2 ^ n = 2 ^ 64 := by rw [← Nat.pow_add]; congr 1; omega
  rw [Nat.succ_mul, hpow] at hle
  simp only [putBits, Nat.pow_zero, Nat.mod_one, Nat.zero_add, Nat.mul_one]
  omega

/-- What a planned step leaves of its context. -/
def plannedCtx (s : State) (n k : Nat) (p : Plan) (x : Ctx) : Ctx :=
  let open_ (q : Plan) : Bool := stepLt (p.step + 2 ^ 32 - 8) q.step || stepLe (lowestOpen s x) q.step ||
    (match x.admitStep with | some a => stepLe a q.step | none => true)
  { x with
    plans := x.plans.filter (fun q => q.step != p.step && open_ q) ++ [p],
    nextE := mapSet 0 x.nextE 3 (k + 1),
    boundary := some (x.boundary.getD p.step), admitStep := some (x.admitStep.getD p.step),
    reportAt := if x.boundary.isNone then tickOf s else x.reportAt,
    reportMj := if x.boundary.isNone then rd s (pgCtx n) R.CTX_ENERGY_MJ else x.reportMj }

theorem planOf_plannedCtx (s : State) (n k : Nat) (p : Plan) (x : Ctx) : planOf (plannedCtx s n k p x) p.step = some p := by
  rw [planOf, plannedCtx, List.find?_append, List.find?_eq_none.mpr fun q hq => ?_]
  · simp
  · obtain ⟨-, hq⟩ := List.mem_filter.mp hq
    simp only [Bool.and_eq_true, bne_iff_ne] at hq
    simpa using hq.1

end Sys2Proof.Machine
end

section
/-!
SUPPORT. The whole of a planned step, where its words have their places (R248).
-/

namespace Sys2Proof.Machine

/-- The steps of a plan in turn, outside steer mode. -/
theorem planStep_eq {n k : Nat} {x : Ctx} {ws : List Nat} {s : State} {p : Place} {r : Nat} (hsteer : steerMode s x ≠ 2)
    (hplace : x.place = some p) (hrank : rankOf s p = some r) :
    let t := wf ws 0 0 32
    let b := wf ws 0 32 21
    let q : Plan := ⟨t, b, r * b / dpCount p, (r + 1) * b / dpCount p - r * b / dpCount p⟩
    let s1 := writePlanHalf x q (wd ws 1) s
    let s2 := dramPutWord (x.stepBlock + 64) (putBits (blockWord s1 x 8) 0 32 (stepNext t)) s1
    let s3 := tallyAdd (bitsOf (blockWord s2 x 6) 0 48) 1 s2
    steerMode s2 x ≠ 2 → ctxOf s3 n = some x →
    planStep n k x ws s = dramPutWord ((ringOf x 3).tail + 8) (k + 1)
      (wri (pgCtx n) R.CTX_HEAD 3 (k + 1) (setCtx n (plannedCtx s n k q x) s3)) := by
  intro t b q s1 s2 s3 hsteer2 hx
  unfold planStep
  extract_lets b' r' q' s1' s2' s3' open' s4'
  have hb : b' = b := if_neg fun h => hsteer h.1
  have hr : r' = (r * b / dpCount p, (r + 1) * b / dpCount p - r * b / dpCount p) := by
    unfold r'
    rw [hb, hplace]
    simp only [hrank]
    rfl
  have hq : q' = q := by
    unfold q'
    rw [hb, hr]
  have h1 : s1' = s1 := congrArg (fun q => writePlanHalf x q (wd ws 1) s) hq
  have h2 : s2' = s2 := by
    unfold s2'
    rw [h1]
    exact if_pos hsteer2
  have h3 : s3' = s3 := by
    unfold s3'
    rw [h2]
  have h4 : s4' = setCtx n (plannedCtx s n k q x) s3 := by
    unfold s4'
    rw [h3, modCtx, hx]
    dsimp only
    rw [hq]
    rfl
  rw [h4]

theorem sameMap_of_tables {s t : State} (h : TablesStand s t) (hdead : t.chDead = s.chDead) : SameMap s t := ⟨h.locate_eq, hdead⟩

/-- The head of a stream and its context's record set: no word differs. -/
theorem head_spec (n st v : Nat) (x : Ctx) (s : State) :
    let u := wri (pgCtx n) R.CTX_HEAD st v (setCtx n x s)
    st < 4 → SameMap s u ∧ (∀ a, dramWord u a = dramWord s a) ∧ ctxOf u n = some x ∧ headOf u n st = v % 2 ^ R.CTX_HEAD.width := by
  intro u hst
  have htable : tableKey (fieldPlace R.CTX_HEAD st) = false := (by decide : ∀ st < 4, tableKey (fieldPlace R.CTX_HEAD st) = false) st hst
  have htables : TablesStand s u := (tablesStand_of_regs (s := s) (t := setCtx n x s) rfl).trans (tablesStand_wri htable _ _ _)
  refine ⟨sameMap_of_tables htables rfl, fun a => ?_, ctxOf_setCtx .., rdi_wri_self ..⟩
  refine congrArg ofBytes (List.map_congr_left fun i _ => ?_)
  rw [htables.locate_eq]
  rfl

/-- The words, the head and the context that a planned step leaves. -/
theorem planStep_spec {n k : Nat} {x : Ctx} {ws : List Nat} {s : State} {p : Place} {r : Nat} (hx : ctxOf s n = some x)
    (hsteer : steerMode s x ≠ 2) (hplace : x.place = some p) (hrank : rankOf s p = some r)
    (hspans : PlanSpans s (reportAddr s x (wf ws 0 0 32)) x.stepBlock (bitsOf (blockWord s x 6) 0 48) ((ringOf x 3).tail + 8)) :
    let t := wf ws 0 0 32
    let b := wf ws 0 32 21
    let lo := r * b / dpCount p
    let m := (r + 1) * b / dpCount p - lo
    let a := reportAddr s x t
    let tally := bitsOf (blockWord s x 6) 0 48
    let u := planStep n k x ws s
    ∃ y, ctxOf u n = some y ∧ planOf y t = some ⟨t, b, lo, m⟩ ∧ nextOf y 3 = k + 1 ∧ headOf u n 3 = (k + 1) % 2 ^ R.CTX_HEAD.width ∧
      dramWord u (x.stepBlock + 64) = putBits (blockWord s x 8) 0 32 ((t + 1) % 2 ^ 32) ∧
      dramWord u tally = (dramWord s tally + 1) % 2 ^ 64 ∧ dramWord u a = (t + 2 ^ 32) % 2 ^ 64 ∧
      dramWord u (a + 8) = (b + lo * 2 ^ 21 + m * 2 ^ 41) % 2 ^ 64 ∧ dramWord u (a + 88) = wd ws 1 % 2 ^ 64 := by
  intro t b lo m a tally u
  obtain ⟨q, hq⟩ : ∃ q : Plan, q = ⟨t, b, lo, m⟩ := ⟨_, rfl⟩
  obtain ⟨s1, hs1⟩ : ∃ s1, s1 = writePlanHalf x q (wd ws 1) s := ⟨_, rfl⟩
  obtain ⟨w1, hreport, hrange, htag, hkept1⟩ : Wrote s s1 ∧ dramWord s1 a = (t + 2 ^ 32) % 2 ^ 64 ∧
      dramWord s1 (a + 8) = (b + lo * 2 ^ 21 + m * 2 ^ 41) % 2 ^ 64 ∧ dramWord s1 (a + 88) = wd ws 1 % 2 ^ 64 ∧
      ∀ c, Off s a 128 c 8 → dramWord s1 c = dramWord s c := by
    rw [hs1, hq]
    exact writePlanHalf_spec (p := ⟨t, b, lo, m⟩) rfl hspans.report
  -- NEXT_STEP
  have hblock1 (i : Nat) (hi : i < 32) : blockWord s1 x i = blockWord s x i :=
    hkept1 _ (hspans.reportBlock.sub 0 128 (8 * i) 8 (by decide) (by omega))
  obtain ⟨s2, hs2⟩ : ∃ s2, s2 = dramPutWord (x.stepBlock + 64) (putBits (blockWord s1 x 8) 0 32 (stepNext t)) s1 := ⟨_, rfl⟩
  obtain ⟨w2, hnext, hkept2⟩ := dramPutWord_spec (w1.map.places (hspans.block.sub 64 8 (by decide)))
    (putBits (blockWord s1 x 8) 0 32 (stepNext t))
  rw [← hs2] at w2 hnext hkept2
  have hblock2 (i : Nat) (hi : i < 8) : blockWord s2 x i = blockWord s x i :=
    (hkept2 _ (w1.map.off (hspans.block.off 64 8 (8 * i) 8 (by decide) (by omega) (by omega)))).trans (hblock1 i (by omega))
  have hreport2 (o : Nat) (ho : o + 8 ≤ 128) : dramWord s2 (a + o) = dramWord s1 (a + o) :=
    hkept2 _ (w1.map.off (hspans.reportBlock.symm.sub 64 8 o 8 (by decide) ho))
  -- PLAN_TALLY
  have htally2 : dramWord s2 tally = dramWord s tally :=
    (hkept2 _ (w1.map.off (hspans.blockTally.sub 64 8 0 8 (by decide) (by decide)))).trans (hkept1 _ hspans.reportTally)
  obtain ⟨s3, hs3⟩ : ∃ s3, s3 = dramPutWord tally ((dramWord s2 tally + 1) % 2 ^ 64) s2 := ⟨_, rfl⟩
  have m2 := w1.map.trans w2.map
  obtain ⟨w3, hadded, hkept3⟩ := dramPutWord_spec (m2.places hspans.tally) ((dramWord s2 tally + 1) % 2 ^ 64)
  rw [← hs3] at w3 hadded hkept3
  have hctx3 : ctxOf s3 n = some x := by rw [← hx, ctxOf, ctxOf, w3.ctxs, w2.ctxs, w1.ctxs]
  -- the head
  obtain ⟨v, hv⟩ : ∃ v, v = wri (pgCtx n) R.CTX_HEAD 3 (k + 1) (setCtx n (plannedCtx s n k q x) s3) := ⟨_, rfl⟩
  obtain ⟨mv, hwords, hctx, hhead⟩ := head_spec n 3 (k + 1) (plannedCtx s n k q x) s3 (by decide)
  rw [← hv] at mv hwords hctx hhead
  have m4 := (m2.trans w3.map).trans mv
  obtain ⟨w5, -, hkept5⟩ := dramPutWord_spec (m4.places hspans.head) (k + 1)
  have hu : u = dramPutWord ((ringOf x 3).tail + 8) (k + 1) v := by
    have hmode : steerMode s2 x ≠ 2 := by rwa [steerMode, hblock2 0 (by decide)]
    have hadd : tallyAdd (bitsOf (blockWord s2 x 6) 0 48) 1 s2 = s3 := by rw [hblock2 6 (by decide), hs3]; rfl
    have heq := planStep_eq (n := n) (k := k) (ws := ws) hsteer hplace hrank
    dsimp only at heq
    rw [← hq, ← hs1, ← hs2, hadd, ← hv] at heq
    exact heq hmode hctx3
  rw [← hu] at w5 hkept5
  have hlast {c : Nat} (htal : Off s tally 8 c 8) (hhd : Off s ((ringOf x 3).tail + 8) 8 c 8) : dramWord u c = dramWord s2 c :=
    (hkept5 c (m4.off hhd)).trans ((hwords c).trans (hkept3 c (m2.off htal)))
  have hreportLast (o : Nat) (ho : o + 8 ≤ 128) : dramWord u (a + o) = dramWord s1 (a + o) :=
    (hlast (hspans.reportTally.symm.sub 0 8 o 8 (by decide) ho) (hspans.reportHead.symm.sub 0 8 o 8 (by decide) ho)).trans (hreport2 o ho)
  refine ⟨plannedCtx s n k q x, ?_, ?_, ?_, ?_, ?_, ?_, ?_, ?_, ?_⟩
  · rw [ctxOf, w5.ctxs]
    exact hctx
  · rw [hq]
    exact planOf_plannedCtx s n k ⟨t, b, lo, m⟩ x
  · exact mapGet_set_self 0 x.nextE 3 (k + 1)
  · exact (rdi_of_countKey w5.regs (by decide) (by decide) _).trans hhead
  · rw [hlast (hspans.blockTally.symm.sub 0 8 64 8 (by decide) (by decide)) (hspans.blockHead.symm.sub 0 8 64 8 (by decide) (by decide)),
      hnext, hblock1 8 (by decide)]
    exact Nat.mod_eq_of_lt (putBits_low_lt (dramWord_lt s _) (by decide))
  · rw [hkept5 tally (m4.off hspans.tallyHead.symm), hwords, hadded, htally2, Nat.mod_mod]
  · exact (hreportLast 0 (by decide)).trans hreport
  · exact (hreportLast 8 (by decide)).trans hrange
  · exact (hreportLast 88 (by decide)).trans htag

end Sys2Proof.Machine
end

section
/-!
SUPPORT. What comes before a step's plan: the descriptor's fetch and the placement versions (R246, R299, R309).
-/

namespace Sys2Proof.Machine

/-- The places, the bytes and the module's id are the same. -/
structure Looks (s t : State) : Prop where
  map : SameMap s t
  cell : ∀ q, dramCell t q = dramCell s q
  id : myId t = myId s

theorem Counts.looks {s t : State} (h : Counts s t) : Looks s t :=
  ⟨h.sameCells.sameMap, dramCell_congr h.sameCells.dram h.sameCells.any, rdi_of_countKey h.2 (by decide) (by decide) _⟩

/-- What the contexts are does not matter. -/
theorem Looks.withCtxs {s t : State} (h : Looks s t) (m : List (Nat × Ctx)) : Looks s { t with ctxs := m } := ⟨⟨h.map.locate, h.map.dead⟩, h.cell, h.id⟩

theorem Looks.dramWord {s t : State} (h : Looks s t) (a : Nat) : dramWord t a = dramWord s a := by
  refine congrArg ofBytes (List.map_congr_left fun i _ => ?_)
  rw [h.map.locate]
  simp only [h.cell]

theorem Looks.dramWords {s t : State} (h : Looks s t) (a n : Nat) : dramWords t a n = dramWords s a n := by
  have hbulk : dramBulk t a (8 * n) = dramBulk s a (8 * n) := by
    rw [dramBulk_eq, dramBulk_eq]
    refine List.map_congr_left fun i _ => ?_
    rw [h.map.locate]
    simp only [h.cell]
  rw [Sys2Proof.Machine.dramWords, Sys2Proof.Machine.dramWords, hbulk]

theorem Looks.blockWord {s t : State} (h : Looks s t) (x : Ctx) (i : Nat) : blockWord t x i = blockWord s x i := h.dramWord _

theorem Looks.memberIdx {s t : State} (h : Looks s t) (p : Place) : memberIdx t p = memberIdx s p := by
  rw [Sys2Proof.Machine.memberIdx, Sys2Proof.Machine.memberIdx, h.id]

/-- A version already in force, with no next one: NEXT is read where no shards move, and is the last. -/
theorem loadVersions_last {n t : Nat} {c : State} {x : Ctx} {p : Place} (hx : ctxOf c n = some x) (hplace : x.place = some p)
    (hnext : x.placeNext = none) (hend : wf (dramWords c p.addr 8) 4 0 48 = 0) :
    loadVersions n t c = (true, c) ∨
      loadVersions n t c = (true, modCtx n (fun x => { x with place := some p }) (publishFloor n x.polder (fetchCtx n (p.addr + 32) 8 c))) := by
  rw [loadVersions, hx]
  cases migrating c n with
  | true => exact .inl (by simp [hplace, hnext])
  | false => exact .inr (by simp [hplace, hnext, hend])

theorem modCtx_eq {n : Nat} {f : Ctx → Ctx} {s : State} {x : Ctx} (hx : ctxOf s n = some x) : modCtx n f s = setCtx n (f x) s := by
  rw [modCtx, hx]

/-- The versions brought up and the one for the step entered: only counts and the context's record, as it was. -/
theorem enterVersion_last {n t : Nat} {c : State} {x : Ctx} {p : Place} (hx : ctxOf c n = some x) (hplace : x.place = some p)
    (hnext : x.placeNext = none) (hend : wf (dramWords c p.addr 8) 4 0 48 = 0) (hsound : ReadsSound c (p.addr + 32) 8) :
    (loadVersions n t c).1 = true ∧
      ∃ d m, Counts c d ∧ enterVersion n t (loadVersions n t c).2 = { d with ctxs := m } ∧ mapFind m n = some x := by
  have henter {u : State} (hu : ctxOf u n = some x) : enterVersion n t u = setCtx n x u := by
    rw [enterVersion, modCtx_eq hu, hnext]
  obtain h | h := loadVersions_last (t := t) hx hplace hnext hend
  · rw [h]
    exact ⟨rfl, c, mapPut c.ctxs n x, counts_refl c, henter hx, mapFind_put_self ..⟩
  · have hsame : { x with place := some p } = x := by rw [← hplace]
    obtain ⟨d, hd⟩ : ∃ d, d = publishFloor n x.polder (fetchCtx n (p.addr + 32) 8 c) := ⟨_, rfl⟩
    have hcount : Counts c d := by
      rw [hd]
      exact (counts_fetchCtx hsound n).trans (counts_wr (f := R.CTX_SHRINK_FLOOR) (by decide) (by decide) _ _ _)
    have hdx : ctxOf d n = some x := by rw [← hx, ctxOf, ctxOf, hcount.sameCells.ctxs]
    rw [h, ← hd, modCtx_eq hdx, hsame]
    exact ⟨rfl, d, mapPut (mapPut d.ctxs n x) n x, hcount, henter (ctxOf_setCtx ..), mapFind_put_self ..⟩

/-- A descriptor that is in order plans its step, in a state with the same words as the one in which it was read. -/
theorem stepPlan_eq {n : Nat} {s : State} {x : Ctx} {p : Place} (hx : ctxOf s n = some x) (hon : fetchOn s n x = true) (htyp : x.typ = 0)
    (htail : nextOf x 3 < tailOf x 3) (hsteer : steerMode s x ≠ 2) (hdesc : stepDescOk s x (entryWords s x 3 (nextOf x 3)) = true)
    (hplace : x.place = some p) (hnext : x.placeNext = none) (hfor : placeFor x (wf (entryWords s x 3 (nextOf x 3)) 0 0 32) = some p)
    (hend : wf (dramWords s p.addr 8) 4 0 48 = 0) (hnames : namesMe s p = true)
    (hsound : ReadsSound s ((ringOf x 3).base + nextOf x 3 % 2 ^ (ringOf x 3).log2n * 64) 64) (hsound' : ReadsSound s (p.addr + 32) 8) :
    ∃ s2, Looks s s2 ∧ ctxOf s2 n = some x ∧
      stepPlan n s = retryPinned (planStep n (nextOf x 3) x (entryWords s x 3 (nextOf x 3)) s2) := by
  obtain ⟨c, hc⟩ : ∃ c, c = fetchCtx n ((ringOf x 3).base + nextOf x 3 % 2 ^ (ringOf x 3).log2n * 64) 64 s := ⟨_, rfl⟩
  have hcount : Counts s c := hc ▸ counts_fetchCtx hsound n
  have hcx : ctxOf c n = some x := by rw [← hx, ctxOf, ctxOf, hcount.sameCells.ctxs]
  have hcheck : checkFor (pgCtx n) 4 (!stepDescOk s x (entryWords s x 3 (nextOf x 3))) c = (false, c) := by
    rw [hdesc]
    exact checkFor_quiet_false ((injArmed_of_countKey hcount.2 _ _).trans (hsound.1 _ _))
  have hready : planReady s x (wf (entryWords s x 3 (nextOf x 3)) 0 0 32) = true := by simp [planReady, hsteer]
  obtain ⟨hload, d, m, hd, henter, hm⟩ := enterVersion_last (t := wf (entryWords s x 3 (nextOf x 3)) 0 0 32) hcx hplace hnext
    (by rw [hcount.looks.dramWords]; exact hend) (hcount.readsSound hsound')
  have hlooks : Looks s { d with ctxs := m } := (hcount.trans hd).looks.withCtxs m
  have hstays : leavesJob { d with ctxs := m } x (wf (entryWords s x 3 (nextOf x 3)) 0 0 32) = false := by
    rw [leavesJob, hfor]
    simp only [namesMe, hlooks.memberIdx]
    simpa [namesMe] using hnames
  refine ⟨{ d with ctxs := m }, hlooks, hm, ?_⟩
  rw [stepPlan, hx]
  dsimp only
  rw [if_neg (by simp [hon, htyp, htail]), ← hc, hcheck]
  dsimp only
  rw [if_neg (by decide), if_neg (by simp [hready]), if_neg (by simp [hload]), henter,
    show ctxOf { d with ctxs := m } n = some x from hm]
  dsimp only
  rw [hstays, if_neg (by decide)]

end Sys2Proof.Machine
end

section
/-!
SUPPORT. A step boundary: the values taken, the snapshots, and what the audits due leave of them (R263, R438, R490).
-/

namespace Sys2Proof.Machine

/-! ### What the audits leave -/

/-- The snapshots of the PERF pages. -/
def snapKeys : List Nat := (List.range 5).flatMap (fun d =>
  [R.PERF_SNAP_STEP, R.PERF_SNAP_TICK, R.PERF_SNAP_SEQ].map (fun f => fieldKey (pgPerf d) f 0) ++
    (List.range 16).map (fun i => fieldKey (pgPerf d) R.PERF_SNAP_CNT i))

/-- The snapshots and the contexts are the same. -/
structure KeepsSnaps (s t : State) : Prop where
  regs : ∀ key ∈ snapKeys, mapFind t.regs key = mapFind s.regs key
  ctxs : t.ctxs = s.ctxs

theorem keepsSnaps_refl (s : State) : KeepsSnaps s s := ⟨fun _ _ => rfl, rfl⟩

theorem KeepsSnaps.trans {s t u : State} (h : KeepsSnaps s t) (g : KeepsSnaps t u) : KeepsSnaps s u :=
  ⟨fun key hk => (g.regs key hk).trans (h.regs key hk), g.ctxs.trans h.ctxs⟩

/-- A field filed elsewhere in its page than a snapshot. -/
def offSnap (f : RegField) (n : Nat) : Bool := snapKeys.all (fun key => key % 1048576 != fieldPlace f n % 1048576)

theorem keepsSnaps_wri {f : RegField} {n : Nat} (h : offSnap f n = true) (p : Page) (v : Nat) (s : State) : KeepsSnaps s (wri p f n v s) :=
  ⟨fun key hk => wri_keeps p f n v s key (ne_fieldKey_of_place (by simpa using List.all_eq_true.mp h key hk) p), rfl⟩

theorem keepsSnaps_recordErr (p : Page) (bit : Nat) (ctx : Option Nat) (s : State) : KeepsSnaps s (recordErr p bit ctx s) := by
  have hoff : ∀ key ∈ snapKeys, eventKey key = false := by decide +kernel
  have hframe := recordErr_frame p bit ctx s
  unfold SameButEvents at hframe
  exact ⟨fun key hk => (recordErr_events p bit ctx s).1 key (hoff key hk), (congrArg State.ctxs hframe :)⟩

theorem keepsSnaps_dramWrite (a : Nat) (bs : List Nat) (poison : Bool) (s : State) : KeepsSnaps s (dramWrite a bs poison s) := by
  have hoff : ∀ key ∈ snapKeys, countKey key = false := by decide +kernel
  have hcells := sameCells_dramWrite a bs poison s
  have hput := putBytes_frame bs a s
  exact ⟨fun key hk => (hcells.regs key (hoff key hk)).trans (by rw [(congrArg State.regs hput :)]), hcells.ctxs.trans (congrArg State.ctxs hput :)⟩

theorem keepsSnaps_setAudit (c : Nat) (a : AuditSt) (s : State) : KeepsSnaps s (setAudit c a s) := ⟨fun _ _ => rfl, rfl⟩

theorem offSnap_repair : ∀ f ∈ [R.DIE_REPAIR_COL, R.DIE_REPAIR_USED, R.DIE_REPAIR_CONDITIONAL], ∀ k < 64, offSnap f k = true := by
  decide +kernel

theorem offSnap_counts : ∀ f ∈ [R.DIE_STATUS_SPARES_FREE, R.DIE_STATUS_BLOCKS_WITHDRAWN, R.DIE_WITHDRAWN, R.AUDIT_LOG_TAIL], offSnap f 0 = true := by
  decide +kernel

theorem keepsSnaps_repair {f : RegField} (hf : f ∈ [R.DIE_REPAIR_COL, R.DIE_REPAIR_USED, R.DIE_REPAIR_CONDITIONAL]) (p : Page) (c v : Nat)
    (s : State) : KeepsSnaps s (wri p f (halfRowOf c % 64) v s) :=
  keepsSnaps_wri (offSnap_repair f hf _ (Nat.mod_lt _ (by decide))) p v s

theorem keepsSnaps_wr {f : RegField} (hf : f ∈ [R.DIE_STATUS_SPARES_FREE, R.DIE_STATUS_BLOCKS_WITHDRAWN, R.DIE_WITHDRAWN, R.AUDIT_LOG_TAIL])
    (p : Page) (v : Nat) (s : State) : KeepsSnaps s (wr p f v s) := keepsSnaps_wri (offSnap_counts f hf) p v s

theorem keepsSnaps_shiftRow (c : Nat) (cond : Bool) (s : State) : KeepsSnaps s (shiftRow c cond s) := by
  unfold shiftRow
  extract_lets p k s1
  have h1 : KeepsSnaps s s1 := (keepsSnaps_repair (by decide) p c _ _).trans ((keepsSnaps_repair (by decide) p c _ _).trans
    (keepsSnaps_repair (by decide) p c _ _))
  have h2 : KeepsSnaps s1 { s1 with audits := s1.audits.filter (fun a => a.aud != halfRowOf c) } := ⟨fun _ _ => rfl, rfl⟩
  exact h1.trans (h2.trans (keepsSnaps_wr (by decide) p _ _))

theorem keepsSnaps_unshiftRow (c : Nat) (s : State) : KeepsSnaps s (unshiftRow c s) :=
  (keepsSnaps_repair (by decide) _ c _ _).trans ((keepsSnaps_repair (by decide) _ c _ _).trans
    ((keepsSnaps_repair (by decide) _ c _ _).trans (keepsSnaps_wr (by decide) _ _ _)))

theorem keepsSnaps_repairCore (c : Nat) (s : State) : KeepsSnaps s (repairCore c s) := by
  unfold repairCore
  extract_lets i s1
  have h1 : KeepsSnaps s s1 := ⟨fun _ _ => rfl, rfl⟩
  exact h1.trans ((keepsSnaps_shiftRow c false s1).trans (keepsSnaps_recordErr ..))

theorem keepsSnaps_withdrawBlock (c : Nat) (s : State) : KeepsSnaps s (withdrawBlock c s) := by
  unfold withdrawBlock
  extract_lets p b
  split
  · exact keepsSnaps_refl s
  · exact ((keepsSnaps_wr (by decide) p _ _).trans (keepsSnaps_wr (by decide) p _ _)).trans (keepsSnaps_recordErr ..)

theorem keepsSnaps_auditLog (ty c n step mmas first count va vb g : Nat) (s : State) :
    KeepsSnaps s (auditLog ty c n step mmas first count va vb g s) := by
  unfold auditLog
  extract_lets base tail a r ws
  split
  · exact keepsSnaps_refl s
  · exact (keepsSnaps_dramWrite ..).trans (keepsSnaps_wr (by decide) _ _ _)

theorem keepsSnaps_fenceLog (ty c n step : Nat) (s : State) : KeepsSnaps s (fenceLog ty c n step s) :=
  KeepsSnaps.trans (t := { s with free := s.free + 4 }) ⟨fun _ _ => rfl, rfl⟩ (keepsSnaps_auditLog ..)

theorem keepsSnaps_fenceCore (c n step : Nat) (s : State) : KeepsSnaps s (fenceCore c n step s) :=
  (keepsSnaps_setAudit ..).trans ((keepsSnaps_fenceLog ..).trans (keepsSnaps_recordErr ..))

theorem keepsSnaps_auditAct (n t c : Nat) (s : State) : KeepsSnaps s (auditAct n t c s) := by
  unfold auditAct
  extract_lets a s1
  split
  · split
    · exact (keepsSnaps_setAudit ..).trans (keepsSnaps_withdrawBlock ..)
    · exact (keepsSnaps_setAudit ..).trans (keepsSnaps_repairCore ..)
  · split
    · exact (keepsSnaps_setAudit ..).trans ((keepsSnaps_unshiftRow ..).trans (keepsSnaps_fenceLog ..))
    · split
      · exact ((keepsSnaps_setAudit ..).trans (keepsSnaps_fenceCore ..)).trans ((keepsSnaps_setAudit ..).trans (keepsSnaps_withdrawBlock ..))
      · exact (keepsSnaps_setAudit ..).trans ((keepsSnaps_shiftRow ..).trans (keepsSnaps_fenceLog ..))

theorem keepsSnaps_auditDue (n t c : Nat) (s : State) : KeepsSnaps s (auditDue n t c s) := by
  unfold auditDue
  extract_lets a p seen
  split
  · split
    · exact keepsSnaps_refl s
    · exact keepsSnaps_setAudit ..
  · split
    · exact keepsSnaps_auditAct ..
    · exact keepsSnaps_setAudit ..

/-! ### What a context takes -/

/-- The fields of other pages than RNG and AUDIT, and the contexts, are the same. -/
structure KeepsPerf (s t : State) : Prop where
  regs : ∀ (q : Page) (b n : Nat) (f : RegField), (f, n) ∈ rowsAt q.cls b → pageKey q ≠ pageKey pgRng → pageKey q ≠ pageKey pgAudit →
    rdi t q f n = rdi s q f n
  ctxs : t.ctxs = s.ctxs

theorem keepsPerf_refl (s : State) : KeepsPerf s s := ⟨fun _ _ _ _ _ _ _ => rfl, rfl⟩

theorem KeepsPerf.trans {s t u : State} (h : KeepsPerf s t) (g : KeepsPerf t u) : KeepsPerf s u :=
  ⟨fun q b n f hf hr ha => (g.regs q b n f hf hr ha).trans (h.regs q b n f hf hr ha), g.ctxs.trans h.ctxs⟩

theorem SameButApplied.ctxs {s t : State} (h : SameButApplied s t) : t.ctxs = s.ctxs := by
  unfold SameButApplied at h
  exact (congrArg State.ctxs h :)

theorem keepsPerf_settleTaken (s : State) : KeepsPerf s (settleTaken s) := by
  unfold settleTaken
  extract_lets rng s1 audit
  have h1 : KeepsPerf s s1 := by
    unfold s1
    split
    · exact ⟨fun q b n f hf hr _ => rdi_boundary_other rfl hf hr s, (boundary_frame pgRng s).ctxs⟩
    · exact keepsPerf_refl s
  refine h1.trans ?_
  clear_value s1
  split
  · exact ⟨fun q b n f hf _ ha => rdi_boundary_other rfl hf ha s1, (boundary_frame pgAudit s1).ctxs⟩
  · exact keepsPerf_refl s1

theorem keepsPerf_takeWb (n : Nat) (s : State) : KeepsPerf s (takeWb n s) := by
  unfold takeWb
  extract_lets s1 s2
  have h1 : KeepsPerf s s1 := by
    unfold s1
    split
    · exact keepsPerf_refl s
    · exact ⟨fun _ _ _ _ _ _ _ => rfl, rfl⟩
  have h2 : KeepsPerf s1 s2 := by
    unfold s2
    split
    · exact keepsPerf_refl s1
    · exact ⟨fun _ _ _ _ _ _ _ => rfl, rfl⟩
  exact (h1.trans h2).trans (keepsPerf_settleTaken s2)

end Sys2Proof.Machine
end

section
/-!
SUPPORT. The snapshot of a PERF page at a step boundary (R490).
-/

namespace Sys2Proof.Machine

/-- The registers that a snapshot reads and sets, with the clock. -/
theorem snap_rows : (∀ f ∈ [R.PERF_SNAP_CTRL_EN, R.PERF_SNAP_CTRL_CONTEXT], (f, 0) ∈ rowsAt .perf 0x200) ∧
    (R.PERF_SNAP_SEQ, 0) ∈ rowsAt .perf 0x210 ∧ (∀ i < 16, (R.PERF_EVT_CNT, i) ∈ rowsAt .perf (0x140 + 8 * i)) ∧
    (R.MGMT_TICK, 0) ∈ rowsAt .mgmt 0x100 := by decide +kernel

/-- What a snapshot of page `d` takes: its selection, the clock, its number and the page's counters. -/
structure SameSources (d : Nat) (s t : State) : Prop where
  en : rd t (pgPerf d) R.PERF_SNAP_CTRL_EN = rd s (pgPerf d) R.PERF_SNAP_CTRL_EN
  context : rd t (pgPerf d) R.PERF_SNAP_CTRL_CONTEXT = rd s (pgPerf d) R.PERF_SNAP_CTRL_CONTEXT
  tick : tickOf t = tickOf s
  seq : rd t (pgPerf d) R.PERF_SNAP_SEQ = rd s (pgPerf d) R.PERF_SNAP_SEQ
  counter : ∀ i < 16, rdi t (pgPerf d) R.PERF_EVT_CNT i = rdi s (pgPerf d) R.PERF_EVT_CNT i

theorem SameSources.trans {d : Nat} {s t u : State} (h : SameSources d s t) (g : SameSources d t u) : SameSources d s u :=
  ⟨g.en.trans h.en, g.context.trans h.context, g.tick.trans h.tick, g.seq.trans h.seq, fun i hi => (g.counter i hi).trans (h.counter i hi)⟩

theorem KeepsPerf.sources {s t : State} (h : KeepsPerf s t) {d : Nat} (hd : d < 5) : SameSources d s t := by
  obtain ⟨hctrl, hseq, hcnt, htick⟩ := snap_rows
  obtain ⟨hrng, haudit⟩ := (by decide : ∀ d < 5, pageKey (pgPerf d) ≠ pageKey pgRng ∧ pageKey (pgPerf d) ≠ pageKey pgAudit) d hd
  exact ⟨h.regs (pgPerf d) 0x200 0 R.PERF_SNAP_CTRL_EN (hctrl _ (by simp)) hrng haudit,
    h.regs (pgPerf d) 0x200 0 R.PERF_SNAP_CTRL_CONTEXT (hctrl _ (by simp)) hrng haudit,
    h.regs pgMgmt 0x100 0 R.MGMT_TICK htick (by decide) (by decide), h.regs (pgPerf d) 0x210 0 R.PERF_SNAP_SEQ hseq hrng haudit,
    fun i hi => h.regs (pgPerf d) (0x140 + 8 * i) i R.PERF_EVT_CNT (hcnt i hi) hrng haudit⟩

/-- The fields that a snapshot of page `e` sets. -/
def snapFields : List (RegField × Nat) :=
  [(R.PERF_SNAP_STEP, 0), (R.PERF_SNAP_TICK, 0), (R.PERF_SNAP_SEQ, 0)] ++ (List.range 16).map (fun i => (R.PERF_SNAP_CNT, i))

/-- The first `m` counters of a page copied. -/
def copyCounters (d m : Nat) (s : State) : State :=
  foldUpTo m (fun i u => wri (pgPerf d) R.PERF_SNAP_CNT i (rdi u (pgPerf d) R.PERF_EVT_CNT i) u) s

theorem snapshot_eq {n t d : Nat} {s : State} (hen : rd s (pgPerf d) R.PERF_SNAP_CTRL_EN = 1)
    (hctx : rd s (pgPerf d) R.PERF_SNAP_CTRL_CONTEXT = n) : snapshot n t d s =
      bump (pgPerf d) R.PERF_SNAP_SEQ 1 (wr (pgPerf d) R.PERF_SNAP_TICK (tickOf s) (wr (pgPerf d) R.PERF_SNAP_STEP t (copyCounters d 16 s))) :=
  if_pos ⟨hen, hctx⟩

theorem copyCounters_keeps {d m : Nat} {s : State} {key : Nat} (h : ∀ i < m, key ≠ fieldKey (pgPerf d) R.PERF_SNAP_CNT i) :
    mapFind (copyCounters d m s).regs key = mapFind s.regs key :=
  foldUpTo_induct (fun u => mapFind u.regs key = mapFind s.regs key) m _ (fun i u hi hu => (wri_keeps _ _ _ _ u key (h i hi)).trans hu) s rfl

/-- A snapshot sets those fields of its page alone. -/
theorem snapshot_keeps (n t e : Nat) (s : State) {key : Nat} (h : ∀ f ∈ snapFields, key ≠ fieldKey (pgPerf e) f.1 f.2) :
    mapFind (snapshot n t e s).regs key = mapFind s.regs key := by
  have hwr {f : RegField} (hf : (f, 0) ∈ snapFields) (v : Nat) (u : State) : mapFind (wr (pgPerf e) f v u).regs key = mapFind u.regs key :=
    wri_keeps _ _ _ _ _ _ (h (f, 0) hf)
  by_cases hnames : rd s (pgPerf e) R.PERF_SNAP_CTRL_EN = 1 ∧ rd s (pgPerf e) R.PERF_SNAP_CTRL_CONTEXT = n
  · rw [snapshot_eq hnames.1 hnames.2, bump, hwr (by decide), hwr (by decide), hwr (by decide)]
    exact copyCounters_keeps fun i hi => h (R.PERF_SNAP_CNT, i)
      (List.mem_append_right _ (List.mem_map.mpr ⟨i, List.mem_range.mpr hi, rfl⟩))
  · rw [snapshot, if_neg hnames]

theorem rdi_snapshot_ne (n t e : Nat) (s : State) {p : Page} {f : RegField} {i : Nat}
    (h : ∀ g ∈ snapFields, fieldKey p f i ≠ fieldKey (pgPerf e) g.1 g.2) : rdi (snapshot n t e s) p f i = rdi s p f i :=
  rdi_of_mapFind (snapshot_keeps n t e s h)

/-- A snapshot of another page takes nothing from this one's sources. -/
theorem sameSources_snapshot {n t d e : Nat} (hd : d < 5) (he : e < 5) (hne : e ≠ d) (s : State) : SameSources d s (snapshot n t e s) := by
  have hkeys : ∀ d < 5, ∀ e < 5, e = d ∨ ∀ g ∈ snapFields,
      (∀ f ∈ [R.PERF_SNAP_CTRL_EN, R.PERF_SNAP_CTRL_CONTEXT, R.PERF_SNAP_SEQ], fieldKey (pgPerf d) f 0 ≠ fieldKey (pgPerf e) g.1 g.2) ∧
      fieldKey pgMgmt R.MGMT_TICK 0 ≠ fieldKey (pgPerf e) g.1 g.2 ∧
      ∀ i < 16, fieldKey (pgPerf d) R.PERF_EVT_CNT i ≠ fieldKey (pgPerf e) g.1 g.2 := by decide +kernel
  have hkeys := (hkeys d hd e he).resolve_left hne
  have hmine (f : RegField) (hf : f ∈ [R.PERF_SNAP_CTRL_EN, R.PERF_SNAP_CTRL_CONTEXT, R.PERF_SNAP_SEQ]) :
      rd (snapshot n t e s) (pgPerf d) f = rd s (pgPerf d) f :=
    rdi_snapshot_ne n t e s fun g hg => (hkeys g hg).1 f hf
  exact ⟨hmine _ (by simp), hmine _ (by simp), rdi_snapshot_ne n t e s fun g hg => (hkeys g hg).2.1, hmine _ (by simp),
    fun i hi => rdi_snapshot_ne n t e s fun g hg => (hkeys g hg).2.2 i hi⟩

/-- The snapshot of a page that names the context, as far as the page's fields tell. -/
structure Taken (d t : Nat) (s u : State) : Prop where
  step : rd u (pgPerf d) R.PERF_SNAP_STEP = t % 2 ^ R.PERF_SNAP_STEP.width
  tick : rd u (pgPerf d) R.PERF_SNAP_TICK = tickOf s % 2 ^ R.PERF_SNAP_TICK.width
  seq : rd u (pgPerf d) R.PERF_SNAP_SEQ = (rd s (pgPerf d) R.PERF_SNAP_SEQ + 1) % 2 ^ R.PERF_SNAP_SEQ.width
  cnt : ∀ i < 16, rdi u (pgPerf d) R.PERF_SNAP_CNT i = rdi s (pgPerf d) R.PERF_EVT_CNT i % 2 ^ R.PERF_SNAP_CNT.width

theorem Taken.of_sources {d t : Nat} {s v u : State} (h : Taken d t v u) (hs : SameSources d s v) : Taken d t s u :=
  ⟨h.step, h.tick.trans (by rw [hs.tick]), h.seq.trans (by rw [hs.seq]), fun i hi => (h.cnt i hi).trans (by rw [hs.counter i hi])⟩

/-- Fields at different places of a page. -/
theorem rdi_wri_place {f g : RegField} {j k : Nat} (h : fieldPlace f j % 1048576 ≠ fieldPlace g k % 1048576) (p : Page) (v : Nat) (s : State) :
    rdi (wri p g k v s) p f j = rdi s p f j := by
  refine rdi_wri_ne _ _ _ _ _ _ _ _ (ne_fieldKey_of_place ?_ _)
  rwa [fieldKey_eq_place, Nat.mul_add_mod_self_right]

/-- Each counter copied. -/
theorem rdi_copyCounters {d m i : Nat} (hm : m ≤ 16) (hi : i < m) (s : State) :
    rdi (copyCounters d m s) (pgPerf d) R.PERF_SNAP_CNT i = rdi s (pgPerf d) R.PERF_EVT_CNT i % 2 ^ R.PERF_SNAP_CNT.width := by
  have hplace : ∀ i < 16, ∀ j < 16, fieldPlace R.PERF_EVT_CNT i % 1048576 ≠ fieldPlace R.PERF_SNAP_CNT j % 1048576 ∧
      (i = j ∨ fieldPlace R.PERF_SNAP_CNT i % 1048576 ≠ fieldPlace R.PERF_SNAP_CNT j % 1048576) := by decide +kernel
  have h := foldl_look_once (fun u j => wri (pgPerf d) R.PERF_SNAP_CNT j (rdi u (pgPerf d) R.PERF_EVT_CNT j) u)
    (fun u => (rdi u (pgPerf d) R.PERF_EVT_CNT i, rdi u (pgPerf d) R.PERF_SNAP_CNT i)) (fun v => (v.1, v.1 % 2 ^ R.PERF_SNAP_CNT.width))
    (l := List.range m) List.nodup_range (List.mem_range.mpr hi)
    (fun u => by rw [rdi_wri_place (hplace i (by omega) i (by omega)).1, rdi_wri_self])
    (fun j hj hji u => by
      have hj := List.mem_range.mp hj
      obtain ⟨hcnt, hsnap⟩ := hplace i (by omega) j (by omega)
      rw [rdi_wri_place hcnt, rdi_wri_place (hsnap.resolve_left (Ne.symm hji))]) s
  exact congrArg Prod.snd h

theorem taken_snapshot {n t d : Nat} {s : State} (hen : rd s (pgPerf d) R.PERF_SNAP_CTRL_EN = 1)
    (hctx : rd s (pgPerf d) R.PERF_SNAP_CTRL_CONTEXT = n) : Taken d t s (snapshot n t d s) := by
  have hplace : ∀ i < 16, ∀ g ∈ [R.PERF_SNAP_SEQ, R.PERF_SNAP_TICK, R.PERF_SNAP_STEP],
      fieldPlace R.PERF_SNAP_CNT i % 1048576 ≠ fieldPlace g 0 % 1048576 := by decide +kernel
  have hother (i : Nat) (hi : i < 16) {g : RegField} (hg : g ∈ [R.PERF_SNAP_SEQ, R.PERF_SNAP_TICK, R.PERF_SNAP_STEP]) (v : Nat) (u : State) :
      rdi (wri (pgPerf d) g 0 v u) (pgPerf d) R.PERF_SNAP_CNT i = rdi u (pgPerf d) R.PERF_SNAP_CNT i := rdi_wri_place (hplace i hi g hg) _ v u
  have hne {f g : RegField} (h : fieldPlace f 0 % 1048576 ≠ fieldPlace g 0 % 1048576) (v : Nat) (u : State) :
      rd (wr (pgPerf d) g v u) (pgPerf d) f = rd u (pgPerf d) f := rdi_wri_place h _ v u
  have hseq : rd (copyCounters d 16 s) (pgPerf d) R.PERF_SNAP_SEQ = rd s (pgPerf d) R.PERF_SNAP_SEQ := by
    refine rdi_of_mapFind (copyCounters_keeps fun i hi => ne_fieldKey_of_place ?_ _)
    rw [fieldKey_eq_place, Nat.mul_add_mod_self_right]
    exact (hplace i hi _ (by simp)).symm
  rw [snapshot_eq hen hctx]
  refine ⟨?_, ?_, ?_, fun i hi => ?_⟩
  · rw [bump, hne (by decide), hne (by decide), rd_wr_self]
  · rw [bump, hne (by decide), rd_wr_self]
  · rw [bump_eq, hne (by decide), hne (by decide), hseq]
  · exact (hother i hi (by simp) _ _).trans ((hother i hi (by simp) _ _).trans ((hother i hi (by simp) _ _).trans
      (rdi_copyCounters (Nat.le_refl 16) hi s)))

/-- A snapshot of another page leaves this one's. -/
theorem Taken.other {n t d e : Nat} {s u : State} (h : Taken d t s u) (hd : d < 5) (he : e < 5) (hne : e ≠ d) : Taken d t s (snapshot n t e u) := by
  have hkeys : ∀ d < 5, ∀ e < 5, e = d ∨ ∀ f ∈ snapFields, ∀ g ∈ snapFields, fieldKey (pgPerf d) f.1 f.2 ≠ fieldKey (pgPerf e) g.1 g.2 := by
    decide +kernel
  have hkept {f : RegField} {i : Nat} (hf : (f, i) ∈ snapFields) : rdi (snapshot n t e u) (pgPerf d) f i = rdi u (pgPerf d) f i :=
    rdi_snapshot_ne n t e u ((hkeys d hd e he).resolve_left hne (f, i) hf)
  exact ⟨(hkept (by decide)).trans h.step, (hkept (by decide)).trans h.tick, (hkept (by decide)).trans h.seq, fun i hi =>
    (hkept (List.mem_append_right _ (List.mem_map.mpr ⟨i, List.mem_range.mpr hi, rfl⟩))).trans (h.cnt i hi)⟩

/-- The snapshots of the five PERF pages. -/
theorem taken_snapshots {n t d : Nat} (hd : d < 5) {s : State} (hen : rd s (pgPerf d) R.PERF_SNAP_CTRL_EN = 1)
    (hctx : rd s (pgPerf d) R.PERF_SNAP_CTRL_CONTEXT = n) : Taken d t s (foldUpTo 5 (snapshot n t) s) := by
  have hlt : ∀ e ∈ List.range 5, e < 5 := fun e he => List.mem_range.mp he
  have hnodup : (List.range 5).Nodup := List.nodup_range
  obtain ⟨l, m, hrange⟩ := List.append_of_mem (List.mem_range.mpr hd)
  rw [foldUpTo, hrange, List.foldl_append, List.foldl_cons]
  rw [hrange] at hlt hnodup
  have hl : d ∉ l := fun h => (List.nodup_append'.mp hnodup).2.2 h (List.mem_cons_self ..)
  have hm : d ∉ m := (List.nodup_cons.mp (List.nodup_append'.mp hnodup).2.1).1
  have hbefore : ∀ (l : List Nat) (u : State), (∀ e ∈ l, e < 5 ∧ e ≠ d) → SameSources d u (l.foldl (fun u e => snapshot n t e u) u) := by
    intro l
    induction l with
    | nil => exact fun u _ => ⟨rfl, rfl, rfl, rfl, fun _ _ => rfl⟩
    | cons e l ih =>
      intro u h
      obtain ⟨he, hne⟩ := h e (by simp)
      exact (sameSources_snapshot hd he hne u).trans (ih _ fun k hk => h k (by simp [hk]))
  have hafter : ∀ (l : List Nat) (u : State), Taken d t s u → (∀ e ∈ l, e < 5 ∧ e ≠ d) →
      Taken d t s (l.foldl (fun u e => snapshot n t e u) u) := by
    intro l
    induction l with
    | nil => exact fun u hu _ => hu
    | cons e l ih =>
      intro u hu h
      obtain ⟨he, hne⟩ := h e (by simp)
      exact ih _ (hu.other hd he hne) fun k hk => h k (by simp [hk])
  have hsrc := hbefore l s fun e he => ⟨hlt e (List.mem_append_left _ he), fun h => hl (h ▸ he)⟩
  exact hafter m _ ((taken_snapshot (hsrc.en.trans hen) (hsrc.context.trans hctx)).of_sources hsrc)
    fun e he => ⟨hlt e (List.mem_append_right _ (List.mem_cons_of_mem _ he)), fun h => hm (h ▸ he)⟩

/-- What the audits leave of a snapshot. -/
theorem Taken.kept {t d : Nat} {s u v : State} (h : Taken d t s u) (hd : d < 5) (hkeep : KeepsSnaps u v) : Taken d t s v := by
  have hmem : ∀ d < 5, ∀ f ∈ snapFields, fieldKey (pgPerf d) f.1 f.2 ∈ snapKeys := by decide +kernel
  have hkept {f : RegField} {i : Nat} (hf : (f, i) ∈ snapFields) : rdi v (pgPerf d) f i = rdi u (pgPerf d) f i :=
    rdi_of_mapFind (hkeep.regs _ (hmem d hd (f, i) hf))
  exact ⟨(hkept (by decide)).trans h.step, (hkept (by decide)).trans h.tick, (hkept (by decide)).trans h.seq, fun i hi =>
    (hkept (List.mem_append_right _ (List.mem_map.mpr ⟨i, List.mem_range.mpr hi, rfl⟩))).trans (h.cnt i hi)⟩

theorem ctxs_wri (p : Page) (f : RegField) (n v : Nat) (s : State) : (wri p f n v s).ctxs = s.ctxs := rfl

theorem ctxs_copyCounters (d m : Nat) (s : State) : (copyCounters d m s).ctxs = s.ctxs :=
  foldUpTo_induct (fun u => u.ctxs = s.ctxs) m _ (fun _ u _ hu => (ctxs_wri _ _ _ _ u).trans hu) s rfl

theorem ctxs_snapshot (n t d : Nat) (s : State) : (snapshot n t d s).ctxs = s.ctxs := by
  by_cases hnames : rd s (pgPerf d) R.PERF_SNAP_CTRL_EN = 1 ∧ rd s (pgPerf d) R.PERF_SNAP_CTRL_CONTEXT = n
  · rw [snapshot_eq hnames.1 hnames.2, bump, wr, ctxs_wri, wr, ctxs_wri, wr, ctxs_wri, ctxs_copyCounters]
  · rw [snapshot, if_neg hnames]

theorem ctxs_snapshots (n t m : Nat) (s : State) : (foldUpTo m (snapshot n t) s).ctxs = s.ctxs :=
  foldUpTo_induct (fun u => u.ctxs = s.ctxs) m _ (fun d u _ hu => (ctxs_snapshot n t d u).trans hu) s rfl

/-- A step boundary passed: the context's next one, and the snapshots. -/
theorem stepBoundary_spec {n : Nat} {s : State} {x : Ctx} {t : Nat} (hx : ctxOf s n = some x) (htyp : x.typ = 0) (hb : x.boundary = some t)
    (hreport : stepLe t (lastReport s x) = true) (hbinds : bindsPassed s n t = true) :
    ctxOf (stepBoundary n s) n = some { x with boundary := some (stepNext t) } ∧
      ∀ d < 5, rd s (pgPerf d) R.PERF_SNAP_CTRL_EN = 1 → rd s (pgPerf d) R.PERF_SNAP_CTRL_CONTEXT = n → Taken d t s (stepBoundary n s) := by
  obtain ⟨s1, hs1⟩ : ∃ s1, s1 = takeWb n (setCtx n { x with boundary := some (stepNext t) } s) := ⟨_, rfl⟩
  obtain ⟨s2, hs2⟩ : ∃ s2, s2 = foldUpTo 5 (snapshot n t) s1 := ⟨_, rfl⟩
  have heq : stepBoundary n s = (s2.auditSt.filter (fun e => inHalfRow s x.polder e.1)).foldl (fun u e => auditDue n t e.1 u) s2 := by
    rw [hs2, hs1, stepBoundary, hx]
    dsimp only
    rw [hb]
    dsimp only
    rw [if_neg (by simp [htyp, hreport, hbinds])]
  have htake : KeepsPerf (setCtx n { x with boundary := some (stepNext t) } s) s1 := hs1 ▸ keepsPerf_takeWb n _
  have haudits : KeepsSnaps s2 (stepBoundary n s) := by
    rw [heq]
    exact foldl_keeps (KeepsSnaps s2) _ (fun u e hu => hu.trans (keepsSnaps_auditDue n t e.1 u)) _ s2 (keepsSnaps_refl s2)
  refine ⟨?_, fun d hd hen hctx => ?_⟩
  · rw [ctxOf, haudits.ctxs, hs2, ctxs_snapshots, htake.ctxs]
    exact ctxOf_setCtx ..
  · have hset : SameSources d s (setCtx n { x with boundary := some (stepNext t) } s) := ⟨rfl, rfl, rfl, rfl, fun _ _ => rfl⟩
    have hsrc := hset.trans (htake.sources hd)
    exact ((hs2 ▸ taken_snapshots hd (hsrc.en.trans hen) (hsrc.context.trans hctx) : Taken d t s1 s2).of_sources hsrc).kept hd haudits

end Sys2Proof.Machine
end

section
/-!
CERTIFICATE. Steps that are planned, admitted and passed (O37).
-/

namespace Sys2Proof.Machine

/-- STEP_PLAN's end: what waited is released, and a version that came into force is registered. -/
theorem exec_stepPlan (n : CtxIx) (s u : State) (h : stepPlan n s = retryPinned u) :
    exec (.stepPlan n) s = .next (settled (releaseCtx n (retryPinned u))) ∨
      exec (.stepPlan n) s = .next (settled (registerJob n (releaseCtx n (retryPinned u)))) := by
  have hmove : planAndMove n s = releaseCtx n (retryPinned u) := by rw [planAndMove, h]
  show execStepPlan n s = _ ∨ execStepPlan n s = _
  unfold execStepPlan
  extract_lets ver s1
  have hs1 : s1 = releaseCtx n (retryPinned u) := hmove
  rw [← hs1]
  split
  · exact .inr rfl
  · exact .inl rfl

/-- Settles O37: a descriptor's step is planned in a state with the same words (`stepPlan_eq`), where its words have their
places (`planStep_spec`); the next pair is bound to the lowest free slot (`admission_eq`); a boundary takes the snapshots,
which the audits leave (`stepBoundary_spec`); and a hold waits in its register (`stepHold_spec`). -/
theorem stepsArePlannedAndPass : Obligations.StepsArePlannedAndPass := by
  unfold Obligations.StepsArePlannedAndPass
  refine ⟨fun n s x hx => ⟨?_, ?_⟩, ?_, fun p n hold s hreach hlt => stepHold_spec hold hreach hlt⟩
  · intro p r hon htyp htail hsteer hdesc hplace hnext hfor hend hnames hrank hsound hsound' hapart lo m
    obtain ⟨s2, hlooks, hx2, hplan⟩ := stepPlan_eq hx hon htyp htail hsteer hdesc hplace hnext hfor hend hnames hsound hsound'
    have hblock (i : Nat) : blockWord s2 x i = blockWord s x i := hlooks.blockWord x i
    have hmode : steerMode s2 x ≠ 2 := by rwa [steerMode, hblock]
    have hreport (t : Nat) : reportAddr s2 x t = reportAddr s x t := by simp only [reportAddr, hblock]
    have hrank2 : rankOf s2 p = some r := by rwa [rankOf, hlooks.memberIdx]
    obtain ⟨y, hy, hplanOf, hnextE, hhead, hstep, htally, hword, hrange, htag⟩ :=
      planStep_spec (k := nextOf x 3) (ws := entryWords s x 3 (nextOf x 3)) hx2 hmode hplace hrank2
        (by rw [hreport, hblock]; exact hlooks.map.planSpans (planSpans hapart))
    rw [hreport] at hword hrange htag
    rw [hblock] at hstep htally
    rw [hlooks.dramWord] at htally
    have ht : wf (entryWords s x 3 (nextOf x 3)) 0 0 32 < 2 ^ 32 := bitsOf_lt _ _ _
    rw [Nat.mod_eq_of_lt (show _ + 2 ^ 32 < 2 ^ 64 by omega)] at hword
    exact ⟨_, y, _, rfl, hy, exec_stepPlan n s _ hplan, hplanOf, hnextE, hhead, hstep, htally, hword, hrange, htag⟩
  · intro t mb i f hon hlets hf hfree hbusy hpair
    have hnext : nextPair x = some (t, mb, i) := by
      obtain ⟨p, l, hplans, hstep, hidx, heq⟩ | ⟨p, q, l, hplans, hstep, hidx, hq, hcount, -, heq⟩ := hpair
      · rw [heq]
        exact nextPair_within hplans hstep hidx
      · rw [heq]
        exact nextPair_next hplans hstep hidx hq hcount
    refine ⟨_, _, congrArg Host.Outcome.next (admission_eq hx hnext (freeSlot_eq hf hfree hbusy) hon hlets), ctxOf_setCtx .., ?_, ?_, rfl,
      rfl, rfl⟩
    · exact mapFind_put_self ..
    · exact fun g hg => mapFind_put_ne _ _ _ _ hg
  · intro n s x t hx htyp hb hreport hbinds
    obtain ⟨hctx, hsnaps⟩ := stepBoundary_spec hx htyp hb hreport hbinds
    refine ⟨stepBoundary n s, _, ⟨_, rfl, comesTo_settled _⟩, hctx, rfl, rfl, fun d hd hen hnames => ?_⟩
    obtain ⟨hstep, htick, hseq, hcnt⟩ := hsnaps d hd hen hnames
    exact ⟨hstep, htick, hseq, hcnt⟩

end Sys2Proof.Machine
end

section
/-!
SUPPORT. What settling leaves of a core: a core that debug holds stopped, or that runs a context, is still one or the
other afterwards. CERTIFICATE. DBG_STEP on a core whose CORE_DBG_CTRL.STOP is 0 (O21).
-/

namespace Sys2Proof.Machine

/-! ### The debug stops and contexts of the cores -/

/-- What a core list shows of each core: whether debug holds it stopped, and its context. -/
def stopCtx (cs : List (Nat × Core)) (c : Nat) : Bool × Option Nat := ((mapGet .zero cs c).dbgStop, (mapGet .zero cs c).ctx)

theorem apply_foldl_eq {σ α β : Type} (g : σ → β) {f : σ → α → σ} (h : ∀ u x, g (f u x) = g u) (l : List α) (u : σ) :
    g (l.foldl f u) = g u := by
  induction l generalizing u with
  | nil => rfl
  | cons x l ih => rw [List.foldl_cons, ih, h]

@[simp] theorem stopCtx_foldl {α : Type} {f : State → α → State} (h : ∀ u x, stopCtx (f u x).cores = stopCtx u.cores)
    (l : List α) (s : State) : stopCtx (l.foldl f s).cores = stopCtx s.cores :=
  apply_foldl_eq (fun u : State => stopCtx u.cores) h l s

@[simp] theorem stopCtx_foldl_snd {α β : Type} {f : β × State → α → β × State}
    (h : ∀ u x, stopCtx (f u x).2.cores = stopCtx u.2.cores) (l : List α) (s : β × State) :
    stopCtx (l.foldl f s).2.cores = stopCtx s.2.cores :=
  apply_foldl_eq (fun u : β × State => stopCtx u.2.cores) h l s

@[simp] theorem stopCtx_foldUpTo {n : Nat} {f : Nat → State → State} (h : ∀ i u, stopCtx (f i u).cores = stopCtx u.cores)
    (s : State) : stopCtx (foldUpTo n f s).cores = stopCtx s.cores :=
  stopCtx_foldl (fun u i => h i u) (List.range n) s

@[simp] theorem stopCtx_ite (p : Prop) [Decidable p] (a b : State) :
    stopCtx (if p then a else b).cores = if p then stopCtx a.cores else stopCtx b.cores := by
  split <;> rfl

theorem stopCtx_setCore_of {c : Nat} {k : Core} {s : State} (h : (k.dbgStop, k.ctx) = stopCtx s.cores c) :
    stopCtx (setCore c k s).cores = stopCtx s.cores := by
  funext d
  by_cases hd : d = c
  · subst hd
    simpa [stopCtx, setCore] using h
  · simp [stopCtx, setCore, mapGet_set_ne, hd]

@[simp] theorem stopCtx_modCore {c : Nat} {f : Core → Core} (h : ∀ k, (f k).dbgStop = k.dbgStop ∧ (f k).ctx = k.ctx) (s : State) :
    stopCtx (modCore c f s).cores = stopCtx s.cores :=
  stopCtx_setCore_of (by simp [h, stopCtx, coreOf])

theorem stopCtx_map {f : Nat × Core → Nat × Core}
    (h : ∀ e, (f e).1 = e.1 ∧ (f e).2.dbgStop = e.2.dbgStop ∧ (f e).2.ctx = e.2.ctx) (cs : List (Nat × Core)) :
    stopCtx (cs.map f) = stopCtx cs := by
  funext c
  induction cs with
  | nil => rfl
  | cons e cs ih =>
    obtain ⟨hkey, hstop, hctx⟩ := h e
    simp only [stopCtx, List.map_cons, mapGet, hkey] at ih ⊢
    split
    · rw [hstop, hctx]
    · exact ih

/-! ### Scratch writes keep a core's debug stop and context -/

@[simp] theorem dbgStop_scrPut (a : Nat) (bs : List Nat) (k : Core) : (scrPut a bs k).dbgStop = k.dbgStop := by
  induction bs generalizing a k with
  | nil => rfl
  | cons b bs ih => exact ih ..

@[simp] theorem ctx_scrPut (a : Nat) (bs : List Nat) (k : Core) : (scrPut a bs k).ctx = k.ctx := by
  induction bs generalizing a k with
  | nil => rfl
  | cons b bs ih => exact ih ..

@[simp] theorem dbgStop_scrWrite (a : Nat) (bs : List Nat) (poison : Bool) (k : Core) :
    (scrWrite a bs poison k).dbgStop = k.dbgStop := by
  refine (apply_foldl_eq Core.dbgStop ?_ _ _).trans (dbgStop_scrPut ..)
  exact fun _ _ => rfl

@[simp] theorem ctx_scrWrite (a : Nat) (bs : List Nat) (poison : Bool) (k : Core) : (scrWrite a bs poison k).ctx = k.ctx := by
  refine (apply_foldl_eq Core.ctx ?_ _ _).trans (ctx_scrPut ..)
  exact fun _ _ => rfl

@[simp] theorem dbgStop_scrWriteMarked (a : Nat) (bs : List Nat) (bad : List Bool) (k : Core) :
    (scrWriteMarked a bs bad k).dbgStop = k.dbgStop := by
  unfold scrWriteMarked
  rw [apply_foldl_eq Core.dbgStop (fun u x => by split <;> rfl), dbgStop_scrWrite]

@[simp] theorem ctx_scrWriteMarked (a : Nat) (bs : List Nat) (bad : List Bool) (k : Core) :
    (scrWriteMarked a bs bad k).ctx = k.ctx := by
  unfold scrWriteMarked
  rw [apply_foldl_eq Core.ctx (fun u x => by split <;> rfl), ctx_scrWrite]

@[simp] theorem dbgStop_entered (a : Nat) (bs : List Nat) (bad : List Bool) (k : Core) :
    (entered a bs bad k).dbgStop = k.dbgStop := by
  unfold entered; dsimp only; split <;> rfl

@[simp] theorem ctx_entered (a : Nat) (bs : List Nat) (bad : List Bool) (k : Core) : (entered a bs bad k).ctx = k.ctx := by
  unfold entered; dsimp only; split <;> rfl

/-! ### Operations that keep every core's debug stop and context

One lemma for each operation that settling performs, in the order of their definitions. Each proof follows the
operation's branches and ends in the lemmas of the operations that it is made of. -/

/-! #### Ops -/

@[simp] theorem stopCtx_wri (p : Page) (f : RegField) (n v : Nat) (s : State) :
    stopCtx (wri p f n v s).cores = stopCtx s.cores := by simp [wri]

@[simp] theorem stopCtx_wr (p : Page) (f : RegField) (v : Nat) (s : State) : stopCtx (wr p f v s).cores = stopCtx s.cores := by
  simp [wr]

@[simp] theorem stopCtx_bump (p : Page) (f : RegField) (d : Nat) (s : State) :
    stopCtx (bump p f d s).cores = stopCtx s.cores := by simp [bump]

@[simp] theorem stopCtx_bumpi (p : Page) (f : RegField) (n d : Nat) (s : State) :
    stopCtx (bumpi p f n d s).cores = stopCtx s.cores := by simp [bumpi]

@[simp] theorem stopCtx_bumpSat (p : Page) (f : RegField) (d : Nat) (s : State) :
    stopCtx (bumpSat p f d s).cores = stopCtx s.cores := by simp [bumpSat]

@[simp] theorem stopCtx_countE (p : Page) (e src d : Nat) (ctx : Option Nat) (s : State) :
    stopCtx (countE p e src d ctx s).cores = stopCtx s.cores := by
  unfold countE
  split <;> simp

@[simp] theorem stopCtx_countCore (c e d : Nat) (s : State) : stopCtx (countCore c e d s).cores = stopCtx s.cores := by
  simp [countCore]

/-! #### Mem -/

@[simp] theorem stopCtx_notifyTally (a n : Nat) (s : State) : stopCtx (notifyTally a n s).cores = stopCtx s.cores := by
  refine stopCtx_map ?_ s.cores
  exact fun _ => ⟨rfl, rfl, rfl⟩

@[simp] theorem stopCtx_putByte (a b : Nat) (s : State) : stopCtx (putByte a b s).cores = stopCtx s.cores := by
  unfold putByte
  split <;> simp

@[simp] theorem stopCtx_putBytes (a : Nat) (bs : List Nat) (s : State) : stopCtx (putBytes a bs s).cores = stopCtx s.cores := by
  induction bs generalizing a s with
  | nil => rfl
  | cons b bs ih => simp [putBytes, ih]

@[simp] theorem stopCtx_markBlock (a n : Nat) (poison : Bool) (blk : Nat) (s : State) :
    stopCtx (markBlock a n poison blk s).cores = stopCtx s.cores := by
  unfold markBlock
  split <;> simp

@[simp] theorem stopCtx_countWr (a n blk : Nat) (s : State) : stopCtx (countWr a n blk s).cores = stopCtx s.cores := by
  unfold countWr
  split <;> simp

@[simp] theorem stopCtx_dramWrite (a : Nat) (bs : List Nat) (poison : Bool) (s : State) :
    stopCtx (dramWrite a bs poison s).cores = stopCtx s.cores := by simp [dramWrite]

@[simp] theorem stopCtx_dramPutWord (a v : Nat) (s : State) : stopCtx (dramPutWord a v s).cores = stopCtx s.cores := by
  simp [dramPutWord]

@[simp] theorem stopCtx_tallyAdd (a v : Nat) (s : State) : stopCtx (tallyAdd a v s).cores = stopCtx s.cores := by
  simp [tallyAdd]

@[simp] theorem stopCtx_hostPut (o : Nat) (bs : List Nat) (s : State) : stopCtx (hostPut o bs s).cores = stopCtx s.cores := by
  induction bs generalizing o s with
  | nil => rfl
  | cons b bs ih => simp [hostPut, ih]

@[simp] theorem stopCtx_hostPutMarked (o : Nat) (bs : List (Nat × Bool)) (s : State) :
    stopCtx (hostPutMarked o bs s).cores = stopCtx s.cores := by
  induction bs generalizing o s with
  | nil => rfl
  | cons b bs ih => simp [hostPutMarked, ih]

@[simp] theorem stopCtx_devWrite (a : Nat) (bs : List Nat) (poison : Bool) (s : State) :
    stopCtx (devWrite a bs poison s).cores = stopCtx s.cores := by
  unfold devWrite
  split <;> simp

/-! #### Flags -/

@[simp] theorem stopCtx_signalMsi (s : State) : stopCtx (signalMsi s).cores = stopCtx s.cores := by simp [signalMsi]

@[simp] theorem stopCtx_deliverEvent (w0 arg : Nat) (s : State) : stopCtx (deliverEvent w0 arg s).cores = stopCtx s.cores := by
  simp [deliverEvent]

@[simp] theorem stopCtx_setErr (p : Page) (bit code : Nat) (s : State) :
    stopCtx (setErr p bit code s).cores = stopCtx s.cores := by simp [setErr]

@[simp] theorem stopCtx_hostEvent (code : Nat) (p : Page) (ctx : Option Nat) (arg : Nat) (s : State) :
    stopCtx (hostEvent code p ctx arg s).cores = stopCtx s.cores := by simp [hostEvent]

@[simp] theorem stopCtx_recordCode (p : Page) (bit code : Nat) (ctx : Option Nat) (s : State) :
    stopCtx (recordCode p bit code ctx s).cores = stopCtx s.cores := by simp [recordCode]

@[simp] theorem stopCtx_recordErr (p : Page) (bit : Nat) (ctx : Option Nat) (s : State) :
    stopCtx (recordErr p bit ctx s).cores = stopCtx s.cores := by simp [recordErr]

@[simp] theorem stopCtx_checkFor (p : Page) (bit : Nat) (found : Bool) (s : State) :
    stopCtx (checkFor p bit found s).2.cores = stopCtx s.cores := by
  unfold checkFor
  split <;> simp

@[simp] theorem stopCtx_noteUnmapped (ctx : Option Nat) (s : State) : stopCtx (noteUnmapped ctx s).cores = stopCtx s.cores := by
  simp [noteUnmapped]

/-! #### Net -/

@[simp] theorem stopCtx_setLink (k : Nat) (l : LinkSt) (s : State) : stopCtx (setLink k l s).cores = stopCtx s.cores := by
  simp [setLink]

@[simp] theorem stopCtx_modLink (k : Nat) (f : LinkSt → LinkSt) (s : State) :
    stopCtx (modLink k f s).cores = stopCtx s.cores := by simp [modLink]

@[simp] theorem stopCtx_noteMcast (t : Train) (s : State) : stopCtx (noteMcast t s).cores = stopCtx s.cores := by
  simp [noteMcast]

@[simp] theorem stopCtx_countLink (tx : Bool) (ty job n : Nat) (s : State) :
    stopCtx (countLink tx ty job n s).cores = stopCtx s.cores := by
  unfold countLink
  (repeat' split) <;> simp

@[simp] theorem stopCtx_freeTrain (k : Nat) (t : Train) (s : State) : stopCtx (freeTrain k t s).cores = stopCtx s.cores := by
  simp [freeTrain]

@[simp] theorem stopCtx_holdTrain (k : Nat) (t : Train) (s : State) : stopCtx (holdTrain k t s).cores = stopCtx s.cores := by
  simp [holdTrain]

@[simp] theorem stopCtx_freeFrame (k : Nat) (h : Train) (s : State) : stopCtx (freeFrame k h s).cores = stopCtx s.cores := by
  simp [freeFrame]

@[simp] theorem stopCtx_bridgeBytes (a b n : Nat) (s : State) : stopCtx (bridgeBytes a b n s).cores = stopCtx s.cores := by
  simp [bridgeBytes]

@[simp] theorem stopCtx_emitFrame (k : Nat) (f : Frame) (s : State) : stopCtx (emitFrame k f s).cores = stopCtx s.cores := by
  simp [emitFrame]

@[simp] theorem stopCtx_pumpFrames (k : Nat) (fs : List Frame) (stuck : List Nat) (s : State) :
    stopCtx (pumpFrames k fs stuck s).cores = stopCtx s.cores := by
  induction fs generalizing stuck s with
  | nil => rfl
  | cons f fs ih => simp [pumpFrames, ih]

@[simp] theorem stopCtx_pump (k : Nat) (s : State) : stopCtx (pump k s).cores = stopCtx s.cores := by simp [pump]

@[simp] theorem stopCtx_putOnLink (came k : Nat) (t : Train) (s : State) :
    stopCtx (putOnLink came k t s).cores = stopCtx s.cores := by simp [putOnLink]

@[simp] theorem stopCtx_forwardTrain (came : Nat) (t : Train) (s0 : State) :
    stopCtx (forwardTrain came t s0).cores = stopCtx s0.cores := by
  unfold forwardTrain
  dsimp only
  (repeat' split) <;> simp

@[simp] theorem stopCtx_sendOn (alt : Bool) (ts : List Train) (s : State) :
    stopCtx (sendOn alt ts s).cores = stopCtx s.cores := by simp [sendOn]

@[simp] theorem stopCtx_sendSeries (ts : List Train) (s : State) : stopCtx (sendSeries ts s).cores = stopCtx s.cores := by
  simp [sendSeries]

@[simp] theorem stopCtx_sendTrain (t : Train) (s : State) : stopCtx (sendTrain t s).cores = stopCtx s.cores := by
  simp [sendTrain]

@[simp] theorem stopCtx_retryPinned (s : State) : stopCtx (retryPinned s).cores = stopCtx s.cores := by simp [retryPinned]

@[simp] theorem stopCtx_spillLink (k : Nat) (down : Bool) (s : State) : stopCtx (spillLink k down s).cores = stopCtx s.cores := by
  simp [spillLink]

@[simp] theorem stopCtx_sendEmb (e : EmbMsg) (s : State) : stopCtx (sendEmb e s).cores = stopCtx s.cores := by
  simp [sendEmb]

@[simp] theorem stopCtx_sendEmbOn (k : Nat) (e : EmbMsg) (s : State) : stopCtx (sendEmbOn k e s).cores = stopCtx s.cores := by
  simp [sendEmbOn]

/-! #### Booking -/

@[simp] theorem stopCtx_setSluice (r : Nat) (k : Sluice) (s : State) : stopCtx (setSluice r k s).cores = stopCtx s.cores := by
  simp [setSluice]

@[simp] theorem stopCtx_withdrawAsk (r : Nat) (eng : Bool) (who : Nat) (s : State) :
    stopCtx (withdrawAsk r eng who s).cores = stopCtx s.cores := by simp [withdrawAsk]

@[simp] theorem stopCtx_sendRelease (r : Nat) (eng : Bool) (who cls : Nat) (s : State) :
    stopCtx (sendRelease r eng who cls s).cores = stopCtx s.cores := by simp [sendRelease]

@[simp] theorem stopCtx_lowerCore (c cls : Nat) (s : State) : stopCtx (lowerCore c cls s).cores = stopCtx s.cores := by
  simp [lowerCore]

@[simp] theorem stopCtx_setEng (e : Nat) (k : Engine) (s : State) : stopCtx (setEng e k s).cores = stopCtx s.cores := by
  simp [setEng]

@[simp] theorem stopCtx_engSettle (e : Nat) (s : State) : stopCtx (engSettle e s).cores = stopCtx s.cores := by
  simp [engSettle]

@[simp] theorem stopCtx_collSettleDie (d : Nat) (s : State) : stopCtx (collSettleDie d s).cores = stopCtx s.cores := by
  simp [collSettleDie]

@[simp] theorem stopCtx_collSettle (s : State) : stopCtx (collSettle s).cores = stopCtx s.cores := by simp [collSettle]

/-! #### ResetOps -/

@[simp] theorem stopCtx_setCtx (n : Nat) (k : Ctx) (s : State) : stopCtx (setCtx n k s).cores = stopCtx s.cores := by
  simp [setCtx]

@[simp] theorem stopCtx_modCtx (n : Nat) (f : Ctx → Ctx) (s : State) : stopCtx (modCtx n f s).cores = stopCtx s.cores := by
  unfold modCtx
  split <;> simp

/-! #### Errors -/

@[simp] theorem stopCtx_toRoot (x : Ctx) (op step subject aux arg : Nat) (s : State) :
    stopCtx (toRoot x op step subject aux arg s).cores = stopCtx s.cores := by
  unfold toRoot
  split <;> simp

@[simp] theorem stopCtx_toChildren (x : Ctx) (op step subject aux arg : Nat) (extra : List Nat) (s : State) :
    stopCtx (toChildren x op step subject aux arg extra s).cores = stopCtx s.cores := by
  unfold toChildren
  (repeat' split) <;> simp

@[simp] theorem stopCtx_cancelBarges (n : Nat) (s : State) : stopCtx (cancelBarges n s).cores = stopCtx s.cores := by
  simp [cancelBarges]

@[simp] theorem stopCtx_recordEmb (bit : Nat) (ctx : Option Nat) (s : State) :
    stopCtx (recordEmb bit ctx s).cores = stopCtx s.cores := by simp [recordEmb]

@[simp] theorem stopCtx_abandonSeg (c st : Nat) (s : State) : stopCtx (abandonSeg c st s).cores = stopCtx s.cores := by
  simp only [abandonSeg]
  split
  · rw [stopCtx_modCore, stopCtx_lowerCore]
    intro k
    split <;> exact ⟨rfl, rfl⟩
  · simp

@[simp] theorem stopCtx_rewindStream (n t st : Nat) (s : State) :
    stopCtx (rewindStream n t st s).cores = stopCtx s.cores := by
  simp only [rewindStream]
  split
  · rfl
  · split
    · rfl
    · simp only [stopCtx_modCtx]
      exact stopCtx_foldl (fun u ck => by split <;> simp) s.cores s

@[simp] theorem stopCtx_bindReplay (i t : Nat) (b : Binding) (s : State) :
    stopCtx (bindReplay i t b s).cores = stopCtx s.cores := by simp [bindReplay]

@[simp] theorem stopCtx_holdForRollback (n : Nat) (s : State) : stopCtx (holdForRollback n s).cores = stopCtx s.cores := by
  unfold holdForRollback
  split <;> simp

@[simp] theorem stopCtx_rootRollback (n limit : Nat) (s : State) : stopCtx (rootRollback n limit s).cores = stopCtx s.cores := by
  unfold rootRollback
  split <;> simp

@[simp] theorem stopCtx_askRollback (n limit : Nat) (s : State) : stopCtx (askRollback n limit s).cores = stopCtx s.cores := by
  unfold askRollback
  split <;> simp

/-! #### CoreOps -/

@[simp] theorem stopCtx_coreCe (c : Nat) (s : State) : stopCtx (coreCe c s).cores = stopCtx s.cores := by simp [coreCe]

@[simp] theorem stopCtx_noteUe (c a : Nat) (imem : Bool) (s : State) : stopCtx (noteUe c a imem s).cores = stopCtx s.cores := by
  simp [noteUe]

@[simp] theorem stopCtx_scrSecded (c a n : Nat) (s : State) : stopCtx (scrSecded c a n s).2.cores = stopCtx s.cores := by
  unfold scrSecded
  dsimp only
  (repeat' split) <;> simp

/-! #### Pages -/

@[simp] theorem stopCtx_zeroCounter (p : Page) (cnt : RegField) (n : Nat) (s : State) :
    stopCtx (zeroCounter p cnt n s).cores = stopCtx s.cores := by simp [zeroCounter]

@[simp] theorem stopCtx_applyField (p : Page) (v : Nat) (fn : RegField × Nat) (s : State) :
    stopCtx (applyField p v fn s).cores = stopCtx s.cores := by
  unfold applyField
  split <;> simp

@[simp] theorem stopCtx_applyAt (p : Page) (off v : Nat) (s : State) : stopCtx (applyAt p off v s).cores = stopCtx s.cores := by
  simp [applyAt]

@[simp] theorem stopCtx_applySel (p : Page) (sel : Nat → Bool) (s : State) :
    stopCtx (applySel p sel s).cores = stopCtx s.cores := by simp [applySel]

@[simp] theorem stopCtx_boundary (p : Page) (s : State) : stopCtx (boundary p s).cores = stopCtx s.cores := by
  simp [boundary]

/-! #### DramOps -/

@[simp] theorem stopCtx_setChState (ch v : Nat) (s : State) : stopCtx (setChState ch v s).cores = stopCtx s.cores := by
  simp [setChState]

@[simp] theorem stopCtx_degrade (ch : Nat) (s : State) : stopCtx (degrade ch s).cores = stopCtx s.cores := by simp [degrade]

@[simp] theorem stopCtx_dramCe (q : Nat) (ctx : Option Nat) (s : State) : stopCtx (dramCe q ctx s).cores = stopCtx s.cores := by
  simp [dramCe]

@[simp] theorem stopCtx_lastErr (q a cls : Nat) (s : State) : stopCtx (lastErr q a cls s).cores = stopCtx s.cores := by
  simp [lastErr]

@[simp] theorem stopCtx_dramBadNote (q a cls : Nat) (ctx : Option Nat) (s : State) :
    stopCtx (dramBadNote q a cls ctx s).cores = stopCtx s.cores := by simp [dramBadNote]

@[simp] theorem stopCtx_countRd (a n blk : Nat) (ctx : Option Nat) (s : State) :
    stopCtx (countRd a n blk ctx s).cores = stopCtx s.cores := by
  unfold countRd
  split <;> simp

/-! #### Barge -/

@[simp] theorem stopCtx_bargeLeave (e i : Nat) (s : State) : stopCtx (bargeLeave e i s).cores = stopCtx s.cores := by
  simp [bargeLeave]

@[simp] theorem stopCtx_bargeRecord (e : Nat) (j : BargeJob) (s : State) :
    stopCtx (bargeRecord e j s).cores = stopCtx s.cores := by
  simp only [bargeRecord]
  split
  · rfl
  · simp only [stopCtx_wr]
    exact stopCtx_foldUpTo (fun _ _ => stopCtx_wri ..) s

@[simp] theorem stopCtx_writePiece (p : Nat × List (Nat × Bool)) (s : State) :
    stopCtx (writePiece p s).cores = stopCtx s.cores := by
  simp only [writePiece]
  split
  · simp
  · simp
  · simp
  · rfl

@[simp] theorem stopCtx_writeOut (e ctx : Nat) (out : List (Nat × (Nat × Bool))) (s : State) :
    stopCtx (writeOut e ctx out s).cores = stopCtx s.cores := by simp [writeOut]

@[simp] theorem stopCtx_bargeInjected (e : Nat) (s : State) : stopCtx (bargeInjected e s).2.cores = stopCtx s.cores :=
  stopCtx_foldl_snd (fun u b => by split <;> simp) [1, 2, 3, 5] (none, s)

@[simp] theorem stopCtx_bargeErrs (e : Nat) (ws : List Nat) (errs : List (Nat × Nat)) (s : State) :
    stopCtx (bargeErrs e ws errs s).2.cores = stopCtx s.cores := by simp [bargeErrs]

@[simp] theorem stopCtx_setJob (e i : Nat) (j : BargeJob) (s : State) : stopCtx (setJob e i j s).cores = stopCtx s.cores := by
  simp [setJob]

@[simp] theorem stopCtx_bargeAck (xid : Nat) (s : State) : stopCtx (bargeAck xid s).cores = stopCtx s.cores := by
  unfold bargeAck
  (repeat' split) <;> simp

/-! #### Upd -/

@[simp] theorem stopCtx_putBind (i : Nat) (b : Binding) (s : State) : stopCtx (putBind i b s).cores = stopCtx s.cores := by
  simp [putBind]

@[simp] theorem stopCtx_modBind (i : Nat) (f : Binding → Binding) (s : State) :
    stopCtx (modBind i f s).cores = stopCtx s.cores := by
  unfold modBind
  split <;> simp

@[simp] theorem stopCtx_uwr (f : RegField) (i v : Nat) (s : State) : stopCtx (uwr f i v s).cores = stopCtx s.cores := by
  simp [uwr]

@[simp] theorem stopCtx_setPhase (i p : Nat) (s : State) : stopCtx (setPhase i p s).cores = stopCtx s.cores := by
  simp [setPhase]

@[simp] theorem stopCtx_showPool (i : Nat) (s : State) : stopCtx (showPool i s).cores = stopCtx s.cores := by
  unfold showPool
  split <;> simp

@[simp] theorem stopCtx_restoreHold (i v u : Nat) (s : State) : stopCtx (restoreHold i v u s).cores = stopCtx s.cores := by
  unfold restoreHold
  (repeat' split) <;> simp

@[simp] theorem stopCtx_poolPut (i : Nat) (nd : Node) (s : State) : stopCtx (poolPut i nd s).cores = stopCtx s.cores := by
  unfold poolPut
  split <;> simp

@[simp] theorem stopCtx_showBound (k : Nat) (s : State) : stopCtx (showBound k s).cores = stopCtx s.cores := by
  simp [showBound]

@[simp] theorem stopCtx_freshCounts (s0 : State) (i : Nat) (x : Ctx) (s : State) :
    stopCtx (freshCounts s0 i x s).cores = stopCtx s.cores := by simp [freshCounts]

@[simp] theorem stopCtx_unbind (i : Nat) (s : State) : stopCtx (unbind i s).cores = stopCtx s.cores := by
  unfold unbind
  split <;> simp

/-! #### UpdNet -/

@[simp] theorem stopCtx_addGroup (i b lg g p : Nat) (s : State) : stopCtx (addGroup i b lg g p s).cores = stopCtx s.cores := by
  unfold addGroup
  (repeat' split) <;> simp

@[simp] theorem stopCtx_groupNode (i b lg : Nat) (nd : Node) (s : State) :
    stopCtx (groupNode i b lg nd s).cores = stopCtx s.cores := by simp [groupNode]

@[simp] theorem stopCtx_rootFormed (i : Nat) (nd : Node) (s : State) : stopCtx (rootFormed i nd s).cores = stopCtx s.cores := by
  simp [rootFormed]

@[simp] theorem stopCtx_ackTrain (n : Nat) (t : Train) (xid : Nat) (s : State) :
    stopCtx (ackTrain n t xid s).cores = stopCtx s.cores := by simp [ackTrain]

@[simp] theorem stopCtx_denyTrain (n : Option Nat) (t : Train) (xid code : Nat) (s : State) :
    stopCtx (denyTrain n t xid code s).cores = stopCtx s.cores := by simp [denyTrain]

@[simp] theorem stopCtx_showSums (i : Nat) (e : Int) (m : Sums) (s : State) :
    stopCtx (showSums i e m s).cores = stopCtx s.cores := by simp [showSums]

@[simp] theorem stopCtx_rootsUp (i : Nat) (s : State) : stopCtx (rootsUp i s).cores = stopCtx s.cores := by
  unfold rootsUp
  (repeat' split) <;> simp

@[simp] theorem stopCtx_fastRefused (i n : Nat) (t : Train) (s : State) :
    stopCtx (fastRefused i n t s).cores = stopCtx s.cores := by
  unfold fastRefused
  split <;> simp

@[simp] theorem stopCtx_holdNode (i k : Nat) (t : Train) (s : State) : stopCtx (holdNode i k t s).cores = stopCtx s.cores := by
  simp [holdNode]

@[simp] theorem stopCtx_holdGather (i k : Nat) (t : Train) (s : State) :
    stopCtx (holdGather i k t s).cores = stopCtx s.cores := by simp [holdGather]

@[simp] theorem stopCtx_gatherStale (i n : Nat) (t : Train) (s : State) :
    stopCtx (gatherStale i n t s).cores = stopCtx s.cores := by simp [gatherStale]

@[simp] theorem stopCtx_gatherLoading (i n k : Nat) (fwd : Bool) (t : Train) (s : State) :
    stopCtx (gatherLoading i n k fwd t s).cores = stopCtx s.cores := by
  unfold gatherLoading
  dsimp only
  (repeat' split) <;> simp

@[simp] theorem stopCtx_putMirror (m : MirrorPart) (s : State) : stopCtx (putMirror m s).cores = stopCtx s.cores := by
  simp [putMirror]

@[simp] theorem stopCtx_landDram (a : Nat) (bs : List FrameBody) (s : State) : stopCtx (landDram a bs s).cores = stopCtx s.cores := by
  induction bs generalizing a s with
  | nil => rfl
  | cons b bs ih => simp [landDram, ih]

@[simp] theorem stopCtx_mirrorIn (t : Train) (s : State) : stopCtx (mirrorIn t s).cores = stopCtx s.cores := by
  simp [mirrorIn]

@[simp] theorem stopCtx_mirrorAckTo (t : Train) (gen : Nat) (s : State) :
    stopCtx (mirrorAckTo t gen s).cores = stopCtx s.cores := by
  unfold mirrorAckTo
  split <;> simp

@[simp] theorem stopCtx_mirrorEndIn (t : Train) (s : State) : stopCtx (mirrorEndIn t s).cores = stopCtx s.cores := by
  simp [mirrorEndIn]

@[simp] theorem stopCtx_mirrorSkipIn (t : Train) (s : State) : stopCtx (mirrorSkipIn t s).cores = stopCtx s.cores := by
  simp [mirrorSkipIn]

@[simp] theorem stopCtx_restoreIn (t : Train) (s : State) : stopCtx (restoreIn t s).cores = stopCtx s.cores := by
  unfold restoreIn
  (repeat' split) <;> simp

@[simp] theorem stopCtx_rebuildCopies (i v u w : Nat) (s : State) :
    stopCtx (rebuildCopies i v u w s).cores = stopCtx s.cores := by
  unfold rebuildCopies
  (repeat' split) <;> simp

@[simp] theorem stopCtx_holdUes (s : State) : stopCtx (holdUes s).cores = stopCtx s.cores :=
  stopCtx_foldl (fun u a => by split <;> simp) s.metUe { s with metUe := [] }

@[simp] theorem stopCtx_mirrorAckIn (t : Train) (s : State) : stopCtx (mirrorAckIn t s).cores = stopCtx s.cores := by
  unfold mirrorAckIn
  (repeat' split) <;> simp

/-! #### Verdict -/

@[simp] theorem stopCtx_writeEndHalf (n : Nat) (x : Ctx) (v : Verdict) (r : Report) (s : State) :
    stopCtx (writeEndHalf n x v r s).cores = stopCtx s.cores := by simp [writeEndHalf]

@[simp] theorem stopCtx_stepReport (n : Nat) (v : Verdict) (s : State) : stopCtx (stepReport n v s).cores = stopCtx s.cores := by
  unfold stepReport
  split <;> simp

/-! #### Coll -/

@[simp] theorem stopCtx_putColl (c d : CollEntry) (s : State) : stopCtx (putColl c d s).cores = stopCtx s.cores := by
  simp [putColl]

/-! #### Emb -/

@[simp] theorem stopCtx_modEmb (f : EmbSt → EmbSt) (s : State) : stopCtx (modEmb f s).cores = stopCtx s.cores := by
  simp [modEmb]

@[simp] theorem stopCtx_tryUp (k : Nat) (s : State) : stopCtx (tryUp k s).cores = stopCtx s.cores := by simp [tryUp]

@[simp] theorem stopCtx_fenceLink (k : Nat) (s : State) : stopCtx (fenceLink k s).cores = stopCtx s.cores := by
  simp [fenceLink]

@[simp] theorem stopCtx_startElection (s : State) : stopCtx (startElection s).cores = stopCtx s.cores := by
  simp only [startElection]
  split
  · rfl
  · rw [stopCtx_foldl, stopCtx_modEmb]
    intro u k
    split <;> simp

@[simp] theorem stopCtx_helloIn (k : Nat) (e : EmbMsg) (s : State) : stopCtx (helloIn k e s).cores = stopCtx s.cores := by
  simp [helloIn]

@[simp] theorem stopCtx_withdraw (e : EmbMsg) (s : State) : stopCtx (withdraw e s).cores = stopCtx s.cores := by
  simp [withdraw]

@[simp] theorem stopCtx_electIn (e : EmbMsg) (s : State) : stopCtx (electIn e s).cores = stopCtx s.cores := by
  simp [electIn]

@[simp] theorem stopCtx_registerJob (n : Nat) (s : State) : stopCtx (registerJob n s).cores = stopCtx s.cores := by
  unfold registerJob
  (repeat' split) <;> simp

@[simp] theorem stopCtx_registerAll (s : State) : stopCtx (registerAll s).cores = stopCtx s.cores := by simp [registerAll]

@[simp] theorem stopCtx_passHeld (s : State) : stopCtx (passHeld s).cores = stopCtx s.cores := by simp [passHeld]

@[simp] theorem stopCtx_takeWarden (w epoch : Nat) (s : State) : stopCtx (takeWarden w epoch s).cores = stopCtx s.cores := by
  simp [takeWarden]

@[simp] theorem stopCtx_wardenIn (e : EmbMsg) (s : State) : stopCtx (wardenIn e s).cores = stopCtx s.cores := by
  simp [wardenIn]

@[simp] theorem stopCtx_registerIn (e : EmbMsg) (s : State) : stopCtx (registerIn e s).cores = stopCtx s.cores := by
  simp [registerIn]

@[simp] theorem stopCtx_probe (suspect nonce : Nat) (s : State) : stopCtx (probe suspect nonce s).cores = stopCtx s.cores := by
  simp [probe]

@[simp] theorem stopCtx_lossIn (e : EmbMsg) (s : State) : stopCtx (lossIn e s).cores = stopCtx s.cores := by
  unfold lossIn
  dsimp only
  (repeat' split) <;> simp

@[simp] theorem stopCtx_probeIn (e : EmbMsg) (s : State) : stopCtx (probeIn e s).cores = stopCtx s.cores := by
  simp [probeIn]

@[simp] theorem stopCtx_probeAckIn (e : EmbMsg) (s : State) : stopCtx (probeAckIn e s).cores = stopCtx s.cores := by
  simp [probeAckIn]

@[simp] theorem stopCtx_mirrorLost (i m : Nat) (s : State) : stopCtx (mirrorLost i m s).cores = stopCtx s.cores := by
  unfold mirrorLost
  dsimp only
  (repeat' split) <;> simp

@[simp] theorem stopCtx_rollbackReqIn (e : EmbMsg) (s : State) : stopCtx (rollbackReqIn e s).cores = stopCtx s.cores := by
  unfold rollbackReqIn
  split <;> simp

@[simp] theorem stopCtx_rollbackIn (e : EmbMsg) (s : State) : stopCtx (rollbackIn e s).cores = stopCtx s.cores := by
  unfold rollbackIn
  split <;> simp

@[simp] theorem stopCtx_putRecov (r : Recovery) (s : State) : stopCtx (putRecov r s).cores = stopCtx s.cores := by
  simp [putRecov]

@[simp] theorem stopCtx_dropRecov (job : Nat) (s : State) : stopCtx (dropRecov job s).cores = stopCtx s.cores := by
  simp [dropRecov]

@[simp] theorem stopCtx_spareBind (i idx r : Nat) (p : Place) (s : State) :
    stopCtx (spareBind i idx r p s).cores = stopCtx s.cores := by
  unfold spareBind
  split <;> simp

@[simp] theorem stopCtx_substitute (n lost spare : Nat) (s : State) :
    stopCtx (substitute n lost spare s).cores = stopCtx s.cores := by
  unfold substitute
  (repeat' split) <;> simp

@[simp] theorem stopCtx_streamMirrors (n job spare : Nat) (s : State) :
    stopCtx (streamMirrors n job spare s).cores = stopCtx s.cores := by
  refine stopCtx_foldl ?_ _ s
  intro u m
  split <;> simp

/-! #### Deliver -/

@[simp] theorem stopCtx_writeIn (t : Train) (s : State) : stopCtx (writeIn t s).cores = stopCtx s.cores := by
  unfold writeIn
  split <;> simp

@[simp] theorem stopCtx_passOn (n : Nat) (t : Train) (ms : List Nat) (s : State) :
    stopCtx (passOn n t ms s).cores = stopCtx s.cores := by simp [passOn]

@[simp] theorem stopCtx_landAll (a : Nat) (bs : List FrameBody) (s : State) : stopCtx (landAll a bs s).cores = stopCtx s.cores := by
  induction bs generalizing a s with
  | nil => rfl
  | cons b bs ih => simp [landAll, ih]

@[simp] theorem stopCtx_mirrorTake (t : Train) (s : State) : stopCtx (mirrorTake t s).cores = stopCtx s.cores := by
  unfold mirrorTake
  split <;> simp

@[simp] theorem stopCtx_staleDrop (k : Nat) (t : Train) (s : State) : stopCtx (staleDrop k t s).cores = stopCtx s.cores := by
  simp [staleDrop]

/-! ### Cores that are stopped by debug or have a context -/

/-- Whether what a core list shows of a core is a debug stop or a context. -/
def Held (o : Nat → Bool × Option Nat) (c : Nat) : Prop := (o c).1 = true ∨ (o c).2 ≠ none

/-- Whether every core that is held is still held. -/
def Keeps (o o' : Nat → Bool × Option Nat) : Prop := ∀ c, Held o c → Held o' c

@[simp] theorem Keeps.refl (o : Nat → Bool × Option Nat) : Keeps o o := fun _ h => h

@[simp] theorem keeps_ite (p : Prop) [Decidable p] (o a b : Nat → Bool × Option Nat) :
    Keeps o (if p then a else b) ↔ if p then Keeps o a else Keeps o b := by
  split <;> rfl

theorem keeps_foldl_of {σ α : Type} (g : σ → Nat → Bool × Option Nat) {f : σ → α → σ} (hf : ∀ u x, Keeps (g u) (g (f u x)))
    (l : List α) {o : Nat → Bool × Option Nat} {u : σ} (h : Keeps o (g u)) : Keeps o (g (l.foldl f u)) := by
  induction l generalizing u with
  | nil => exact h
  | cons x l ih => exact ih (fun c hc => hf u x c (h c hc))

section

variable {o : Nat → Bool × Option Nat} {s : State}

@[simp] theorem keeps_foldl {α : Type} {f : State → α → State} (hf : ∀ u x, Keeps (stopCtx u.cores) (stopCtx (f u x).cores))
    (l : List α) (h : Keeps o (stopCtx s.cores)) : Keeps o (stopCtx (l.foldl f s).cores) :=
  keeps_foldl_of (fun u : State => stopCtx u.cores) hf l h

@[simp] theorem keeps_foldl_snd {α β : Type} {f : β × State → α → β × State}
    (hf : ∀ u x, Keeps (stopCtx u.2.cores) (stopCtx (f u x).2.cores)) (l : List α) {r : β × State}
    (h : Keeps o (stopCtx r.2.cores)) : Keeps o (stopCtx (l.foldl f r).2.cores) :=
  keeps_foldl_of (fun u : β × State => stopCtx u.2.cores) hf l h

theorem keeps_setCore_of_ctx {c : Nat} {k : Core} (hk : k.ctx ≠ none) (s : State) :
    Keeps (stopCtx s.cores) (stopCtx (setCore c k s).cores) := by
  intro d hd
  by_cases hdc : d = c
  · subst hdc
    exact .inr (by simpa [stopCtx, setCore] using hk)
  · simpa [Held, stopCtx, setCore, mapGet_set_ne, hdc] using hd

/-- A change of the cores of a context reaches none without a context. -/
theorem keeps_mapCores {p : Nat → Core → Bool} {f : Core → Core} (hp : ∀ i k, p i k = true → (f k).ctx ≠ none)
    (h : Keeps o (stopCtx s.cores)) : Keeps o (stopCtx (mapCores p f s).cores) := by
  refine keeps_foldl (fun u e => ?_) s.cores h
  split
  · exact keeps_setCore_of_ctx (hp _ _ ‹_›) u
  · exact .refl _

/-! ### Operations that reach the cores of a context

An error of a context stops the context's cores through `mapCores`. In a list that names a core twice this may put the
second entry in the place of the first, debug stop and all; but then the core has a context. So these keep what `Held`
says. -/

/-! #### Errors -/

@[simp] theorem keeps_dikeCtx (n code : Nat) (hs : Keeps o (stopCtx s.cores)) : Keeps o (stopCtx (dikeCtx n code s).cores) := by
  simp only [dikeCtx, stopCtx_cancelBarges]
  refine keeps_mapCores (fun _ k hk => ?_) (by simpa using hs)
  simp_all

@[simp] theorem keeps_jobHalted (n code : Nat) (hs : Keeps o (stopCtx s.cores)) :
    Keeps o (stopCtx (jobHalted n code s).cores) := by simp [jobHalted, hs]

@[simp] theorem keeps_ctxFatal (n code : Nat) (hs : Keeps o (stopCtx s.cores)) : Keeps o (stopCtx (ctxFatal n code s).cores) := by
  unfold ctxFatal
  split <;> simp [hs]

@[simp] theorem keeps_doReplay (n t : Nat) (hs : Keeps o (stopCtx s.cores)) : Keeps o (stopCtx (doReplay n t s).cores) := by
  unfold doReplay
  split <;> simp [hs]

@[simp] theorem keeps_rootReplay (n t : Nat) (hs : Keeps o (stopCtx s.cores)) : Keeps o (stopCtx (rootReplay n t s).cores) := by
  unfold rootReplay
  split <;> simp [hs]

@[simp] theorem keeps_stepFatal (n code : Nat) (t : Option Nat) (hs : Keeps o (stopCtx s.cores)) :
    Keeps o (stopCtx (stepFatal n code t s).cores) := by
  unfold stepFatal
  split <;> simp [hs]

@[simp] theorem keeps_flitCheck (b : Nat) (ctx step : Option Nat) (hs : Keeps o (stopCtx s.cores)) :
    Keeps o (stopCtx (flitCheck b ctx step s).2.cores) := by
  unfold flitCheck
  dsimp only
  (repeat' split) <;> simp [hs]

@[simp] theorem keeps_canalMove (a b n : Nat) (ctx step : Option Nat) (hs : Keeps o (stopCtx s.cores)) :
    Keeps o (stopCtx (canalMove a b n ctx step s).2.cores) := by
  unfold canalMove
  split <;> simp [hs]

/-! #### CoreOps -/

@[simp] theorem keeps_dikeSegment (c : Nat) (hs : Keeps o (stopCtx s.cores)) : Keeps o (stopCtx (dikeSegment c s).cores) := by
  simp only [dikeSegment]
  split
  · split
    · refine keeps_mapCores (fun _ k hk => ?_) (by simpa using hs)
      simp_all
    · exact hs
  · exact hs

@[simp] theorem keeps_coreAsyncFault (c bit : Nat) (src : Option (Nat × Nat)) (hs : Keeps o (stopCtx s.cores)) :
    Keeps o (stopCtx (coreAsyncFault c bit src s).cores) := by
  rcases src with _ | ⟨w, pc⟩
  all_goals
    simp only [coreAsyncFault]
    split
    · exact keeps_stepFatal _ _ _ (keeps_dikeSegment _ (by simp [noWaits, hs]))
    · exact keeps_dikeSegment _ (by simp [noWaits, hs])

/-! #### DramOps -/

@[simp] theorem keeps_workStepFatal (ctx step : Option Nat) (code : Nat) (hs : Keeps o (stopCtx s.cores)) :
    Keeps o (stopCtx (workStepFatal ctx step code s).cores) := by
  unfold workStepFatal
  split <;> simp [hs]

@[simp] theorem keeps_workFatal (ctx : Option Nat) (code : Nat) (hs : Keeps o (stopCtx s.cores)) :
    Keeps o (stopCtx (workFatal ctx code s).cores) := by
  unfold workFatal
  split <;> simp [hs]

@[simp] theorem keeps_dramBad (q a cls : Nat) (ctx step : Option Nat) (hs : Keeps o (stopCtx s.cores)) :
    Keeps o (stopCtx (dramBad q a cls ctx step s).cores) := by simp [dramBad, hs]

@[simp] theorem keeps_decodeBlock (q a n : Nat) (ctx step : Option Nat) (hs : Keeps o (stopCtx s.cores)) :
    Keeps o (stopCtx (decodeBlock q a n ctx step s).2.cores) := by
  unfold decodeBlock
  dsimp only
  (repeat' split) <;> simp [hs]

@[simp] theorem keeps_meetBlock (ctx step : Option Nat) (blk : Nat) (hs : Keeps o (stopCtx s.cores)) :
    Keeps o (stopCtx (meetBlock ctx step blk s).cores) := by
  unfold meetBlock
  split <;> simp [hs]

@[simp] theorem keeps_dramFetch (a n : Nat) (ctx step : Option Nat) (hs : Keeps o (stopCtx s.cores)) :
    Keeps o (stopCtx (dramFetch a n ctx step s).cores) := by simp [dramFetch, hs]

@[simp] theorem keeps_fetchDram (os : List Nat) (ctx step : Option Nat) (hs : Keeps o (stopCtx s.cores)) :
    Keeps o (stopCtx (fetchDram os ctx step s).cores) := by simp [fetchDram, hs]

@[simp] theorem keeps_fetchScratch (os : List Nat) (hs : Keeps o (stopCtx s.cores)) :
    Keeps o (stopCtx (fetchScratch os s).cores) := by simp [fetchScratch, hs]

@[simp] theorem keeps_fetchQuay (os : List Nat) (ctx step : Option Nat) (hs : Keeps o (stopCtx s.cores)) :
    Keeps o (stopCtx (fetchQuay os ctx step s).cores) := by simp [fetchQuay, hs]

@[simp] theorem keeps_fetchAll (as : List Nat) (ctx step : Option Nat) (hs : Keeps o (stopCtx s.cores)) :
    Keeps o (stopCtx (fetchAll as ctx step s).cores) :=
  keeps_fetchQuay _ ctx step (keeps_fetchScratch _ (keeps_fetchDram _ ctx step hs))

/-! #### Barge -/

@[simp] theorem keeps_bargeFail (e i bit : Nat) (hs : Keeps o (stopCtx s.cores)) :
    Keeps o (stopCtx (bargeFail e i bit s).cores) := by
  unfold bargeFail
  split <;> simp [hs]

@[simp] theorem keeps_bargeUnmapped (e i a : Nat) (hs : Keeps o (stopCtx s.cores)) :
    Keeps o (stopCtx (bargeUnmapped e i a s).cores) := by simp [bargeUnmapped, hs]

@[simp] theorem keeps_canalBytes (inward : Bool) (e : Nat) (addrs : List Nat) (g : Tag) (hs : Keeps o (stopCtx s.cores)) :
    Keeps o (stopCtx (canalBytes inward e addrs g s).2.cores) := by
  refine keeps_foldl_snd (fun r d => ?_) [0, 1, 2, 3] hs
  dsimp only
  split <;> simp

/-- What `o` keeps is kept when a barge sends, in the words of an opaque property `P`: where a projection of the state
stands around the sending, the kernel would evaluate the errors that the barge meets. -/
theorem bargeSend_of_keeps (P : State → Prop) (hP : ∀ u : State, Keeps o (stopCtx u.cores) → P u) (e i : Nat) (j : BargeJob)
    (old : Nat) (hs : Keeps o (stopCtx s.cores)) : P (bargeSend e i j old s) := by
  have hbody : bargeSend = bargeSend := rfl
  conv at hbody => rhs; delta bargeSend
  rw [hbody]
  clear hbody
  beta_reduce
  extract_lets -underBinder srcs c out r
  clear_value (hr : r = _) out (hc : c = _) srcs
  have hkept : Keeps o (stopCtx r.2.cores) := by
    rw [hr, stopCtx_bargeErrs, hc]
    exact keeps_canalBytes _ _ _ _ (keeps_fetchAll _ _ _ hs)
  split
  · split
    · exact hP _ (by simp [hkept])
    · exact hP _ (by simp [hkept])
  · extract_lets trains s1 alt
    exact hP _ (by simp [s1, hkept])

@[simp] theorem keeps_bargeSend (e i : Nat) (j : BargeJob) (old : Nat) (hs : Keeps o (stopCtx s.cores)) :
    Keeps o (stopCtx (bargeSend e i j old s).cores) :=
  bargeSend_of_keeps (fun u => Keeps o (stopCtx u.cores)) (fun _ hu => hu) e i j old hs

@[simp] theorem keeps_bargeData (xid dst : Nat) (data : List (Nat × Bool)) (hs : Keeps o (stopCtx s.cores)) :
    Keeps o (stopCtx (bargeData xid dst data s).cores) := by
  unfold bargeData
  dsimp only
  (repeat' split) <;> simp [hs]

@[simp] theorem keeps_bargeDenied (xid code : Nat) (hs : Keeps o (stopCtx s.cores)) :
    Keeps o (stopCtx (bargeDenied xid code s).cores) := by
  unfold bargeDenied
  split <;> simp [hs]

/-! #### Upd -/

@[simp] theorem keeps_poolTake (i : Nat) (nd : Node) (hs : Keeps o (stopCtx s.cores)) :
    Keeps o (stopCtx (poolTake i nd s).2.cores) := by
  unfold poolTake
  split <;> simp [hs]

@[simp] theorem keeps_bindRefuse (i bit ctx : Nat) (hs : Keeps o (stopCtx s.cores)) :
    Keeps o (stopCtx (bindRefuse i bit ctx s).cores) := by simp [bindRefuse, hs]

@[simp] theorem keeps_readPart (b : Binding) (v u n : Nat) (hs : Keeps o (stopCtx s.cores)) :
    Keeps o (stopCtx (readPart b v u n s).cores) := by
  unfold readPart
  split <;> simp [hs]

@[simp] theorem keeps_mirrorPart (i v u : Nat) (hs : Keeps o (stopCtx s.cores)) :
    Keeps o (stopCtx (mirrorPart i v u s).cores) := by
  unfold mirrorPart
  split <;> simp [hs]

@[simp] theorem keeps_mirrorAll (i : Nat) (hs : Keeps o (stopCtx s.cores)) : Keeps o (stopCtx (mirrorAll i s).cores) := by
  unfold mirrorAll
  (repeat' split) <;> simp [hs]

@[simp] theorem keeps_rebind (i : Nat) (b : Binding) (d : BindDesc) (hs : Keeps o (stopCtx s.cores)) :
    Keeps o (stopCtx (rebind i b d s).cores) := by simp [rebind, hs]

theorem keeps_checked {p : Page} {bit : Nat} {found : Bool} {bad ok : State → State}
    (hbad : ∀ u : State, Keeps o (stopCtx u.cores) → Keeps o (stopCtx (bad u).cores))
    (hok : ∀ u : State, Keeps o (stopCtx u.cores) → Keeps o (stopCtx (ok u).cores)) (hs : Keeps o (stopCtx s.cores)) :
    Keeps o (stopCtx (checked p bit found bad ok s).cores) := by
  simp only [checked]
  split
  · exact hbad _ (by simpa using hs)
  · exact hok _ (by simpa using hs)

@[simp] theorem keeps_doBind (i : Nat) (hs : Keeps o (stopCtx s.cores)) : Keeps o (stopCtx (doBind i s).cores) := by
  unfold doBind
  refine keeps_checked (fun u hu => ?_) (fun u hu => keeps_checked (fun v hv => ?_) (fun v hv => ?_) hu) ?_
  · exact keeps_bindRefuse _ _ _ hu
  · exact keeps_bindRefuse _ _ _ hv
  · dsimp only
    split
    · split <;> simp [hv]
    · split <;> simp [hv]
    · simp [hv]
  · exact keeps_dramFetch _ _ _ _ hs

@[simp] theorem keeps_bindBoundary (i t : Nat) (hs : Keeps o (stopCtx s.cores)) :
    Keeps o (stopCtx (bindBoundary i t s).cores) := by simp [bindBoundary, hs]

@[simp] theorem keeps_bindDone (i : Nat) (skipped : Bool) (hs : Keeps o (stopCtx s.cores)) :
    Keeps o (stopCtx (bindDone i skipped s).cores) := by
  unfold bindDone
  split <;> simp [hs]

@[simp] theorem keeps_bindSkip (i : Nat) (parts : List (Nat × Nat)) (hs : Keeps o (stopCtx s.cores)) :
    Keeps o (stopCtx (bindSkip i parts s).cores) := by
  refine keeps_bindDone i true ?_
  rw [stopCtx_modBind]
  refine keeps_foldl (fun u p => ?_) parts hs
  split
  · split
    · dsimp only
      split <;> simp
    · exact .refl _
  · exact .refl _

/-! #### UpdNet -/

@[simp] theorem keeps_placeNode (i b lg n : Nat) (nd : Node) (hs : Keeps o (stopCtx s.cores)) :
    Keeps o (stopCtx (placeNode i b lg n nd s).cores) := by
  induction n generalizing nd s with
  | zero => exact hs
  | succ n ih =>
    simp only [placeNode]
    split
    · exact hs
    · split
      · simpa using hs
      · split
        · exact ih _ hs
        · split
          · simpa using hs
          · exact ih _ (by simp [hs])

@[simp] theorem keeps_placeFast (i b lg : Nat) (nd : Node) (hs : Keeps o (stopCtx s.cores)) :
    Keeps o (stopCtx (placeFast i b lg nd s).cores) := by
  unfold placeFast
  (repeat' split) <;> simp [hs]

@[simp] theorem keeps_writeRoot (i : Nat) (h : Shard) (nd : Node) (hs : Keeps o (stopCtx s.cores)) :
    Keeps o (stopCtx (writeRoot i h nd s).cores) := by
  unfold writeRoot
  split <;> simp [hs]

@[simp] theorem keeps_writeRoots (i v u : Nat) (hs : Keeps o (stopCtx s.cores)) :
    Keeps o (stopCtx (writeRoots i v u s).cores) := by
  simp only [writeRoots]
  split
  · exact hs
  · split
    · exact hs
    · simp [hs]

@[simp] theorem keeps_nodeBlock (i b lg : Nat) (t : Train) (j : Nat) (ws : List Nat) (bad fast : Bool)
    (hs : Keeps o (stopCtx s.cores)) :
    Keeps o (stopCtx (nodeBlock i b lg t j ws bad fast s).2.cores) := by
  unfold nodeBlock
  dsimp only
  (repeat' split) <;> simp [hs]

@[simp] theorem keeps_nodeBlocks (i b lg : Nat) (t : Train) (len : Nat) (bad fast : Bool) (n j : Nat) (ws : List Nat)
    (hs : Keeps o (stopCtx s.cores)) : Keeps o (stopCtx (nodeBlocks i b lg t len bad fast n j ws s).2.cores) := by
  induction n generalizing j ws s with
  | zero => exact hs
  | succ n ih =>
    simp only [nodeBlocks]
    split
    · exact hs
    · split
      · exact hs
      · split
        · exact ih _ _ (by simp [hs])
        · simp [hs]

@[simp] theorem keeps_nodeTake (i n b lg c : Nat) (fresh : Bool) (t : Train) (hs : Keeps o (stopCtx s.cores)) :
    Keeps o (stopCtx (nodeTake i n b lg c fresh t s).cores) := by
  unfold nodeTake
  extract_lets s'
  have hs' : Keeps o (stopCtx s'.cores) := by simp [s', hs]
  split
  · exact hs'
  · extract_lets len old s0 words bad j0 r
    have hr : Keeps o (stopCtx r.2.cores) := by simp [r, s0, hs']
    split
    · simp [hr]
    · extract_lets s1 s2 s3 s4
      have hs1 : Keeps o (stopCtx s1.cores) := by simp [s1, hr]
      have hs2 : Keeps o (stopCtx s2.cores) := by simp [s2, hs1]
      have hs3 : Keeps o (stopCtx s3.cores) := by
        simp only [s3]
        split
        · split <;> simp [hs2]
        · exact hs2
      simp [s4, hs3]

@[simp] theorem keeps_nodeIn (k : Nat) (t : Train) (hs : Keeps o (stopCtx s.cores)) : Keeps o (stopCtx (nodeIn k t s).cores) := by
  unfold nodeIn
  (repeat' split) <;> simp [hs]

@[simp] theorem keeps_nodeAgain (i k : Nat) (t : Train) (hs : Keeps o (stopCtx s.cores)) :
    Keeps o (stopCtx (nodeAgain i k t s).cores) := by
  unfold nodeAgain
  (repeat' split) <;> simp [hs]

@[simp] theorem keeps_gatherServe (i n buf : Nat) (fwd : Bool) (t : Train) (hs : Keeps o (stopCtx s.cores)) :
    Keeps o (stopCtx (gatherServe i n buf fwd t s).cores) := by
  unfold gatherServe
  (repeat' split) <;> simp [hs]

@[simp] theorem keeps_gatherIn (k : Nat) (fwd : Bool) (t : Train) (hs : Keeps o (stopCtx s.cores)) :
    Keeps o (stopCtx (gatherIn k fwd t s).cores) := by
  unfold gatherIn
  (repeat' split) <;> simp [hs]

@[simp] theorem keeps_releaseHeld (i : Nat) (hs : Keeps o (stopCtx s.cores)) : Keeps o (stopCtx (releaseHeld i s).cores) := by
  simp only [releaseHeld]
  split
  · exact hs
  · refine keeps_foldl (fun _ _ => by simp) _ ?_
    refine keeps_foldl (fun _ _ => by simp) _ ?_
    refine keeps_foldl (fun _ _ => by simp) _ ?_
    simpa using hs

@[simp] theorem keeps_releaseCtx (n : Nat) (hs : Keeps o (stopCtx s.cores)) : Keeps o (stopCtx (releaseCtx n s).cores) := by
  simp [releaseCtx, hs]

@[simp] theorem keeps_freedRetry (hs : Keeps o (stopCtx s.cores)) : Keeps o (stopCtx (freedRetry s).cores) := by
  simp [freedRetry, hs]

@[simp] theorem keeps_clearLoading (i v : Nat) (hs : Keeps o (stopCtx s.cores)) :
    Keeps o (stopCtx (clearLoading i v s).cores) := by
  unfold clearLoading
  split <;> simp [hs]

@[simp] theorem keeps_shardLanded (i v : Nat) (hs : Keeps o (stopCtx s.cores)) : Keeps o (stopCtx (shardLanded i v s).cores) := by
  unfold shardLanded
  split <;> simp [hs]

@[simp] theorem keeps_genLands (i v u w : Nat) (t : Train) (hs : Keeps o (stopCtx s.cores)) :
    Keeps o (stopCtx (genLands i v u w t s).cores) := by
  unfold genLands
  (repeat' split) <;> simp [hs]

@[simp] theorem keeps_scatterIn (t : Train) (hs : Keeps o (stopCtx s.cores)) : Keeps o (stopCtx (scatterIn t s).cores) := by
  unfold scatterIn
  split
  · exact hs
  · split
    · simp [hs]
    · dsimp only
      split
      · simp [hs]
      · split
        · simp [hs]
        · split <;> simp [hs]

/-! #### Verdict -/

@[simp] theorem keeps_bindVerdict (i : Nat) (v : Verdict) (count : Nat) (hs : Keeps o (stopCtx s.cores)) :
    Keeps o (stopCtx (bindVerdict i v count s).cores) := by
  unfold bindVerdict
  dsimp only
  (repeat' split) <;> simp [hs]

@[simp] theorem keeps_verdictAct (n : Nat) (v0 : Verdict) (hs : Keeps o (stopCtx s.cores)) :
    Keeps o (stopCtx (verdictAct n v0 s).cores) := by
  unfold verdictAct
  split
  · exact hs
  · split
    · exact hs
    · refine keeps_releaseCtx n ?_
      refine keeps_foldl (fun _ _ => by simp) _ ?_
      simp [hs]

@[simp] theorem keeps_passUp (n : Nat) (hs : Keeps o (stopCtx s.cores)) : Keeps o (stopCtx (passUp n s).cores) := by
  unfold passUp
  dsimp only
  (repeat' split) <;> simp [hs]

@[simp] theorem keeps_catchUpAct (i : Nat) (hs : Keeps o (stopCtx s.cores)) : Keeps o (stopCtx (catchUpAct i s).cores) := by
  unfold catchUpAct
  (repeat' split) <;> simp [hs]

@[simp] theorem keeps_pokeCtx (n : Nat) (hs : Keeps o (stopCtx s.cores)) : Keeps o (stopCtx (pokeCtx n s).cores) := by
  unfold pokeCtx
  split
  · exact hs
  · refine keeps_passUp n (keeps_foldl (fun w e => ?_) _ hs)
    split <;> simp

@[simp] theorem keeps_verdictUpIn (t : Train) (hs : Keeps o (stopCtx s.cores)) : Keeps o (stopCtx (verdictUpIn t s).cores) := by
  unfold verdictUpIn
  (repeat' split) <;> simp [hs]

@[simp] theorem keeps_verdictDownIn (t : Train) (hs : Keeps o (stopCtx s.cores)) :
    Keeps o (stopCtx (verdictDownIn t s).cores) := by
  unfold verdictDownIn
  split <;> simp [hs]

/-! #### Coll -/

@[simp] theorem keeps_collError (n bit : Nat) (step : Option Nat) (hs : Keeps o (stopCtx s.cores)) :
    Keeps o (stopCtx (collError n bit step s).cores) := by simp [collError, hs]

@[simp] theorem keeps_collEnd (c : CollEntry) (bit : Nat) (hs : Keeps o (stopCtx s.cores)) :
    Keeps o (stopCtx (collEnd c bit s).cores) := by simp [collEnd, hs]

@[simp] theorem keeps_collFinish (c : CollEntry) (hs : Keeps o (stopCtx s.cores)) : Keeps o (stopCtx (collFinish c s).cores) := by
  simp [collFinish, hs]

@[simp] theorem keeps_collAck (xid src : Nat) (hs : Keeps o (stopCtx s.cores)) : Keeps o (stopCtx (collAck xid src s).cores) := by
  unfold collAck
  split <;> simp [hs]

@[simp] theorem keeps_collLanded (n src a : Nat) (hs : Keeps o (stopCtx s.cores)) :
    Keeps o (stopCtx (collLanded n src a s).cores) := by
  unfold collLanded
  split <;> simp [hs]

@[simp] theorem keeps_collDenied (xid src : Nat) (hs : Keeps o (stopCtx s.cores)) :
    Keeps o (stopCtx (collDenied xid src s).cores) := by
  unfold collDenied
  split <;> simp [hs]

@[simp] theorem keeps_collsLost (m : Nat) (hs : Keeps o (stopCtx s.cores)) : Keeps o (stopCtx (collsLost m s).cores) := by
  simp [collsLost, hs]

@[simp] theorem keeps_collLost (n : Nat) (owns : CollEntry → Bool) (hs : Keeps o (stopCtx s.cores)) :
    Keeps o (stopCtx (collLost n owns s).cores) := by
  unfold collLost
  split <;> simp [hs]

/-! #### Emb -/

@[simp] theorem keeps_bargesLost (m n : Nat) (hs : Keeps o (stopCtx s.cores)) :
    Keeps o (stopCtx (bargesLost m n s).cores) := by
  induction n generalizing s with
  | zero => exact hs
  | succ n ih =>
    simp only [bargesLost]
    split
    · exact ih (by simp [hs])
    · exact hs

@[simp] theorem keeps_noteLost (m : Nat) (hs : Keeps o (stopCtx s.cores)) : Keeps o (stopCtx (noteLost m s).cores) := by
  unfold noteLost
  extract_lets s1 s2 s3 s4 s5
  have hs2 : Keeps o (stopCtx s2.cores) := by simp [s2, s1, hs]
  have hs3 : Keeps o (stopCtx s3.cores) := by simp [s3, hs2]
  have hs4 : Keeps o (stopCtx s4.cores) := by simp [s4, hs3]
  have hs5 : Keeps o (stopCtx s5.cores) := by
    refine keeps_foldl (fun t e => ?_) s4.ctxs hs4
    split
    · split <;> simp
    · exact .refl _
  simp [hs5]

@[simp] theorem keeps_lostIn (e : EmbMsg) (hs : Keeps o (stopCtx s.cores)) : Keeps o (stopCtx (lostIn e s).cores) := by
  simp [lostIn, hs]

@[simp] theorem keeps_replayReqIn (e : EmbMsg) (hs : Keeps o (stopCtx s.cores)) : Keeps o (stopCtx (replayReqIn e s).cores) := by
  unfold replayReqIn
  split <;> simp [hs]

@[simp] theorem keeps_haltIn (e : EmbMsg) (hs : Keeps o (stopCtx s.cores)) : Keeps o (stopCtx (haltIn e s).cores) := by
  unfold haltIn
  split <;> simp [hs]

@[simp] theorem keeps_substEngines (n lost spare idx r : Nat) (hs : Keeps o (stopCtx s.cores)) :
    Keeps o (stopCtx (substEngines n lost spare idx r s).cores) := by
  unfold substEngines
  (repeat' split) <;> simp [hs]

@[simp] theorem keeps_replayIn (e : EmbMsg) (hs : Keeps o (stopCtx s.cores)) : Keeps o (stopCtx (replayIn e s).cores) := by
  unfold replayIn
  dsimp only
  (repeat' split) <;> simp [hs]

@[simp] theorem keeps_rootHalt (n code : Nat) (hs : Keeps o (stopCtx s.cores)) : Keeps o (stopCtx (rootHalt n code s).cores) := by
  unfold rootHalt
  split <;> simp [hs]

@[simp] theorem keeps_recoverDecide (n : Nat) (r : Recovery) (hs : Keeps o (stopCtx s.cores)) :
    Keeps o (stopCtx (recoverDecide n r s).cores) := by
  unfold recoverDecide
  split <;> simp [hs]

@[simp] theorem keeps_answerUp (n : Nat) (r : Recovery) (hs : Keeps o (stopCtx s.cores)) :
    Keeps o (stopCtx (answerUp n r s).cores) := by
  unfold answerUp
  (repeat' split) <;> simp [hs]

@[simp] theorem keeps_prepare (n lost : Nat) (hs : Keeps o (stopCtx s.cores)) : Keeps o (stopCtx (prepare n lost s).cores) := by
  unfold prepare
  dsimp only
  (repeat' split) <;> simp [hs]

@[simp] theorem keeps_recoverIn (e : EmbMsg) (hs : Keeps o (stopCtx s.cores)) : Keeps o (stopCtx (recoverIn e s).cores) := by
  unfold recoverIn
  dsimp only
  (repeat' split) <;> simp [hs]

@[simp] theorem keeps_replayPrepIn (e : EmbMsg) (hs : Keeps o (stopCtx s.cores)) :
    Keeps o (stopCtx (replayPrepIn e s).cores) := by
  unfold replayPrepIn
  split <;> simp [hs]

@[simp] theorem keeps_prepAnswerIn (e : EmbMsg) (hs : Keeps o (stopCtx s.cores)) :
    Keeps o (stopCtx (prepAnswerIn e s).cores) := by
  unfold prepAnswerIn
  dsimp only
  (repeat' split) <;> simp [hs]

@[simp] theorem keeps_durableIn (e : EmbMsg) (hs : Keeps o (stopCtx s.cores)) : Keeps o (stopCtx (durableIn e s).cores) := by
  unfold durableIn
  split <;> simp [hs]

@[simp] theorem keeps_embIn (k : Nat) (e : EmbMsg) (hs : Keeps o (stopCtx s.cores)) : Keeps o (stopCtx (embIn k e s).cores) := by
  unfold embIn
  (repeat' split) <;> simp [hs]

/-! #### Deliver -/

@[simp] theorem keeps_readReqIn (t : Train) (hs : Keeps o (stopCtx s.cores)) : Keeps o (stopCtx (readReqIn t s).cores) := by
  unfold readReqIn
  split <;> simp [hs]

@[simp] theorem keeps_writeAckIn (t : Train) (hs : Keeps o (stopCtx s.cores)) : Keeps o (stopCtx (writeAckIn t s).cores) := by
  simp [writeAckIn, hs]

@[simp] theorem keeps_denyIn (t : Train) (hs : Keeps o (stopCtx s.cores)) : Keeps o (stopCtx (denyIn t s).cores) := by
  unfold denyIn
  (repeat' split) <;> simp [hs]

@[simp] theorem keeps_gatherDataIn (k : Nat) (t : Train) (hs : Keeps o (stopCtx s.cores)) :
    Keeps o (stopCtx (gatherDataIn k t s).cores) := by
  unfold gatherDataIn
  dsimp only
  (repeat' split) <;> simp [hs]

@[simp] theorem keeps_blockLanded (n : Nat) (t : Train) (hs : Keeps o (stopCtx s.cores)) :
    Keeps o (stopCtx (blockLanded n t s).cores) := by
  unfold blockLanded
  (repeat' split) <;> simp [hs]

@[simp] theorem keeps_tallyIn (k : Nat) (t : Train) (hs : Keeps o (stopCtx s.cores)) :
    Keeps o (stopCtx (tallyIn k t s).cores) := by
  unfold tallyIn
  (repeat' split) <;> simp [hs]

@[simp] theorem keeps_deliver (k : Nat) (t : Train) (hs : Keeps o (stopCtx s.cores)) :
    Keeps o (stopCtx (deliver k t s).cores) := by
  unfold deliver
  split <;> simp [hs]

@[simp] theorem keeps_deliverOwn (t : Train) (hs : Keeps o (stopCtx s.cores)) : Keeps o (stopCtx (deliverOwn t s).cores) := by
  unfold deliverOwn
  (repeat' split) <;> simp [hs]

@[simp] theorem keeps_checkedTrain (k : Nat) (t : Train) (hs : Keeps o (stopCtx s.cores)) :
    Keeps o (stopCtx (checkedTrain k t s).cores) := by
  unfold checkedTrain
  (repeat' split) <;> simp [hs]

@[simp] theorem keeps_arrive (k : Nat) (t : Train) (hs : Keeps o (stopCtx s.cores)) : Keeps o (stopCtx (arrive k t s).cores) := by
  simp [arrive, hs]

@[simp] theorem keeps_lostTrain (t : Train) (hs : Keeps o (stopCtx s.cores)) : Keeps o (stopCtx (lostTrain t s).cores) := by
  unfold lostTrain
  dsimp only
  (repeat' split) <;> simp [hs]

@[simp] theorem keeps_pokeAll (hs : Keeps o (stopCtx s.cores)) : Keeps o (stopCtx (pokeAll s).cores) := by
  simp [pokeAll, hs]

@[simp] theorem keeps_behindRetry (hs : Keeps o (stopCtx s.cores)) : Keeps o (stopCtx (behindRetry s).cores) := by
  simp [behindRetry, hs]

/-- Settling frees no core that is held. -/
theorem keeps_settle (n : Nat) (hs : Keeps o (stopCtx s.cores)) : Keeps o (stopCtx (settle n s).cores) := by
  induction n generalizing s with
  | zero => exact hs
  | succ n ih =>
    simp only [settle]
    split
    · split
      · exact keeps_pokeAll hs
      · exact ih (keeps_pokeAll hs)
    · refine ih (keeps_foldl (fun _ _ => by simp) _ (keeps_foldl (fun _ _ => by simp) _ ?_))
      exact keeps_behindRetry (keeps_freedRetry (by simpa using hs))

end

/-! ### DBG_STEP where CORE_DBG_CTRL.STOP is 0 -/

/-- The live module with core 0 stopped by debug, in no context, and CORE_DBG_CTRL.STOP 0. -/
def stoppedAlone : State := Tests.on { Core.zero with dbgStop := true }

theorem stoppedAlone_reaches : Reaches .host (pgCore 0) stoppedAlone := by
  unfold Reaches
  decide +kernel

/-- DBG_STEP's write leaves STOP as it was, so the core's debug stop is released with nothing issued. -/
theorem dbgStep_releases_stoppedAlone :
    Tests.after (exec (.dbgStep .host 0) stoppedAlone) (fun t => !(coreOf t 0).dbgStop && (coreOf t 0).ctx.isNone) = true := by
  decide +kernel

/-- What a state that settles to one with core 0 free shows: its core 0 was not stopped by debug. -/
theorem dbgStop_of_settled_free {u t : State} {c : Nat} (h : t = settled u) (hstop : (coreOf t c).dbgStop = false)
    (hctx : (coreOf t c).ctx = none) : (coreOf u c).dbgStop = false := by
  by_contra hu
  have hheld : Held (stopCtx t.cores) c := by
    rw [h]
    exact keeps_settle 64 (.refl _) c (.inl (by simpa [stopCtx, coreOf] using hu))
  obtain hheld | hheld := hheld
  · exact absurd (hheld.symm.trans hstop) (by decide)
  · exact hheld hctx

/-- Refutes O21: a core stopped by debug whose CORE_DBG_CTRL.STOP is 0 is released by DBG_STEP, and no state with the core
stopped settles to the one that DBG_STEP leaves. -/
theorem not_everyCommandCompletes : ¬ Obligations.EveryCommandCompletes := by
  unfold Obligations.EveryCommandCompletes
  intro h
  obtain ⟨-, -, hdebug, -, -⟩ := h
  obtain ⟨-, -, hstep⟩ := hdebug .host 0 stoppedAlone stoppedAlone_reaches (by decide +kernel)
  obtain ⟨u, t, ht, ⟨hsettled, -⟩, hu⟩ := hstep (by decide +kernel)
  have hfree := dbgStep_releases_stoppedAlone
  simp only [ht, Tests.after, Bool.and_eq_true, Bool.not_eq_true', Option.isNone_iff_eq_none] at hfree
  obtain ⟨hstop, hctx⟩ := hfree
  exact absurd (hu.symm.trans (dbgStop_of_settled_free hsettled hstop hctx)) (by decide)

end Sys2Proof.Machine
end

section
/-!
SUPPORT. The rule of a core instruction: what an undisturbed issue of a word runs, the checks that find nothing, and what a
retirement leaves (R76 to R79).
-/

namespace Sys2Proof.Machine

/-! ### What an issuing instruction's body starts from -/

/-- The state in which an issuing instruction's body runs: the pass over a breakpoint is spent, all else as it was. -/
abbrev issuing (s : State) (c : Nat) : State := modCore c (fun k => { k with bpPass := false }) s

theorem coreOf_issuing (s : State) (c : Nat) : coreOf (issuing s c) c = { coreOf s c with bpPass := false } := coreOf_modCore ..

@[simp] theorem noWaits_issuing (s : State) (c : Nat) : noWaits (coreOf (issuing s c) c) = atIssue s c := by
  rw [coreOf_issuing]; rfl

theorem issuing_alone (s : State) (c : Nat) : CoreAlone c s (issuing s c) := setCore_alone ..

section

variable {c : CoreIx} {w : DWord} {s : State} (hissues : Issues c s)
include hissues

/-- A word that spells its row runs the row's body. -/
theorem coreCmd_issues {ok : Bool} (hok : ok = true) (body : State → State) :
    coreCmd ok (issue false c w body s) = .next (body (issuing s c)) := by
  rw [hok, coreCmd, if_pos rfl, issue_runs c w body s hissues]

theorem injArm_issuing : rd (issuing s c) (pgCore c) R.HEADER_ERR_INJ_ARM = 0 := by
  obtain ⟨-, -, -, -, harm⟩ := hissues
  exact harm

/-- A check of an issuing instruction that finds nothing goes on. -/
theorem coreCheck_issuing {bad : Bool} (hbad : bad = false) (bit : Nat) (ok : State → State) :
    coreCheck c bit w bad (issuing s c) ok = ok (issuing s c) := by
  rw [hbad, coreCheck_quiet _ _ _ _ _ (injArm_issuing hissues)]

/-- A check of an issuing instruction that finds its error faults. -/
theorem coreCheck_faults {bad : Bool} (hbad : bad = true) (bit : Nat) (ok : State → State) :
    coreCheck c bit w bad (issuing s c) ok = coreFault c bit w (issuing s c) := by
  rw [hbad, coreCheck, checkFor_quiet _ _ _ _ (injArm_issuing hissues), if_pos rfl]

end

theorem Spelled.spells {cls op : Nat} {fs : List (Nat × Nat)} {w : DWord} (h : Spelled cls op fs w) :
    (wClass w == cls && wOp w == op) = true ∧ onlyFields w fs = true := by
  obtain ⟨hcls, hop, hfs⟩ := h
  exact ⟨by simp [hcls, hop], hfs⟩

/-! ### Retirements -/

/-- An instruction that retires has changed its core by `f`, moved it on, and left all else but its event counters. -/
theorem retired {o : Host.Outcome State Fault Refusal} {c : CoreIx} {f : Core → Core} {s : State}
    (h : o = .next (retire c f (issuing s c))) :
    ∃ t, o = .next t ∧ CoreAlone c s t ∧ coreOf t c = stepPc (f (atIssue s c)) := ⟨_, h, retire_alone c f s⟩

/-- What works on a core alone, with its events counted. -/
theorem countCore_modCore_alone (c e : Nat) (f : Core → Core) (s : State) :
    CoreAlone c s (countCore c e 1 (modCore c f (issuing s c))) ∧
      coreOf (countCore c e 1 (modCore c f (issuing s c))) c = f (coreOf (issuing s c) c) := by
  obtain ⟨halone, hcore⟩ := countCore_alone c e 1 s _ (coreAlone_trans (issuing_alone s c) (setCore_alone c (f (coreOf (issuing s c) c)) _))
  exact ⟨halone, hcore.trans (coreOf_setCore ..)⟩

/-! ### The rows of one shape -/

theorem exec_aluRow : ∀ r ∈ aluRows, ∀ (c : CoreIx) (w : DWord) (s : State),
    exec (r.1 c w) s = coreCmd (wClass w == 3 && wOp w == r.2.1) (issue false c w (doAlu c w r.2.2) s) := by
  simp only [aluRows, List.forall_mem_cons]
  refine ⟨?_, ?_, ?_, ?_, ?_, ?_, ?_, ?_, ?_, ?_, ?_, nofun⟩ <;> intros <;> rfl

theorem exec_branchRow : ∀ r ∈ branchRows, ∀ (c : CoreIx) (w : DWord) (s : State),
    exec (r.1 c w) s = coreCmd (wClass w == 0 && wOp w == r.2.1)
      (issue false c w (fun s => coreCheck c 0 w (!onlyFields w [(0, 8), (12, r.2.2.1)]) s (doBranch c w (r.2.2.2 w))) s) := by
  simp only [branchRows, List.forall_mem_cons]
  refine ⟨?_, ?_, ?_, ?_, nofun⟩ <;> intro c w s
  · rfl
  · exact congrArg (fun cond => coreCmd _ (issue false c w (fun s => coreCheck c 0 w _ s (doBranch c w cond)) s))
      (funext fun k => Bool.eq_iff_iff.mpr (by rw [beq_iff_eq, decide_eq_true_iff]))
  · exact congrArg (fun cond => coreCmd _ (issue false c w (fun s => coreCheck c 0 w _ s (doBranch c w cond)) s))
      (funext fun k => Bool.eq_iff_iff.mpr (by rw [bne_iff_ne, decide_eq_true_iff]))
  · rfl

/-- Whether a generator's window ends beyond scratch, as WRAP alone can set it (R89). -/
def windowBad (op : Nat) (w : DWord) : Bool := op == 3 && decide (0x40000 < fld w 18 18 + fld w 36 19)

theorem exec_agenRow : ∀ r ∈ agenRows, ∀ (c : CoreIx) (w : DWord) (s : State),
    exec (r.1 c w) s = coreCmd (wClass w == 2 && wOp w == r.2.1)
      (issue false c w (doAgen c w r.2.2.1 (windowBad r.2.1 w) (r.2.2.2 w)) s) := by
  simp only [agenRows, List.forall_mem_cons]
  refine ⟨?_, ?_, ?_, ?_, ?_, ?_, nofun⟩ <;> intros <;> rfl

theorem exec_arithRow : ∀ r ∈ arithRows, ∀ (c : CoreIx) (w : DWord) (s : State),
    exec (r.1 c w) s = coreCmd (isArith w r.2) (issue false c w (doArith c w) s) := by
  simp only [arithRows, List.forall_mem_cons]
  refine ⟨?_, ?_, ?_, ?_, ?_, ?_, ?_, ?_, ?_, ?_, ?_, ?_, ?_, ?_, nofun⟩ <;> intros <;> rfl

theorem exec_transRow : ∀ r ∈ transRows, ∀ (c : CoreIx) (w : DWord) (s : State),
    exec (r.1 c w) s = coreCmd (isTrans w r.2) (issue false c w (doTrans c w) s) := by
  simp only [transRows, List.forall_mem_cons]
  refine ⟨?_, ?_, ?_, ?_, ?_, ?_, ?_, ?_, ?_, ?_, ?_, nofun⟩ <;> intros <;> rfl

theorem exec_reduceRow : ∀ r ∈ reduceRows, ∀ (c : CoreIx) (w : DWord) (s : State),
    exec (r.1 c w) s = coreCmd (isReduce w r.2) (issue false c w (doReduce c w) s) := by
  simp only [reduceRows, List.forall_mem_cons]
  refine ⟨?_, ?_, ?_, ?_, nofun⟩ <;> intros <;> rfl

/-- Every other row runs some body where its word spells it by CLASS and OP. -/
theorem exec_otherCoreRow : ∀ r ∈ otherCoreRows, ∀ (c : CoreIx) (w : DWord) (s : State),
    ∃ t, exec (r.1 c w) s = coreCmd (wClass w == r.2.1 && wOp w == r.2.2) t := by
  simp only [otherCoreRows, List.forall_mem_cons]
  refine ⟨?_, ?_, ?_, ?_, ?_, ?_, ?_, ?_, ?_, ?_, ?_, ?_, ?_, ?_, ?_, ?_, ?_, ?_, ?_, ?_, ?_, ?_, ?_, ?_, ?_, ?_, ?_, nofun⟩ <;>
    exact fun _ _ _ => ⟨_, rfl⟩

end Sys2Proof.Machine
end

section
/-!
CERTIFICATE. The scalar operations (O3).
-/

namespace Sys2Proof.Machine

theorem fld_lt (w : DWord) (lo n : Nat) : fld w lo n < 2 ^ n := bitsOf_lt ..

theorem xget_zero (k : Core) : xget k 0 = 0#64 := rfl

theorem xget_xset {i : Nat} (hi : i ≠ 0) (v : DWord) (k : Core) (j : Nat) : xget (xset i v k) j = if j = i then v else xget k j := by
  split
  · rename_i hj
    rw [hj, xget_xset_self hi]
  · rename_i hj
    simp [xget, xset, hi, mapGet_set_ne _ _ _ _ _ _ hj]

/-- A scalar word that has only its fields, and no immediate without IMM, is legal (R77, R80). -/
theorem aluIllegal_eq_false {w : DWord} (hfs : onlyFields w [(0, 8), (12, 16), (28, 32)] = true) (himm : fld w 27 1 = 0 → fld w 28 32 = 0) :
    aluIllegal w = false := by
  simpa [aluIllegal, hfs] using himm

/-- LIH's value: IMM32 above the low word of the register (R80). -/
theorem putBits_high (x v : Nat) (hx : x < 2 ^ 64) (hv : v < 2 ^ 32) : putBits x 32 32 v = x % 2 ^ 32 + v * 2 ^ 32 := by
  rw [putBits, Nat.mod_eq_of_lt hv, Nat.div_eq_of_lt hx, Nat.zero_mul, Nat.add_zero]

/-- Settles O3: an ALU row is the one body `doAlu`, which retires. -/
theorem scalarRegistersAndOperations : Obligations.ScalarRegistersAndOperations := by
  unfold Obligations.ScalarRegistersAndOperations
  refine ⟨⟨fun k v => ⟨xget_zero k, rfl⟩, fun k i j v hi => xget_xset hi v k j⟩, ?_, ?_⟩
  · intro r hr c w s hissues hw himm
    obtain ⟨hspells, hfs⟩ := hw.spells
    have hlegal := aluIllegal_eq_false hfs himm
    have hexec := (exec_aluRow r hr c w s).trans (coreCmd_issues hissues hspells _)
    rw [doAlu, coreCheck_issuing hissues hlegal] at hexec
    obtain ⟨t, ht, halone, hcore⟩ := retired hexec
    exact ⟨t, ht, halone, hcore⟩
  · intro c w s hissues hw himm
    obtain ⟨hspells, hfs⟩ := hw.spells
    have hlegal := aluIllegal_eq_false hfs himm
    have hval : putBits (xnat (atIssue s c) (fld w 12 5)) 32 32 (fld w 28 32) =
        xnat (atIssue s c) (fld w 12 5) % 2 ^ 32 + fld w 28 32 * 2 ^ 32 := putBits_high _ _ (BitVec.isLt _) (fld_lt w 28 32)
    have hexec : exec (.lih c w) s = .next (doLih c w (issuing s c)) := coreCmd_issues hissues hspells _
    rw [doLih, coreCheck_issuing hissues hlegal] at hexec
    obtain ⟨t, ht, halone, hcore⟩ := retired hexec
    exact ⟨t, ht, halone, by rw [hcore, hval]⟩

end Sys2Proof.Machine
end

section
/-!
CERTIFICATE. Branches and hardware loops (O4, O5).
-/

namespace Sys2Proof.Machine

theorem onlyFields_legal {w : DWord} {fs : List (Nat × Nat)} (h : onlyFields w fs = true) : (!onlyFields w fs) = false := by rw [h]; rfl

/-- A taken branch, where its target lies in the segment's image (R82, R87). -/
theorem doBranch_taken {c : CoreIx} {w : DWord} {s : State} {cond : Core → Bool} {st : Nat} {g : Seg} (hissues : Issues c s)
    (hcur : (coreOf s c).cur = some st) (hseg : mapFind (coreOf s c).res st = some g)
    (hin : g.len = 0 ∨ (g.idx ≤ fld w 12 12 ∧ fld w 12 12 < g.idx + g.len)) (hcond : cond (coreOf (issuing s c) c) = true) :
    doBranch c w cond (issuing s c) =
      countCore c 0x03 1 (countCore c 0x01 1 (modCore c (fun k => branchTo (fld w 12 12) (noWaits k)) (issuing s c))) := by
  have hfound : (coreOf (issuing s c) c).cur.bind (mapFind (coreOf (issuing s c) c).res) = some g := by
    rw [coreOf_issuing, hcur]
    exact hseg
  rw [doBranch, if_pos hcond, hfound, coreCheck_issuing hissues]
  obtain hlen | ⟨hlo, hhi⟩ := hin
  · simp [hlen]
  · simp [hlo, hhi]

theorem doBranch_alone {c : CoreIx} {w : DWord} {s : State} {cond : Core → Bool} {st : Nat} {g : Seg} (hissues : Issues c s)
    (hcur : (coreOf s c).cur = some st) (hseg : mapFind (coreOf s c).res st = some g)
    (hin : g.len = 0 ∨ (g.idx ≤ fld w 12 12 ∧ fld w 12 12 < g.idx + g.len)) :
    CoreAlone c s (doBranch c w cond (issuing s c)) ∧ coreOf (doBranch c w cond (issuing s c)) c =
      if cond (coreOf (issuing s c) c) then branchTo (fld w 12 12) (atIssue s c) else stepPc (atIssue s c) := by
  cases hcond : cond (coreOf (issuing s c) c) with
  | false =>
    rw [doBranch, hcond]
    exact retire_alone c id s
  | true =>
    rw [doBranch_taken hissues hcur hseg hin hcond]
    obtain ⟨halone, hcore⟩ := countCore_modCore_alone c 1 (fun k => branchTo (fld w 12 12) (noWaits k)) s
    obtain ⟨halone', hcore'⟩ := countCore_alone c 3 1 s _ halone
    exact ⟨halone', by rw [hcore', hcore, noWaits_issuing]; rfl⟩

/-- No condition of a branch looks at what an issue clears. -/
theorem branchRow_cond : ∀ r ∈ branchRows, ∀ (w : DWord) (s : State) (c : Nat),
    r.2.2.2 w (coreOf (issuing s c) c) = r.2.2.2 w (atIssue s c) := by
  simp only [branchRows, List.forall_mem_cons, coreOf_issuing]
  exact ⟨fun _ _ _ => trivial, fun _ _ _ => rfl, fun _ _ _ => rfl, fun _ _ _ => rfl, nofun⟩

/-- Settles O4: a branch row is the one body `doBranch`, whose condition reads registers alone. -/
theorem branchesGoToTheirTarget : Obligations.BranchesGoToTheirTarget := by
  unfold Obligations.BranchesGoToTheirTarget
  refine ⟨fun c w s hissues hw => ?_, fun r hr c w s st g hissues hw hcur hseg hin => ?_⟩
  · obtain ⟨hcls, hop, hfs⟩ := hw
    have hexec : exec (.nop c w) s = .next _ := coreCmd_issues hissues (by simp [hcls, hop]) _
    rw [coreCheck_issuing hissues (by simp [hcls, hop, hfs])] at hexec
    obtain ⟨t, ht, halone, hcore⟩ := retired hexec
    exact ⟨t, ht, halone, hcore⟩
  · obtain ⟨hspells, hfs⟩ := hw.spells
    have hexec := (exec_branchRow r hr c w s).trans (coreCmd_issues hissues hspells _)
    rw [coreCheck_issuing hissues (onlyFields_legal hfs)] at hexec
    obtain ⟨halone, hcore⟩ := doBranch_alone (cond := r.2.2.2 w) hissues hcur hseg hin
    rw [branchRow_cond r hr] at hcore
    exact ⟨_, hexec, halone, hcore⟩

/-! ### Hardware loops -/

/-- The core after a loop instruction of `n` runs whose body ends at `last` (R86). -/
def loopEntered (last n : Nat) (k : Core) : Core :=
  if n = 0 then { k with ran := true, seq := { k.seq with loops := (loopNext k.seq.loops last).1, pc := (loopNext k.seq.loops last).2 } }
  else { k with ran := true, seq := { k.seq with loops := ⟨k.seq.pc + 1, last, n⟩ :: k.seq.loops, pc := k.seq.pc + 1 } }

theorem doLoop_alone {c : CoreIx} {w : DWord} {s : State} {last : Nat} (n : Nat) (hissues : Issues c s)
    (hdepth : (coreOf s c).seq.loops.length < 4) (hend : (coreOf s c).seq.pc < last)
    (hnest : ∀ l ∈ (coreOf s c).seq.loops.head?, last ≤ l.last) :
    CoreAlone c s (doLoop c w n last (issuing s c)) ∧
      coreOf (doLoop c w n last (issuing s c)) c = loopEntered last n (atIssue s c) := by
  have hdo : doLoop c w n last (issuing s c) = countCore c 0x01 1 (modCore c (fun k => loopEntered last n (noWaits k)) (issuing s c)) := by
    unfold doLoop
    extract_lets k outer
    have hk : k = { coreOf s c with bpPass := false } := coreOf_issuing s c
    have hdeep : decide (4 ≤ k.seq.loops.length) = false := by rw [hk]; simpa using hdepth
    have hinner : outer = false := by
      unfold outer
      rw [hk]
      cases hloops : (coreOf s c).seq.loops with
      | nil => rfl
      | cons l ls => simpa using hnest l (by simp [hloops])
    have hlast : (decide (last ≤ k.seq.pc) || outer) = false := by rw [hinner, hk]; simpa using hend
    rw [coreCheck_issuing hissues hdeep, coreCheck_issuing hissues hlast]
    unfold loopEntered
    split
    · rfl
    · rfl
  obtain ⟨halone, hcore⟩ := countCore_modCore_alone c 1 (fun k => loopEntered last n (noWaits k)) s
  rw [hdo]
  exact ⟨halone, by rw [hcore, noWaits_issuing]⟩

/-- Settles O5: LOOP and LOOPR are `doLoop` with their count, and the sequencer turns by `loopNext`. -/
theorem hardwareLoopsRun : Obligations.HardwareLoopsRun := by
  unfold Obligations.HardwareLoopsRun
  refine ⟨fun c w s hissues hdepth hend hnest => ⟨fun hw => ?_, fun hw => ?_⟩, fun k l ls hloops => ⟨fun hpc hleft => ?_, fun hpc hleft => ?_,
    fun hpc => ?_⟩⟩
  · obtain ⟨hspells, hfs⟩ := hw.spells
    have hexec : exec (.loop c w) s = .next _ := coreCmd_issues hissues hspells _
    rw [coreCheck_issuing hissues (onlyFields_legal hfs)] at hexec
    obtain ⟨halone, hcore⟩ := doLoop_alone (w := w) (fld w 12 24) hissues hdepth hend hnest
    exact ⟨_, hexec, halone, hcore⟩
  · obtain ⟨hspells, hfs⟩ := hw.spells
    have hexec : exec (.loopr c w) s = .next _ := coreCmd_issues hissues hspells _
    rw [coreCheck_issuing hissues (onlyFields_legal hfs), coreOf_issuing] at hexec
    obtain ⟨halone, hcore⟩ := doLoop_alone (w := w) (xnat (atIssue s c) (fld w 12 5) % 2 ^ 32) hissues hdepth hend hnest
    exact ⟨_, hexec, halone, hcore⟩
  · simp [stepPc, hloops, loopNext, hpc, hleft]
  · simp [stepPc, hloops, loopNext, hpc, Nat.not_lt.mpr hleft]
  · simp [stepPc, hloops, loopNext, hpc]

end Sys2Proof.Machine
end

section
/-!
SUPPORT. What the consequences of a core error leave of the core that met it: errors of a context act on its other units,
and of the core they only stop issue (R114, R399, R401, R426).
-/

namespace Sys2Proof.Machine

/-! ### Changes away from the cores -/

/-- Whether a number is a field of no core's pages: those of a core have the lowest page numbers (R57, R73). -/
def offCoreKey (key : Nat) : Bool := decide (16384 ≤ keyPage key)

/-- `t` has the cores of `s`, and every register of their CORE pages. -/
structure OffCore (s t : State) : Prop where
  cores : t.cores = s.cores
  regs : KeepsRegs offCoreKey s t

theorem offCore_refl (s : State) : OffCore s s := ⟨rfl, keepsRegs_refl _ s⟩

theorem OffCore.trans {s t u : State} (h : OffCore s t) (g : OffCore t u) : OffCore s u :=
  ⟨g.cores.trans h.cores, KeepsRegs.trans h.regs g.regs⟩

theorem offCore_of_eq {s t : State} (hcores : t.cores = s.cores) (hregs : t.regs = s.regs) : OffCore s t :=
  ⟨hcores, fun key _ => by rw [hregs]⟩

theorem offCore_wri {p : Page} (hp : 2 ≤ clsCode p.cls) (f : RegField) (n v : Nat) (s : State) : OffCore s (wri p f n v s) := by
  refine ⟨rfl, keepsRegs_wri ?_ v s⟩
  rw [offCoreKey, keyPage, fieldKey_eq_place, pageKey, decide_eq_true_eq]
  omega

theorem offCore_bump {p : Page} (hp : 2 ≤ clsCode p.cls) (f : RegField) (d : Nat) (s : State) : OffCore s (bump p f d s) :=
  offCore_wri hp f 0 _ s

theorem offCore_foldl {α : Type} {f : State → α → State} (h : ∀ u x, OffCore u (f u x)) (l : List α) (s : State) :
    OffCore s (l.foldl f s) :=
  foldl_keeps (OffCore s) f (fun u x hu => hu.trans (h u x)) l s (offCore_refl s)

theorem offCore_countE {p : Page} (hp : 2 ≤ clsCode p.cls) (e src d : Nat) (c : Option Nat) (s : State) :
    OffCore s (countE p e src d c s) := by
  refine ⟨(countE_frame p e src d c s).eq State.cores fun _ _ => rfl, countE_keeps p e src d c s fun sel cnt n _ i _ => ?_⟩
  rw [offCoreKey, keyPage, fieldKey_eq_place, pageKey, decide_eq_true_eq]
  omega

theorem offCore_modLink (k : Nat) (f : LinkSt → LinkSt) (s : State) : OffCore s (modLink k f s) := offCore_of_eq rfl rfl

theorem offCore_freeFrame (k : Nat) (h : Train) (s : State) : OffCore s (freeFrame k h s) := by
  unfold freeFrame
  split
  · exact offCore_refl s
  · exact offCore_modLink ..

theorem offCore_countLink (tx : Bool) (ty job n : Nat) (s : State) : OffCore s (countLink tx ty job n s) := by
  unfold countLink
  split
  · exact offCore_refl s
  · split
    · exact offCore_bump (by decide : 2 ≤ clsCode .ctx) _ n s
    · exact offCore_refl s

theorem offCore_emitFrame (k : Nat) (f : Frame) (s : State) : OffCore s (emitFrame k f s) := by
  have hlink : 2 ≤ clsCode (pgLink k).cls := (by decide : 2 ≤ clsCode .link)
  unfold emitFrame
  extract_lets l vc l' s1 own s2 s3 s4
  have h0 : OffCore s (setLink k l' s) := offCore_of_eq rfl rfl
  have h1 : OffCore s s1 := (h0.trans (offCore_bump hlink _ f.body.len _)).trans (offCore_bump hlink _ 1 _)
  have h2 : OffCore s1 s2 := by
    unfold s2
    split
    · exact offCore_countLink ..
    · exact offCore_refl s1
  have h3 : OffCore s2 s3 := by
    unfold s3
    split
    · exact offCore_refl s2
    · exact (offCore_countE hlink ..).trans (offCore_bump hlink _ 1 _)
  have h4 : OffCore s3 s4 := by
    unfold s4
    split
    · exact offCore_countE (by decide) ..
    · exact offCore_refl s3
  exact (h1.trans (h2.trans (h3.trans h4))).trans ((offCore_countE hlink ..).trans (offCore_freeFrame ..))

theorem offCore_pumpFrames (k : Nat) (fs : List Frame) (stuck : List Nat) (s : State) : OffCore s (pumpFrames k fs stuck s) := by
  induction fs generalizing stuck s with
  | nil => exact offCore_refl s
  | cons f fs ih =>
    unfold pumpFrames
    dsimp only
    split
    · exact (offCore_emitFrame k f s).trans (ih _ _)
    · exact (offCore_modLink k _ s).trans (ih _ _)

theorem offCore_bridgeBytes (a b n : Nat) (s : State) : OffCore s (bridgeBytes a b n s) := by
  unfold bridgeBytes
  extract_lets s1
  have h1 : OffCore s s1 := by
    unfold s1
    split
    · exact offCore_refl s
    · exact offCore_bump (by decide : 2 ≤ clsCode .canal) _ n s
  split
  · exact h1
  · exact h1.trans (offCore_bump (by decide : 2 ≤ clsCode .canal) _ n s1)

theorem offCore_putOnLink (came k : Nat) (t : Train) (s : State) : OffCore s (putOnLink came k t s) := by
  unfold putOnLink
  extract_lets cls fs n s1
  have h1 : OffCore s s1 := by
    unfold s1
    split
    · exact offCore_refl s
    · exact offCore_bridgeBytes ..
  exact h1.trans ((offCore_modLink k _ s1).trans ((offCore_modLink k _ _).trans (offCore_pumpFrames k _ [] _)))

theorem offCore_noteMcast (t : Train) (s : State) : OffCore s (noteMcast t s) := by
  unfold noteMcast
  split
  · exact offCore_of_eq rfl rfl
  · exact offCore_refl s

theorem offCore_forwardTrain (came : Nat) (t : Train) (s : State) : OffCore s (forwardTrain came t s) := by
  unfold forwardTrain
  refine (offCore_noteMcast t s).trans ?_
  generalize noteMcast t s = u
  dsimp only
  split
  · exact offCore_of_eq rfl rfl
  · split
    · exact offCore_putOnLink ..
    · split
      · exact offCore_of_eq rfl rfl
      · exact offCore_of_eq rfl rfl

theorem offCore_sendEmb (e : EmbMsg) (s : State) : OffCore s (sendEmb e s) := offCore_forwardTrain ..

theorem offCore_toChildren (x : Ctx) (op step subject aux arg : Nat) (extra : List Nat) (s : State) :
    OffCore s (toChildren x op step subject aux arg extra s) := by
  unfold toChildren
  split
  · split
    · exact offCore_foldl (fun u c => offCore_sendEmb _ u) _ s
    · exact offCore_refl s
  · exact offCore_refl s

theorem offCore_toRoot (x : Ctx) (op step subject aux arg : Nat) (s : State) : OffCore s (toRoot x op step subject aux arg s) := by
  unfold toRoot
  split
  · exact offCore_sendEmb ..
  · exact offCore_refl s

theorem SameButEvents.cores {s t : State} (h : SameButEvents s t) : t.cores = s.cores := by
  unfold SameButEvents at h
  exact (congrArg State.cores h :)

/-- What a page keeps to itself is away from the cores where the page is. -/
theorem KeepsOthers.offCore {p : Page} (hp : 2 ≤ clsCode p.cls) {s t : State} (h : KeepsOthers p s t) : KeepsRegs offCoreKey s t :=
  keepsRegs_mono h fun key hkey => by
    rw [beq_iff_eq] at hkey
    rw [offCoreKey, hkey, pageKey, decide_eq_true_eq]
    omega

theorem offCore_hostEvent (code : Nat) (p : Page) (ctx : Option Nat) (arg : Nat) (s : State) : OffCore s (hostEvent code p ctx arg s) :=
  ⟨(hostEvent_frame code p ctx arg s).cores, (hostEvent_keepsOthers code p ctx arg s).offCore (by decide)⟩

theorem offCore_recordErr {p : Page} (hp : 2 ≤ clsCode (headPage p).cls) (bit : Nat) (ctx : Option Nat) (s : State) :
    OffCore s (recordErr p bit ctx s) := by
  have hset (code : Nat) : OffCore s (setErr p bit code s) :=
    ⟨(setErr_frame p bit code s).cores, (setErr_keepsOthers p bit code s).offCore hp⟩
  unfold recordErr recordCode
  dsimp only
  split
  · exact hset _
  · exact (hset _).trans (offCore_hostEvent ..)

theorem offCore_recordEmb (bit : Nat) (ctx : Option Nat) (s : State) : OffCore s (recordEmb bit ctx s) := by
  have hrec : OffCore s (recordErr pgEmb bit ctx s) := offCore_recordErr (by decide) ..
  unfold recordEmb
  dsimp only
  split
  · exact hrec.trans (offCore_wri (by decide) _ 0 _ _)
  · exact hrec

theorem offCore_engSettle (e : Nat) (s : State) : OffCore s (engSettle e s) := by
  unfold engSettle
  extract_lets k need wants s1
  have h1 : OffCore s s1 := by
    unfold s1
    split
    · exact offCore_of_eq rfl rfl
    · exact offCore_refl s
  split
  · exact h1.trans (offCore_of_eq rfl rfl)
  · exact h1

theorem offCore_cancelBarges (n : Nat) (s : State) : OffCore s (cancelBarges n s) := by
  unfold cancelBarges
  refine offCore_foldl (fun u e => ?_) s.engines s
  dsimp only
  split
  · exact offCore_refl u
  · refine OffCore.trans ?_ (offCore_engSettle ..)
    exact OffCore.trans (t := setEng e.1 _ u) (offCore_of_eq rfl rfl) (offCore_wri (by decide : 2 ≤ clsCode .barge) _ 0 _ _)

theorem offCore_modCtx (n : Nat) (f : Ctx → Ctx) (s : State) : OffCore s (modCtx n f s) := by
  unfold modCtx
  split
  · exact offCore_of_eq rfl rfl
  · exact offCore_refl s

end Sys2Proof.Machine
end

section
/-!
SUPPORT. A refused word: what ILLEGAL_INSN records, and that its consequences leave it (R77, R114).
-/

namespace Sys2Proof.Machine

/-! ### Issue stopped on a core that is listed once -/

/-- Core `c` is listed once at most: every entry of it is its state. -/
def ListedOnce (c : Nat) (s : State) : Prop := ∀ e ∈ s.cores, e.1 = c → e.2 = coreOf s c

theorem mem_cores_setCore {d : Nat} {k : Core} {s : State} {e : Nat × Core} (h : e ∈ (setCore d k s).cores) :
    e = (d, k) ∨ e ∈ s.cores ∧ e.1 ≠ d := by
  change e ∈ mapSet Core.zero s.cores d k at h
  unfold mapSet at h
  split at h
  · exact .inr (mem_mapDel.mp h)
  · exact (mem_mapIns.mp h).imp_right mem_mapDel.mp

theorem listedOnce_setCore_self (c : Nat) (k : Core) (s : State) : ListedOnce c (setCore c k s) := fun e he hec => by
  obtain rfl | ⟨-, hne⟩ := mem_cores_setCore he
  · exact (coreOf_setCore c k s).symm
  · exact absurd hec hne

theorem ListedOnce.setCore {c : Nat} {s : State} (h : ListedOnce c s) (d : Nat) (k : Core) : ListedOnce c (setCore d k s) := by
  by_cases hd : d = c
  · rw [hd]
    exact listedOnce_setCore_self c k s
  · intro e he hec
    rw [coreOf_setCore_ne d c k s (Ne.symm hd)]
    obtain rfl | ⟨hmem, -⟩ := mem_cores_setCore he
    · exact absurd hec hd
    · exact h e hmem hec

/-- Of core `c` at most issue has been stopped, and every register of the CORE pages stands. -/
structure IssueStopped (c : Nat) (s t : State) : Prop where
  once : ListedOnce c t
  core : ∃ stop, coreOf t c = { coreOf s c with stopIssue := stop }
  regs : KeepsRegs offCoreKey s t

theorem issueStopped_refl {c : Nat} {s : State} (h : ListedOnce c s) : IssueStopped c s s := ⟨h, ⟨_, rfl⟩, keepsRegs_refl _ s⟩

theorem IssueStopped.offCore {c : Nat} {s t u : State} (h : IssueStopped c s t) (g : OffCore t u) : IssueStopped c s u := by
  obtain ⟨honce, ⟨stop, hcore⟩, hregs⟩ := h
  have hsame : coreOf u c = coreOf t c := by rw [coreOf, g.cores, coreOf]
  refine ⟨fun e he hec => ?_, ⟨stop, hsame.trans hcore⟩, KeepsRegs.trans hregs g.regs⟩
  rw [g.cores] at he
  rw [hsame]
  exact honce e he hec

/-- A dike on some cores. -/
theorem IssueStopped.mapCores {c : Nat} {s t : State} (h : IssueStopped c s t) (p : Nat → Core → Bool) :
    IssueStopped c s (mapCores p (fun k => { k with stopIssue := true }) t) := by
  have hlist : ∀ (l : List (Nat × Core)), (∀ e ∈ l, e.1 = c → ∃ stop, e.2 = { coreOf s c with stopIssue := stop }) →
      ∀ u, IssueStopped c s u →
      IssueStopped c s (l.foldl (fun u e => if p e.1 e.2 then setCore e.1 { e.2 with stopIssue := true } u else u) u) := by
    intro l
    induction l with
    | nil => exact fun _ _ hu => hu
    | cons e l ih =>
      intro hl u hu
      refine ih (fun d hd => hl d (List.mem_cons_of_mem e hd)) _ ?_
      dsimp only
      split
      · obtain ⟨honce, hcore, hregs⟩ := hu
        refine ⟨honce.setCore _ _, ?_, hregs⟩
        by_cases hec : e.1 = c
        · obtain ⟨stop, hstop⟩ := hl e (by simp) hec
          exact ⟨true, by rw [hec, coreOf_setCore, hstop]⟩
        · rw [coreOf_setCore_ne _ _ _ _ (Ne.symm hec)]
          exact hcore
      · exact hu
  refine hlist t.cores (fun e he hec => ?_) t h
  rw [h.once e he hec]
  exact h.core

theorem IssueStopped.dikeSegment {c d : Nat} {s t : State} (h : IssueStopped c s t) : IssueStopped c s (dikeSegment d t) := by
  unfold Sys2Proof.Machine.dikeSegment
  dsimp only
  split
  · split
    · refine IssueStopped.mapCores (t := setCtx _ _ t) ?_ _
      exact h.offCore (offCore_of_eq rfl rfl)
    · exact h
  · exact h

theorem IssueStopped.dikeCtx {c : Nat} {s t : State} (h : IssueStopped c s t) (n code : Nat) : IssueStopped c s (dikeCtx n code t) :=
  ((h.offCore (offCore_modCtx n _ t)).mapCores _).offCore (offCore_cancelBarges n _)

/-- A context-fatal error stops issue on its context's cores, and on the cores does no more (R399, R401, R426). -/
theorem IssueStopped.ctxFatal {c : Nat} {s t : State} (h : IssueStopped c s t) (n code : Nat) : IssueStopped c s (ctxFatal n code t) := by
  unfold Sys2Proof.Machine.ctxFatal
  split
  · exact h
  · split
    · exact h
    · split
      · exact h.dikeCtx n code
      · split
        · exact ((h.offCore (offCore_toChildren ..)).dikeCtx n code).offCore (offCore_recordEmb ..)
        · exact (h.dikeCtx n code).offCore (offCore_toRoot ..)

/-! ### ILLEGAL_INSN -/

theorem coreOf_lowerCore (c cls : Nat) (s : State) : coreOf (lowerCore c cls s) c = { coreOf s c with g := cls, bookPend := false } := by
  unfold lowerCore
  extract_lets k s1 s2
  rw [coreOf_modCore]
  have h1 : coreOf s1 c = coreOf s c := by unfold s1; split <;> rfl
  have h2 : coreOf s2 c = coreOf s1 c := by unfold s2; split <;> rfl
  rw [h2, h1]

theorem faultInsn_row : (R.CORE_FAULT_INSN, 0) ∈ rowsAt .core 0x120 := by decide +kernel
theorem faultPc_row : (R.CORE_FAULT_PC_PC, 0) ∈ rowsAt .core 0x128 := by decide +kernel
theorem faultValid_row : (R.CORE_FAULT_PC_VALID, 0) ∈ rowsAt .core 0x128 := by decide +kernel

/-- Two fields of a core's page, at different places in it. -/
theorem rd_wr_core_ne {f g : RegField} {a b : Nat} (hf : (f, 0) ∈ rowsAt .core a) (hg : (g, 0) ∈ rowsAt .core b) (hne : f ≠ g) (c v : Nat)
    (s : State) : rd (wr (pgCore c) g v s) (pgCore c) f = rd s (pgCore c) f :=
  rd_wr_ne _ _ _ _ _ _ fun hk => hne (Prod.mk.inj (fieldKey_inj hf hg hk)).1

/-- A field of a core's page is not away from the cores. -/
theorem offCoreKey_core {c b n : Nat} {f : RegField} (hc : c < 8192) (hf : (f, n) ∈ rowsAt .core b) :
    offCoreKey (fieldKey (pgCore c) f n) = false := by
  rw [offCoreKey, keyPage_row (pgCore c) hf, pageKey, decide_eq_false_iff_not, show clsCode (pgCore c).cls = 1 from rfl]
  change ¬ 16384 ≤ 1 * 8192 + c
  omega

/-- What ILLEGAL_INSN has recorded before its context is acted on. -/
theorem recorded_of_illegal {c : CoreIx} {w : DWord} {pc : Nat} (hpc : pc ≤ 4095) (ctx : Option Nat) (s : State) :
    let u := recordErr (pgCore c) 0 ctx (wr (pgCore c) R.CORE_FAULT_INSN w.toNat (wr (pgCore c) R.CORE_FAULT_PC_PC pc
      (wr (pgCore c) R.CORE_FAULT_PC_VALID 1 s)))
    rd u (pgCore c) R.CORE_FAULT_INSN = w.toNat ∧ rd u (pgCore c) R.CORE_FAULT_PC_PC = pc ∧ rd u (pgCore c) R.CORE_FAULT_PC_VALID = 1 ∧
      bitSet (rd u (pgCore c) R.HEADER_ERR_STAT_ERR) 0 = true := by
  have hpage : pageKey (pgCore c) ≠ pageKey pgHlink := by
    have := c.isLt
    change 1 * 8192 + c.val ≠ 11 * 8192 + 0
    omega
  refine ⟨?_, ?_, ?_, err_recordErr (pgCore c) (by decide) ctx _⟩
  · refine (rdi_recordErr hpage faultInsn_row (by decide) (by decide) 0 ctx _).trans ((rd_wr_self ..).trans ?_)
    exact Nat.mod_eq_of_lt w.isLt
  · refine (rdi_recordErr hpage faultPc_row (by decide) (by decide) 0 ctx _).trans
      ((rd_wr_core_ne faultPc_row faultInsn_row (by decide) ..).trans ((rd_wr_self ..).trans ?_))
    exact Nat.mod_eq_of_lt (show pc < 4096 by omega)
  · exact (rdi_recordErr hpage faultValid_row (by decide) (by decide) 0 ctx _).trans
      ((rd_wr_core_ne faultValid_row faultInsn_row (by decide) ..).trans
        ((rd_wr_core_ne faultValid_row faultPc_row (by decide) ..).trans (rd_wr_self ..)))

/-- An illegal word is refused (R77, R114). -/
theorem coreFault_refused {c : CoreIx} {w : DWord} {s : State} (hpc : (coreOf s c).seq.pc ≤ 4095) :
    RefusedAsIllegal c w s (coreFault c 0 w s) := by
  obtain ⟨u, hu⟩ : ∃ u, u = recordErr (pgCore c) 0 (coreOf s c).ctx (wr (pgCore c) R.CORE_FAULT_INSN w.toNat
      (wr (pgCore c) R.CORE_FAULT_PC_PC (coreOf s c).seq.pc (wr (pgCore c) R.CORE_FAULT_PC_VALID 1 (lowerCore c 0 s)))) := ⟨_, rfl⟩
  obtain ⟨v, hv⟩ : ∃ v, v = modCore c (fun k => { noWaits k with faulted := true }) u := ⟨_, rfl⟩
  obtain ⟨hinsn, hfpc, hvalid, herr⟩ := recorded_of_illegal (c := c) (w := w) hpc (coreOf s c).ctx (lowerCore c 0 s)
  rw [← hu] at hinsn hfpc hvalid herr
  have hcore : coreOf u c = { coreOf s c with g := 0, bookPend := false } := by
    rw [hu, coreOf, (recordErr_frame ..).cores]
    exact coreOf_lowerCore c 0 s
  have hstop : IssueStopped c v (coreFault c 0 w s) := by
    have hv' : IssueStopped c v (dikeSegment c v) :=
      (issueStopped_refl (by rw [hv]; exact listedOnce_setCore_self c _ u)).dikeSegment
    have hfault : coreFault c 0 w s = match (coreOf s c).ctx with
        | some n => Sys2Proof.Machine.ctxFatal n (errCode .core 0) (dikeSegment c v)
        | none => dikeSegment c v := by
      subst hv hu
      rfl
    rw [hfault]
    split
    · exact hv'.ctxFatal _ _
    · exact hv'
  obtain ⟨-, ⟨stop, hend⟩, hregs⟩ := hstop
  have hrd {f : RegField} {b : Nat} (hf : (f, 0) ∈ rowsAt .core b) : rd (coreFault c 0 w s) (pgCore c) f = rd u (pgCore c) f := by
    rw [rd_of_keepsRegs hregs (offCoreKey_core c.isLt hf), hv, rd_modCore]
  have hvc : coreOf v c = { noWaits { coreOf s c with g := 0, bookPend := false } with faulted := true } := by
    rw [hv, coreOf_modCore, hcore]
  rw [hvc] at hend
  refine ⟨by rw [hend], by rw [hend]; rfl, by rw [hend]; rfl, by rw [hend]; rfl, ?_, ?_, ?_, ?_⟩
  · rw [hrd faultInsn_row, hinsn]
  · rw [hrd faultPc_row, hfpc]
  · rw [hrd faultValid_row, hvalid]
  · rw [hrd (rowsAt_header (c := .core) (by decide) (by decide))]
    exact herr

end Sys2Proof.Machine
end

section
/-!
CERTIFICATE. Malformed and illegal words, and the address-generator operations (O2, O6).
-/

namespace Sys2Proof.Machine

/-- A check of an issuing word for ILLEGAL_INSN that finds it refuses the word. -/
theorem coreCheck_refused {c : CoreIx} {w : DWord} {s : State} (hissues : Issues c s) {bad : Bool} (hbad : bad = true) (ok : State → State) :
    RefusedAsIllegal c w s (coreCheck c 0 w bad (issuing s c) ok) := by
  obtain ⟨-, -, hpc, -, -⟩ := id hissues
  rw [coreCheck_faults hissues hbad]
  have h := coreFault_refused (c := c) (w := w) (s := issuing s c) (by rw [coreOf_issuing]; exact hpc)
  unfold RefusedAsIllegal at h ⊢
  rw [coreOf_issuing] at h
  exact h

/-- A command whose word does not spell its row is malformed. -/
theorem coreCmd_malformed {ok : Bool} (hok : ok = false) (t : State) : coreCmd ok t = .fault .malformedCommand := by
  rw [hok]; rfl

/-! ### Words that spell no row -/

/-- The number of operations that each class lists, and of functions that each vector operation lists (R78, R106). -/
def opCounts : List (Nat × Nat) := [(0, 7), (1, 2), (2, 6), (3, 14), (4, 4), (5, 10), (6, 2), (7, 5), (8, 1), (9, 1)]
def funcCounts : List (Nat × Nat) := [(0, 14), (1, 11), (2, 4)]

/-- Whether no row of the table spells a word (R78, R106). -/
def spellsNone (w : DWord) : Prop :=
  10 ≤ wClass w ∨ (∃ e ∈ opCounts, wClass w = e.1 ∧ e.2 ≤ wOp w) ∨
    ∃ e ∈ funcCounts, wClass w = 5 ∧ wOp w = e.1 ∧ e.2 ≤ fld w 37 6

/-- What NOP takes for a reserved word. -/
def reservedWord (w : DWord) : Bool :=
  decide (10 ≤ wClass w) || (wClass w == 0 && decide (7 ≤ wOp w)) || (wClass w == 1 && decide (2 ≤ wOp w)) ||
    (wClass w == 2 && decide (6 ≤ wOp w)) || (wClass w == 3 && decide (14 ≤ wOp w)) || (wClass w == 4 && decide (4 ≤ wOp w)) ||
    (wClass w == 5 && decide (10 ≤ wOp w)) || (wClass w == 6 && decide (2 ≤ wOp w)) || (wClass w == 7 && decide (5 ≤ wOp w)) ||
    (wClass w == 8 && decide (1 ≤ wOp w)) || (wClass w == 9 && decide (1 ≤ wOp w)) ||
    (wClass w == 5 && wOp w == 0 && decide (14 ≤ fld w 37 6)) || (wClass w == 5 && wOp w == 1 && decide (11 ≤ fld w 37 6)) ||
    (wClass w == 5 && wOp w == 2 && decide (4 ≤ fld w 37 6))

theorem execNop_eq (c : CoreIx) (w : DWord) (s : State) : execNop c w s = coreCmd ((wClass w == 0 && wOp w == 0) || reservedWord w)
    (issue false c w (fun s => coreCheck c 0 w (reservedWord w || !onlyFields w [(0, 8)]) s (retire c id)) s) := rfl

theorem reservedWord_of_spellsNone {w : DWord} (h : spellsNone w) : reservedWord w = true := by
  obtain h | ⟨e, he, hcls, hop⟩ | ⟨e, he, hcls, hop, hfunc⟩ := h
  · simp [reservedWord, h]
  · simp only [opCounts, List.mem_cons, List.not_mem_nil, or_false] at he
    obtain rfl | rfl | rfl | rfl | rfl | rfl | rfl | rfl | rfl | rfl := he <;> simp only at hcls hop <;> simp [reservedWord, hcls, hop]
  · simp only [funcCounts, List.mem_cons, List.not_mem_nil, or_false] at he
    obtain rfl | rfl | rfl := he <;> simp only at hcls hop hfunc <;> simp [reservedWord, hcls, hop, hfunc]

/-- NOP refuses a word that it carries: one that spells no row, or NOP with a reserved bit set (R77, R78). -/
theorem nop_refused {c : CoreIx} {w : DWord} {s : State} (hissues : Issues c s)
    (h : spellsNone w ∨ wClass w = 0 ∧ wOp w = 0 ∧ onlyFields w [(0, 8)] = false) :
    ∃ t, exec (.nop c w) s = .next t ∧ RefusedAsIllegal c w s t := by
  have hcarried : ((wClass w == 0 && wOp w == 0) || reservedWord w) = true := by
    obtain h | ⟨hcls, hop, -⟩ := h
    · rw [reservedWord_of_spellsNone h, Bool.or_true]
    · simp [hcls, hop]
  have hbad : (reservedWord w || !onlyFields w [(0, 8)]) = true := by
    obtain h | ⟨-, -, hfs⟩ := h
    · rw [reservedWord_of_spellsNone h, Bool.true_or]
    · rw [hfs, Bool.not_false, Bool.or_true]
  exact ⟨_, (execNop_eq c w s).trans (coreCmd_issues hissues hcarried _), coreCheck_refused hissues hbad _⟩

theorem spells_eq_false {w : DWord} {cls op : Nat} (h : ¬ (wClass w = cls ∧ wOp w = op)) : (wClass w == cls && wOp w == op) = false := by
  simpa [Bool.eq_false_iff] using h

theorem spellsFunc_eq_false {w : DWord} {op func : Nat} (h : ¬ (wClass w = 5 ∧ wOp w = op ∧ fld w 37 6 = func)) :
    (wClass w == 5 && wOp w == op && fld w 37 6 == func) = false := by
  simpa [Bool.eq_false_iff, and_assoc] using h

/-- Settles O2: a row's command is `coreCmd` of the word that spells it, and a reserved word or bit fails the first check. -/
theorem malformedAndIllegalWords : Obligations.MalformedAndIllegalWords := by
  unfold Obligations.MalformedAndIllegalWords
  refine ⟨fun c w s => ⟨fun r hr h => ?_, fun r hr h => ?_, fun r hr h => ?_, fun r hr h => ?_, fun r hr h => ?_, fun r hr h => ?_,
    fun r hr h => ?_⟩, fun c w s hissues => ⟨fun h => nop_refused hissues ?_, fun r hr hcls hop hfs => ?_, fun r hr hcls hop hfs => ?_⟩⟩
  · exact (exec_aluRow r hr c w s).trans (coreCmd_malformed (spells_eq_false h) _)
  · exact (exec_branchRow r hr c w s).trans (coreCmd_malformed (spells_eq_false h) _)
  · exact (exec_agenRow r hr c w s).trans (coreCmd_malformed (spells_eq_false h) _)
  · exact (exec_arithRow r hr c w s).trans (coreCmd_malformed (spellsFunc_eq_false h) _)
  · exact (exec_transRow r hr c w s).trans (coreCmd_malformed (spellsFunc_eq_false h) _)
  · exact (exec_reduceRow r hr c w s).trans (coreCmd_malformed (spellsFunc_eq_false h) _)
  · obtain ⟨t, ht⟩ := exec_otherCoreRow r hr c w s
    exact ht.trans (coreCmd_malformed (spells_eq_false h) t)
  · obtain h | h | h | h := h
    · exact .inl (.inl h)
    · exact .inl (.inr (.inl h))
    · exact .inl (.inr (.inr h))
    · exact .inr h
  · refine ⟨_, (exec_aluRow r hr c w s).trans (coreCmd_issues hissues (by simp [hcls, hop]) _), coreCheck_refused hissues ?_ _⟩
    simp [aluIllegal, hfs]
  · refine ⟨_, (exec_branchRow r hr c w s).trans (coreCmd_issues hissues (by simp [hcls, hop]) _), coreCheck_refused hissues ?_ _⟩
    simp [hfs]

/-! ### Address generators -/

/-- A generator's use moves its first index on (R88). -/
theorem agNext_of_inner {g : AGen} (h0 : g.i0 + 1 ≠ agCount g.count0) : agNext g = { g with i0 := g.i0 + 1 } := by
  rw [agNext, if_neg h0]

/-- At its count the first index returns to 0 and the second moves on. -/
theorem agNext_of_outer {g : AGen} (h0 : g.i0 + 1 = agCount g.count0) (h1 : g.i1 + 1 ≠ agCount g.count1) :
    agNext g = { g with i0 := 0, i1 := g.i1 + 1 } := by
  rw [agNext, if_pos h0, if_neg h1]

/-- At both counts both indices return to 0. -/
theorem agNext_of_both {g : AGen} (h0 : g.i0 + 1 = agCount g.count0) (h1 : g.i1 + 1 = agCount g.count1) :
    agNext g = { g with i0 := 0, i1 := 0 } := by
  rw [agNext, if_pos h0, if_pos h1]

theorem agCount_zero : agCount 0 = 65536 := rfl

/-- Of a first index at its count 0 is left. -/
theorem agNext_i0_of_last {g : AGen} (h0 : g.i0 + 1 = agCount g.count0) : (agNext g).i0 = 0 := by
  by_cases h1 : g.i1 + 1 = agCount g.count1
  · rw [agNext_of_both h0 h1]
  · rw [agNext_of_outer h0 h1]

theorem windowBad_eq_false {op : Nat} {w : DWord} (h : op = 3 → fld w 18 18 + fld w 36 19 ≤ 0x40000) : windowBad op w = false := by
  simpa [windowBad] using h

/-- Settles O6: an address-generator row is the one body `doAgen`; a COUNT of 0 wraps an index at 65,536. -/
theorem generatorsAreSet : Obligations.GeneratorsAreSet := by
  unfold Obligations.GeneratorsAreSet
  refine ⟨fun g i hi => ⟨fun h0 => ?_, fun h1 h0 => ?_⟩, fun c w s hissues hcls => ⟨fun r hr hop hbad => ?_, fun hop => ?_⟩,
    fun r hr c w s hissues hw hag hwin => ?_⟩
  · by_cases hlast : i + 1 = 65536
    · rw [agNext_i0_of_last (by rw [h0]; exact hlast), hlast]
    · rw [agNext_of_inner (by rw [h0]; exact hlast)]
      exact (Nat.mod_eq_of_lt (show i + 1 < 65536 by omega)).symm
  · by_cases hlast : i + 1 = 65536
    · rw [agNext_of_both (by rw [h0]; rfl) (by rw [h1]; exact hlast), hlast]
    · rw [agNext_of_outer (by rw [h0]; rfl) (by rw [h1]; exact hlast)]
      exact (Nat.mod_eq_of_lt (show i + 1 < 65536 by omega)).symm
  · refine ⟨_, (exec_agenRow r hr c w s).trans (coreCmd_issues hissues (by simp [hcls, hop]) _), coreCheck_refused hissues ?_ _⟩
    obtain hag | ⟨h3, hwin⟩ := hbad
    · simp [hag]
    · simp [windowBad, h3, hwin]
  · exact nop_refused hissues (.inl (.inr (.inl ⟨(2, 6), by decide, hcls, hop⟩)))
  · obtain ⟨hspells, hfs⟩ := hw.spells
    have hexec := (exec_agenRow r hr c w s).trans (coreCmd_issues hissues hspells _)
    rw [doAgen, coreCheck_issuing hissues (by simp [hfs, windowBad_eq_false hwin, hag])] at hexec
    obtain ⟨t, ht, halone, hcore⟩ := retired hexec
    exact ⟨t, ht, halone, hcore⟩

end Sys2Proof.Machine
end

section
/-!
SUPPORT. The rule of a vector instruction, and the lanes of a register put together from elements (R91, R105, R148).
-/

namespace Sys2Proof.Machine

/-! ### Vector instructions that retire -/

/-- A heavy instruction that its booking covers runs (R91). -/
theorem heavy_issuing {c : CoreIx} {w : DWord} {s : State} {cc : Nat} (hissues : Issues c s) (hcc : cc ≤ (coreOf s c).g)
    (go : State → State) : heavy c cc w go (issuing s c) = go (issuing s c) := by
  have hg : cc ≤ (coreOf (issuing s c) c).g := by rw [coreOf_issuing]; exact hcc
  rw [heavy, if_pos hg, coreCheck_issuing hissues rfl]

/-- A legal VEC word that its booking covers runs (R77, R91, R105). -/
theorem doVec_issuing {c : CoreIx} {w : DWord} {s : State} {bad : Bool} (hissues : Issues c s) (hcc : wCc w ≤ (coreOf s c).g)
    (hbad : bad = false) (go : State → State) : doVec c w bad go (issuing s c) = go (issuing s c) := by
  rw [doVec, coreCheck_issuing hissues hbad, heavy_issuing hissues hcc]

theorem retireVec_alone (c : CoreIx) (f : Core → Core) (s : State) :
    CoreAlone c s (retireVec c f (issuing s c)) ∧ coreOf (retireVec c f (issuing s c)) c = stepPc (f (atIssue s c)) := by
  obtain ⟨halone, hcore⟩ := retire_alone c f s
  obtain ⟨halone', hcore'⟩ := countCore_alone c 0x0A 1 s _ halone
  exact ⟨halone', hcore'.trans hcore⟩

/-- A VEC instruction that retires has changed its core by `f`, moved it on, and left all else but its event counters. -/
theorem retiredVec {o : Host.Outcome State Fault Refusal} {c : CoreIx} {f : Core → Core} {s : State}
    (h : o = .next (retireVec c f (issuing s c))) :
    ∃ t, o = .next t ∧ CoreAlone c s t ∧ coreOf t c = stepPc (f (atIssue s c)) := ⟨_, h, retireVec_alone c f s⟩

/-! ### Lanes of a packed register -/

/-- The number that elements of `b` bits spell, the first lowest. -/
def packNat (b : Nat) (es : List Nat) : Nat := es.foldr (fun e acc => e % 2 ^ b + acc * 2 ^ b) 0

theorem packNat_lt (b : Nat) (es : List Nat) : packNat b es < 2 ^ (es.length * b) := by
  induction es with
  | nil => simp [packNat]
  | cons e es ih =>
    have he := Nat.mod_lt e (Nat.two_pow_pos b)
    have hle := Nat.mul_le_mul_right (2 ^ b) (Nat.succ_le_of_lt ih)
    rw [Nat.succ_mul, ← Nat.pow_add] at hle
    rw [List.length_cons, Nat.succ_mul]
    change e % 2 ^ b + packNat b es * 2 ^ b < _
    omega

/-- Element `i` of a packed number; past the last, 0. -/
theorem bitsOf_packNat (b : Nat) (es : List Nat) (i : Nat) : bitsOf (packNat b es) (i * b) b = es.getD i 0 % 2 ^ b := by
  induction es generalizing i with
  | nil => simp [packNat, bitsOf]
  | cons e es ih =>
    have he := Nat.mod_lt e (Nat.two_pow_pos b)
    change bitsOf (e % 2 ^ b + packNat b es * 2 ^ b) (i * b) b = _
    cases i with
    | zero => simp [bitsOf]
    | succ i =>
      have hdrop : (e % 2 ^ b + packNat b es * 2 ^ b) / 2 ^ b = packNat b es := by
        rw [Nat.add_mul_div_right _ _ (Nat.two_pow_pos b), Nat.div_eq_of_lt he, Nat.zero_add]
      have hpow : 2 ^ ((i + 1) * b) = 2 ^ b * 2 ^ (i * b) := by rw [← Nat.pow_add, Nat.succ_mul, Nat.add_comm]
      rw [bitsOf, hpow, ← Nat.div_div_eq_div_mul, hdrop]
      exact ih i

/-- A lane of a packed register is its element; a lane past the last is 0. -/
theorem laneOf_packLanes {b : Nat} {es : List Nat} (hfit : es.length * b ≤ 512) (i : Nat) :
    laneOf b (packLanes b es) i = es.getD i 0 % 2 ^ b := by
  have hlt : packNat b es < 2 ^ 512 := (packNat_lt b es).trans_le (Nat.pow_le_pow_right Nat.two_pos hfit)
  rw [← bitsOf_packNat, laneOf, packLanes, BitVec.toNat_ofNat]
  change bitsOf (packNat b es % 2 ^ 512) _ _ = _
  rw [Nat.mod_eq_of_lt hlt]

theorem laneOf_lt (b : Nat) (v : VReg) (i : Nat) : laneOf b v i < 2 ^ b := bitsOf_lt ..

/-- A lane of a register put together lane by lane. -/
theorem laneOf_packLanes_range {b n : Nat} (hfit : n * b ≤ 512) (f : Nat → Nat) {i : Nat} (hi : i < n) :
    laneOf b (packLanes b ((List.range n).map f)) i = f i % 2 ^ b := by
  rw [laneOf_packLanes (by simpa using hfit), List.getD_eq_getElem _ _ (by simpa using hi)]
  simp

end Sys2Proof.Machine
end

section
/-!
CERTIFICATE. Vector arithmetic and the permute (O13, O14).
-/

namespace Sys2Proof.Machine

/-! ### Integer lanes -/

theorem signedOf_eq_of_lt {p : Nat} (hp : p < 2 ^ 32) : signedOf 32 p = (if 2 ^ 31 ≤ p then (p : Int) - 2 ^ 32 else (p : Int)) := by
  rw [signedOf, Nat.mod_eq_of_lt hp]

/-- The low 32 bits of a negated lane. -/
theorem wrapInt_neg {p : Nat} (hp : p < 2 ^ 32) : wrapInt 32 (-signedOf 32 p) = (2 ^ 32 - p) % 2 ^ 32 := by
  rw [signedOf_eq_of_lt hp, wrapInt]
  split <;> omega

/-- The low 32 bits of a difference of lanes. -/
theorem wrapInt_sub {p q : Nat} (hp : p < 2 ^ 32) (hq : q < 2 ^ 32) :
    wrapInt 32 (signedOf 32 p - signedOf 32 q) = (p + 2 ^ 32 - q) % 2 ^ 32 := by
  rw [signedOf_eq_of_lt hp, signedOf_eq_of_lt hq, wrapInt]
  split <;> split <;> omega

theorem laneOf_vecArith_int (f rm : Nat) (a b x : VReg) {i : Nat} (hi : i < 16) :
    laneOf 32 (vecArith 2 f rm a b x) i = arithInt f (laneOf 32 a i) (laneOf 32 b i) (laneOf 32 x i) % 2 ^ 32 :=
  laneOf_packLanes_range (b := 32) (n := 16) (by decide) _ hi

/-- The lane functions on INT32 lanes (R106). -/
theorem arithInt_spec {p q r : Nat} (hp : p < 2 ^ 32) (hq : q < 2 ^ 32) :
    let lane (f : Nat) : Nat := arithInt f p q r % 2 ^ 32
    lane 0 = (p + q) % 2 ^ 32 ∧ lane 1 = (p + 2 ^ 32 - q) % 2 ^ 32 ∧ lane 2 = p * q % 2 ^ 32 ∧ lane 3 = (p * q + r) % 2 ^ 32 ∧
    lane 4 = (if signedOf 32 p ≤ signedOf 32 q then p else q) ∧ lane 5 = (if signedOf 32 p ≤ signedOf 32 q then q else p) ∧
    (p = 2 ^ 31 → lane 6 = 2 ^ 31 ∧ lane 7 = 2 ^ 31) ∧ lane 7 = (2 ^ 32 - p) % 2 ^ 32 ∧
    lane 8 = (if p = q then 2 ^ 32 - 1 else 0) ∧ lane 9 = (if signedOf 32 p < signedOf 32 q then 2 ^ 32 - 1 else 0) ∧
    lane 10 = (if signedOf 32 p ≤ signedOf 32 q then 2 ^ 32 - 1 else 0) ∧ lane 11 = (if r ≠ 0 then p else q) := by
  have hite (P : Prop) [Decidable P] {y z : Nat} (hy : y < 2 ^ 32) (hz : z < 2 ^ 32) : (if P then y else z) % 2 ^ 32 = if P then y else z :=
    Nat.mod_eq_of_lt (by split <;> assumption)
  refine ⟨Nat.mod_mod _ _, ?_, Nat.mod_mod _ _, Nat.mod_mod _ _, hite _ hp hq, hite _ hq hp, ?_, ?_, hite _ (by decide) (by decide),
    hite _ (by decide) (by decide), hite _ (by decide) (by decide), hite _ hp hq⟩
  · change wrapInt 32 (signedOf 32 p - signedOf 32 q) % 2 ^ 32 = _
    rw [wrapInt_sub hp hq, Nat.mod_mod]
  · rintro rfl
    exact ⟨(by decide : wrapInt 32 (if signedOf 32 (2 ^ 31) < 0 then -signedOf 32 (2 ^ 31) else signedOf 32 (2 ^ 31)) % 2 ^ 32 = 2 ^ 31),
      (by decide : wrapInt 32 (-signedOf 32 (2 ^ 31)) % 2 ^ 32 = 2 ^ 31)⟩
  · change wrapInt 32 (-signedOf 32 p) % 2 ^ 32 = _
    rw [wrapInt_neg hp, Nat.mod_mod]

/-! ### The other lanes of a reduction -/

theorem laneOf_vecReduce_other {fmt l : Nat} (func rm : Nat) (a : VReg) (hl : 0 < l) : laneOf (laneBits fmt) (vecReduce fmt func rm a) l = 0 := by
  have hone (es : List Nat) : (es.take 1).length ≤ 1 := by rw [List.length_take]; exact Nat.min_le_left ..
  have hbits : laneBits fmt ≤ 64 := by unfold laneBits; split <;> decide
  rw [vecReduce]
  rw [laneOf_packLanes ((Nat.mul_le_mul (hone _) hbits).trans (by decide)), List.getD_eq_default _ _ (by exact (hone _).trans hl), Nat.zero_mod]

/-! ### Legal words -/

theorem arithRows_lt : ∀ r ∈ arithRows, r.2 < 14 := by simp [arithRows]

theorem transRows_lt : ∀ r ∈ transRows, r.2 < 11 := by simp [transRows]

theorem reduceRows_lt : ∀ r ∈ reduceRows, r.2 < 4 := by simp [reduceRows]

theorem arithIllegal_eq_false {w : DWord} (hfs : onlyFields w [(0, 11), (12, 31)] = true) (hfmt : vFmt w ≠ 3) (hrm : vRm w < 4)
    (hfunc : fld w 37 6 < 14) (hint : vFmt w = 2 → fld w 37 6 < 12) : arithIllegal w = false := by
  simpa [arithIllegal, hfs, hfmt, hrm, hfunc] using hint

theorem transIllegal_eq_false {w : DWord} (hfs : onlyFields w [(0, 11), (12, 10), (32, 11)] = true) (hfmt : vFmt w < 2)
    (hrm : vRm w < 5) (hfunc : fld w 37 6 < 11) (hrcp : fld w 37 6 = 0 → vRm w < 4) (hdbl : vFmt w = 1 → fld w 37 6 < 6) :
    transIllegal w = false := by
  simpa [transIllegal, hfs, hfmt, hrm, hfunc] using And.intro (fun h => (hrcp h).ne) hdbl

theorem reduceIllegal_eq_false {w : DWord} (hfs : onlyFields w [(0, 11), (12, 10), (32, 11)] = true) (hfmt : vFmt w ≠ 3)
    (hrm : vRm w < 4) (hfunc : fld w 37 6 < 4) : reduceIllegal w = false := by
  simp [reduceIllegal, hfs, hfmt, hrm, hfunc]

theorem arithReadsB_eq (func : Nat) : arithReadsB func = (func != 6 && func != 7 && func != 13) := by
  simp [arithReadsB, bne, Bool.and_assoc]

/-! ### The permute -/

theorem laneOf_vecPerm (fmt : Nat) (shift : Int) (a b : VReg) {l : Nat} (hl : (l : Int) < if fmt = 1 then 8 else 16) :
    laneOf (if fmt = 1 then 64 else 32) (vecPerm fmt shift a b) l =
      if 0 ≤ (l : Int) + shift ∧ (l : Int) + shift < (if fmt = 1 then 8 else 16) then
        laneOf (if fmt = 1 then 64 else 32) a ((l : Int) + shift).toNat
      else laneOf (if fmt = 1 then 64 else 32) b (((l : Int) + shift) % (if fmt = 1 then 8 else 16)).toNat := by
  have hlanes (P : Prop) [Decidable P] (bits i j : Nat) :
      (if P then laneOf bits a i else laneOf bits b j) % 2 ^ bits = if P then laneOf bits a i else laneOf bits b j :=
    Nat.mod_eq_of_lt (by split <;> exact laneOf_lt ..)
  by_cases hfmt : fmt = 1
  · subst hfmt
    exact (laneOf_packLanes_range (b := 64) (n := 8) (by decide) _ (by simpa using hl)).trans (hlanes ..)
  · have hbits : laneBits fmt = 32 := if_neg (by simpa using hfmt)
    have hcount : laneCount fmt = 16 := if_neg (by simpa using hfmt)
    simp only [if_neg hfmt] at hl ⊢
    rw [vecPerm, hbits, hcount]
    exact (laneOf_packLanes_range (b := 32) (n := 16) (by decide) _ (by omega)).trans (hlanes ..)

/-- Settles O13: each vector row is the one body of its operation, which retires; the lanes of the results are those of the
lane functions. -/
theorem vectorArithmetic : Obligations.VectorArithmetic := by
  unfold Obligations.VectorArithmetic
  refine ⟨fun c w s hissues hcls hcc => ⟨fun r hr hop hfunc hfs hfmt hrm hint => ?_, fun r hr hop hfunc hfs hfmt hrm hrcp hdbl => ?_,
    fun r hr hop hfunc hfs hfmt hrm => ?_⟩, ?_, fun fmt func rm a l _ _ hl _ => laneOf_vecReduce_other func rm a hl⟩
  · have hexec := (exec_arithRow r hr c w s).trans (coreCmd_issues hissues (by simp [isArith, hcls, hop, hfunc]) _)
    rw [doArith, doVec_issuing hissues hcc (arithIllegal_eq_false hfs hfmt hrm (hfunc ▸ arithRows_lt r hr) (hfunc ▸ hint))] at hexec
    obtain ⟨t, ht, halone, hcore⟩ := retiredVec hexec
    refine ⟨t, ht, halone, ?_⟩
    dsimp only at hcore
    rw [hcore, hfunc, arithReadsB_eq]
    rfl
  · have hexec := (exec_transRow r hr c w s).trans (coreCmd_issues hissues (by simp [isTrans, hcls, hop, hfunc]) _)
    rw [doTrans, doVec_issuing hissues hcc
      (transIllegal_eq_false hfs hfmt hrm (hfunc ▸ transRows_lt r hr) (hfunc ▸ hrcp) (hfunc ▸ hdbl))] at hexec
    obtain ⟨t, ht, halone, hcore⟩ := retiredVec hexec
    exact ⟨t, ht, halone, by rw [hcore, hfunc]; rfl⟩
  · have hexec := (exec_reduceRow r hr c w s).trans (coreCmd_issues hissues (by simp [isReduce, hcls, hop, hfunc]) _)
    rw [doReduce, doVec_issuing hissues hcc (reduceIllegal_eq_false hfs hfmt hrm (hfunc ▸ reduceRows_lt r hr))] at hexec
    obtain ⟨t, ht, halone, hcore⟩ := retiredVec hexec
    exact ⟨t, ht, halone, by rw [hcore, hfunc]; rfl⟩
  · intro rm a b x i hi
    simp only [laneOf_vecArith_int _ _ _ _ _ hi]
    exact arithInt_spec (laneOf_lt ..) (laneOf_lt ..)

/-- Settles O14: VPERM is one body, which retires; a lane of its result is that of `vecPerm`. -/
theorem permuteTakesShiftedLanes : Obligations.PermuteTakesShiftedLanes := by
  unfold Obligations.PermuteTakesShiftedLanes
  intro c w s hissues hcls hop hcc hfs hfmt
  have hexec : exec (.vperm c w) s = .next (doVperm c w (issuing s c)) := coreCmd_issues hissues (by simp [hcls, hop]) _
  have hfmt' : vFmt w ≠ 3 := hfmt
  rw [doVperm, doVec_issuing hissues hcc (by simp [hfs, hfmt'])] at hexec
  obtain ⟨t, ht, halone, hcore⟩ := retiredVec hexec
  refine ⟨t, _, ht, halone, hcore, fun l hl => ?_⟩
  exact laneOf_vecPerm _ _ _ _ hl

end Sys2Proof.Machine
end

section
/-!
SUPPORT. A checked read of sound accumulator entries (R144).
-/

namespace Sys2Proof.Machine

/-- Entries without an upset are read without an event. -/
theorem accRead1_sound {c i : Nat} (es : List Nat) {s : State} (h : ∀ e ∈ es, mapGet 0 (accOf (coreOf s c) i).upset e = 0) :
    es.foldl (fun r e => accRead1 c i e r) (false, s) = (false, s) := by
  induction es with
  | nil => rfl
  | cons e es ih =>
    rw [List.foldl_cons, accRead1]
    dsimp only
    rw [if_pos (h e List.mem_cons_self)]
    exact ih fun x hx => h x (List.mem_cons_of_mem _ hx)

/-- A read of accumulator entries without an upset, with no injection armed, finds nothing and changes nothing. -/
theorem accSecded_sound {c i : Nat} {es : List Nat} {s : State} (harm : rd s (pgCore c) R.HEADER_ERR_INJ_ARM = 0)
    (h : ∀ e ∈ es, mapGet 0 (accOf (coreOf s c) i).upset e = 0) : accSecded c i es s = (false, s) := by
  have hquiet (bit : Nat) : checkFor (pgArray c) bit false s = (false, s) := checkFor_quiet _ _ _ _ harm
  simp only [accSecded, hquiet, Bool.false_eq_true, if_false]
  exact accRead1_sound es h

end Sys2Proof.Machine
end

section
/-!
CERTIFICATE. Vector moves and conversions (O15).
-/

namespace Sys2Proof.Machine

theorem cvtIllegal_eq_false {w : DWord} {src dst : Fmt} (hfs : onlyFields w [(0, 11), (12, 36)] = true)
    (hsrc : fmtOfCode (fld w 22 6) = some src) (hdst : fmtOfCode (fld w 28 6) = some dst) (hrm : vRm w < 5)
    (hovf : fld w 37 1 = 1 → fld w 28 6 = 4) : cvtIllegal w = false := by
  simpa [cvtIllegal, hfs, hsrc, hdst, hrm] using hovf

/-- Settles O15: each of the four is one vector body, which retires; VACC's checks find its entries sound. -/
theorem vectorMovesAndConversions : Obligations.VectorMovesAndConversions := by
  unfold Obligations.VectorMovesAndConversions
  intro c w s hissues hcls hcc
  refine ⟨fun src dst hop hfs hsrc hdst hrm hovf => ?_, fun hop hfs => ?_, fun hop hfs hfmt hlane => ?_,
    fun hop hfs hrange hfree hsound => ?_⟩
  · have hexec : exec (.cvt c w) s = .next (doCvt c w (issuing s c)) := coreCmd_issues hissues (by simp [hcls, hop]) _
    rw [doCvt, doVec_issuing hissues hcc (cvtIllegal_eq_false hfs hsrc hdst hrm hovf)] at hexec
    obtain ⟨t, ht, halone, hcore⟩ := retiredVec hexec
    refine ⟨t, ht, halone, ?_⟩
    simp only [hsrc, hdst] at hcore
    exact hcore
  · have hexec : exec (.vrng c w) s = .next (doVrng c w (issuing s c)) := coreCmd_issues hissues (by simp [hcls, hop]) _
    rw [doVrng, doVec_issuing hissues hcc (by rw [hfs]; rfl)] at hexec
    obtain ⟨t, ht, halone, hcore⟩ := retiredVec hexec
    exact ⟨t, ht, halone, hcore⟩
  · have hexec : exec (.vmovx c w) s = .next (doVmovx c w (issuing s c)) := coreCmd_issues hissues (by simp [hcls, hop]) _
    have hlegal : (!onlyFields w [(0, 11), (12, 15), (32, 2)] || vFmt w == 3 || (vFmt w == 1 && decide (8 ≤ fld w 22 4))) = false := by
      have hfmt' : vFmt w ≠ 3 := hfmt
      have hlane' : vFmt w = 1 → fld w 22 4 < 8 := hlane
      simpa [hfs, hfmt'] using hlane'
    rw [doVmovx, doVec_issuing hissues hcc hlegal] at hexec
    obtain ⟨t, ht, halone, hcore⟩ := retiredVec hexec
    exact ⟨t, ht, halone, hcore⟩
  · have hexec : exec (.vacc c w) s = .next (doVacc c w (issuing s c)) := coreCmd_issues hissues (by simp [hcls, hop]) _
    have hlegal : (!onlyFields w [(0, 11), (12, 18)] || decide (4095 < fld w 18 12 + 15)) = false := by
      simp [hfs, hrange]
    have hread : accSecded c (fld w 17 1) ((List.range 16).map (· + fld w 18 12)) (issuing s c) = (false, issuing s c) := by
      refine accSecded_sound (injArm_issuing hissues) fun e he => ?_
      obtain ⟨i, hi, rfl⟩ := List.mem_map.mp he
      rw [coreOf_issuing, Nat.add_comm]
      exact hsound i (List.mem_range.mp hi)
    have hbusy : ¬ ((accOf (coreOf (issuing s c) c) (fld w 17 1)).st = 1 ∧ inflight (coreOf (issuing s c) c) (fld w 17 1) ≠ 0) := by
      rw [coreOf_issuing]
      exact hfree
    rw [doVacc, doVec_issuing hissues hcc hlegal] at hexec
    dsimp only at hexec
    rw [if_neg hbusy, hread, if_neg Bool.false_ne_true] at hexec
    obtain ⟨t, ht, halone, hcore⟩ := retiredVec hexec
    exact ⟨t, ht, halone, hcore⟩

end Sys2Proof.Machine
end

section
/-!
SUPPORT. Scratch (R80, R88, R105): what a write leaves in its bytes and elsewhere, and the checks of sound words.
-/

namespace Sys2Proof.Machine

/-! ### What a write of scratch leaves -/

/-- All of the core but its scratch, the poison marks and the upsets is as before. -/
def ScratchOnly (k k' : Core) : Prop := { k with scr := k'.scr, scrPoison := k'.scrPoison, scrUpset := k'.scrUpset } = k'

theorem ScratchOnly.refl (k : Core) : ScratchOnly k k := rfl

theorem ScratchOnly.trans {k k' k'' : Core} (h : ScratchOnly k k') (h' : ScratchOnly k' k'') : ScratchOnly k k'' := by
  unfold ScratchOnly at *
  rw [← h', ← h]

theorem ScratchOnly.scrUnlisted {k k' : Core} (h : ScratchOnly k k') (b : Nat) : scrUnlisted k' b = scrUnlisted k b := by
  rw [← h]
  rfl

theorem scrPut_only (a : Nat) (bs : List Nat) (k : Core) : ScratchOnly k (scrPut a bs k) := by
  induction bs generalizing a k with
  | nil => rfl
  | cons b bs ih =>
    have hput : ScratchOnly k { k with scr := mapSet (Sys2Proof.Machine.scrUnlisted k a) k.scr a (BitVec.ofNat 8 b) } := rfl
    exact hput.trans (ih (a + 1) _)

theorem foldl_only {α : Type} {f : Core → α → Core} (h : ∀ k x, ScratchOnly k (f k x)) (l : List α) (k : Core) :
    ScratchOnly k (l.foldl f k) := by
  induction l generalizing k with
  | nil => rfl
  | cons x l ih => exact (h k x).trans (ih _)

theorem foldl_scr {α : Type} {f : Core → α → Core} (h : ∀ k x, (f k x).scr = k.scr) (l : List α) (k : Core) :
    (l.foldl f k).scr = k.scr := by
  induction l generalizing k with
  | nil => rfl
  | cons x l ih => exact (ih _).trans (h k x)

theorem scrWrite_only (a : Nat) (bs : List Nat) (poison : Bool) (k : Core) : ScratchOnly k (scrWrite a bs poison k) := by
  refine (scrPut_only a bs k).trans (foldl_only ?_ _ _)
  exact fun _ _ => rfl

theorem scrCell_of_scr {k k' : Core} (h : ScratchOnly k k') (hscr : k'.scr = k.scr) (b : Nat) : scrCell k' b = scrCell k b := by
  rw [scrCell, scrCell, h.scrUnlisted, hscr]

/-- A byte of scratch after a write. -/
theorem scrCell_scrPut (a : Nat) (bs : List Nat) (k : Core) (b : Nat) :
    scrCell (scrPut a bs k) b = if a ≤ b ∧ b < a + bs.length then BitVec.ofNat 8 (bs.getD (b - a) 0) else scrCell k b := by
  induction bs generalizing a k with
  | nil => exact (if_neg (by simp)).symm
  | cons x bs ih =>
    rw [scrPut, ih]
    obtain hlt | rfl | hgt := Nat.lt_trichotomy b a
    · rw [if_neg (by omega), if_neg (by omega)]
      exact mapGet_set_ne _ _ _ _ _ _ hlt.ne
    · rw [if_neg (by omega), if_pos (by simp), Nat.sub_self]
      exact mapGet_set_self ..
    · have hsub : b - a = b - (a + 1) + 1 := by omega
      rw [hsub, List.getD_cons_succ, List.length_cons]
      by_cases hin : b < a + 1 + bs.length
      · rw [if_pos (by omega), if_pos (by omega)]
      · rw [if_neg (by omega), if_neg (by omega)]
        exact mapGet_set_ne _ _ _ _ _ _ hgt.ne'

theorem scrCell_scrWrite (a : Nat) (bs : List Nat) (poison : Bool) (k : Core) (b : Nat) :
    scrCell (scrWrite a bs poison k) b = if a ≤ b ∧ b < a + bs.length then BitVec.ofNat 8 (bs.getD (b - a) 0) else scrCell k b := by
  rw [← scrCell_scrPut]
  refine scrCell_of_scr (foldl_only ?_ _ _) (foldl_scr ?_ _ _) b <;> exact fun _ _ => rfl

theorem getD_bytesOf {n : Nat} (v : Nat) {i : Nat} (hi : i < n) : (bytesOf n v).getD i 0 = v / 256 ^ i % 256 := by
  induction n generalizing v i with
  | zero => omega
  | succ n ih =>
    cases i with
    | zero => simp [bytesOf]
    | succ i => rw [bytesOf, List.getD_cons_succ, ih _ (by omega), Nat.div_div_eq_div_mul, Nat.pow_succ']

/-- The bytes of a stored number lie in scratch, the least significant first. -/
theorem scrCell_store (a n v : Nat) (poison : Bool) (k : Core) (b : Nat) :
    scrCell (scrWrite a (bytesOf n v) poison k) b = if a ≤ b ∧ b < a + n then BitVec.ofNat 8 (v / 256 ^ (b - a)) else scrCell k b := by
  rw [scrCell_scrWrite, length_bytesOf]
  split
  · rename_i hin
    rw [getD_bytesOf v (by omega)]
    exact BitVec.eq_of_toNat_eq (by simp)
  · rfl

/-! ### Sound words -/

theorem mem_wordsOf {a n w : Nat} : w ∈ wordsOf a n ↔ n ≠ 0 ∧ a / 8 ≤ w ∧ w ≤ (a + n - 1) / 8 := by
  unfold wordsOf
  split
  · simp [*]
  · simp only [List.mem_map, List.mem_range]
    constructor
    · rintro ⟨i, hi, rfl⟩
      omega
    · rintro ⟨-, hlo, hhi⟩
      exact ⟨w - a / 8, by omega, by omega⟩

/-- Words without an upset, at checks that find nothing, are met without an event. -/
theorem scrSecded_sound {c a n : Nat} {s : State} (hquiet : ∀ bit, checkFor (pgCore c) bit false s = (false, s))
    (hsound : ∀ w ∈ wordsOf a n, mapGet 0 (coreOf s c).scrUpset w = 0) : scrSecded c a n s = (false, s) := by
  have hnone (u : Nat) (hu : u ≠ 0) : (wordsOf a n).filter (fun w => mapGet 0 (coreOf s c).scrUpset w == u) = [] := by
    refine List.filter_eq_nil_iff.mpr fun w hw => ?_
    simp [hsound w hw, hu.symm]
  simp only [scrSecded, hnone 1 (by decide), hnone 2 (by decide), List.foldl_nil, hquiet, List.isEmpty_nil, Bool.not_true,
    Bool.false_eq_true, if_false]

/-- So are the words at the ends of a store. -/
theorem storeSecded_sound {c a n : Nat} {s : State} (hquiet : ∀ bit, checkFor (pgCore c) bit false s = (false, s)) (hn : 0 < n)
    (hsound : ∀ w ∈ wordsOf a n, mapGet 0 (coreOf s c).scrUpset w = 0) : storeSecded c a n s = (false, s) := by
  have hfirst : scrSecded c a 1 s = (false, s) :=
    scrSecded_sound hquiet fun w hw => hsound w (mem_wordsOf.mpr (by have := mem_wordsOf.mp hw; omega))
  have hlast : scrSecded c (a + n - 1) 1 s = (false, s) :=
    scrSecded_sound hquiet fun w hw => hsound w (mem_wordsOf.mpr (by have := mem_wordsOf.mp hw; omega))
  simp only [storeSecded, hfirst, ite_self, hlast, Bool.or_self]

theorem underDrain_none {k : Core} (h : k.drain = none) (a n : Nat) : underDrain k a n = false := by
  rw [underDrain, h]

/-! ### Addresses -/

theorem signedOf_wrapInt {a : Int} (hlo : -(2 ^ 31) ≤ a) (hhi : a < 2 ^ 31) : signedOf 32 (wrapInt 32 a) = a := by
  rw [wrapInt, signedOf]
  split <;> omega

theorem scrInRange_nat {a n : Nat} (h : a + n ≤ 0x40000) : scrInRange (a : Int) n = true := by
  simpa [scrInRange] using by exact_mod_cast h

end Sys2Proof.Machine
end

section
/-!
CERTIFICATE. Scratch loads and stores (O7).
-/

namespace Sys2Proof.Machine

/-! ### The generators' addresses -/

/-- The address of R88, in the window where there is one. -/
theorem agAddr_spec (g : AGen) {a : Int} (ha : a = (g.base : Int) + g.i0 * g.stride0 + g.i1 * g.stride1) (hlo : -(2 ^ 31) ≤ a)
    (hhi : a < 2 ^ 31) :
    (g.wsize = 0 → agAddr g = a) ∧ (g.wsize ≠ 0 → agAddr g = g.wbase + (a - g.wbase) % g.wsize ∧
      (g.wbase : Int) ≤ agAddr g ∧ agAddr g < g.wbase + g.wsize) := by
  have hraw : agRaw g = a := by rw [agRaw, ← ha, signedOf_wrapInt hlo hhi]
  refine ⟨fun h => by rw [agAddr, if_pos h, hraw], fun h => ?_⟩
  have haddr : agAddr g = g.wbase + (a - g.wbase) % g.wsize := by rw [agAddr, if_neg h, hraw]
  have hpos : (0 : Int) < g.wsize := by omega
  have hmod := Int.emod_nonneg (a - g.wbase) hpos.ne'
  have hlt := Int.emod_lt_of_pos (a - g.wbase) hpos
  exact ⟨haddr, by omega, by omega⟩

/-! ### The accesses -/

/-- Past scratch an access leaves its generator used and the pc moved on. -/
theorem stepPc_agUse_only {k k' : Core} (h : ScratchOnly k k') (ag : Nat) :
    (∀ b, scrCell (stepPc (agUse ag k')) b = scrCell k' b) ∧ (stepPc (agUse ag k')).seq = (stepPc (agUse ag k)).seq ∧
      { stepPc (agUse ag k') with scr := k.scr, scrPoison := k.scrPoison, scrUpset := k.scrUpset, seq := k.seq, ran := k.ran } = k := by
  rw [← h]
  unfold agUse
  split <;> exact ⟨fun _ => rfl, rfl, rfl⟩

/-- A store's core: its bytes in scratch, its generator used and the pc moved on. -/
theorem core_of_store (a n v ag : Nat) (poison : Bool) (k : Core) {k' : Core}
    (h : k' = stepPc (agUse ag (scrWrite a (bytesOf n v) poison k))) :
    (∀ b, scrCell k' b = if a ≤ b ∧ b < a + n then BitVec.ofNat 8 (v / 256 ^ (b - a)) else scrCell k b) ∧
      k'.seq = (stepPc (agUse ag k)).seq ∧
      { k' with scr := k.scr, scrPoison := k.scrPoison, scrUpset := k.scrUpset, seq := k.seq, ran := k.ran } = k := by
  subst h
  obtain ⟨hcells, hrest⟩ := stepPc_agUse_only (scrWrite_only a (bytesOf n v) poison k) ag
  exact ⟨fun b => (hcells b).trans (scrCell_store ..), hrest⟩

section Accesses

variable {c : CoreIx} {w : DWord} {s : State} {a : Nat} (hissues : Issues c s)
include hissues

/-- An issuing core's checks that find nothing leave the state as it is. -/
theorem check_issuing (bit : Nat) : checkFor (pgCore c) bit false (issuing s c) = (false, issuing s c) :=
  checkFor_quiet _ _ _ _ (injArm_issuing hissues)

/-- A checked store in range to sound words. -/
theorem storeScratch_issuing {n : Nat} (bs : Core → List Nat) (poison : Core → Bool) (fin : Core → Core)
    (done : (Core → Core) → State → State) (hn : 0 < n) (hrange : a + n ≤ 0x40000) (hsound : ScratchSound (coreOf s c) a n) :
    storeScratch c w (a : Int) bs n poison fin done (issuing s c) =
      done (fun k => fin (scrWrite a (bs k) (poison k) k)) (issuing s c) := by
  obtain ⟨hdrain, hwords⟩ := hsound
  have hunder : underDrain (coreOf (issuing s c) c) a n = false := underDrain_none (by rw [coreOf_issuing]; exact hdrain) a n
  have hcheck : storeSecded c a n (issuing s c) = (false, issuing s c) :=
    storeSecded_sound (check_issuing hissues) hn (by rw [coreOf_issuing]; exact hwords)
  rw [storeScratch, coreCheck_issuing hissues (by rw [scrInRange_nat hrange]; rfl)]
  dsimp only
  rw [Int.toNat_natCast, hunder, hcheck]
  rfl

/-- A checked scalar load in range of sound words. -/
theorem loadScratch_issuing (hrange : a + ldStBytes w ≤ 0x40000) (hsound : ScratchSound (coreOf s c) a (ldStBytes w)) :
    loadScratch c w (a : Int) (issuing s c) =
      retire c (fun k => xset (fld w 12 5) (ldExtend w (ofBytes (scrRead k a (ldStBytes w)))) (agUse (fld w 22 3) k)) (issuing s c) := by
  obtain ⟨hdrain, hwords⟩ := hsound
  have hunder : underDrain (coreOf (issuing s c) c) a (ldStBytes w) = false := underDrain_none (by rw [coreOf_issuing]; exact hdrain) _ _
  have hcheck : scrSecded c a (ldStBytes w) (issuing s c) = (false, issuing s c) :=
    scrSecded_sound (check_issuing hissues) (by rw [coreOf_issuing]; exact hwords)
  rw [loadScratch, coreCheck_issuing hissues (by rw [scrInRange_nat hrange]; rfl)]
  dsimp only
  rw [Int.toNat_natCast, hunder, hcheck]
  rfl

end Accesses

theorem vldIllegal_eq_false {op : Nat} {w : DWord} (hag : fld w 22 3 ≠ 7) (hw : Spelled 5 op [(0, 11), (12, 13)] w) :
    vldIllegal w = false := by
  obtain ⟨-, -, hfs⟩ := hw
  simp [vldIllegal, hfs, hag]

/-- Settles O7: the loads and stores of sound words in range retire with what `scrRead` and `scrWrite` say. -/
theorem scratchLoadsAndStores : Obligations.ScratchLoadsAndStores := by
  unfold Obligations.ScratchLoadsAndStores
  refine ⟨fun g => ⟨fun a ha hlo hhi => agAddr_spec g ha hlo hhi, agNext_of_inner, agNext_of_outer, agNext_of_both⟩,
    fun c w s hissues hag => ⟨fun a hw hspace haddr hrange hsound => ?_, fun a hw hcc haddr hrange hsound => ?_⟩,
    fun c w s hissues hag => ⟨fun a hw hspace haddr hrange hsound => ?_, fun a hw hcc haddr hrange hsound => ?_⟩⟩
  · have hexec : exec (.ld c w) s = .next (doLd c w (issuing s c)) := coreCmd_issues hissues hw.spells.1 _
    rw [doLd, coreCheck_issuing hissues (ldSt_legal hag hw)] at hexec
    dsimp only at hexec
    rw [if_pos hspace, ldStAddr_issued haddr, loadScratch_issuing hissues hrange hsound] at hexec
    obtain ⟨t, ht, halone, hcore⟩ := retired hexec
    exact ⟨t, ht, halone, hcore⟩
  · have hexec : exec (.vld c w) s = .next (doVld c w (issuing s c)) := coreCmd_issues hissues hw.spells.1 _
    have hstart : startAddr (coreOf (issuing s c) c) (fld w 22 3) (fld w 17 5) = (a : Int) := by rw [coreOf_issuing]; exact haddr
    obtain ⟨hdrain, hwords⟩ := hsound
    have hunder : underDrain (coreOf (issuing s c) c) a 64 = false := underDrain_none (by rw [coreOf_issuing]; exact hdrain) _ _
    have hcheck : scrSecded c a 64 (issuing s c) = (false, issuing s c) :=
      scrSecded_sound (check_issuing hissues) (by rw [coreOf_issuing]; exact hwords)
    rw [doVld, doVec_issuing hissues hcc (vldIllegal_eq_false hag hw)] at hexec
    dsimp only at hexec
    rw [hstart, coreCheck_issuing hissues (by rw [scrInRange_nat hrange]; rfl), Int.toNat_natCast, hunder, hcheck,
      if_neg Bool.false_ne_true, if_neg Bool.false_ne_true] at hexec
    obtain ⟨t, ht, halone, hcore⟩ := retiredVec hexec
    exact ⟨t, ht, halone, hcore⟩
  · have hexec : exec (.st c w) s = .next (doSt c w (issuing s c)) := coreCmd_issues hissues hw.spells.1 _
    rw [doSt, coreCheck_issuing hissues (ldSt_legal hag hw)] at hexec
    dsimp only at hexec
    rw [if_pos hspace, ldStAddr_issued haddr,
      storeScratch_issuing (n := ldStBytes w) hissues _ _ _ _ (Nat.two_pow_pos _) hrange hsound] at hexec
    obtain ⟨t, ht, halone, hcore⟩ := retired hexec
    exact ⟨t, ht, halone, core_of_store _ _ _ _ _ _ hcore⟩
  · have hexec : exec (.vst c w) s = .next (doVst c w (issuing s c)) := coreCmd_issues hissues hw.spells.1 _
    have hstart : startAddr (coreOf (issuing s c) c) (fld w 22 3) (fld w 17 5) = (a : Int) := by rw [coreOf_issuing]; exact haddr
    rw [doVst, doVec_issuing hissues hcc (vldIllegal_eq_false hag hw)] at hexec
    dsimp only at hexec
    rw [hstart, storeScratch_issuing hissues _ _ _ _ (by decide) hrange hsound] at hexec
    obtain ⟨t, ht, halone, hcore⟩ := retiredVec hexec
    exact ⟨t, ht, halone, core_of_store _ _ _ _ _ _ hcore⟩

end Sys2Proof.Machine
end

section
/-!
SUPPORT. The streams of a core: where its events, its boundary and a switch leave it (R83 to R85).
-/

namespace Sys2Proof.Machine

@[simp] theorem cores_countCore (c e d : Nat) (s : State) : (countCore c e d s).cores = s.cores :=
  (countE_frame (pgCore c) e 0 d (coreOf s c).ctx s).eq State.cores fun _ _ => rfl

theorem applySel_all_frame (p : Page) (s : State) : SameButApplied s (applySel p (fun _ => true) s) :=
  foldl_keeps (SameButApplied s) _ (fun _ e h => h.trans (applyAt_frame p e.1 e.2 _)) (pendOffs s p) s rfl

@[simp] theorem cores_coreBoundary (c : Nat) (s : State) : (coreBoundary c s).cores = s.cores :=
  (boundary_frame (pgCore c) _).cores.trans (applySel_all_frame (pgArray c) s).cores

theorem coreOf_of_cores {s t : State} (h : t.cores = s.cores) (d : Nat) : coreOf t d = coreOf s d := by
  rw [coreOf, h, coreOf]

theorem coreOf_modCore_ne {c d : Nat} (h : d ≠ c) (f : Core → Core) (s : State) : coreOf (modCore c f s) d = coreOf s d :=
  coreOf_setCore_ne c d _ s h

theorem coreOf_lowerCore_ne {c d : Nat} (h : d ≠ c) (cls : Nat) (s : State) : coreOf (lowerCore c cls s) d = coreOf s d := by
  unfold lowerCore
  extract_lets k s1 s2
  have h1 : s1.cores = s.cores := by unfold s1; split <;> rfl
  have h2 : s2.cores = s1.cores := by unfold s2; split <;> rfl
  rw [coreOf_modCore_ne h, coreOf_of_cores (h2.trans h1)]

/-- A core that meets a switch is stopped for it; nothing else of any core changes. -/
theorem coreOf_meetSwitch (c : Nat) (s : State) :
    (∃ met stop, coreOf (meetSwitch c s) c = { coreOf s c with atSwitch := met, stopIssue := stop }) ∧
      ∀ d, d ≠ c → coreOf (meetSwitch c s) d = coreOf s d := by
  unfold meetSwitch
  split
  · exact ⟨⟨true, true, coreOf_modCore ..⟩, fun d hd => coreOf_modCore_ne hd _ _⟩
  · exact ⟨⟨_, _, rfl⟩, fun _ _ => rfl⟩

/-- What the end of the segment of stream `st` leaves of its core. -/
def segmentLeft (st : Nat) (k : Core) : Core :=
  let k1 := { noWaits k with ran := true, slots := [], res := mapDel k.res st, saved := mapDel k.saved st, cur := none }
  match nextReady k1 none with
  | some o => passTo o k1
  | none => { k1 with seq := { SeqState.zero with pc := k1.seq.pc } }

/-- The first resident stream takes over, and the ended one is resident no more. -/
theorem segmentLeft_spec (st : Nat) (k : Core) :
    mapFind (segmentLeft st k).res st = none ∧ (segmentLeft st k).g = k.g ∧ (segmentLeft st k).bookPend = k.bookPend ∧
      (segmentLeft st k).slots = [] ∧ (segmentLeft st k).cur = [1, 0, 2].find? (fun o => (mapFind (mapDel k.res st) o).isSome) := by
  have hnext : [1, 0, 2].find? (fun o => (mapFind (mapDel k.res st) o).isSome) =
      nextReady { noWaits k with ran := true, slots := [], res := mapDel k.res st, saved := mapDel k.saved st, cur := none } none := by
    exact congrArg (fun p => [1, 0, 2].find? p) (funext fun o => (Bool.and_true _).symm)
  rw [hnext]
  unfold segmentLeft
  dsimp only
  split
  · rename_i o ho
    exact ⟨mapFind_del_self _ _, rfl, rfl, rfl, ho.symm⟩
  · rename_i ho
    exact ⟨mapFind_del_self _ _, rfl, rfl, rfl, ho.symm⟩

theorem cores_reportEnd (c n st : Nat) (s : State) : (reportEnd c n st s).cores = s.cores := (offCore_modCtx n _ s).cores

/-- The end of a segment: of the cores its own alone, which is left as `segmentLeft` says, perhaps stopped for a switch. -/
theorem coreOf_segmentEnd {c st : Nat} {s : State} (hcur : (coreOf s c).cur = some st) :
    (∃ met stop, coreOf (segmentEnd c s) c =
      { segmentLeft st { coreOf s c with g := 0, bookPend := false } with atSwitch := met, stopIssue := stop }) ∧
      ∀ d, d ≠ c → coreOf (segmentEnd c s) d = coreOf s d := by
  obtain ⟨s4, hend, hcores⟩ : ∃ s4, segmentEnd c s = meetSwitch c (coreBoundary c s4) ∧
      s4.cores = (modCore c (segmentLeft st) (lowerCore c 0 s)).cores := by
    rw [segmentEnd, hcur]
    refine ⟨_, rfl, ?_⟩
    dsimp only
    split
    · exact (cores_reportEnd ..).trans ((cores_countCore ..).trans (cores_countCore ..))
    · exact (cores_countCore ..).trans (cores_countCore ..)
  have hcoreOf (d : Nat) : coreOf (coreBoundary c s4) d = coreOf (modCore c (segmentLeft st) (lowerCore c 0 s)) d :=
    coreOf_of_cores ((cores_coreBoundary c s4).trans hcores) d
  obtain ⟨⟨met, stop, hself⟩, hothers⟩ := coreOf_meetSwitch c (coreBoundary c s4)
  rw [hend]
  refine ⟨⟨met, stop, ?_⟩, fun d hd => ?_⟩
  · rw [hself, hcoreOf, coreOf_modCore, coreOf_lowerCore]
  · rw [hothers d hd, hcoreOf, coreOf_modCore_ne hd, coreOf_lowerCore_ne hd]

/-- A stream passed to runs from where it was saved, and the one left is saved (R85). -/
theorem passTo_spec {o cur : Nat} {k : Core} (hcur : k.cur = some cur) (hne : o ≠ cur) :
    (passTo o k).cur = some o ∧ (passTo o k).seq = (mapFind k.saved o).getD .zero ∧ mapFind (passTo o k).saved cur = some k.seq := by
  have hsaved : mapFind (mapPut k.saved cur k.seq) o = mapFind k.saved o := mapFind_put_ne _ _ _ _ hne
  rw [passTo, hcur]
  dsimp only
  exact ⟨rfl, by rw [hsaved], by rw [mapFind_del_ne _ _ _ hne.symm, mapFind_put_self]⟩

end Sys2Proof.Machine
end

section
/-!
CERTIFICATE. Segments (O9).
-/

namespace Sys2Proof.Machine

/-- The next stream is not the present one. -/
theorem ne_of_nextReady {k : Core} {o cur : Nat} (h : nextReady k (some cur) = some o) : o ≠ cur := by
  rintro rfl
  have := List.find?_some h
  simp at this

/-- The core after SWP's live set: declared, and the pc moved on. -/
def liveSet (w : DWord) (k : Core) : Core :=
  stepPc { k with liveKib := fld w 12 9, liveBase := fld w 21 8, accLive := fld w 29 2 }

/-- The stream that SWP passes to. -/
def swpOther (w : DWord) (k : Core) : Option Nat := if fld w 31 1 = 1 then nextReady k k.cur else none

/-- SWP leaves its core with the live set declared and passed to the other stream where there is one, perhaps stopped for a
switch. -/
theorem coreOf_doSwp (c : CoreIx) (w : DWord) (s : State) :
    (∃ met stop, coreOf (doSwp c w (issuing s c)) c =
      { ((swpOther w (liveSet w (atIssue s c))).elim id passTo (liveSet w (atIssue s c))) with atSwitch := met, stopIssue := stop }) ∧
      ∀ d, d ≠ c.val → coreOf (doSwp c w (issuing s c)) d = coreOf s d := by
  obtain ⟨⟨-, hothers, -⟩, hcore⟩ :=
    retire_alone c (fun k => { k with liveKib := fld w 12 9, liveBase := fld w 21 8, accLive := fld w 29 2 }) s
  obtain ⟨s1, hs1⟩ : ∃ s1, s1 = retire c (fun k => { k with liveKib := fld w 12 9, liveBase := fld w 21 8, accLive := fld w 29 2 })
    (issuing s c) := ⟨_, rfl⟩
  rw [← hs1] at hothers hcore
  obtain ⟨s2, hend, hself, hrest⟩ : ∃ s2, doSwp c w (issuing s c) = meetSwitch c s2 ∧
      coreOf s2 c = (swpOther w (coreOf s1 c)).elim id passTo (coreOf s1 c) ∧ ∀ d, d ≠ c.val → coreOf s2 d = coreOf s1 d := by
    rw [doSwp, ← hs1]
    refine ⟨_, rfl, ?_⟩
    unfold swpOther
    split
    · cases nextReady (coreOf s1 c) (coreOf s1 c).cur with
      | none => exact ⟨rfl, fun _ _ => rfl⟩
      | some o =>
        have hcount (d : Nat) := coreOf_of_cores (cores_countCore c 0x04 1 (modCore c (passTo o) s1)) d
        exact ⟨(hcount c).trans (coreOf_modCore ..), fun d hd => (hcount d).trans (coreOf_modCore_ne hd _ _)⟩
    · exact ⟨rfl, fun _ _ => rfl⟩
  obtain ⟨⟨met, stop, hmeet⟩, hmeets⟩ := coreOf_meetSwitch c s2
  rw [hend]
  exact ⟨⟨met, stop, by rw [hmeet, hself, hcore]; rfl⟩, fun d hd => (hmeets d hd).trans ((hrest d hd).trans (hothers d hd))⟩

/-- Settles O9: SEGEND is `segmentEnd`, SWP a retirement and at most one `passTo`. -/
theorem segmentsEndAndSwitch : Obligations.SegmentsEndAndSwitch := by
  unfold Obligations.SegmentsEndAndSwitch
  refine ⟨fun c w s st hissues hw hcur hqueue hdrain hmoves => ?_, fun c w s hissues hw hwin => ?_⟩
  · obtain ⟨hspells, hfs⟩ := hw.spells
    have hexec : exec (.segend c w) s = .next _ := coreCmd_issues hissues hspells _
    rw [coreCheck_issuing hissues (by rw [hfs]; rfl)] at hexec
    have hidle : ((coreOf (issuing s c) c).queue.isEmpty && (coreOf (issuing s c) c).drain.isNone &&
        (coreOf (issuing s c) c).nmoves.isEmpty) = true := by
      rw [coreOf_issuing]
      simp [hqueue, hdrain, hmoves]
    rw [doSegend, if_pos hidle] at hexec
    have hcur' : (coreOf (issuing s c) c).cur = some st := by rw [coreOf_issuing]; exact hcur
    obtain ⟨⟨met, stop, hself⟩, hothers⟩ := coreOf_segmentEnd hcur'
    obtain ⟨hres, hg, hpend, hslots, hnext⟩ := segmentLeft_spec st { coreOf (issuing s c) c with g := 0, bookPend := false }
    refine ⟨_, hexec, ?_, ?_, ?_, ?_, ?_, fun d hd => (hothers d hd).trans (coreOf_modCore_ne hd _ s)⟩ <;> rw [hself]
    · exact hres
    · exact hg
    · exact hpend
    · exact hslots
    · have hres : (coreOf (issuing s c) c).res = (coreOf s c).res := by rw [coreOf_issuing]
      rw [← hres]
      exact hnext
  · obtain ⟨hspells, hfs⟩ := hw.spells
    have hexec : exec (.swp c w) s = .next _ := coreCmd_issues hissues hspells _
    rw [coreCheck_issuing hissues (by simp [hfs, hwin])] at hexec
    obtain ⟨⟨met, stop, hself⟩, hothers⟩ := coreOf_doSwp c w s
    have hother : (swpOther w (liveSet w (atIssue s c))) = if fld w 31 1 = 1 then
        [1, 0, 2].find? (fun o => (mapFind (atIssue s c).res o).isSome && some o != (atIssue s c).cur) else none := rfl
    have hlive (o : Option Nat) : (o.elim id passTo (liveSet w (atIssue s c))).liveKib = fld w 12 9 ∧
        (o.elim id passTo (liveSet w (atIssue s c))).liveBase = fld w 21 8 ∧
        (o.elim id passTo (liveSet w (atIssue s c))).accLive = fld w 29 2 := by
      cases o <;> exact ⟨rfl, rfl, rfl⟩
    obtain ⟨hkib, hbase, hacc⟩ := hlive (swpOther w (liveSet w (atIssue s c)))
    refine ⟨_, hexec, by rw [hself]; exact hkib, by rw [hself]; exact hbase, by rw [hself]; exact hacc, hothers,
      fun hstay => ?_, fun o cur hyield ho hcur => ?_⟩
    · have hnone : swpOther w (liveSet w (atIssue s c)) = none := by
        rw [hother]
        obtain h | h := hstay
        · rw [if_neg (by omega)]
        · rw [h, ite_self]
      rw [hself, hnone]
      exact ⟨rfl, rfl⟩
    · have hsome : swpOther w (liveSet w (atIssue s c)) = some o := by rw [hother, if_pos hyield, ho]
      have hne : o ≠ cur := ne_of_nextReady (k := atIssue s c) (by rw [← hcur]; exact ho)
      rw [hself, hsome]
      exact passTo_spec (k := liveSet w (atIssue s c)) hcur hne

end Sys2Proof.Machine
end

section
/-!
CERTIFICATE. Debug stop, resume and step (O20).
-/

namespace Sys2Proof.Machine

/-! ### Writes of CORE_DBG_CTRL -/

theorem rowsAt_dbgCtrl : rowsAt .core 0x140 = [(R.CORE_DBG_CTRL_STOP, 0), (R.CORE_DBG_CTRL_STEP, 0), (R.CORE_DBG_CTRL_RESUME, 0)] := by
  decide +kernel

/-- A write of DBG_CTRL where debug is open: its fields, then what it does (R56, R115). -/
theorem writeReg_dbgCtrl {c : Nat} {s : State} (hopen : debugOpen s = true) (v m : Nat) :
    writeReg topHook (pgCore c) 0x140 v m s = dbgWrite c (v &&& m)
      (writeFields (pgCore c) (rd s (pgCore c) R.HEADER_PAGE_LOCK_LOCK == 1) 0x140 v m s) := by
  have hpend (locked : Bool) : pendValue s (pgCore c) locked 0x140 v m = none := by
    have hrows : rowsAt (pgCore c).cls 0x140 = _ := rowsAt_dbgCtrl
    unfold pendValue
    rw [hrows]
    rfl
  have hhead : headPage (pgCore c) = pgCore c := rfl
  simp only [writeReg, hopen, hhead, hpend, Bool.not_true, Bool.and_false]
  rfl

/-- A write that does not carry STOP changes no field of DBG_CTRL. -/
theorem writeFields_dbgCtrl {c : Nat} (locked : Bool) (v : Nat) {m : Nat} (hm : bitsOf m 0 1 = 0) (s : State) :
    writeFields (pgCore c) locked 0x140 v m s = s := by
  have hrows : rowsAt (pgCore c).cls 0x140 = _ := rowsAt_dbgCtrl
  have hstop (t : State) : writeField (pgCore c) locked v m (R.CORE_DBG_CTRL_STOP, 0) t = t := if_pos (.inr (.inl hm))
  have hwo {f : RegField} (hf : f.kind = .wo) (t : State) : writeField (pgCore c) locked v m (f, 0) t = t := by
    unfold writeField
    simp only [hf]
    exact ite_self _
  rw [writeFields, hrows]
  simp only [List.foldl_cons, List.foldl_nil, hstop, hwo (f := R.CORE_DBG_CTRL_STEP) rfl, hwo (f := R.CORE_DBG_CTRL_RESUME) rfl]

/-- DBG_STOP's write sets STOP. -/
theorem writeFields_stop {c : Nat} (locked : Bool) (s : State) :
    ∃ x, x % 2 = 1 ∧ writeFields (pgCore c) locked 0x140 1 1 s = wr (pgCore c) R.CORE_DBG_CTRL_STOP x s := by
  have hrows : rowsAt (pgCore c).cls 0x140 = _ := rowsAt_dbgCtrl
  refine ⟨mergeBits (rd s (pgCore c) R.CORE_DBG_CTRL_STOP) 1 1, ?_, ?_⟩
  · rw [show mergeBits _ 1 1 = _ from mergeBits_mask _ 1 1]
    omega
  · rw [writeFields, hrows]
    rfl

/-! ### The word at the pc -/

/-- A word that spells NOP is issued as NOP. -/
theorem issueWord_nop {c : CoreIx} {w : DWord} {s : State} (hw : Spelled 0 0 [(0, 8)] w) (hissues : Issues c s) :
    coreOf (issueWord c w s) c = stepPc (atIssue s c) := by
  obtain ⟨hspells, hfs⟩ := hw.spells
  have hlegal : reservedWord w = false := by
    obtain ⟨hcls, hop, -⟩ := hw
    simp [reservedWord, hcls, hop]
  have hexec := (execNop_eq c w s).trans (coreCmd_issues hissues (by rw [hspells, Bool.true_or]) _)
  rw [coreCheck_issuing hissues (by rw [hlegal, hfs]; rfl)] at hexec
  obtain ⟨t, ht, -, hcore⟩ := retired hexec
  have hissue : issueWord c w s = t := by
    unfold issueWord coreRows
    simp only [List.cons_append, List.findSome?_cons, ht]
    rfl
  rw [hissue, hcore]
  rfl

theorem Issues.congr {c : Nat} {s t : State} (h : Issues c s) (hcore : coreOf t c = coreOf s c) (hregs : t.regs = s.regs)
    (hstop : t.stopAll = s.stopAll) : Issues c t := by
  unfold Issues canIssue rd rdi at *
  rw [hcore, hregs, hstop]
  exact h

/-- What the step issues starts from: the core let go past a breakpoint. -/
def letGo (c : Nat) (s : State) : State := modCore c (fun k => { k with dbgStop := false, bpPass := true }) s

/-- DBG_STEP on a stopped core: the word at its pc issued, the core stopped again. -/
theorem dbgStep_stopped {c : CoreIx} {s : State} (hstop : (coreOf s c).dbgStop = true) :
    dbgStep c s = modCore c (fun k => { k with dbgStop := true })
      (issueWord c (mapGet 0#64 (coreOf s c).imem (coreOf s c).seq.pc) (letGo c s)) := by
  rw [dbgStep, hstop]
  rfl

section

variable {p : Path} {c : CoreIx} {s : State} (hreach : Reaches p (pgCore c) s) (hopen : debugOpen s = true)
include hreach hopen

/-- A carried write of DBG_CTRL where debug is open. -/
theorem access_dbgCtrl (v m : Nat) : access p (pgCore c) (writeReg topHook (pgCore c) 0x140 v m) s = dbgWrite c (v &&& m)
    (writeFields (pgCore c) (rd s (pgCore c) R.HEADER_PAGE_LOCK_LOCK == 1) 0x140 v m (answered 0 0 s)) :=
  (access_of_reaches hreach _).trans (writeReg_dbgCtrl (s := answered 0 0 s) hopen v m)

theorem execDbgStop_spec : ∃ t, exec (.dbgStop p c) s = .next t ∧ rd t (pgCore c) R.CORE_DBG_CTRL_STOP = 1 ∧
    coreOf t c = { coreOf s c with dbgStop := true } ∧ ∀ d, d ≠ c.val → coreOf t d = coreOf s d := by
  obtain ⟨x, hx, hset⟩ := writeFields_stop (c := c) (rd s (pgCore c) R.HEADER_PAGE_LOCK_LOCK == 1) (answered 0 0 s)
  obtain ⟨u, hu⟩ : ∃ u, u = wr (pgCore c) R.CORE_DBG_CTRL_STOP x (answered 0 0 s) := ⟨_, rfl⟩
  have hstop : rd u (pgCore c) R.CORE_DBG_CTRL_STOP = 1 := by
    rw [hu]
    exact (rd_wr_self ..).trans hx
  have hcores (d : Nat) : coreOf u d = coreOf s d := by rw [hu]; rfl
  have hdo : dbgWrite c (1 &&& 1) u = modCore c (fun k => { k with dbgStop := true }) u := by
    change modCore c (fun k => { k with dbgStop := rd u (pgCore c) R.CORE_DBG_CTRL_STOP == 1 }) u = _
    rw [hstop]
    rfl
  refine ⟨_, congrArg Host.Outcome.next ((access_dbgCtrl hreach hopen 1 1).trans ((congrArg _ (hset.trans hu.symm)).trans hdo)), ?_, ?_,
    fun d hd => ?_⟩
  · rw [rd_modCore, hstop]
  · rw [coreOf_modCore, hcores]
  · rw [coreOf_modCore_ne hd, hcores]

theorem execDbgResume_spec : ∃ t, exec (.dbgResume p c) s = .next t ∧ rd t (pgCore c) R.CORE_DBG_CTRL_STOP = 0 ∧
    coreOf t c = { coreOf s c with dbgStop := false, bpPass := true } ∧ ∀ d, d ≠ c.val → coreOf t d = coreOf s d := by
  have hset := writeFields_dbgCtrl (c := c) (rd s (pgCore c) R.HEADER_PAGE_LOCK_LOCK == 1) 4 (m := 4) (by decide) (answered 0 0 s)
  have hdo : dbgWrite c (4 &&& 4) (answered 0 0 s) = letGo c (wr (pgCore c) R.CORE_DBG_CTRL_STOP 0 (answered 0 0 s)) := rfl
  refine ⟨_, congrArg Host.Outcome.next ((access_dbgCtrl hreach hopen 4 4).trans ((congrArg _ hset).trans hdo)), ?_, ?_, fun d hd => ?_⟩
  · rw [letGo, rd_modCore, rd_wr_self, Nat.zero_mod]
  · exact coreOf_modCore ..
  · exact coreOf_modCore_ne hd ..

/-- DBG_STEP on a core that STOP holds is the step, from a state that differs in the reply alone. -/
theorem execDbgStep_stopped (hstop : (coreOf s c).dbgStop = true) (hrd : rd s (pgCore c) R.CORE_DBG_CTRL_STOP = 1) :
    ∃ u, exec (.dbgStep p c) s = .next (settled (dbgStep c u)) ∧ coreOf u c = coreOf s c ∧ u.regs = s.regs ∧ u.stopAll = s.stopAll := by
  have hset := writeFields_dbgCtrl (c := c) (rd s (pgCore c) R.HEADER_PAGE_LOCK_LOCK == 1) 2 (m := 2) (by decide) (answered 0 0 s)
  have hix : (Fin.ofNat 8192 c.val : CoreIx) = c := Fin.ext (Nat.mod_eq_of_lt c.isLt)
  have hbit : (bitSet (2 &&& 2) 1 && decide (c.val < 8192)) = true := by
    rw [decide_eq_true c.isLt]
    rfl
  have hctrl : dbgCtrl c (2 &&& 2) (answered 0 0 s) =
      modCore c (fun k => { k with dbgStop := rd s (pgCore c) R.CORE_DBG_CTRL_STOP == 1 }) (answered 0 0 s) := rfl
  have hdo : dbgWrite c (2 &&& 2) (answered 0 0 s) = dbgStep c (dbgCtrl c (2 &&& 2) (answered 0 0 s)) := by
    rw [dbgWrite, if_pos hbit, hix]
  refine ⟨dbgCtrl c (2 &&& 2) (answered 0 0 s),
    congrArg (fun u => Host.Outcome.next (settled u)) ((access_dbgCtrl hreach hopen 2 2).trans ((congrArg _ hset).trans hdo)), ?_, ?_, ?_⟩
  · rw [hctrl, coreOf_modCore, hrd]
    change { coreOf s c with dbgStop := true } = coreOf s c
    rw [← hstop]
  · rw [hctrl]; rfl
  · rw [hctrl]; rfl

end

/-- Settles O20: each is one write of DBG_CTRL, whose effect is `dbgCtrl`, for a step followed by `dbgStep`. -/
theorem debugStopStepResume : Obligations.DebugStopStepResume := by
  unfold Obligations.DebugStopStepResume
  intro p c s hreach hopen
  refine ⟨execDbgStop_spec hreach hopen, execDbgResume_spec hreach hopen, fun hstop hrd => ?_⟩
  obtain ⟨u, hexec, hcore, hregs, hrun⟩ := execDbgStep_stopped hreach hopen hstop hrd
  have hstep := dbgStep_stopped (c := c) (s := u) (by rw [hcore]; exact hstop)
  refine ⟨dbgStep c u, _, hexec, comesTo_settled _, by rw [hstep, coreOf_modCore], fun w hword hw hissues => ?_⟩
  have hgo : coreOf (letGo c u) c = coreOf (modCore c (fun k => { k with dbgStop := false, bpPass := true }) s) c := by
    rw [letGo, coreOf_modCore, hcore, coreOf_modCore]
  have hissues' : Issues c (letGo c u) := hissues.congr hgo hregs hrun
  rw [hstep, hcore, ← hword, coreOf_modCore, issueWord_nop hw hissues']
  change (stepPc (atIssue (letGo c u) c)).seq = _
  rw [atIssue, hgo, coreOf_modCore]
  rfl

end Sys2Proof.Machine
end

section
/-!
SUPPORT. What a neighbour move carries over the canals and into scratch (R99, R513).
-/

namespace Sys2Proof.Machine

/-! ### Writes that arm no injection -/

theorem rd_wr_place_ne {f g : RegField} (hf : fieldPlace f 0 < 1048576) (hg : fieldPlace g 0 < 1048576)
    (hne : fieldPlace g 0 ≠ fieldPlace f 0) (p q : Page) (v : Nat) (s : State) : rd (wr p f v s) q g = rd s q g :=
  rd_wr_ne _ _ _ _ _ _ fun hkey => hne (by rw [← fieldKey_mod hg, ← fieldKey_mod hf, hkey])

theorem injArmed_bump_canal {f : RegField} (hf : f = R.CANAL_BRIDGE_H_BYTES ∨ f = R.CANAL_BRIDGE_V_BYTES) (g p : Page) (d bit : Nat)
    (s : State) : injArmed (bump g f d s) p bit = injArmed s p bit := by
  have hplaces : ∀ e ∈ [R.HEADER_ERR_INJ_ARM, R.HEADER_ERR_INJ_BIT, R.FUSE_CFG_DEBUG_LEVEL, R.SEC_STATUS_DEBUG_UNLOCKED],
      fieldPlace e 0 < 1048576 ∧ fieldPlace e 0 ≠ fieldPlace R.CANAL_BRIDGE_H_BYTES 0 ∧
        fieldPlace e 0 ≠ fieldPlace R.CANAL_BRIDGE_V_BYTES 0 := by decide
  have hrd (e : RegField) (he : e ∈ [R.HEADER_ERR_INJ_ARM, R.HEADER_ERR_INJ_BIT, R.FUSE_CFG_DEBUG_LEVEL, R.SEC_STATUS_DEBUG_UNLOCKED])
      (q : Page) : rd (bump g f d s) q e = rd s q e := by
    obtain ⟨hfit, hne, hne'⟩ := hplaces e he
    obtain rfl | rfl := hf
    · exact rd_wr_place_ne (by decide) hfit hne g q _ s
    · exact rd_wr_place_ne (by decide) hfit hne' g q _ s
  simp only [injArmed, debugOpen, hrd R.HEADER_ERR_INJ_ARM (by simp), hrd R.HEADER_ERR_INJ_BIT (by simp),
    hrd R.FUSE_CFG_DEBUG_LEVEL (by simp), hrd R.SEC_STATUS_DEBUG_UNLOCKED (by simp)]

theorem Uninjected.bridgeBytes {s : State} (h : Uninjected s) (a b n : Nat) : Uninjected (bridgeBytes a b n s) := by
  intro p bit
  unfold Sys2Proof.Machine.bridgeBytes
  extract_lets s1
  have h1 : injArmed s1 p bit = false := by
    unfold s1
    split
    · exact h p bit
    · exact (injArmed_bump_canal (.inl rfl) ..).trans (h p bit)
  split
  · exact h1
  · exact (injArmed_bump_canal (.inr rfl) ..).trans h1

theorem flitCheck_uninjected {s : State} (h : Uninjected s) (b : Nat) (ctx step : Option Nat) : flitCheck b ctx step s = (false, s) := by
  have hquiet (bit : Nat) : checkFor (pgCanal b) bit false s = (false, s) := checkFor_quiet_false (h _ bit)
  simp only [flitCheck, hquiet, Bool.false_eq_true, if_false, Bool.not_false, if_true]

/-- A move over the canals that meets no error leaves every core as it was. -/
theorem canalMove_uninjected {s : State} (h : Uninjected s) (a b n : Nat) (ctx step : Option Nat) :
    ∃ u, canalMove a b n ctx step s = (false, u) ∧ u.cores = s.cores := by
  unfold canalMove
  split
  · exact ⟨s, rfl, rfl⟩
  · exact ⟨_, flitCheck_uninjected (h.bridgeBytes a b n) b ctx step, (offCore_bridgeBytes a b n s).cores⟩

/-! ### Bytes that enter scratch -/

theorem scrWriteMarked_only (a : Nat) (bs : List Nat) (bad : List Bool) (k : Core) : ScratchOnly k (scrWriteMarked a bs bad k) := by
  refine (scrWrite_only a bs false k).trans (foldl_only (fun k i => ?_) _ _)
  split <;> rfl

theorem scrCell_scrWriteMarked (a : Nat) (bs : List Nat) (bad : List Bool) (k : Core) (b : Nat) :
    scrCell (scrWriteMarked a bs bad k) b = if a ≤ b ∧ b < a + bs.length then BitVec.ofNat 8 (bs.getD (b - a) 0) else scrCell k b := by
  rw [← scrCell_scrWrite a bs false]
  refine scrCell_of_scr (foldl_only (fun k i => ?_) _ _) (foldl_scr (fun k i => ?_) _ _) b <;> split <;> rfl

theorem scrCell_entered (a : Nat) (bs : List Nat) (bad : List Bool) (k : Core) (b : Nat) : scrCell (entered a bs bad k) b = scrCell k b := by
  unfold entered
  dsimp only
  split <;> rfl

/-- Bytes read from one scratch and written to another. -/
theorem scrCell_moved (a n sa : Nat) (bad : List Bool) (src k : Core) (b : Nat) :
    scrCell (entered a (scrRead src sa n) bad (scrWriteMarked a (scrRead src sa n) bad k)) b =
      if a ≤ b ∧ b < a + n then scrCell src (sa + (b - a)) else scrCell k b := by
  have hlen : (scrRead src sa n).length = n := by simp [scrRead]
  rw [scrCell_entered, scrCell_scrWriteMarked, hlen]
  split
  · rename_i hin
    rw [List.getD_eq_getElem _ _ (by omega)]
    simp [scrRead]
  · rfl

/-- A push of sound bytes: the peer's scratch written, no other core changed. -/
theorem moveBytes_push {c : Nat} {m : NMove} {s : State} (hpull : m.pull = false)
    (hsound : ∀ x ∈ wordsOf m.loc m.len, mapGet 0 (coreOf s c).scrUpset x = 0) (huninj : Uninjected s) :
    (∀ b, scrCell (coreOf (moveBytes c m s) m.peer) b = if m.remote ≤ b ∧ b < m.remote + m.len then
      scrCell (coreOf s c) (m.loc + (b - m.remote)) else scrCell (coreOf s m.peer) b) ∧
      ∀ d, d ≠ m.peer → coreOf (moveBytes c m s) d = coreOf s d := by
  have hread : scrSecded c m.loc m.len s = (false, s) := scrSecded_sound (fun bit => checkFor_quiet_false (huninj _ bit)) hsound
  obtain ⟨u, hcarried, hcores⟩ : ∃ u, (if dieOfCore c = dieOfCore m.peer then (false, s) else
      canalMove (dieOfCore c) (dieOfCore m.peer) m.len (coreOf s c).ctx (coreStep (coreOf s c)) s) = (false, u) ∧ u.cores = s.cores := by
    split
    · exact ⟨s, rfl, rfl⟩
    · exact canalMove_uninjected huninj ..
  obtain ⟨bad, hmoved⟩ : ∃ bad, moveBytes c m s = modCore m.peer (fun k => entered m.remote (scrRead (coreOf s c) m.loc m.len) bad
      (scrWriteMarked m.remote (scrRead (coreOf s c) m.loc m.len) bad k)) u := by
    simp only [moveBytes, hpull, hread, hcarried, Bool.false_eq_true, if_false]
    exact ⟨_, rfl⟩
  rw [hmoved]
  refine ⟨fun b => ?_, fun d hd => ?_⟩
  · rw [coreOf_modCore, scrCell_moved, coreOf_of_cores hcores]
  · rw [coreOf_modCore_ne hd, coreOf_of_cores hcores]

end Sys2Proof.Machine
end

section
/-!
CERTIFICATE. Core transfers (O12).
-/

namespace Sys2Proof.Machine

theorem engines_countCore (c e d : Nat) (s : State) : (countCore c e d s).engines = s.engines :=
  (countE_frame (pgCore c) e 0 d (coreOf s c).ctx s).eq State.engines fun _ _ => rfl

theorem engOf_retire (c : Nat) (f : Core → Core) (s : State) (e : Nat) : engOf (retire c f s) e = engOf s e := by
  rw [engOf, retire, engines_countCore]
  rfl

theorem engOf_setEng_ne {e e' : Nat} (h : e' ≠ e) (k : Engine) (s : State) : engOf (setEng e k s) e' = engOf s e' :=
  mapGet_set_ne _ _ _ _ _ _ h

/-- A job more at the end of an engine's queue, what the spec leaves open drawn anew. -/
def withJob (e : Nat) (j : BargeJob) (free : Nat) (s : State) : State :=
  { setEng e { engOf s e with jobs := (engOf s e).jobs ++ [j] } s with free := free }

theorem jobs_withJob (e : Nat) (j : BargeJob) (free : Nat) (s : State) : (engOf (withJob e j free s) e).jobs = (engOf s e).jobs ++ [j] :=
  congrArg Engine.jobs (engOf_setEng e _ s)

theorem engOf_withJob_ne {e e' : Nat} (h : e' ≠ e) (j : BargeJob) (free : Nat) (s : State) : engOf (withJob e j free s) e' = engOf s e' :=
  engOf_setEng_ne h _ s

/-- The job that BARGE makes of its descriptor. -/
def bargeJob (c a : Nat) (s : State) : BargeJob :=
  ⟨wordsOfBytes 16 (scrRead (coreOf s c) a 64), coreTag s (coreOf s c), 0, 0, 0, scrPoisoned (coreOf s c) a 64, [], 0, false⟩

/-- A legal BARGE with a named open engine queues its job there and retires. -/
theorem doBarge_issuing {c : CoreIx} {w : DWord} {s : State} {a e : Nat} (hissues : Issues c s) (hfs : onlyFields w [(0, 8), (12, 13)] = true)
    (hag : fld w 17 3 ≠ 7) (hany : fld w 24 1 = 0) (haddr : startAddr (coreOf s c) (fld w 17 3) (fld w 12 5) = (a : Int))
    (halign : a % 64 = 0) (hrange : a + 64 ≤ 0x40000) (hsound : ScratchSound (coreOf s c) a 64) (he : e = dieOfCore c * 16 + fld w 20 4)
    (hopen : engShut s e = false) (hroom : (engOf s e).jobs.length < 32) :
    ∃ free, doBarge c w (issuing s c) = retire c (agUse (fld w 17 3)) (withJob e (bargeJob c a (issuing s c)) free (issuing s c)) := by
  have hstart : startAddr (coreOf (issuing s c) c) (fld w 17 3) (fld w 12 5) = (a : Int) := by rw [coreOf_issuing]; exact haddr
  have haligned : decide ((a : Int) % 64 ≠ 0) = false := decide_eq_false (by omega)
  have hengine : bargeEngine (issuing s c) c w = e := by rw [he]; exact if_pos hany
  obtain ⟨hdrain, hwords⟩ := hsound
  have hunder : underDrain (coreOf (issuing s c) c) a 64 = false := underDrain_none (by rw [coreOf_issuing]; exact hdrain) _ _
  have hread : scrSecded c a 64 (issuing s c) = (false, issuing s c) :=
    scrSecded_sound (check_issuing hissues) (by rw [coreOf_issuing]; exact hwords)
  have htakes : (engShut (issuing s c) e || decide (32 ≤ (engOf (issuing s c) e).jobs.length)) = false := by
    rw [show engShut (issuing s c) e = false from hopen]
    exact decide_eq_false (Nat.not_le.mpr hroom)
  rw [doBarge, coreCheck_issuing hissues (by simp [hfs, hag])]
  dsimp only
  rw [hstart, coreCheck_issuing hissues haligned, coreCheck_issuing hissues (by rw [scrInRange_nat hrange]; rfl), hengine, htakes,
    Int.toNat_natCast, hunder, hread, if_neg Bool.false_ne_true, if_neg Bool.false_ne_true, if_neg Bool.false_ne_true]
  exact ⟨(issuing s c).free + 1, rfl⟩

/-- A legal NMOVE to or from a neighbour of the polder starts where fewer than two run, and retires. -/
theorem doNmove_issuing {c : CoreIx} {w : DWord} {s : State} {peer : Nat} (hissues : Issues c s)
    (hfs : onlyFields w [(0, 11), (12, 4), (16, 46)] = true) (hdir : fld w 12 3 < 4) (hcc : wCc w ≤ (coreOf s c).g)
    (htally : fld w 21 5 = 0) (hpeer : neighbour c (fld w 12 3) = some peer) (hpol : polderOfCore s c = polderOfCore s peer)
    (hlen : 0 < xnat (atIssue s c) (fld w 16 5)) (hmax : xnat (atIssue s c) (fld w 16 5) ≤ 4096)
    (hloc : fld w 26 18 + xnat (atIssue s c) (fld w 16 5) ≤ 0x40000) (hrem : fld w 44 18 + xnat (atIssue s c) (fld w 16 5) ≤ 0x40000)
    (hroom : (atIssue s c).nmoves.length < 2) :
    doNmove c w (issuing s c) = retire c (fun k => { k with nmoves := k.nmoves ++
      [⟨wCc w, fld w 15 1 == 1, peer, xnat (atIssue s c) (fld w 16 5), fld w 26 18, fld w 44 18, none, w.toNat, k.seq.pc⟩] })
      (issuing s c) := by
  have hx : xnat (coreOf (issuing s c) c) (fld w 16 5) = xnat (atIssue s c) (fld w 16 5) := by rw [coreOf_issuing]; rfl
  have hpols : (polderOfCore (issuing s c) c != polderOfCore (issuing s c) peer) = false := by
    rw [show polderOfCore (issuing s c) c = polderOfCore (issuing s c) peer from hpol]
    simp
  have hrange : (!scrInRange (fld w 26 18 : Nat) (xnat (atIssue s c) (fld w 16 5)) ||
      !scrInRange (fld w 44 18 : Nat) (xnat (atIssue s c) (fld w 16 5))) = false := by
    rw [scrInRange_nat hloc, scrInRange_nat hrem]
    rfl
  have hfree : ¬ 2 ≤ (coreOf (issuing s c) c).nmoves.length := by
    rw [coreOf_issuing]
    exact Nat.not_le.mpr hroom
  rw [doNmove, coreCheck_issuing hissues (by simp [hfs, hdir]), heavy_issuing hissues hcc]
  dsimp only
  rw [hx, hpeer, coreCheck_issuing hissues (decide_eq_false (Nat.not_lt.mpr hmax)), Option.isNone_some, coreCheck_issuing hissues rfl,
    Option.getD_some, coreCheck_issuing hissues hpols, coreCheck_issuing hissues hrange, if_pos htally, if_neg hlen.ne', if_neg hfree,
    if_pos htally]

/-- Settles O12: BARGE queues `bargeJob`, NMOVE retires with its move listed, and a completed push is `moveBytes`. -/
theorem coreTransfersStart : Obligations.CoreTransfersStart := by
  unfold Obligations.CoreTransfersStart
  refine ⟨fun c w s a hissues hw hag hany haddr halign hrange hsound => ?_,
    fun c w s peer hissues hw hdir hcc htally hpeer hpol => ?_,
    fun c s m rest hmoves hpull htally hpeer hsound huninj => ?_⟩
  · intro e hopen hroom
    obtain ⟨hspells, hfs⟩ := hw.spells
    have hexec : exec (.barge c w) s = .next (doBarge c w (issuing s c)) := coreCmd_issues hissues hspells _
    obtain ⟨free, hdo⟩ := doBarge_issuing hissues hfs hag hany haddr halign hrange hsound rfl hopen hroom
    rw [hdo] at hexec
    obtain ⟨hcore, -, -⟩ := retire_spec c (agUse (fld w 17 3)) (withJob e (bargeJob c a (issuing s c)) free (issuing s c))
    refine ⟨_, hexec, ?_, ⟨bargeJob c a (issuing s c), ?_, rfl, ?_, ?_⟩, fun e' he' => ?_⟩
    · rw [hcore, ← noWaits_issuing]
      rfl
    · rw [engOf_retire]
      exact jobs_withJob ..
    · rw [bargeJob, coreOf_issuing]
      rfl
    · rw [bargeJob, coreOf_issuing]
      rfl
    · rw [engOf_retire]
      exact engOf_withJob_ne he' ..
  · intro k hlen hmax hloc hrem hroom
    obtain ⟨hspells, hfs⟩ := hw.spells
    have hexec : exec (.nmove c w) s = .next (doNmove c w (issuing s c)) := coreCmd_issues hissues hspells _
    rw [doNmove_issuing hissues hfs hdir hcc htally hpeer hpol hlen hmax hloc hrem hroom] at hexec
    obtain ⟨t, ht, halone, hcore⟩ := retired hexec
    exact ⟨t, ht, halone, hcore⟩
  · obtain ⟨hbytes, hothers⟩ := moveBytes_push (c := c) hpull hsound huninj
    have hexec : exec (.nmoveComplete c true) s =
        .next (modCore c (fun k => { k with nmoves := k.nmoves.eraseIdx 0 }) (moveBytes c m s)) := by
      change Host.Outcome.next (doNmoveComplete c true s) = _
      simp only [doNmoveComplete, hmoves, if_true, List.getElem?_cons_zero, htally]
    refine ⟨_, hexec, ?_, fun b => ?_, fun d hd hdp => ?_⟩
    · rw [coreOf_modCore, hothers c hpeer.symm, hmoves]
      rfl
    · rw [coreOf_modCore_ne hpeer, hbytes]
    · rw [coreOf_modCore_ne hd, hothers d hdp]

end Sys2Proof.Machine
end

section
/-!
SUPPORT. A tally's word in device DRAM, and the wait units that watch it (R94 to R96).
-/

namespace Sys2Proof.Machine

/-! ### An aligned word -/

/-- An aligned word of backed DRAM on a working channel has its eight places (R182). -/
theorem places_of_aligned {s : State} {a : Nat} (halign : a % 8 = 0) (hbacked : backed s a 8 = true)
    (hlive : ∀ q, locate s a = some q → mapGet false s.chDead (q / 2 ^ 31) = false) : Places s a 8 := by
  have hfirst : (locate s (a + 0)).isSome = true := List.all_eq_true.mp hbacked 0 (by simp)
  obtain ⟨q, hq⟩ := Option.isSome_iff_exists.mp hfirst
  obtain ⟨q0, hq0, hoff, -⟩ := locate_blockBase hq
  have hbase := locate_block hq0
  have hplace (i : Nat) (hi : i < 8) : locate s (a + i) = some (q + i) := by
    rw [locate_add s (by omega), show locate s a = some q from hq]
    rfl
  refine ⟨fun i hi => ⟨q + i, hplace i hi, ?_⟩, fun i hi j hj heq => ?_⟩
  · have hch : (q + i) / 2 ^ 31 = q / 2 ^ 31 := by omega
    rw [hch]
    exact hlive q hq
  · rw [hplace i hi, hplace j hj, Option.some.injEq] at heq
    omega

/-! ### The wait units -/

theorem mapGet_map {β : Type} (d : β) {f : β → β} (hd : f d = d) (m : List (Nat × β)) (k : Nat) :
    mapGet d (m.map (fun e => (e.1, f e.2))) k = f (mapGet d m k) := by
  induction m with
  | nil => exact hd.symm
  | cons e m ih =>
    obtain ⟨j, v⟩ := e
    simp only [List.map_cons, mapGet]
    split
    · rfl
    · exact ih

theorem mapFind_map {β : Type} (f : β → β) (m : List (Nat × β)) (k : Nat) :
    mapFind (m.map (fun e => (e.1, f e.2))) k = (mapFind m k).map f := by
  induction m with
  | nil => rfl
  | cons e m ih =>
    obtain ⟨j, v⟩ := e
    simp only [List.map_cons, mapFind]
    split
    · rfl
    · exact ih

/-- A wait unit after a write of `n` bytes from `a`: one whose tally they meet has looked. -/
def looked (a n : Nat) (s : State) (t : TSlot) : TSlot := if t.addr < a + n ∧ a < t.addr + 8 then lookSlot s t else t

theorem coreOf_notifyTally (a n : Nat) (s : State) (c : Nat) :
    coreOf (notifyTally a n s) c = { coreOf s c with slots := (coreOf s c).slots.map (fun e => (e.1, looked a n s e.2)) } := by
  have hupd : (fun e : Nat × TSlot => if decide (e.2.addr < a + n ∧ a < e.2.addr + 8) then (e.1, lookSlot s e.2) else e) =
      fun e => (e.1, looked a n s e.2) := by
    funext e
    unfold looked
    by_cases h : e.2.addr < a + n ∧ a < e.2.addr + 8
    · rw [if_pos (decide_eq_true h), if_pos h]
    · rw [if_neg (by simpa using h), if_neg h]
  have hmap : (notifyTally a n s).cores =
      s.cores.map (fun e => (e.1, { e.2 with slots := e.2.slots.map (fun e => (e.1, looked a n s e.2)) })) := by
    rw [← hupd]
    rfl
  rw [coreOf, hmap]
  exact mapGet_map Core.zero (f := fun k => { k with slots := k.slots.map (fun e => (e.1, looked a n s e.2)) }) rfl s.cores c

/-- A write of device DRAM leaves the cores but for the wait units that watch it. -/
theorem coreOf_dramWrite (a : Nat) (bs : List Nat) (poison : Bool) (s : State) :
    ∃ u, dramWrite a bs poison s = notifyTally a bs.length u ∧ u.cores = s.cores := by
  refine ⟨_, rfl, ?_⟩
  have hput := putBytes_frame bs a s
  have hstep (b : Nat) (t : State) : (countWr a bs.length b (markBlock a bs.length poison b t)).cores = t.cores := by
    have hcount := (counts_countWr a bs.length b (markBlock a bs.length poison b t)).1.eq State.cores fun _ _ => rfl
    exact hcount.trans (congrArg State.cores (markBlock_frame a bs.length poison b t) :)
  refine Eq.trans ?_ (congrArg State.cores hput :)
  exact foldl_keeps (fun t => t.cores = (putBytes a bs s).cores) _ (fun t b ht => (hstep b t).trans ht) _ _ rfl

/-! ### What an event counter leaves -/

theorem offCoreKey_of_page {p : Page} (hp : 2 ≤ clsCode p.cls) (f : RegField) (n : Nat) : offCoreKey (fieldKey p f n) = true := by
  rw [offCoreKey, keyPage, fieldKey_eq_place, pageKey, decide_eq_true_eq]
  omega

/-- A core's event counters place no address. -/
theorem locate_of_isCounter {c : CoreIx} {s t : State} (h : KeepsRegs (isCounter (pgCore c)) s t) (a : Nat) : locate t a = locate s a := by
  have hkey {key : Nat} (hkey : offCoreKey key = true) : isCounter (pgCore c) key = false := by
    rw [Bool.eq_false_iff]
    intro hon
    obtain ⟨i, hi, rfl⟩ : ∃ i < 32, key = fieldKey (pgCore c) R.CORE_EVT_CNT i := by simpa [isCounter, counterRows, pgCore] using hon
    rw [offCoreKey_core c.isLt (counter_rows i hi)] at hkey
    cases hkey
  have hmemc (k : Nat) (f : RegField) (n : Nat) : rdi t (pgMemc k) f n = rdi s (pgMemc k) f n :=
    rdi_of_keepsRegs h (hkey (offCoreKey_of_page (p := pgMemc k) (show 2 ≤ clsCode .memc by decide) f n))
  have hstates : stackStates t = stackStates s := by
    funext k
    have hrd (f : RegField) : rd t (pgMemc k) f = rd s (pgMemc k) f := hmemc k f 0
    simp only [stackStates, hrd]
  have hsect : sectOf t (a / 2 ^ 30) = sectOf s (a / 2 ^ 30) := sectOf_congr fun f _ => hmemc 0 f _
  unfold locate failedMembers
  rw [hsect, hstates]

theorem retire_frame (c : Nat) (f : Core → Core) (s : State) : OnlyRegs (advance c f s) (retire c f s) := countE_frame ..

theorem dramCell_retire (c : Nat) (f : Core → Core) (s : State) (q : Nat) : dramCell (retire c f s) q = dramCell s q :=
  dramCell_congr ((retire_frame c f s).eq State.dram fun _ _ => rfl) ((retire_frame c f s).eq State.dramAny fun _ _ => rfl) q

theorem dramWord_retire (c : CoreIx) (f : Core → Core) (s : State) (a : Nat) : dramWord (retire c f s) a = dramWord s a := by
  obtain ⟨-, -, hregs⟩ := retire_spec c f s
  refine congrArg ofBytes (List.map_congr_left fun i _ => ?_)
  rw [locate_of_isCounter hregs]
  simp only [dramCell_retire]

end Sys2Proof.Machine
end

section
/-!
CERTIFICATE. Tallies (O11).
-/

namespace Sys2Proof.Machine

section

variable {c : CoreIx} {w : DWord} {s : State} {a : Nat} (hissues : Issues c s)
include hissues

/-- An aligned tally in backed DRAM passes its checks. -/
theorem tallyCheck_issuing (halign : a % 8 = 0) (hfit : a < 2 ^ 40) (hbacked : backed s a 8 = true) (ok : State → State) :
    tallyCheck c w a (issuing s c) ok = ok (issuing s c) := by
  rw [tallyCheck, coreCheck_issuing hissues (by rw [tallyAligned, decide_eq_true ⟨halign, hfit⟩]; rfl),
    show backed (issuing s c) a 8 = true from hbacked, if_pos rfl, coreCheck_issuing hissues rfl]

end

/-- A local TADD that retires: the word, the wait units and every other byte (R94). -/
theorem retire_tallyAdd (c : CoreIx) {s : State} {a : Nat} (v : Nat) (hplaces : Places s a 8) :
    let t := retire c id (tallyAdd a v (issuing s c))
    dramWord t a = (dramWord s a + v) % 2 ^ 64 ∧ (coreOf t c).seq = (stepPc (atIssue s c)).seq ∧
      (∀ i x, mapFind (atIssue s c).slots i = some x → x.addr = a →
        mapFind (coreOf t c).slots i = some { x with seen := x.seen || decide (x.thr ≤ (dramWord s a + v) % 2 ^ 64) }) ∧
      ∀ q, (∀ i < 8, locate s (a + i) ≠ some q) → dramCell t q = dramCell s q := by
  obtain ⟨z, hz⟩ : ∃ z, z = (dramWord s a + v) % 2 ^ 64 := ⟨_, rfl⟩
  have hadd : tallyAdd a v (issuing s c) = dramPutWord a z (issuing s c) := by rw [hz]; rfl
  have hstored : Stored a (bytesOf 8 z) (issuing s c) (dramPutWord a z (issuing s c)) :=
    stored_dramWrite (s := issuing s c) (by rw [length_bytesOf]; exact hplaces) false
  have hword : dramWord (dramPutWord a z (issuing s c)) a = z := by
    rw [hstored.dramWord_self (s := issuing s c) hplaces.1, hz, Nat.mod_mod]
  obtain ⟨u, hu, hcores⟩ := coreOf_dramWrite a (bytesOf 8 z) false (issuing s c)
  have hwordu : dramWord u a = z := by
    rw [dramPutWord, hu] at hword
    exact hword
  have hcore : coreOf (dramPutWord a z (issuing s c)) c =
      { coreOf (issuing s c) c with slots := (coreOf (issuing s c) c).slots.map (fun e => (e.1, looked a 8 u e.2)) } := by
    rw [dramPutWord, hu, coreOf_notifyTally, length_bytesOf, coreOf_of_cores hcores]
  obtain ⟨hself, -, -⟩ := retire_spec c id (dramPutWord a z (issuing s c))
  intro t
  have ht : t = retire c id (dramPutWord a z (issuing s c)) := by rw [← hadd]
  rw [ht, ← hz]
  refine ⟨(dramWord_retire ..).trans hword, ?_, fun i x hx hxa => ?_, fun q hq => ?_⟩
  · rw [hself, hcore, coreOf_issuing]
    rfl
  · have hlook : looked a 8 u x = { x with seen := x.seen || decide (x.thr ≤ z) } := by
      rw [looked, if_pos (by omega), lookSlot, hxa, hwordu]
    rw [hself, hcore, coreOf_issuing]
    change mapFind ((coreOf s c).slots.map _) i = _
    rw [mapFind_map, show mapFind (coreOf s c).slots i = some x from hx, ← hlook]
    rfl
  · rw [dramCell_retire, hstored.there q (by rw [length_bytesOf]; exact hq)]
    rfl

theorem satisfy_self {slots : List (Nat × TSlot)} {i : Nat} {x : TSlot} (h : mapFind slots i = some x) (hseen : x.seen = true) :
    mapFind (satisfy slots i) i = some { x with sat := true } := by
  simp [satisfy, h, hseen]

/-- Settles O11: TADD is `retire_tallyAdd`, the other rows retire, and a wait unit's event is `satisfy`. -/
theorem talliesOnTheCore : Obligations.TalliesOnTheCore := by
  unfold Obligations.TalliesOnTheCore
  refine ⟨fun c w s hissues hw hlocal => ?_, fun c w s hissues => ⟨fun hw hfree halign hfit hbacked hunits => ?_,
    fun hw hdone => ?_, fun hw => ?_, fun hw => ?_⟩, fun c i s t0 hslot hseen => ?_, fun n st s t0 hslot hseen => ?_⟩
  · intro k a v halign hfit hbacked hlive
    obtain ⟨hspells, hfs⟩ := hw.spells
    have hexec : exec (.tadd c w) s = .next (doTadd c w (issuing s c)) := coreCmd_issues hissues hspells _
    rw [doTadd, coreCheck_issuing hissues (by rw [hfs]; rfl)] at hexec
    dsimp only at hexec
    rw [if_pos (.inl hlocal), coreOf_issuing] at hexec
    have hdo := hexec.trans (congrArg Host.Outcome.next (tallyCheck_issuing hissues halign hfit hbacked _))
    exact ⟨_, hdo, retire_tallyAdd c v (places_of_aligned halign hbacked hlive)⟩
  · obtain ⟨hspells, hfs⟩ := hw.spells
    have hexec : exec (.tarm c w) s = .next (doTarm c w (issuing s c)) := coreCmd_issues hissues hspells _
    rw [doTarm, coreCheck_issuing hissues (by rw [hfs]; rfl)] at hexec
    dsimp only at hexec
    rw [coreOf_issuing, coreCheck_issuing hissues (by rw [show mapFind (coreOf s c).slots (fld w 12 2) = none from hfree]; rfl)] at hexec
    have hdo := hexec.trans (congrArg Host.Outcome.next (tallyCheck_issuing hissues halign hfit hbacked _))
    have hroom : unitsUsed (issuing s c) (dieOfCore c) < unitsOfDie := hunits
    rw [if_pos hroom] at hdo
    obtain ⟨t, ht, halone, hcore⟩ := retired hdo
    exact ⟨t, ht, halone, hcore⟩
  · obtain ⟨hspells, hfs⟩ := hw.spells
    have hexec : exec (.twait c w) s = .next (doTwait c w (issuing s c)) := coreCmd_issues hissues hspells _
    rw [doTwait, coreCheck_issuing hissues (by rw [hfs]; rfl)] at hexec
    dsimp only at hexec
    have hsub : satSubset (coreOf (issuing s c) c) (fld w 12 4) = satSubset (atIssue s c) (fld w 12 4) := by rw [coreOf_issuing]; rfl
    rw [hsub, if_pos hdone] at hexec
    obtain ⟨t, ht, halone, hcore⟩ := retired hexec
    exact ⟨t, ht, halone, hcore⟩
  · obtain ⟨hspells, hfs⟩ := hw.spells
    have hexec : exec (.tpoll c w) s = .next (doTpoll c w (issuing s c)) := coreCmd_issues hissues hspells _
    rw [doTpoll, coreCheck_issuing hissues (by rw [hfs]; rfl)] at hexec
    obtain ⟨t, ht, halone, hcore⟩ := retired hexec
    exact ⟨t, ht, halone, hcore⟩
  · obtain ⟨hspells, hfs⟩ := hw.spells
    have hexec : exec (.tcancel c w) s = .next (doTcancel c w (issuing s c)) := coreCmd_issues hissues hspells _
    rw [doTcancel, coreCheck_issuing hissues (by rw [hfs]; rfl)] at hexec
    obtain ⟨t, ht, halone, hcore⟩ := retired hexec
    exact ⟨t, ht, halone, hcore⟩
  · have hexec : exec (.tallySatisfied (.core c i)) s = .next (modCore c (fun k => { k with slots := satisfy k.slots i }) s) := rfl
    refine ⟨_, hexec, ?_, fun j hj => ?_, fun d hd => coreOf_modCore_ne hd _ s, rfl⟩
    · rw [coreOf_modCore]
      exact satisfy_self hslot hseen
    · rw [coreOf_modCore]
      simp [satisfy, hslot, hseen, mapFind_put_ne _ _ _ _ hj]
  · exact ⟨_, rfl, satisfy_self hslot hseen, rfl⟩

end Sys2Proof.Machine
end

section
/-!
SUPPORT. Sluices and their ledgers (R90, R371 to R377).
-/

namespace Sys2Proof.Machine

/-! ### What a sluice keeps -/

theorem sluiceOf_of_sluices {s t : State} (h : t.sluices = s.sluices) (r : Nat) : sluiceOf t r = sluiceOf s r := by
  rw [sluiceOf, h, sluiceOf]

theorem sluiceOf_setSluice_ne {r k : Nat} (h : k ≠ r) (x : Sluice) (s : State) : sluiceOf (setSluice r x s) k = sluiceOf s k :=
  mapGet_set_ne _ _ _ _ _ _ h

theorem sluices_countCore (c e d : Nat) (s : State) : (countCore c e d s).sluices = s.sluices :=
  (countE_frame (pgCore c) e 0 d (coreOf s c).ctx s).eq State.sluices fun _ _ => rfl

theorem sluiceOf_retire (c : Nat) (f : Core → Core) (s : State) (r : Nat) : sluiceOf (retire c f s) r = sluiceOf s r :=
  sluiceOf_of_sluices (sluices_countCore c 1 1 (Sys2Proof.Machine.advance c f s)) r

theorem sluiceOf_modCore (c : Nat) (f : Core → Core) (s : State) (r : Nat) : sluiceOf (modCore c f s) r = sluiceOf s r := rfl

/-- The tick is no register of a core. -/
theorem tickOf_countCore (c : CoreIx) (e d : Nat) (s : State) : tickOf (countCore c e d s) = tickOf s := by
  refine rd_of_keepsRegs (countE_keeps (pgCore c) e 0 d (coreOf s c).ctx s (on := fun key => !offCoreKey key) fun sel cnt n hc i hi => ?_) ?_
  · obtain ⟨-, rfl, rfl⟩ : R.CORE_EVT_SEL = sel ∧ R.CORE_EVT_CNT = cnt ∧ 32 = n := by
      simpa only [Option.some.injEq, Prod.mk.injEq] using (show some (R.CORE_EVT_SEL, R.CORE_EVT_CNT, 32) = some (sel, cnt, n) from hc)
    rw [offCoreKey_core c.isLt (counter_rows i hi)]
    rfl
  · rw [offCoreKey_of_page (by decide)]
    rfl

/-! ### Requests and releases -/

theorem mem_bookInsert_self (a : BookReq) (l : List BookReq) : a ∈ bookInsert a l := by
  induction l with
  | nil => exact List.mem_cons_self
  | cons b l ih =>
    rw [bookInsert]
    split
    · exact List.mem_cons_self
    · exact List.mem_cons_of_mem b ih

/-- A request waits from when it is made. -/
theorem mem_waiting_askSluice (r : Nat) (eng : Bool) (who cls : Nat) (s : State) :
    ⟨tickOf s, eng, who, cls⟩ ∈ (sluiceOf (askSluice r eng who cls s) r).waiting := by
  rw [askSluice, sluiceOf_setSluice]
  exact mem_bookInsert_self ..

/-- A booking lowered sends its release. -/
theorem releases_lowerCore {c cls : Nat} {s : State} (h : (coreOf s c).g ≠ cls) :
    (sluiceOf (lowerCore c cls s) (regionOfCore c)).releases =
      (sluiceOf s (regionOfCore c)).releases ++ [⟨tickOf s, false, c, cls⟩] := by
  unfold lowerCore
  extract_lets k s1 s2
  have h1 : (sluiceOf s1 (regionOfCore c)).releases = (sluiceOf s (regionOfCore c)).releases ∧ tickOf s1 = tickOf s := by
    unfold s1
    split
    · exact ⟨by rw [withdrawAsk, sluiceOf_setSluice], rfl⟩
    · exact ⟨rfl, rfl⟩
  have h2 : s2 = sendRelease (regionOfCore c) false c cls s1 := if_pos h
  rw [sluiceOf_modCore, h2, sendRelease, sluiceOf_setSluice, h1.1, h1.2]

/-! ### The ledger -/

/-- The class at which a sluice has a core or an engine. -/
def clsIn (k : Sluice) (eng : Bool) (who : Nat) : Nat := mapGet 0 (if eng then k.engCls else k.coreCls) who

theorem ledgerCls_eq (s : State) (r : Nat) (eng : Bool) (who : Nat) : ledgerCls s r eng who = clsIn (sluiceOf s r) eng who := rfl

/-- A sluice with a booking entered. -/
def booked (q : BookReq) (k : Sluice) : Sluice :=
  if q.eng then { k with engCls := mapSet 0 k.engCls q.who q.cls } else { k with coreCls := mapSet 0 k.coreCls q.who q.cls }

theorem sluiceOf_ledgerSet (r : Nat) (q : BookReq) (s : State) : sluiceOf (ledgerSet r q s) r = booked q (sluiceOf s r) :=
  sluiceOf_setSluice ..

theorem booked_lists (q : BookReq) (k : Sluice) :
    (booked q k).waiting = k.waiting ∧ (booked q k).releases = k.releases ∧ (booked q k).bucket = k.bucket := by
  unfold booked
  split <;> exact ⟨rfl, rfl, rfl⟩

theorem clsIn_booked_self (q : BookReq) (k : Sluice) : clsIn (booked q k) q.eng q.who = q.cls := by
  unfold booked
  split
  · rename_i h
    rw [clsIn, h]
    exact mapGet_set_self ..
  · rename_i h
    rw [clsIn, if_neg h]
    exact mapGet_set_self ..

/-- Every other asker is booked as before. -/
theorem clsIn_booked_ne {q : BookReq} {k : Sluice} {e : Bool} {w : Nat} (h : (e, w) ≠ (q.eng, q.who)) :
    clsIn (booked q k) e w = clsIn k e w := by
  have hwho : e = q.eng → w ≠ q.who := fun he hw => h (by rw [he, hw])
  unfold booked clsIn
  cases hq : q.eng <;> cases e
  · exact mapGet_set_ne _ _ _ _ _ _ (hwho hq.symm)
  · rfl
  · rfl
  · exact mapGet_set_ne _ _ _ _ _ _ (hwho hq.symm)

/-! The tests of R373 read registers and their own sluice. -/

theorem rdi_of_regs {s t : State} (h : t.regs = s.regs) : rdi t = rdi s := by
  funext p f n
  rw [rdi, h, rdi]

theorem coreCal_congr {s t : State} (h : t.regs = s.regs) : coreCal t = coreCal s := by
  funext r c
  rw [coreCal, rdi_of_regs h, coreCal]

theorem engCal_congr {s t : State} (h : t.regs = s.regs) : engCal t = engCal s := by
  funext r c
  rw [engCal, rdi_of_regs h, engCal]

theorem vOf_congr {s t : State} (h : t.regs = s.regs) : vOf t = vOf s := by
  funext d
  rw [vOf, rdi_of_regs h, vOf]

theorem kOf_congr {s t : State} (h : t.regs = s.regs) : kOf t = kOf s := by
  funext r
  rw [kOf, rd_of_regs h, kOf]

theorem admitLimit_congr {s t : State} (h : t.regs = s.regs) : admitLimit t = admitLimit s := by
  funext r
  rw [admitLimit, budgetOf, rd_of_regs h, rd_of_regs h, admitLimit, budgetOf]

theorem hinted_congr {r : Nat} {s t : State} (h : sluiceOf t r = sluiceOf s r) (q : BookReq) : hinted t r q = hinted s r q := by
  rw [hinted, h, hinted]

section

variable {r : Nat} {s t : State} (hregs : t.regs = s.regs) (hsluice : sluiceOf t r = sluiceOf s r)
include hregs hsluice

theorem deltaCal_congr (q : BookReq) : deltaCal t r q = deltaCal s r q := by
  rw [deltaCal, ledgerCls, hsluice, coreCal_congr hregs, engCal_congr hregs]
  rfl

theorem deltaUa_congr (q : BookReq) : deltaUa t r q = deltaUa s r q := by
  rw [deltaUa, deltaCal_congr hregs hsluice, kOf_congr hregs, vOf_congr hregs, deltaUa]

theorem ledgerCal_congr : ledgerCal t r = ledgerCal s r := by
  rw [ledgerCal, hsluice, coreCal_congr hregs, engCal_congr hregs]
  rfl

theorem reserveCal_congr (but : Option Nat) : reserveCal t r but = reserveCal s r but := by
  unfold reserveCal ledgerCls
  rw [hsluice, coreCal_congr hregs]

theorem reserveAt_congr (k : Nat) (but : Option Nat) : reserveAt t r k but = reserveAt s r k but := by
  rw [reserveAt, reserveCal_congr hregs hsluice, ledgerCal_congr hregs hsluice, vOf_congr hregs, admitLimit_congr hregs]
  rfl

theorem budgetFits_congr (k : Nat) (q : BookReq) : budgetFits t r k q = budgetFits s r k q := by
  rw [budgetFits, reserveAt_congr hregs hsluice, hinted_congr hsluice, ledgerCal_congr hregs hsluice, deltaCal_congr hregs hsluice,
    vOf_congr hregs, admitLimit_congr hregs]
  rfl

theorem rampFits_congr (q : BookReq) : rampFits t r q = rampFits s r q := by
  rw [rampFits, hinted_congr hsluice, deltaUa_congr hregs hsluice, hsluice, rampFits]

end

/-- A head without a release of its own on the way finds the sluice as it is. -/
theorem releasesOf_none {r : Nat} {q : BookReq} {s : State} (h : ∀ b ∈ (sluiceOf s r).releases, b.eng ≠ q.eng ∨ b.who ≠ q.who) :
    releasesOf r q s = setSluice r (sluiceOf s r) s := by
  have hown (b : BookReq) (hb : b ∈ (sluiceOf s r).releases) : (b.eng == q.eng && b.who == q.who) = false := by
    obtain hne | hne := h b hb <;> simp [hne]
  have hnone : (sluiceOf s r).releases.filter (fun b => b.eng == q.eng && b.who == q.who) = [] :=
    List.filter_eq_nil_iff.mpr fun b hb => by rw [hown b hb]; exact Bool.false_ne_true
  have hall : (sluiceOf s r).releases.filter (fun b => !(b.eng == q.eng && b.who == q.who)) = (sluiceOf s r).releases :=
    List.filter_eq_self.mpr fun b hb => by rw [hown b hb]; rfl
  simp only [releasesOf, hnone, hall, List.foldl_nil]

/-- What a requester sees of its grant. -/
theorem seeGrant_spec (q : BookReq) (s : State) :
    (q.eng = true → (engOf (seeGrant q s) q.who).cls = q.cls ∧ (engOf (seeGrant q s) q.who).ask = 0 ∧ (seeGrant q s).cores = s.cores) ∧
      (q.eng = false → (coreOf (seeGrant q s) q.who).g = q.cls ∧ (coreOf (seeGrant q s) q.who).bookPend = false ∧
        (seeGrant q s).engines = s.engines ∧ ∀ c, c ≠ q.who → coreOf (seeGrant q s) c = coreOf s c) ∧
      (seeGrant q s).sluices = s.sluices := by
  cases hq : q.eng
  · have hsee : seeGrant q s = modCore q.who (fun k => { k with g := q.cls, bookPend := false }) s := by rw [seeGrant, hq]; rfl
    rw [hsee]
    exact ⟨nofun, fun _ => ⟨by rw [coreOf_modCore], by rw [coreOf_modCore], rfl, fun c hc => coreOf_modCore_ne hc _ s⟩, rfl⟩
  · have hsee : seeGrant q s = setEng q.who { engOf s q.who with cls := q.cls, ask := 0 } s := by rw [seeGrant, hq]; rfl
    rw [hsee]
    exact ⟨fun _ => ⟨by rw [engOf_setEng], by rw [engOf_setEng], rfl⟩, nofun, rfl⟩

end Sys2Proof.Machine
end

section
/-!
CERTIFICATE. Bookings (O10).
-/

namespace Sys2Proof.Machine

/-- What a grant at the head of a sluice leaves: the sluice, and what the requester sees. -/
theorem sluiceGrant_fits {r : Nat} {s : State} {q : BookReq} {qs : List BookReq} (hhead : (sluiceOf s r).waiting = q :: qs)
    (hrun : s.stopAll = false) (hnone : ∀ b ∈ (sluiceOf s r).releases, b.eng ≠ q.eng ∨ b.who ≠ q.who)
    (hbudget : budgetFits s r (kOf s r) q = true) (hramp : rampFits s r q = true) :
    ∃ u v, sluiceGrant r s = v ∧ OnlyRegs (seeGrant q u) v ∧ u.cores = s.cores ∧ u.engines = s.engines ∧
      sluiceOf u r = booked q { sluiceOf s r with
        waiting := qs, bucket := (sluiceOf s r).bucket - (if hinted s r q then 0 else deltaUa s r q) } := by
  obtain ⟨s1, hs1⟩ : ∃ s1, s1 = setSluice r (sluiceOf s r) s := ⟨_, rfl⟩
  have hsluice : sluiceOf s1 r = sluiceOf s r := by rw [hs1, sluiceOf_setSluice]
  have hregs : s1.regs = s.regs := by rw [hs1]; rfl
  have hk : kOf s1 r = kOf s r := by rw [kOf_congr hregs]
  have hgo : ¬ (s.stopAll = true ∨ (!budgetFits s1 r (kOf s1 r) q) = true ∨ (!rampFits s1 r q) = true) := by
    rw [hk, budgetFits_congr hregs hsluice, rampFits_congr hregs hsluice, hrun, hbudget, hramp]
    simp
  refine ⟨ledgerSet r q (setSluice r { sluiceOf s1 r with
    waiting := qs, bucket := (sluiceOf s1 r).bucket - (if hinted s1 r q then 0 else deltaUa s1 r q) } s1), _, rfl, ?_, ?_, ?_, ?_⟩
  · rw [sluiceGrant, hhead]
    dsimp only
    rw [releasesOf_none hnone, ← hs1, if_neg hgo]
    exact countE_frame ..
  · rw [hs1]; rfl
  · rw [hs1]; rfl
  · rw [sluiceOf_ledgerSet, sluiceOf_setSluice, hsluice, hinted_congr hsluice, deltaUa_congr hregs hsluice]

/-- A head that does not fit waits. -/
theorem sluiceGrant_waits {r : Nat} {s : State} {q : BookReq} {qs : List BookReq} (hhead : (sluiceOf s r).waiting = q :: qs)
    (hnone : ∀ b ∈ (sluiceOf s r).releases, b.eng ≠ q.eng ∨ b.who ≠ q.who)
    (hunfit : budgetFits s r (kOf s r) q = false ∨ rampFits s r q = false) : sluiceGrant r s = s := by
  obtain ⟨s1, hs1⟩ : ∃ s1, s1 = setSluice r (sluiceOf s r) s := ⟨_, rfl⟩
  have hsluice : sluiceOf s1 r = sluiceOf s r := by rw [hs1, sluiceOf_setSluice]
  have hregs : s1.regs = s.regs := by rw [hs1]; rfl
  have hk : kOf s1 r = kOf s r := by rw [kOf_congr hregs]
  have hstay : s.stopAll = true ∨ (!budgetFits s1 r (kOf s1 r) q) = true ∨ (!rampFits s1 r q) = true := by
    rw [hk, budgetFits_congr hregs hsluice, rampFits_congr hregs hsluice]
    obtain h | h := hunfit
    · exact .inr (.inl (by rw [h]; rfl))
    · exact .inr (.inr (by rw [h]; rfl))
  rw [sluiceGrant, hhead]
  dsimp only
  rw [releasesOf_none hnone, ← hs1, if_pos hstay]

/-- HEAVY's hint in its region's sluice. -/
theorem putHint_spec (c cls dur lead : Nat) (s : State) :
    (putHint c cls dur lead s).cores = s.cores ∧ (sluiceOf (putHint c cls dur lead s) (regionOfCore c)).hints =
      (sluiceOf s (regionOfCore c)).hints.filter (fun h => h.core != c) ++ (if dur = 0 then [] else
        [⟨c, cls, tickOf s + (lead - 20) * 100, tickOf s + max lead 20 * 100, tickOf s + max lead 20 * 100 + dur * 100, false, false⟩]) := by
  refine ⟨rfl, (congrArg Sluice.hints (sluiceOf_setSluice ..)).trans ?_⟩
  dsimp only
  split
  · exact (List.append_nil _).symm
  · rfl

section

variable {c : CoreIx} {w : DWord} {s : State} (hissues : Issues c s)
include hissues

/-- BOOK of a lower class: its release sets out. -/
theorem book_lowers (hw : Spelled 9 0 [(0, 8), (12, 4)] w) (hlow : fld w 12 3 < (coreOf s c).g)
    (hfree : heavyAbove (coreOf s c) (fld w 12 3) = false) :
    ∃ t, exec (.book c w) s = .next t ∧ (coreOf t c).g = fld w 12 3 ∧ (coreOf t c).bookPend = false ∧
      (coreOf t c).seq = (stepPc (coreOf s c)).seq ∧
      (sluiceOf t (regionOfCore c)).releases = (sluiceOf s (regionOfCore c)).releases ++ [⟨tickOf s, false, c, fld w 12 3⟩] := by
  obtain ⟨hspells, hfs⟩ := hw.spells
  have hexec : exec (.book c w) s = .next (doBook c w (issuing s c)) := coreCmd_issues hissues hspells _
  rw [doBook, coreCheck_issuing hissues (by rw [hfs]; rfl)] at hexec
  have hg : (coreOf (issuing s c) c).g = (coreOf s c).g := by rw [coreOf_issuing]
  have hheavy : ¬ (fld w 12 3 < (coreOf (issuing s c) c).g ∧ heavyAbove (coreOf (issuing s c) c) (fld w 12 3) = true) := by
    rw [coreOf_issuing, show heavyAbove { coreOf s c with bpPass := false } (fld w 12 3) = false from hfree]
    simp
  dsimp only at hexec
  rw [if_pos (by omega), if_neg hheavy] at hexec
  obtain ⟨hself, -, -⟩ := retire_spec c (fun k => { k with req := fld w 12 3 }) (lowerCore c (fld w 12 3) (issuing s c))
  rw [coreOf_lowerCore, coreOf_issuing] at hself
  refine ⟨_, hexec, by rw [hself]; rfl, by rw [hself]; rfl, by rw [hself]; rfl, ?_⟩
  rw [sluiceOf_retire, releases_lowerCore (by omega)]
  rfl

/-- BOOK of a higher class: its request waits at the sluice, and the core too where WAIT is 1. -/
theorem book_asks (hw : Spelled 9 0 [(0, 8), (12, 4)] w) (hhigh : (coreOf s c).g < fld w 12 3) (hasked : (coreOf s c).bookPend = false) :
    ∃ t, exec (.book c w) s = .next t ∧ (coreOf t c).g = (coreOf s c).g ∧ (coreOf t c).bookPend = true ∧
      (coreOf t c).req = fld w 12 3 ∧ ⟨tickOf s, false, c, fld w 12 3⟩ ∈ (sluiceOf t (regionOfCore c)).waiting ∧
      (coreOf t c).seq = (if fld w 15 1 = 1 then (coreOf s c).seq else (stepPc (coreOf s c)).seq) ∧
      (coreOf t c).waitBook = decide (fld w 15 1 = 1) := by
  obtain ⟨hspells, hfs⟩ := hw.spells
  have hexec : exec (.book c w) s = .next (doBook c w (issuing s c)) := coreCmd_issues hissues hspells _
  rw [doBook, coreCheck_issuing hissues (by rw [hfs]; rfl)] at hexec
  have hg : (coreOf (issuing s c) c).g = (coreOf s c).g := by rw [coreOf_issuing]
  have hnew : ¬ ((coreOf (issuing s c) c).bookPend = true ∧ (coreOf (issuing s c) c).req = fld w 12 3) := by
    rw [coreOf_issuing, hasked]
    simp
  have hcore : coreOf (modCore c (fun k => { k with req := fld w 12 3, bookPend := true })
      (askSluice (regionOfCore c) false c (fld w 12 3) (issuing s c))) c =
      { coreOf s c with bpPass := false, req := fld w 12 3, bookPend := true } := by
    rw [coreOf_modCore]
    exact congrArg (fun k : Core => { k with req := fld w 12 3, bookPend := true }) (coreOf_issuing s c)
  have hwaits := mem_waiting_askSluice (regionOfCore c) false c (fld w 12 3) (issuing s c)
  dsimp only at hexec
  rw [if_neg (by omega), if_neg hnew] at hexec
  by_cases hwait : fld w 15 1 = 1
  · rw [if_pos hwait, holdIssue] at hexec
    rw [if_pos hwait, decide_eq_true hwait]
    refine ⟨_, hexec, ?_, ?_, ?_, hwaits, ?_, ?_⟩ <;> rw [coreOf_modCore, hcore] <;> rfl
  · rw [if_neg hwait] at hexec
    rw [if_neg hwait, decide_eq_false hwait]
    obtain ⟨hself, -, -⟩ := retire_spec c id (modCore c (fun k => { k with req := fld w 12 3, bookPend := true })
      (askSluice (regionOfCore c) false c (fld w 12 3) (issuing s c)))
    rw [hcore] at hself
    refine ⟨_, hexec, by rw [hself]; rfl, by rw [hself]; rfl, by rw [hself]; rfl, ?_, by rw [hself]; rfl, by rw [hself]; rfl⟩
    rw [sluiceOf_retire]
    exact hwaits

/-- HEAVY retires with its hint in the sluice. -/
theorem heavy_hints (hw : Spelled 8 0 [(0, 8), (12, 35)] w) :
    ∃ t, exec (.heavy c w) s = .next t ∧ coreOf t c = stepPc (atIssue s c) ∧ (sluiceOf t (regionOfCore c)).hints =
      (sluiceOf s (regionOfCore c)).hints.filter (fun h => h.core != c.val) ++ (if fld w 15 16 = 0 then [] else
        [⟨c, fld w 12 3, tickOf s + (fld w 31 16 - 20) * 100, tickOf s + max (fld w 31 16) 20 * 100,
          tickOf s + max (fld w 31 16) 20 * 100 + fld w 15 16 * 100, false, false⟩]) := by
  obtain ⟨hspells, hfs⟩ := hw.spells
  have hexec : exec (.heavy c w) s = .next (doHeavy c w (issuing s c)) := coreCmd_issues hissues hspells _
  rw [doHeavy, coreCheck_issuing hissues (by rw [hfs]; rfl)] at hexec
  obtain ⟨u, hu, hcores, hsluices, htick⟩ : ∃ u, u = (if fld w 31 16 < 20 then countCore c 0x09 1 (issuing s c) else issuing s c) ∧
      u.cores = (issuing s c).cores ∧ u.sluices = s.sluices ∧ tickOf u = tickOf s := by
    refine ⟨_, rfl, ?_⟩
    split
    · exact ⟨cores_countCore .., sluices_countCore .., tickOf_countCore ..⟩
    · exact ⟨rfl, rfl, rfl⟩
  dsimp only at hexec
  rw [← hu] at hexec
  obtain ⟨hput, hhints⟩ := putHint_spec c (fld w 12 3) (fld w 15 16) (fld w 31 16) u
  obtain ⟨hself, -, -⟩ := retire_spec c id (putHint c (fld w 12 3) (fld w 15 16) (fld w 31 16) u)
  refine ⟨_, hexec, ?_, ?_⟩
  · rw [hself, coreOf_of_cores (hput.trans hcores), noWaits_issuing]
    rfl
  · rw [sluiceOf_retire, hhints, htick, sluiceOf_of_sluices hsluices]

end

/-- A grant: the sluice's queue and bucket, its ledger, and what the requester sees. -/
theorem sluiceGrant_grants {r : Nat} {s : State} {q : BookReq} {qs : List BookReq} (hhead : (sluiceOf s r).waiting = q :: qs)
    (hrun : s.stopAll = false) (hnone : ∀ b ∈ (sluiceOf s r).releases, b.eng ≠ q.eng ∨ b.who ≠ q.who)
    (hbudget : budgetFits s r (kOf s r) q = true) (hramp : rampFits s r q = true) :
    let t := sluiceGrant r s
    (sluiceOf t r).waiting = qs ∧ ledgerCls t r q.eng q.who = q.cls ∧
      (sluiceOf t r).bucket = (sluiceOf s r).bucket - (if hinted s r q then 0 else deltaUa s r q) ∧
      (q.eng = true → (engOf t q.who).cls = q.cls ∧ (engOf t q.who).ask = 0 ∧ t.cores = s.cores) ∧
      (q.eng = false → (coreOf t q.who).g = q.cls ∧ (coreOf t q.who).bookPend = false ∧ t.engines = s.engines ∧
        ∀ c, c ≠ q.who → coreOf t c = coreOf s c) ∧
      (∀ (e : Bool) (w : Nat), (e, w) ≠ (q.eng, q.who) → ledgerCls t r e w = ledgerCls s r e w) := by
  obtain ⟨u, t, ht, hframe, hcores, hengs, hsluice⟩ := sluiceGrant_fits hhead hrun hnone hbudget hramp
  obtain ⟨heng, hcore, hsee⟩ := seeGrant_spec q u
  have htcores : t.cores = (seeGrant q u).cores := hframe.eq State.cores fun _ _ => rfl
  have htengs : t.engines = (seeGrant q u).engines := hframe.eq State.engines fun _ _ => rfl
  have htsluice : sluiceOf t r = _ := (sluiceOf_of_sluices ((hframe.eq State.sluices fun _ _ => rfl).trans hsee) r).trans hsluice
  obtain ⟨hwaiting, -, hbucket⟩ := booked_lists q { sluiceOf s r with
    waiting := qs, bucket := (sluiceOf s r).bucket - (if hinted s r q then 0 else deltaUa s r q) }
  dsimp only
  rw [ht]
  refine ⟨by rw [htsluice, hwaiting], ?_, by rw [htsluice, hbucket], fun hq => ?_, fun hq => ?_, fun e w hne => ?_⟩
  · rw [ledgerCls_eq, htsluice, clsIn_booked_self]
  · obtain ⟨hcls, hask, hsame⟩ := heng hq
    rw [engOf, htengs]
    exact ⟨hcls, hask, htcores.trans (hsame.trans hcores)⟩
  · obtain ⟨hgr, hpend, hsame, hothers⟩ := hcore hq
    rw [coreOf_of_cores htcores]
    exact ⟨hgr, hpend, htengs.trans (hsame.trans hengs), fun c hc => by
      rw [coreOf_of_cores htcores, hothers c hc, coreOf_of_cores hcores]⟩
  · rw [ledgerCls_eq, htsluice, clsIn_booked_ne hne]
    rfl

/-- A release that arrives is entered in the ledger. -/
theorem bookRelease_spec {r : Nat} {s : State} {q : BookReq} {qs : List BookReq} (hhead : (sluiceOf s r).releases = q :: qs) :
    let t := bookRelease r s
    (sluiceOf t r).releases = qs ∧ ledgerCls t r q.eng q.who = q.cls ∧ (sluiceOf t r).waiting = (sluiceOf s r).waiting ∧
      (∀ (e : Bool) (w : Nat), (e, w) ≠ (q.eng, q.who) → ledgerCls t r e w = ledgerCls s r e w) ∧
      (∀ k : Nat, k ≠ r → sluiceOf t k = sluiceOf s k) ∧ { t with sluices := s.sluices } = s := by
  have hdo : bookRelease r s = ledgerSet r q (setSluice r { sluiceOf s r with releases := qs } s) := by rw [bookRelease, hhead]
  have hsluice := sluiceOf_ledgerSet r q (setSluice r { sluiceOf s r with releases := qs } s)
  rw [sluiceOf_setSluice] at hsluice
  obtain ⟨hwaiting, hreleases, -⟩ := booked_lists q { sluiceOf s r with releases := qs }
  dsimp only
  rw [hdo]
  refine ⟨by rw [hsluice, hreleases], ?_, by rw [hsluice, hwaiting], fun e w hne => ?_, fun k hk => ?_, rfl⟩
  · rw [ledgerCls_eq, hsluice, clsIn_booked_self]
  · rw [ledgerCls_eq, hsluice, clsIn_booked_ne hne]
    rfl
  · exact (sluiceOf_setSluice_ne hk _ _).trans (sluiceOf_setSluice_ne hk _ s)

theorem hints_hintArm {c i : Nat} {s : State} {h : Hint} (hi : (sluiceOf s (regionOfCore c)).hints[i]? = some h) :
    (sluiceOf (hintArm c s) (regionOfCore c)).hints[i]? = some { h with armed := h.armed || decide (h.core = c) } := by
  rw [hintArm, sluiceOf_setSluice]
  refine (List.getElem?_map ..).trans ?_
  rw [hi]
  by_cases hc : h.core = c <;> simp [hc]

theorem mem_hints_hintExpire {c : Nat} {s : State} {h : Hint} : h ∈ (sluiceOf (hintExpire c s) (regionOfCore c)).hints ↔
    h ∈ (sluiceOf s (regionOfCore c)).hints ∧ ¬ (h.core = c ∧ h.armed = true) := by
  rw [hintExpire, sluiceOf_setSluice]
  refine List.mem_filter.trans (and_congr_right fun _ => ?_)
  simpa using imp_iff_not_or.symm

/-- Settles O10: BOOK is `lowerCore` or `askSluice`, HEAVY `putHint`, and the sluice's events are `sluiceGrant`, `bookRelease`,
`hintArm` and `hintExpire`. -/
theorem bookingsAreAskedAndGranted : Obligations.BookingsAreAskedAndGranted := by
  unfold Obligations.BookingsAreAskedAndGranted
  refine ⟨fun c w s hissues => ⟨fun hw => ⟨book_lowers hissues hw, book_asks hissues hw⟩, heavy_hints hissues⟩,
    fun r s q qs hhead hrun hnone => ?_, fun r s q qs hhead => ⟨_, rfl, bookRelease_spec hhead⟩, fun c s => ?_⟩
  · intro v h fits
    refine ⟨fun hbudget hramp => ?_, fun hunfit => congrArg Host.Outcome.next (sluiceGrant_waits hhead hnone ?_)⟩
    · exact ⟨_, rfl, sluiceGrant_grants hhead hrun hnone hbudget (by simpa [rampFits] using hramp)⟩
    · obtain hbudget | ⟨hhint, hshort⟩ := hunfit
      · exact .inl hbudget
      · exact .inr (by rw [rampFits, hhint, decide_eq_false (Nat.not_le.mpr hshort)]; rfl)
  · refine ⟨⟨hintArm c s, rfl, rfl, ?_, fun i h hi => hints_hintArm hi⟩, ⟨hintExpire c s, rfl, rfl, fun h => mem_hints_hintExpire, ?_⟩⟩
    · rw [hintArm, sluiceOf_setSluice]
      exact List.length_map ..
    · rw [hintExpire, sluiceOf_setSluice]

end Sys2Proof.Machine
end
